-- ==== Sys2Proof/Word.lean ====
section
/-! DEFINITION. The word types of the Ihlyth and the plain operand types that the commands of Syntax.lean carry:
references to beads, hands and brushes, and the closed sets of names that a command chooses from. -/

namespace Sys2Proof

/-- A byte. -/
abbrev W8 := BitVec 8
/-- A halfword. -/
abbrev W16 := BitVec 16
/-- A control-space register word (R401). -/
abbrev W32 := BitVec 32
/-- The width of ACC (R63 ff., *Scalar state per hand*). -/
abbrev W64 := BitVec 64
/-- One row of a tile, one vector unit and one fabric beat (R122, R219). -/
abbrev Row := BitVec 512

/-- A bead, by Slate and logical bead index (R399). -/
structure BeadRef where
  slate : Fin 4
  bead : Fin 256
deriving DecidableEq, Repr

/-- A hand of a bead (R64). -/
structure HandRef where
  br : BeadRef
  hand : Fin 4
deriving DecidableEq, Repr

/-- A brush of a Slate (R168). -/
structure BrushRef where
  slate : Fin 4
  brush : Fin 6
deriving DecidableEq, Repr

/-- The two index registers an A-slot glyph may name (R106). -/
inductive XReg
  | x0 | x1
deriving DecidableEq, Repr

/-- Who makes a control-space access: the PF's BAR0 view or the JTAG port, both judged under R369 and R370;
or the firmware (Scribes and Slate controllers), which R370 exempts. -/
inductive Path
  | bar0 | jtag | firmware
deriving DecidableEq, Repr

/-- What a control-space access of one word names: a register by its offset, or context data that the spec gives no offset
for (R56, R369; log 177): the sum or error term of an accumulator cell, by its place in the nib or brush, or a word of a tile
row, whose word 16 is its scale word. -/
inductive CtlPlace
  | addr (a : BitVec 30)
  | nibCell (b : BeadRef) (n : Fin 4096) (e : Bool)
  | brushCell (k : BrushRef) (n : BitVec 20) (e : Bool)
  | tileWord (b : BeadRef) (t : Fin 8) (row : Fin 32) (w : Fin 17)
deriving DecidableEq, Repr

/-- What REGISTER_WRITE writes: control space by a path; a register of a function's well page, by its offset in BAR0 (R311,
R317); a word of its BAR4 (R311, R312); or one of the PCI Express registers that R309 and R334 speak of: the size of BAR2, as
the logarithm of its bytes, the power state, the AER status, and VF Enable. -/
inductive RegPlace
  | ctl (p : Path) (a : CtlPlace)
  | well (fn : Fin 16) (off : W16)
  | bar4 (fn : Fin 16) (off : W16)
  | bar2Size (fn : Fin 16)
  | power (fn : Fin 16)
  | aer (fn : Fin 16)
  | vfEnable
deriving DecidableEq, Repr

/-- What the link says of the packet that carries an access (R309, R310). -/
inductive Tlp
  | good | poisoned | badEcrc
deriving DecidableEq, Repr

/-- What a request's header holds beside OPCODE, VERSION and TAG (R319): the reserved bits of its words, and the argument
bytes used, which are those of its argument words where none is given. -/
structure ReqHdr where
  high : W8 := 0
  used : Option W32 := none
  spare : W32 := 0
deriving DecidableEq, Repr

/-- A request of the command well (R319): the function that issues it, VERSION, TAG, the 32-bit argument words
from offset 0x10 on, and the rest of its header. -/
structure CmdReq where
  fn : Fin 16
  version : W8
  tag : W32
  args : List W32
  hdr : ReqHdr := {}
deriving DecidableEq, Repr

/-- A request for a dump: the well's, or, where `debug` holds, the debug path's, which names the Slate in its first argument
alone (R272; log 109). -/
structure DumpReq where
  q : CmdReq
  debug : Bool
deriving DecidableEq, Repr

/-- The port at which a control block arrives, and whether its CRC-32 holds (R286). -/
structure BlockAt where
  port : Fin 12
  crcOk : Bool
deriving DecidableEq, Repr

/-- The function that a memory request reaches, and what the link says of its packet (R309, R310). -/
structure FnTlp where
  fn : Fin 16
  tlp : Tlp
deriving DecidableEq, Repr

/-- A quill slot, and whether the destination found a parity error in the next row, which sending it again did not cure
(R167). -/
structure QuillEnd where
  slot : Fin 8
  bad : Bool
deriving DecidableEq, Repr

/-- The transports of MCTP and SPDM messages (R335, R367). -/
inductive Transport
  | i3c | vdm | doe
deriving DecidableEq, Repr

/-- The AtomicOps of the PCI Express completer (R309). -/
inductive PcieAtomic
  | fetchAdd | swap | cas
deriving DecidableEq, Repr

/-- A PLDM platform request (R335, R380). -/
inductive PldmReq
  | readSensors
  | setPowerLimit (watts : W16)
deriving DecidableEq, Repr

/-- A marker block (R286), without its CRC, whose check is the command's operand. -/
structure Marker where
  hops : W8
  age : BitVec 24
  stroke : BitVec 40
  len : BitVec 24
  void : Bool
  hold : Bool
  replay : Bool
  vstroke : BitVec 40
  rstroke : BitVec 40
deriving DecidableEq, Repr

/-- An echo block (R286). -/
structure Echo where
  devnum : BitVec 12
  stroke : BitVec 40
  flags : W8
  lreq : BitVec 24
  lat : W16
  mrec : W32
deriving DecidableEq, Repr

/-- A Ductus management packet (R336): header fields, whether its CRC-32 is right, and content. -/
structure MgmtPacket where
  dest : BitVec 12
  type : BitVec 4
  source : BitVec 12
  ttl : W8
  seq : W16
  crcOk : Bool
  content : List W8
deriving DecidableEq, Repr

/-- What the FEC decoder says of a codeword (R300, R308). -/
inductive Codeword
  | clean | corrected | uncorrectable
deriving DecidableEq, Repr

/-- One acknowledgement entry of a management credit block (R287). -/
structure MgmtAck where
  source : BitVec 12
  seq : W16
deriving DecidableEq, Repr

/-- Why a rod site is replaced (R351; error-log cause 0x0D). -/
inductive SiteReason
  | check | lockup | bank
deriving DecidableEq, Repr

end Sys2Proof
end

