-- ==== Sys2Proof/Syntax.lean ====
section
/-! DEFINITION. The commands of the Ihlyth, one constructor per row of spec/opcode_table.json, in the table's order.
A glyph command is one glyph that a hand's fetch buffer receives: the hand, the STOP bit and the 22-bit operand field
of R92. The other commands are the accesses, messages, wires and internal completions that the table lists. -/

namespace Sys2Proof

/-- A command. Each constructor's comment is the table's summary of its row and the rule it names. -/
inductive Instr
  /-- XLD (R106): Loads a 32-bit word from memory into index register X0 or X1. -/
  | xld (h : HandRef) (stop : Bool) (x : XReg) (opd : BitVec 22)
  /-- XST (R106): Stores index register X0 or X1 to a 32-bit memory word. -/
  | xst (h : HandRef) (stop : Bool) (x : XReg) (opd : BitVec 22)
  /-- XADDI (R106): Adds a sign-extended immediate to an index register, modulo 2^32. -/
  | xaddi (h : HandRef) (stop : Bool) (x : XReg) (opd : BitVec 22)
  /-- XLEA (R106): Loads a local effective address into an index register. -/
  | xlea (h : HandRef) (stop : Bool) (x : XReg) (opd : BitVec 22)
  /-- XMULI (R106): Multiplies an index register by a sign-extended immediate, modulo 2^32. -/
  | xmuli (h : HandRef) (stop : Bool) (x : XReg) (opd : BitVec 22)
  /-- XACC (R106): Copies ACC[31:0] into an index register. -/
  | xacc (h : HandRef) (stop : Bool) (x : XReg) (opd : BitVec 22)
  /-- XANDI (R106): ANDs an index register with a sign-extended immediate. -/
  | xandi (h : HandRef) (stop : Bool) (x : XReg) (opd : BitVec 22)
  /-- FPADDI (R106): Adds a sign-extended immediate to FP. -/
  | fpaddi (h : HandRef) (stop : Bool) (opd : BitVec 22)
  /-- FPLD (R106): Loads FP from a 32-bit memory word. -/
  | fpld (h : HandRef) (stop : Bool) (opd : BitVec 22)
  /-- FPST (R106): Stores FP to a 32-bit memory word. -/
  | fpst (h : HandRef) (stop : Bool) (opd : BitVec 22)
  /-- FPACC (R106): Copies ACC[31:0] into FP. -/
  | fpacc (h : HandRef) (stop : Bool) (opd : BitVec 22)
  /-- FPLEA (R106): Loads a local effective address into FP. -/
  | fplea (h : HandRef) (stop : Bool) (opd : BitVec 22)
  /-- BLCLN (R158): Cleans one blotter line: drains its merging-buffer entry and keeps the line. -/
  | blcln (h : HandRef) (stop : Bool) (opd : BitVec 22)
  /-- BLINV (R158): Invalidates one blotter line and leaves its merging-buffer entry to drain normally. -/
  | blinv (h : HandRef) (stop : Bool) (opd : BitVec 22)
  /-- BLCI (R158): Cleans and invalidates one blotter line. -/
  | blci (h : HandRef) (stop : Bool) (opd : BitVec 22)
  /-- BLSW_CLEAN (R159): BLSW with OP 0: cleans the blotter line at a set and way. -/
  | blswClean (h : HandRef) (stop : Bool) (opd : BitVec 22)
  /-- BLSW_INVALIDATE (R159): BLSW with OP 1: invalidates the blotter line at a set and way. -/
  | blswInvalidate (h : HandRef) (stop : Bool) (opd : BitVec 22)
  /-- BLSW_CLEAN_INVALIDATE (R159): BLSW with OP 2: cleans and invalidates the blotter line at a set and way. -/
  | blswCleanInvalidate (h : HandRef) (stop : Bool) (opd : BitVec 22)
  /-- BLSW_ALL (R159): BLSW with OP 3: starts a scan that cleans and invalidates every blotter line, holding other hands' device accesses. -/
  | blswAll (h : HandRef) (stop : Bool) (opd : BitVec 22)
  /-- BLSW_SCAN_END (R159): The clean-and-invalidate-all scan ends and, once the merging buffer is empty, the BLSW line retires. -/
  | blswScanEnd (b : BeadRef)
  /-- PREF (R152): Prefetches the HBM line holding a device address into the blotter, or is dropped. -/
  | pref (h : HandRef) (stop : Bool) (opd : BitVec 22)
  /-- LD (R107): Loads a 64-bit value or an immediate into ACC. -/
  | ld (h : HandRef) (stop : Bool) (opd : BitVec 22)
  /-- LDW (R107): Loads a sign-extended 32-bit word into ACC. -/
  | ldw (h : HandRef) (stop : Bool) (opd : BitVec 22)
  /-- LDWU (R107): Loads a zero-extended 32-bit word into ACC. -/
  | ldwu (h : HandRef) (stop : Bool) (opd : BitVec 22)
  /-- LDH (R107): Loads a sign-extended 16-bit halfword into ACC. -/
  | ldh (h : HandRef) (stop : Bool) (opd : BitVec 22)
  /-- LDHU (R107): Loads a zero-extended 16-bit halfword into ACC. -/
  | ldhu (h : HandRef) (stop : Bool) (opd : BitVec 22)
  /-- LDB (R107): Loads a sign-extended byte into ACC. -/
  | ldb (h : HandRef) (stop : Bool) (opd : BitVec 22)
  /-- LDBU (R107): Loads a zero-extended byte into ACC. -/
  | ldbu (h : HandRef) (stop : Bool) (opd : BitVec 22)
  /-- ST (R107): Stores the 64 bits of ACC to memory. -/
  | st (h : HandRef) (stop : Bool) (opd : BitVec 22)
  /-- STW (R107): Stores ACC[31:0] to memory. -/
  | stw (h : HandRef) (stop : Bool) (opd : BitVec 22)
  /-- STH (R107): Stores ACC[15:0] to memory. -/
  | sth (h : HandRef) (stop : Bool) (opd : BitVec 22)
  /-- STB (R107): Stores ACC[7:0] to memory. -/
  | stb (h : HandRef) (stop : Bool) (opd : BitVec 22)
  /-- ADD (R107): Adds an operand to ACC and sets NZCV, faulting on signed overflow when OVE is set. -/
  | add (h : HandRef) (stop : Bool) (opd : BitVec 22)
  /-- SUB (R107): Subtracts an operand from ACC and sets NZCV. -/
  | sub (h : HandRef) (stop : Bool) (opd : BitVec 22)
  /-- MUL (R107): Multiplies ACC by an operand and keeps the low 64 bits. -/
  | mul (h : HandRef) (stop : Bool) (opd : BitVec 22)
  /-- MULHS (R107): Keeps the high 64 bits of the signed 128-bit product in ACC. -/
  | mulhs (h : HandRef) (stop : Bool) (opd : BitVec 22)
  /-- MULHU (R107): Keeps the high 64 bits of the unsigned 128-bit product in ACC. -/
  | mulhu (h : HandRef) (stop : Bool) (opd : BitVec 22)
  /-- DIV (R43): Signed division of ACC using the bead's single divider, with divide-by-zero and overflow handling. -/
  | div (h : HandRef) (stop : Bool) (opd : BitVec 22)
  /-- DIVU (R107): Unsigned division of ACC. -/
  | divu (h : HandRef) (stop : Bool) (opd : BitVec 22)
  /-- REM (R107): Signed remainder of ACC, taking the sign of the dividend. -/
  | rem (h : HandRef) (stop : Bool) (opd : BitVec 22)
  /-- REMU (R107): Unsigned remainder of ACC. -/
  | remu (h : HandRef) (stop : Bool) (opd : BitVec 22)
  /-- AND (R107): ANDs an operand into ACC. -/
  | and_ (h : HandRef) (stop : Bool) (opd : BitVec 22)
  /-- OR (R107): ORs an operand into ACC. -/
  | or_ (h : HandRef) (stop : Bool) (opd : BitVec 22)
  /-- XOR (R107): XORs an operand into ACC. -/
  | xor_ (h : HandRef) (stop : Bool) (opd : BitVec 22)
  /-- SHL (R107): Shifts ACC left. -/
  | shl (h : HandRef) (stop : Bool) (opd : BitVec 22)
  /-- SHR (R107): Shifts ACC right, logical. -/
  | shr (h : HandRef) (stop : Bool) (opd : BitVec 22)
  /-- SAR (R107): Shifts ACC right, arithmetic. -/
  | sar (h : HandRef) (stop : Bool) (opd : BitVec 22)
  /-- CMP (R107): Sets the flags from ACC minus an operand, leaving ACC unchanged. -/
  | cmp (h : HandRef) (stop : Bool) (opd : BitVec 22)
  /-- TST (R107): Sets the flags from ACC AND an operand, leaving ACC unchanged. -/
  | tst (h : HandRef) (stop : Bool) (opd : BitVec 22)
  /-- MIN (R107): Writes the signed minimum of ACC and an operand to ACC. -/
  | min (h : HandRef) (stop : Bool) (opd : BitVec 22)
  /-- MAX (R107): Writes the signed maximum of ACC and an operand to ACC. -/
  | max (h : HandRef) (stop : Bool) (opd : BitVec 22)
  /-- MINU (R107): Writes the unsigned minimum of ACC and an operand to ACC. -/
  | minu (h : HandRef) (stop : Bool) (opd : BitVec 22)
  /-- MAXU (R107): Writes the unsigned maximum of ACC and an operand to ACC. -/
  | maxu (h : HandRef) (stop : Bool) (opd : BitVec 22)
  /-- SHLORI (R107): Shifts ACC left by 16 and ORs in a 16-bit immediate. -/
  | shlori (h : HandRef) (stop : Bool) (opd : BitVec 22)
  /-- NEG (R107): Negates ACC. -/
  | neg (h : HandRef) (stop : Bool) (opd : BitVec 22)
  /-- NOT (R107): Inverts ACC bitwise. -/
  | not_ (h : HandRef) (stop : Bool) (opd : BitVec 22)
  /-- ABS (R107): Replaces ACC with its absolute value. -/
  | abs (h : HandRef) (stop : Bool) (opd : BitVec 22)
  /-- CLZ (R107): Counts the leading zeros of ACC. -/
  | clz (h : HandRef) (stop : Bool) (opd : BitVec 22)
  /-- POPC (R107): Counts the one bits of ACC. -/
  | popc (h : HandRef) (stop : Bool) (opd : BitVec 22)
  /-- RGET (R107): Reads an internal register or the line's successor into ACC. -/
  | rget (h : HandRef) (stop : Bool) (opd : BitVec 22)
  /-- FSWPUT (R108): Writes FSW from ACC: sets RM and SAT and clears the selected sticky flags. -/
  | fswput (h : HandRef) (stop : Bool) (opd : BitVec 22)
  /-- PSWPUT (R108): Writes the PSW flags and enables from ACC, and LD above user level. -/
  | pswput (h : HandRef) (stop : Bool) (opd : BitVec 22)
  /-- CRD (R91): Reads a bead control register into ACC at keeper or sentinel level. -/
  | crd (h : HandRef) (stop : Bool) (opd : BitVec 22)
  /-- CWR (R85): Writes a bead control register from ACC, subject to the per-hand write rules. -/
  | cwr (h : HandRef) (stop : Bool) (opd : BitVec 22)
  /-- AADD (R269): Atomic fetch-and-add on a 64-bit word at its home. -/
  | aadd (h : HandRef) (stop : Bool) (opd : BitVec 22)
  /-- ASWP (R269): Atomic swap of a 64-bit word at its home. -/
  | aswp (h : HandRef) (stop : Bool) (opd : BitVec 22)
  /-- ACAS (R107): Atomic compare-and-swap of a 64-bit word against ACC, writing X1:X0. -/
  | acas (h : HandRef) (stop : Bool) (opd : BitVec 22)
  /-- AMIN (R107): Atomic signed minimum on a 64-bit word. -/
  | amin (h : HandRef) (stop : Bool) (opd : BitVec 22)
  /-- AMAX (R107): Atomic signed maximum on a 64-bit word. -/
  | amax (h : HandRef) (stop : Bool) (opd : BitVec 22)
  /-- AOR (R107): Atomic OR on a 64-bit word. -/
  | aor (h : HandRef) (stop : Bool) (opd : BitVec 22)
  /-- AAND (R107): Atomic AND on a 64-bit word. -/
  | aand (h : HandRef) (stop : Bool) (opd : BitVec 22)
  /-- NOP (R109): Does nothing. -/
  | nop (h : HandRef) (stop : Bool) (opd : BitVec 22)
  /-- BR (R109): Branches by displacement when the condition holds, possibly leaving the innermost loop. -/
  | br (h : HandRef) (stop : Bool) (opd : BitVec 22)
  /-- JR (R109): Jumps to ACC when the condition holds. -/
  | jr (h : HandRef) (stop : Bool) (opd : BitVec 22)
  /-- CALL (R110): Pushes the successor on the FP stack and branches. -/
  | call (h : HandRef) (stop : Bool) (opd : BitVec 22)
  /-- CALLR (R110): Pushes the successor and jumps to ACC. -/
  | callr (h : HandRef) (stop : Bool) (opd : BitVec 22)
  /-- RET (R110): Pops the return address from the FP stack and jumps to it. -/
  | ret (h : HandRef) (stop : Bool) (opd : BitVec 22)
  /-- LOOP (R114): Opens a hardware loop level whose count is taken from ACC. -/
  | loop (h : HandRef) (stop : Bool) (opd : BitVec 22)
  /-- LOOPI (R114): Opens a hardware loop level with an immediate count. -/
  | loopi (h : HandRef) (stop : Bool) (opd : BitVec 22)
  /-- LEXIT (R118): Closes the innermost hardware loop level. -/
  | lexit (h : HandRef) (stop : Bool) (opd : BitVec 22)
  /-- GATE (R87): Checks a gate descriptor and enters keeper level at its target, saving the level-1 save set. -/
  | gate (h : HandRef) (stop : Bool) (opd : BitVec 22)
  /-- GRET (R88): Returns from a gate to the user caller. -/
  | gret (h : HandRef) (stop : Bool) (opd : BitVec 22)
  /-- RETE (R89): Returns from keeper or sentinel level to a lower level. -/
  | rete (h : HandRef) (stop : Bool) (opd : BitVec 22)
  /-- BRK (R109): Raises the BREAK fault with the immediate in SFA. -/
  | brk (h : HandRef) (stop : Bool) (opd : BitVec 22)
  /-- HSTART (R64): Hand 0 starts an Idle hand at X0 at user level. -/
  | hstart (h : HandRef) (stop : Bool) (opd : BitVec 22)
  /-- HSTOP (R66): Hand 0 stops a Running or Sleeping hand, cancelling its wait and posting a KIND 4 notice. -/
  | hstop (h : HandRef) (stop : Bool) (opd : BitVec 22)
  /-- HRESUME (R74): Hand 0 resumes a Stopped hand from its level-1 save set. -/
  | hresume (h : HandRef) (stop : Bool) (opd : BitVec 22)
  /-- HKILL (R84): Hand 0 makes a hand Idle, aborting staged messages and waits. -/
  | hkill (h : HandRef) (stop : Bool) (opd : BitVec 22)
  /-- SEND (R244): Sends ACC[31:0] as a one-word message on a scalar out-endpoint. -/
  | send (h : HandRef) (stop : Bool) (opd : BitVec 22)
  /-- SENDM (R112): Stages a word of a multi-word message, taking the send port and a credit. -/
  | sendm (h : HandRef) (stop : Bool) (opd : BitVec 22)
  /-- SENDL (R112): Stages the last word and commits a multi-word message, releasing the send port. -/
  | sendl (h : HandRef) (stop : Bool) (opd : BitVec 22)
  /-- RECV (R111): Removes the oldest word of a scalar in-endpoint into ACC. -/
  | recv (h : HandRef) (stop : Bool) (opd : BitVec 22)
  /-- QPOLL (R111): Reads the number of words waiting in an in-endpoint. -/
  | qpoll (h : HandRef) (stop : Bool) (opd : BitVec 22)
  /-- QCRED (R249): Reads the credits of an out-endpoint, or all ones if it is closed. -/
  | qcred (h : HandRef) (stop : Bool) (opd : BitVec 22)
  /-- TOKSEND (R242): Writes ACC[7:0] into an out token slot. -/
  | toksend (h : HandRef) (stop : Bool) (opd : BitVec 22)
  /-- TOKRECV (R242): Removes the token of an in token slot into ACC. -/
  | tokrecv (h : HandRef) (stop : Bool) (opd : BitVec 22)
  /-- TWAIT (R261): Waits until a tally reaches the target in ACC, through the hand's tally latch. -/
  | twait (h : HandRef) (stop : Bool) (opd : BitVec 22)
  /-- TADD (R262): Queues a release raise of a tally by ACC[47:0]. -/
  | tadd (h : HandRef) (stop : Bool) (opd : BitVec 22)
  /-- TINC (R262): Queues a release raise of a tally by 1. -/
  | tinc (h : HandRef) (stop : Bool) (opd : BitVec 22)
  /-- TREAD (R261): Reads a tally's value into ACC through the tally latch. -/
  | tread (h : HandRef) (stop : Bool) (opd : BitVec 22)
  /-- TRPUSH (R238): Pushes a 64-byte descriptor onto the tail of the bead's own tray. -/
  | trpush (h : HandRef) (stop : Bool) (opd : BitVec 22)
  /-- TRPOP (R238): Pops the tail of the bead's own tray into memory. -/
  | trpop (h : HandRef) (stop : Bool) (opd : BitVec 22)
  /-- TRSTEAL (R240): Probes victim trays in a fixed order and random walk to steal one descriptor. -/
  | trsteal (h : HandRef) (stop : Bool) (opd : BitVec 22)
  /-- QUILL (R160): Reads a quill descriptor and starts it in the lowest free slot. -/
  | quill (h : HandRef) (stop : Bool) (opd : BitVec 22)
  /-- QUILLST (R111): Reads the busy and error masks of the quill slots into ACC. -/
  | quillst (h : HandRef) (stop : Bool) (opd : BitVec 22)
  /-- FENCE (R270): Issues a fence of kind STORE, FULL, QUILL or BEAD, draining the merging buffer. -/
  | fence (h : HandRef) (stop : Bool) (opd : BitVec 22)
  /-- FENCE_COMPLETE (R270): The fence's condition holds and its line retires. -/
  | fenceComplete (h : HandRef)
  /-- CWLD (R72): Reads a common word into ACC. -/
  | cwld (h : HandRef) (stop : Bool) (opd : BitVec 22)
  /-- CWST (R72): Writes a common word, waking hands sleeping on it. -/
  | cwst (h : HandRef) (stop : Bool) (opd : BitVec 22)
  /-- CWADD (R72): Fetches and adds to a common word. -/
  | cwadd (h : HandRef) (stop : Bool) (opd : BitVec 22)
  /-- CWSWP (R72): Swaps ACC with a common word. -/
  | cwswp (h : HandRef) (stop : Bool) (opd : BitVec 22)
  /-- CSEND (R71): Sends ACC into a hand-to-hand channel, sleeping if it is full. -/
  | csend (h : HandRef) (stop : Bool) (opd : BitVec 22)
  /-- CRECV (R71): Receives the oldest entry of a hand-to-hand channel, sleeping if it is empty. -/
  | crecv (h : HandRef) (stop : Bool) (opd : BitVec 22)
  /-- SLEEP (R68): The hand sleeps after its line until a masked common word is written or its timer wakes it. -/
  | sleep (h : HandRef) (stop : Bool) (opd : BitVec 22)
  /-- NWAIT (R80): Hand 0 sleeps while its notice queue is empty. -/
  | nwait (h : HandRef) (stop : Bool) (opd : BitVec 22)
  /-- NPOP (R80): Hand 0 removes the oldest notice and writes it as 16 bytes. -/
  | npop (h : HandRef) (stop : Bool) (opd : BitVec 22)
  /-- VADD (R132): Lane-wise addition of two tile rows. -/
  | vadd (h : HandRef) (stop : Bool) (opd : BitVec 22)
  /-- VSUB (R132): Lane-wise subtraction of two tile rows. -/
  | vsub (h : HandRef) (stop : Bool) (opd : BitVec 22)
  /-- VMUL (R132): Lane-wise multiplication of two tile rows. -/
  | vmul (h : HandRef) (stop : Bool) (opd : BitVec 22)
  /-- VFMA (R132): Lane-wise fused multiply-add into TD. -/
  | vfma (h : HandRef) (stop : Bool) (opd : BitVec 22)
  /-- VFNMA (R132): Lane-wise fused negative multiply-add into TD. -/
  | vfnma (h : HandRef) (stop : Bool) (opd : BitVec 22)
  /-- VMIN (R132): Lane-wise minimum. -/
  | vmin (h : HandRef) (stop : Bool) (opd : BitVec 22)
  /-- VMAX (R132): Lane-wise maximum. -/
  | vmax (h : HandRef) (stop : Bool) (opd : BitVec 22)
  /-- VABS (R132): Lane-wise absolute value. -/
  | vabs (h : HandRef) (stop : Bool) (opd : BitVec 22)
  /-- VNEG (R132): Lane-wise negation. -/
  | vneg (h : HandRef) (stop : Bool) (opd : BitVec 22)
  /-- VCMP (R132): Lane-wise compare producing all-ones or zero masks. -/
  | vcmp (h : HandRef) (stop : Bool) (opd : BitVec 22)
  /-- VBSL (R132): Bitwise select of TA and TB under the mask in TD. -/
  | vbsl (h : HandRef) (stop : Bool) (opd : BitVec 22)
  /-- VAND (R132): Bitwise AND of two rows. -/
  | vand (h : HandRef) (stop : Bool) (opd : BitVec 22)
  /-- VOR (R132): Bitwise OR of two rows. -/
  | vor (h : HandRef) (stop : Bool) (opd : BitVec 22)
  /-- VXOR (R132): Bitwise XOR of two rows. -/
  | vxor (h : HandRef) (stop : Bool) (opd : BitVec 22)
  /-- VMOV (R132): Copies a row together with its scale word. -/
  | vmov (h : HandRef) (stop : Bool) (opd : BitVec 22)
  /-- VCVT (R133): Converts a part of a row between formats with one rounding. -/
  | vcvt (h : HandRef) (stop : Bool) (opd : BitVec 22)
  /-- VCADD (R58): Compensated addition of pairs of partials. -/
  | vcadd (h : HandRef) (stop : Bool) (opd : BitVec 22)
  /-- VCRND (R134): Rounds compensated pairs to a narrow or MX format. -/
  | vcrnd (h : HandRef) (stop : Bool) (opd : BitVec 22)
  /-- VRSUM (R132): Sums the 16 binary32 lanes of a row in fixed order into ACC. -/
  | vrsum (h : HandRef) (stop : Bool) (opd : BitVec 22)
  /-- VGETL (R132): Reads lane X1 of a row into ACC. -/
  | vgetl (h : HandRef) (stop : Bool) (opd : BitVec 22)
  /-- VPUTL (R132): Writes the low bits of ACC into lane X1 of a row. -/
  | vputl (h : HandRef) (stop : Bool) (opd : BitVec 22)
  /-- VBCAST (R132): Writes the low bits of ACC into every lane of a row. -/
  | vbcast (h : HandRef) (stop : Bool) (opd : BitVec 22)
  /-- VEXP (R42): Lane-wise exponential. -/
  | vexp (h : HandRef) (stop : Bool) (opd : BitVec 22)
  /-- VLOG2 (R42): Lane-wise base-2 logarithm. -/
  | vlog2 (h : HandRef) (stop : Bool) (opd : BitVec 22)
  /-- VRCP (R42): Lane-wise reciprocal. -/
  | vrcp (h : HandRef) (stop : Bool) (opd : BitVec 22)
  /-- VRSQ (R42): Lane-wise reciprocal square root. -/
  | vrsq (h : HandRef) (stop : Bool) (opd : BitVec 22)
  /-- VTANH (R42): Lane-wise hyperbolic tangent. -/
  | vtanh (h : HandRef) (stop : Bool) (opd : BitVec 22)
  /-- VERF (R42): Lane-wise error function. -/
  | verf (h : HandRef) (stop : Bool) (opd : BitVec 22)
  /-- TLD (R128): Loads tile rows from TSR.ROW onward from folio or device memory. -/
  | tld (h : HandRef) (stop : Bool) (opd : BitVec 22)
  /-- TST_TILE_STORE (R128): Stores tile rows from TSR.ROW onward to memory. -/
  | tstore (h : HandRef) (stop : Bool) (opd : BitVec 22)
  /-- TRANSFER_COMPLETE (R129): The last row of a TLD or TST completes, the line retires and TSR.ROW returns to 0. -/
  | transferComplete (h : HandRef)
  /-- TRANSFER_ROW_FAULT (R130): A failed transfer row stops further requests and the fault is taken once requested rows finish. -/
  | transferRowFault (h : HandRef) (row : Fin 32)
  /-- TZERO (R132): Zeroes every row and scale word of a tile. -/
  | tzero (h : HandRef) (stop : Bool) (opd : BitVec 22)
  /-- TCFG (R124): Reshapes a tile once operations on it have finished, zeroing it if its shape changes. -/
  | tcfg (h : HandRef) (stop : Bool) (opd : BitVec 22)
  /-- NSET (R135): Writes a nib group descriptor from ACC. -/
  | nset (h : HandRef) (stop : Bool) (opd : BitVec 22)
  /-- NGET (R135): Reads a nib group descriptor into ACC. -/
  | nget (h : HandRef) (stop : Bool) (opd : BitVec 22)
  /-- NOPEN (R50): Opens a nib accumulation group, zeroing its cells. -/
  | nopen (h : HandRef) (stop : Bool) (opd : BitVec 22)
  /-- NMAC (R136): Multiplies activation rows by folio weights into a nib group, optionally opening and draining. -/
  | nmac (h : HandRef) (stop : Bool) (opd : BitVec 22)
  /-- NDRN (R138): Issues a drain alone of a nib group. -/
  | ndrn (h : HandRef) (stop : Bool) (opd : BitVec 22)
  /-- NIB_DRAIN (R138): After the last addend lands, writes the drained rows and the summary to FSW and releases the range. -/
  | nibDrain (b : BeadRef)
  /-- IMPRECISE_FAULT (R411): A remote parity error found after retirement is delivered by the hand's state. -/
  | impreciseFault (h : HandRef) (slot : BitVec 3) (dev : Bool) (len : BitVec 3) (sfa : W32)
  /-- HAND_WAKE (R66): A sleeping hand's wake condition becomes true and it issues again 2 ticks later. -/
  | handWake (h : HandRef)
  /-- TIMER_MATCH (R67): An armed hand timer reaches its compare: ARM clears, TFIRED sets, and it may wake or notify. -/
  | timerMatch (h : HandRef)
  /-- TCMP_WRITE (R67): A write of TCMP_LO or TCMP_HI clears ARM. -/
  | tcmpWrite (p : Path) (h : HandRef) (hi : Bool) (v : W32)
  /-- INTERRUPT_ASSERT (R81): A bead interrupt source sets its PEND bit and posts a notice if masked in. -/
  | interruptAssert (b : BeadRef) (src : Fin 8) (detail : W32)
  /-- BEAD_INT_MASK_WRITE (R81): Setting a MASK bit whose PEND is already set posts an interrupt notice. -/
  | beadIntMaskWrite (p : Path) (b : BeadRef) (v : W32)
  /-- START (R64): A control-space write of STATE.START makes hand 0 Running. -/
  | startHand0 (p : Path) (b : BeadRef) (v : W32)
  /-- BEAD_CHAN_CFG_WRITE (R71): Changing a channel's configuration empties it and wakes hands sleeping on it. -/
  | beadChanCfgWrite (p : Path) (b : BeadRef) (v : W32)
  /-- BEAD_TCFG_WRITE (R124): A register write of a tile shape waits for the tile's operations and then applies like TCFG. -/
  | beadTcfgWrite (p : Path) (b : BeadRef) (t : Fin 8) (v : W32)
  /-- BEAD_VQ_BIND_WRITE (R246): Changes the binding of tiles to vector endpoints once the tile is quiet. -/
  | beadVqBindWrite (p : Path) (b : BeadRef) (v : W32)
  /-- BEAD_QCLOSE_WRITE (R248): Closes in-endpoints or in token slots, discarding their units and returning credits. -/
  | beadQcloseWrite (p : Path) (b : BeadRef) (v : W32)
  /-- ABORT (R245): A write of QCTL.ABORT discards a stopped hand's staged message and returns its credits. -/
  | abortMsg (p : Path) (h : HandRef) (v : W32)
  /-- HALT (R377): A debug write of HALT stops a hand from issuing and makes it Halted. -/
  | haltHand (p : Path) (h : HandRef)
  /-- RELEASE (R377): A debug write of RELEASE returns a Halted hand to its earlier state. -/
  | releaseHand (p : Path) (h : HandRef)
  /-- REGISTER_WRITE (R401): A control-space or CWR write to a register with no behaviour of its own, judged by access code and debug level. -/
  | registerWrite (w : RegPlace) (tlp : Tlp) (be : BitVec 4) (v : W32)
  /-- BEAD_TICK_LO_READ (R67): Reading BEAD_TICK_LO latches the upper half of the Slate tick counter. -/
  | beadTickLoRead (p : Path) (b : BeadRef)
  /-- SLATE_TICK_LO_READ (R400): Reading SLATE_TICK_LO latches the upper half of the Slate tick counter. -/
  | slateTickLoRead (p : Path) (sl : Fin 4)
  /-- STROKE_COUNT_LO_READ (R308): Reading STROKE_COUNT_LO latches the upper part of the stroke count. -/
  | strokeCountLoRead (p : Path)
  /-- DEVICE_LOAD_RETURN (R142): Data of a device-address load or atomic returns to the requesting hand, checked for parity. -/
  | deviceLoadReturn (h : HandRef) (n : Nat) (bad : Bool)
  /-- REMOTE_REQUEST_SERVE (R144): A folio controller serves or refuses a request arriving from outside the bead. -/
  | remoteRequestServe (h : HandRef) (n : Nat)
  /-- STORE_ACKNOWLEDGE (R267): A home performs a device-address store or atomic and acknowledges it. -/
  | storeAcknowledge (h : HandRef) (n : Nat)
  /-- BLOTTER_FILL (R151): A miss's 64-byte fill returns from HBM and is written into the chosen way. -/
  | blotterFill (b : BeadRef) (line : Nat) (bad : Bool)
  /-- MERGE_ENTRY_TIMEOUT (R154): A merging-buffer entry 64 ticks old starts to drain to HBM. -/
  | mergeEntryTimeout (b : BeadRef) (line : Nat)
  /-- MERGE_DRAIN_ACK (R154): The HBM controller acknowledges a drained entry, which is freed or re-sent on parity failure. -/
  | mergeDrainAck (b : BeadRef) (line : Nat) (bad : Bool)
  /-- BEAD_BLOT_CFG_WRITE (R146): A change of blotter SIZE starts a bank switch, or is refused for an enabled tray. -/
  | beadBlotCfgWrite (p : Path) (b : BeadRef) (v : W32)
  /-- BLOT_SWITCH_END (R146): Fills and drains done, lines invalidated and banks zeroed, SIZE takes its new value. -/
  | blotSwitchEnd (b : BeadRef)
  /-- QUILL_DESCRIPTOR_START (R165): A quill descriptor starts once its local ranges no longer overlap earlier descriptors. -/
  | quillDescriptorStart (b : BeadRef) (slot : Fin 8)
  /-- QUILL_COMPLETE (R164): A quill descriptor finishes or stops with error, records status and raises its completion tally. -/
  | quillComplete (b : BeadRef) (slot : QuillEnd)
  /-- UNIT_ARRIVAL (R243): A queue unit reaches an in-endpoint or token slot along its route, counted or discarded as stale or closed. -/
  | unitArrival (sl : Fin 4) (n : Nat)
  /-- CREDIT_RETURN (R242): A credit returns to its out-endpoint, closing it if it carries a closure mark. -/
  | creditReturn (sl : Fin 4) (n : Nat)
  /-- STEAL_PROBE (R239): A steal probe reaches a victim's tray controller and takes its head entry or finds it empty. -/
  | stealProbe (h : HandRef)
  /-- STEAL_ANSWER (R240): A probe's answer returns to the thief, which writes the descriptor or probes the next victim. -/
  | stealAnswer (h : HandRef)
  /-- RAISE_RELEASE (R262): A queued tally raise leaves the bead once earlier stores are acknowledged and buffers drained. -/
  | raiseRelease (h : HandRef)
  /-- TALLY_RAISE (R259): A raise takes effect at the tally unit, satisfying waiter entries. -/
  | tallyRaise (sl : Fin 4) (n : Nat)
  /-- TALLY_WAIT_REQUEST (R261): A TWAIT or TREAD request reaches the tally unit and is tested or read. -/
  | tallyWaitRequest (h : HandRef)
  /-- TALLY_WAKE (R261): The wake wire sets a hand's latch satisfied and wakes it. -/
  | tallyWake (h : HandRef)
  /-- CONTEXT_LEAVE (R263): A context leaves a Slate: waiters cancelled, block zeroed and unmapped. -/
  | contextLeave (sl : Fin 4) (c : Fin 64)
  /-- SLUMBER_EVENT (R271): A bead's unbroken slumber reaches its limit and is reported. -/
  | slumberEvent (b : BeadRef)
  /-- STALL_WATCHDOG_FIRE (R256): The stall count reaches its limit and the watchdog fires once. -/
  | stallWatchdogFire (sl : Fin 4)
  /-- DUMP_COMPLETE (R272): The sync-state dump finishes writing, BUSY clears and DONE sets. -/
  | dumpComplete (sl : Fin 4)
  /-- FRAME_WRITE (R224): A ruling image written to a frame is checked and marked valid. -/
  | frameWrite (sl : Fin 4) (frame : Fin 64) (bringup : Bool) (image : List W8)
  /-- RULING_LOAD_DONE (R226): A ruling load into the shadow ends with digests checked and SHADOW_VALID set, or repeats. -/
  | rulingLoadDone (sl : Fin 4) (digestOk : Bool)
  /-- PAGE_DRAINED (R229): The running page has drained and its switch begins with close. -/
  | pageDrained (sl : Fin 4)
  /-- SEGMENT_LOAD_DONE (R227): A page's segments finish loading into folios, reservoirs and ink buffers. -/
  | segmentLoadDone (sl : Fin 4)
  /-- RULING_APPLY (R232): Once load, blotter change and segments finish, the ruling is applied and the page started. -/
  | rulingApply (sl : Fin 4)
  /-- SHIFT_END (R236): Scratchpads are moved, moved sites reset and the page restarts with the reloaded ruling. -/
  | shiftEnd (sl : Fin 4) (rod : Fin 16)
  /-- BEAT_SEND (R222): A circuit transmit endpoint sends a beat in a held tick when its release tally allows. -/
  | beatSend (sl : Fin 4) (circuit : Fin 128)
  /-- BEAT_DELIVER (R220): A slot-fabric beat is delivered at its receive endpoint and counted on its arrival tally. -/
  | beatDeliver (sl : Fin 4) (circuit : Fin 128)
  /-- RESERVOIR_WRITE (R170): A waiting reservoir write is performed in a tick when no order reads its bank. -/
  | reservoirWrite (k : BrushRef)
  /-- IN_PORT_BEAT (R179): A beat on a brush in port is written to the ink buffer or appended to the order queue. -/
  | inPortBeat (k : BrushRef) (port : Fin 4)
  /-- ORDER_PUSH (R182): A write of BRUSH_k_ORDER_15 pushes the staged 64-byte order. -/
  | orderPush (p : Path) (k : BrushRef) (v : W32)
  /-- ORDER_START (R183): The head order starts once its tally, write, read and group conditions hold. -/
  | orderStart (k : BrushRef)
  /-- BRUSH_DRAIN (R184): After the last addend lands the brush emits the group's beats to ports or the ink buffer. -/
  | brushDrain (k : BrushRef)
  /-- ORDER_COMPLETE (R186): An order completes, writes its record and raises its completion tally. -/
  | orderComplete (k : BrushRef)
  /-- FLUSH (R188): Writing BRUSH_k_CTL.FLUSH completes every unstarted order with status 0x08. -/
  | flush (p : Path) (k : BrushRef)
  /-- BRUSH_WATCHDOG_EXPIRE (R190): An order runs beyond BRUSH_k_WDOG ticks and the brush fails. -/
  | brushWatchdogExpire (k : BrushRef)
  /-- BRUSH_FAIL (R190): A brush checker disagrees and the brush is fenced. -/
  | brushFail (k : BrushRef)
  /-- JOB_DISPATCH (R207): A Slate controller takes an accepted job after its barrier and BUSY waits, writes arguments and starts its first page. -/
  | jobDispatch (fn : Fin 16) (seq : BitVec 48) (sl : Fin 4)
  /-- JOB_STEAL (R13): A job is moved between Slate queues. -/
  | jobSteal (fn : Fin 16) (seq : BitVec 48) (sl : Fin 4)
  /-- JOB_END (R208): A job's pages end and its adapter outcome is staged. -/
  | jobEnd (fn : Fin 16) (seq : BitVec 48) (status : W8)
  /-- JOB_COMMIT (R343): The ledger engine commits an ended job in ring order with its staged outcome. -/
  | jobCommit (fn : Fin 16) (seq : BitVec 48)
  /-- COMPLETION_WRITE (R331): A committed job's completion record is written when the completion ring has room. -/
  | completionWrite (fn : Fin 16)
  /-- STROKE_PIN_EDGE (R275): A marker edge at STROKE_P/N is compensated and measured against the prediction. `err` is the
  edge at the pins, before STROKE_PIN_ADJ, minus the predicted tick 0, in sixteenths of a tick. -/
  | strokePinEdge (err : Int)
  /-- MARKER_BLOCK (R276): A marker block on LPORT sets the stroke's control fields, is relayed and answered by an echo. `err`
  is the arrival of its first bit at the pins, before AGE and DUCTUS_LPORT_DELAY are taken off, minus the predicted tick 0, in
  sixteenths of a tick. -/
  | markerBlock (port : Fin 12) (crcOk : Bool) (err : Int) (m : Marker)
  /-- STROKE_END (R274): The phase wraps to 0, the stroke count rises and edges are latched. -/
  | strokeEnd
  /-- SYNTHETIC_STROKE (R278): No marker falls within WINDOW and the stroke continues on the prediction in Flywheel or enters Free. -/
  | syntheticStroke
  /-- START_A_PAGE (R283): An event entry starts steps 4 to 8 of a ready page, taking a checkpoint for a CKPT page. -/
  | startAPage (e : Fin 256)
  /-- RELEASE_A_TALLY (R283): An event entry raises a tally by its amount. -/
  | releaseATally (e : Fin 256)
  /-- OPEN_A_SLOT_WINDOW (R300): An event entry opens a receive window on a port. -/
  | openASlotWindow (e : Fin 256)
  /-- SEND_A_DUCTUS_TRANSFER (R299): An event entry opens a send window on a port. -/
  | sendADuctusTransfer (e : Fin 256)
  /-- RAISE_AN_INTERRUPT (R283): An event entry sets EVENT in a bead's BEAD_INT_PEND. -/
  | raiseAnInterrupt (e : Fin 256)
  /-- WINDOW_CLOSE (R300): A slot window closes after LEN ticks, raising MISS or LATE when short. -/
  | windowClose (sl : Fin 4) (win : Fin 64)
  /-- FLIT_SEND (R299): A send window's next flit leaves once fully buffered and the port is free. -/
  | flitSend (port : Fin 12)
  /-- FLIT_RECEIVE (R300): A circuit flit arrives and is delivered, forwarded, counted or discarded. -/
  | flitReceive (port : Fin 12) (word : Codeword) (data : List Row)
  /-- MANAGEMENT_PACKET (R336): A management packet is delivered, acted on as a fence notice, routed on or discarded. -/
  | managementPacket (port : Fin 12) (pkt : MgmtPacket)
  /-- MANAGEMENT_RESEND_TIMEOUT (R336): An originated packet unacknowledged for 20 µs is sent again, up to three times. -/
  | managementResendTimeout (port : Fin 12) (seq : W16)
  /-- MANAGEMENT_CREDIT_BLOCK (R287): A credit block returns management credits and acknowledges packets. -/
  | managementCreditBlock (port : BlockAt) (credits : BitVec 5) (acks : List MgmtAck)
  /-- ECHO_RELAY (R288): An echo arriving on a relay port is sent on unchanged on the ECHO port. -/
  | echoRelay (port : BlockAt) (echo : Echo)
  /-- RANGING_REQUEST (R287): A ranging request is answered in the port's next control unit. -/
  | rangingRequest (port : BlockAt) (seq : BitVec 4) (t1 : W64)
  /-- RANGING_ANSWER (R293): A ranging answer gives one delay measurement; after 16 the median sets DELAY. -/
  | rangingAnswer (port : BlockAt) (seq : BitVec 4) (t1 t2 t3 t4 : W64)
  /-- RANGING_TIMEOUT (R287): A ranging request unanswered for 1,024 ticks is sent again. -/
  | rangingTimeout (port : Fin 12) (seq : BitVec 4)
  /-- LANE_FAILURE (R294): A lane loses lock or exceeds its error count and a sparing block is sent, or the port fails. -/
  | laneFailure (port : Fin 12) (lane : Fin 5) (errorCount : Bool)
  /-- SPARING_BLOCK (R287): A received sparing request is acknowledged. -/
  | sparingBlock (port : BlockAt) (lane : Fin 5) (errorCount : Bool) (seq : W16)
  /-- SPARING_ACK (R287): A sparing acknowledgement leads both ends to switch the lane at the next codeword boundary. -/
  | sparingAck (port : BlockAt) (lane : Fin 5) (seq : W16)
  /-- FENCE_STROKE (R289): STROKE_CTL.FENCE enters Fenced: entries stop and SYNC Slates abort. -/
  | fenceStroke (p : Path)
  /-- UNFENCE (R289): STROKE_CTL.UNFENCE returns the stroke unit to Acquiring. -/
  | unfence (p : Path)
  /-- CLOCK_SLIP (R18): A crossing's elastic buffer leaves its window and the Slate is treated as failed. -/
  | clockSlip (sl : Fin 4)
  /-- SLATE_HEARTBEAT_MISSING (R350): A Slate controller heartbeat is missing for SPINE_SLATE_WD ticks. -/
  | slateHeartbeatMissing (sl : Fin 4)
  /-- BEAD_CHECK_WIRE (R351): A bead's self-check raises its check wire and the site is replaced. -/
  | beadCheckWire (sl : Fin 4) (rod : Fin 16) (site : Fin 17) (why : SiteReason)
  /-- STACK_FAILURE (R346): An HBM stack fails: Guarded pages continue on their copies and Unguarded pages are lost. -/
  | stackFailure (stack : Fin 8)
  /-- REMIRROR_DONE (R346): Re-mirroring of affected Guarded pages ends and EXPOSED clears. -/
  | remirrorDone
  /-- SCRIBE_WATCHDOG_EXPIRE (R354): A Scribe heartbeat is missing for the limit, or it locks up, and it is held in reset. -/
  | scribeWatchdogExpire (b : Bool)
  /-- SCRIBE_REBOOT_DONE (R354): A rebooted Scribe passes self-test and rejoins as standby, or stays failed. -/
  | scribeRebootDone (b : Bool) (pass : Bool)
  /-- LEDGER_ENGINE_FAILURE (R350): The ledger engine's checker disagrees and ledger operations move to firmware. -/
  | ledgerEngineFailure
  /-- IDENTIFY (R322): Returns the part number, present Slates, states, epoch and firmware details. -/
  | identify (q : CmdReq)
  /-- CAPABILITY (R322): Returns free contexts, frames, HBM pages and limits. -/
  | capability (q : CmdReq)
  /-- CTX_CREATE (R313): Creates a context with its tally quota and flags. -/
  | ctxCreate (q : CmdReq)
  /-- CTX_DESTROY (R322): Destroys a context, with FORCE cancelling its jobs first. -/
  | ctxDestroy (q : CmdReq)
  /-- CTX_ATTR (R375): Changes a context's APERTURE and DBGEN bits. -/
  | ctxAttr (q : CmdReq)
  /-- MAP (R323): Maps pages of a kind into a context, zeroing HBM pages. -/
  | mapPages (q : CmdReq)
  /-- UNMAP (R322): Unmaps pages and invalidates cached translations. -/
  | unmapPages (q : CmdReq)
  /-- BOOK_LOAD (R325): Checks a book image, writes its rulings and copies its segments. -/
  | bookLoad (q : CmdReq)
  /-- BOOK_UNLOAD (R322): Unloads a book no job still names. -/
  | bookUnload (q : CmdReq)
  /-- RING_BIND (R326): Binds the function's submission, completion and event rings. -/
  | ringBind (q : CmdReq)
  /-- RING_UNBIND (R326): Stops taking entries from the ring. -/
  | ringUnbind (q : CmdReq)
  /-- CANCEL (R330): Cancels the ring's jobs in a sequence range. -/
  | cancel (q : CmdReq)
  /-- LEDGER_QUERY (R322): Returns a job's ledger state and the ring's counts. -/
  | ledgerQuery (q : CmdReq)
  /-- STROKE_CONFIG (R322): Writes the stroke unit's configuration registers. -/
  | strokeConfig (q : CmdReq)
  /-- LINK_CONFIG (R322): Configures Ductus ports and device numbers and optionally ranges. -/
  | linkConfig (q : CmdReq)
  /-- LINK_ROUTE (R322): Loads the management packet routing table. -/
  | linkRoute (q : CmdReq)
  /-- POWER (R379): Requests a move to Run, Hold, Doze or Standby, or is refused. -/
  | power (q : CmdReq)
  /-- POWER_TRANSITION_DONE (R379): A power transition completes and event 0x09 is posted. -/
  | powerTransitionDone
  /-- DEBUG_CHALLENGE (R371): Returns a nonce for a debug level on its path. -/
  | debugChallenge (q : CmdReq) (jtag : Bool)
  /-- DEBUG_UNLOCK (R371): Checks a token or passphrase and opens a session, or accepts a void token. -/
  | debugUnlock (q : CmdReq) (jtag : Bool) (proofOk : Bool)
  /-- DEBUG_CLOSE (R374): Closes a debug session and releases its halted hands. -/
  | debugClose (q : CmdReq) (jtag : Bool)
  /-- NONCE_EXPIRE (R371): A debug nonce expires 10 s after issue. -/
  | nonceExpire (jtag : Bool)
  /-- SCRUB_END (R372): Factory entry zeroing ends and the Factory level is granted. -/
  | scrubEnd
  /-- FW_STAGE (R322): Checks and writes a firmware image to the inactive slot. -/
  | fwStage (q : CmdReq) (digestOk sigOk : Bool)
  /-- FW_COMMIT (R366): Points the boot selector at the staged slot and applies SVN and key revocation bumps. -/
  | fwCommit (q : CmdReq)
  /-- SYNC_DUMP (R272): Starts a sync-state dump of a Slate. -/
  | syncDump (q : DumpReq)
  /-- SLATE_RESET (R384): Resets one Slate, ending with its self-test. -/
  | slateReset (q : CmdReq)
  /-- SLATE_SELF_TEST_END (R384): A Slate reset's self-test ends, passing or failing the Slate. -/
  | slateSelfTestEnd (sl : Fin 4) (pass : Bool)
  /-- ERRLOG_READ (R359): Returns error log records from an index. -/
  | errlogRead (q : CmdReq)
  /-- WELL_SQ_TAIL_WRITE (R327): The host advances the submission tail and the device takes and judges entries. -/
  | wellSqTailWrite (fn : Fin 16) (v : W32)
  /-- WELL_CQ_HEAD_WRITE (R331): The host consumes completions and the jobs become Retired. -/
  | wellCqHeadWrite (fn : Fin 16) (v : W32)
  /-- BAR2_ACCESS (R316): A host access to the aperture is translated, or faults and completes harmlessly. -/
  | bar2Access (fn : FnTlp) (off : BitVec 48) (write : Option (List W8)) (len : Fin 65)
  /-- ATOMICOP (R310): A PCIe AtomicOp is performed on an HBM page or completes as Unsupported Request. -/
  | atomicop (fn : FnTlp) (off : BitVec 48) (op : PcieAtomic) (wide : Bool) (a b : W64)
  /-- FUNCTION_LEVEL_RESET (R334): Resets one function's wells and abandons its command, cancelling no job. -/
  | functionLevelReset (fn : Fin 16)
  /-- VF_ENABLE_CLEAR (R334): Clearing VF Enable acts as a function-level reset of every VF. -/
  | vfEnableClear
  /-- MCTP_MESSAGE (R335): An MCTP message over I3C or VDM is served by type. -/
  | mctpMessage (t : Transport) (type : W8) (opcode : W16) (q : CmdReq)
  /-- GET_VERSION (R367): SPDM request answered with the supported versions. -/
  | getVersion (t : Transport)
  /-- GET_CAPABILITIES (R367): SPDM request answered with the responder's capabilities. -/
  | getCapabilities (t : Transport)
  /-- NEGOTIATE_ALGORITHMS (R367): SPDM request selecting Ed448 and SHA3-384. -/
  | negotiateAlgorithms (t : Transport)
  /-- GET_DIGESTS (R367): SPDM request answered with certificate chain digests. -/
  | getDigests (t : Transport)
  /-- GET_CERTIFICATE (R367): SPDM request answered with the slot 0 chain. -/
  | getCertificate (t : Transport) (off len : W16)
  /-- CHALLENGE (R367): SPDM request answered with a signature by the alias key. -/
  | challenge (t : Transport) (nonce : List W8)
  /-- GET_MEASUREMENTS (R367): SPDM request answered with the measurement blocks. -/
  | getMeasurements (t : Transport) (index : W8) (sign : Bool)
  /-- KEY_EXCHANGE (R367): SPDM request answered with ERROR UnsupportedRequest. -/
  | keyExchange (t : Transport)
  /-- PSK_EXCHANGE (R367): SPDM request answered with ERROR UnsupportedRequest. -/
  | pskExchange (t : Transport)
  /-- SET_CERTIFICATE (R367): SPDM request answered with ERROR UnsupportedRequest. -/
  | setCertificate (t : Transport)
  /-- DOE_DISCOVERY (R309): A DOE Discovery object is answered. -/
  | doeDiscovery (index : W8)
  /-- PLDM_PLATFORM (R335): A PLDM monitoring request reads sensors or sets the power limit effecter. -/
  | pldmPlatform (r : PldmReq)
  /-- PLDM_FIRMWARE_UPDATE (R388): In boot failure, an image received over PLDM is checked and written to a slot. -/
  | pldmFirmwareUpdate (slotB : Bool) (image : List W8) (digestOk sigOk : Bool)
  /-- SEAL (R361): SEC_LC_CTL.SEAL burns the customer fields and sets PENDING to Sealed. -/
  | sealLc (p : Path)
  /-- VOID (R361): SEC_LC_CTL.VOID sets PENDING to Voided. -/
  | voidLc (p : Path)
  /-- DBG_MBOX (R370): A JTAG instruction carrying a debug command message. -/
  | dbgMbox (opcode : W16) (q : CmdReq) (proofOk : Bool)
  /-- DBG_ACCESS (R370): A JTAG instruction performing one control-space word access. -/
  | dbgAccess (write : Option W32) (a : CtlPlace)
  /-- IDCODE (R370): A JTAG instruction returning the part and revision. -/
  | idcode
  /-- BYPASS (R369): A JTAG BYPASS instruction. -/
  | bypass (tdi : Bool)
  /-- SAMPLE_PRELOAD (R369): A JTAG SAMPLE/PRELOAD instruction. -/
  | samplePreload (tdi : Bool)
  /-- EXTEST (R369): A JTAG EXTEST instruction, granted at Control. -/
  | extest (tdi : Bool)
  /-- INTEST (R369): A JTAG INTEST instruction, granted at Control. -/
  | intest (tdi : Bool)
  /-- TRST_N (R389): TAP reset holds the TAP in Test-Logic-Reset without touching device state. -/
  | trstN (low : Bool)
  /-- DEBUG_WINDOW_ACCESS (R404): An access through the debug memory window to untranslated device memory. -/
  | debugWindowAccess (p : Path) (off : BitVec 20) (write : Option (List W8)) (len : Fin 65)
  /-- BROADCAST_WRITE (R406): A window write is performed at every member's RWB register in turn. -/
  | broadcastWrite (p : Path) (a : BitVec 30) (v : W32)
  /-- BROADCAST_READ (R407): A window read returns the lowest member's value and records divergence. -/
  | broadcastRead (p : Path) (a : BitVec 30)
  /-- THERMAL_WARN (R395): A sensor reaches the Warn point and the power budget is reduced. -/
  | thermalWarn
  /-- THERMAL_CRITICAL (R395): A sensor reaches Critical: ALERT_N, forced Hold and SYNC voids. -/
  | thermalCritical
  /-- THERMAL_RECOVER (R395): Readings stay below the entry point for 100 ms and the level falls. -/
  | thermalRecover
  /-- THERMAL_TRIP (R395): The trip comparator asserts THERMTRIP_N and removes every rail. -/
  | thermalTrip
  /-- POWER_ON (R387): PWR_EN rises with VIN in range and the rails come up in order. -/
  | powerOn
  /-- POWER_OFF (R392): PWR_EN low or undervoltage switches every rail off. -/
  | powerOff
  /-- MODULE_RESET (R384): PERST_N or RESET_N low resets the whole module except HBM contents. -/
  | moduleReset (resetN : Bool)
  /-- RESET_RELEASE (R387): Release of PERST_N and RESET_N runs boot ROM, firmware start, training and ledger recovery. -/
  | resetRelease
  /-- HOT_RESET (R384): A PCIe hot reset causes a device warm reset. -/
  | hotReset
  /-- LINK_DOWN (R384): The PCIe link going down causes a device warm reset. -/
  | linkDown
  /-- WARM (R384): A write of SPINE_RESET_CTL.WARM requests a device warm reset. -/
  | warm (p : Path)
  /-- WELL_EQ_HEAD_WRITE (R333): The host advances WELL_EQ_HEAD, freeing event-well room so that the device writes one LOST event before any other. -/
  | wellEqHeadWrite (fn : Fin 16) (v : W32)
  /-- LINK_ALIGNMENT (R293): A Ductus port's lanes align with its partner, fixing the control-unit positions, granting 16 management credits and starting ranging. -/
  | linkAlignment (port : Fin 12)
  /-- SLATE_CHECKER_MISMATCH (R350): The Slate controller's duplicated checker disagrees and the Slate is failed under R352. -/
  | slateCheckerMismatch (sl : Fin 4)
  /-- CLOSE_END (R232): The 32-tick close of a page switch ends, and the blotter size change or segment moves of the switch begin. -/
  | closeEnd (sl : Fin 4)
  /-- BRUSH_ZEROING_END (R188): The 512-tick zeroing after a brush is bound to a new context ends, and the accesses held at the memory tap are performed. -/
  | brushZeroingEnd (k : BrushRef)
  /-- MSIX_UNMASK (R312): The host enables MSI-X or unmasks a vector whose PBA bit is set, and the pending vector is raised. -/
  | msixUnmask (fn : Fin 16) (vector : Fin 128)
deriving DecidableEq, Repr

end Sys2Proof
end

