-- ==== Sys2Proof/Config.lean ====
section
/-! DEFINITION. The free values: constants without a body for what the spec leaves open. Nothing in Lean can evaluate
them or prove a value of them, so a statement about one holds for every value. Each is named in the assumption log. -/

namespace Sys2Proof

/-- The n-th free value of a run. A step that needs a value which the spec leaves open reads it at the counter
`State.freeCtr` and advances the counter (log 1). -/
opaque Config.freeValue : Nat → W64

/-- The special functions of R42, whose results the spec fixes only to within an error bound, and as fixed functions
of their inputs (log 2). -/
inductive SpecialFn
  | exp | log2 | rcp | rsq | tanh | erf
deriving DecidableEq, Repr

/-- The result the device's special-function table gives for a binary32 input (R42: the same input gives the same bits
on every bead). It is used only where it lies within R42's error bound (log 2). -/
opaque Config.specialResult : SpecialFn → W32 → W32

/-- The position in the blotter's data array that holds (set, way), for a blotter of SIZE n: R158 names a position and
does not say which line it holds (log 3). The answer is 4 × set + way, taken modulo four times the number of sets. -/
opaque Config.blotterLineAt : (size : Nat) → (position : Nat) → Nat

/-- What the book loader knows of an outer-product order of a book (R206, R210, R211), which the image does not say
(log 168): for the order at an index of a brush's initial orders of a page, the adapter tensor whose gradient it forms, the
slice of it, and at which of the places where the tensor is used. -/
opaque Config.gradientOf : (image : List W8) → (page brush index : Nat) → Nat × Nat × Nat

/-- The virtual addresses of the adapter descriptors of a book that its loader knows (R199; log 168). -/
opaque Config.bookTensors : (image : List W8) → List Nat

/-- Where the pages of an entry point read the working image of the tensor that argument word i names (R207; log 169): the
kind and number of the target as a segment entry has them (R227), the offset there and the length in bytes. -/
opaque Config.workingPlace : (image : List W8) → (entry word : Nat) → Nat × Nat × Nat × Nat

/-- The DeviceID certificate that the vendor issued (R363; log 180). -/
opaque Config.deviceCert : List W8

/-- Byte i of the SHAKE256 output of a message (R363, R365), and of its SHA3-384 digest (R367): functions of FIPS 202, which
the spec names (log 180). -/
opaque Config.shake256Byte : (message : List W8) → (index : Nat) → W8
@[inherit_doc Config.shake256Byte] opaque Config.sha3Byte : (message : List W8) → (index : Nat) → W8

/-- The alias certificate over the public key of an alias secret, signed with a DeviceID secret (R363; log 180). -/
opaque Config.certificate : (deviceId secret : List W8) → List W8

/-- Byte i of the Ed448 signature of a message under a secret (R363, R367; log 180). -/
opaque Config.signatureByte : (secret message : List W8) → (index : Nat) → W8

/-- A device identity string, key or measurement that the spec does not state: byte i of item k (log 4). -/
opaque Config.secretByte : (item : Nat) → (index : Nat) → W8

end Sys2Proof
end

