-- ==== Sys2Proof/Machine/SMap.lean ====
section
/-! DEFINITION. Finite maps as plain data: lists of (index, value) pairs, with a default for every index that is not
listed. Every indexed group of registers, cells and queues of the state is held so. -/

namespace Sys2Proof.Machine

/-- A finite map from indices, as a list of pairs. -/
abbrev SMap (α : Type) := List (Nat × α)

/-- The value listed for an index, if any. -/
def mapFind {α : Type} : SMap α → Nat → Option α
  | [], _ => none
  | (k, v) :: m, i => if k = i then some v else mapFind m i

/-- The value at an index; d gives what an unlisted index holds. -/
def mapGet {α : Type} (d : Nat → α) (m : SMap α) (i : Nat) : α := (mapFind m i).getD (d i)

/-- The map with index i holding v, indices kept rising. -/
def mapPut {α : Type} : SMap α → Nat → α → SMap α
  | [], i, v => [(i, v)]
  | (k, w) :: m, i, v =>
    if k = i then (i, v) :: m else if i < k then (i, v) :: (k, w) :: m else (k, w) :: mapPut m i v

/-- The map with index i no longer listed, so that it holds the default again. -/
def mapDrop {α : Type} (m : SMap α) (i : Nat) : SMap α := m.filter (fun p => p.1 != i)

/-- The map without the indices that satisfy p. -/
def mapDropWhere {α : Type} (m : SMap α) (p : Nat → Bool) : SMap α := m.filter (fun e => !p e.1)

end Sys2Proof.Machine
end

