-- ==== Sys2Proof/Machine/BeadState.lean ====
section
/-! DEFINITION. The state of one bead: its four hands, control block, tile file, nib, blotter, merging buffer, quill,
queue endpoints and tray registers. Defaults are the reset values of the register tables (R91, R140, R410, R240 ff.). -/

namespace Sys2Proof.Machine

/-- What a sleeping hand waits for; the codes are those of STATE.WAIT (R91). -/
inductive WaitKind
  | twait | sleep | crecv | csend | nwait
deriving DecidableEq, Repr

/-- Why a hand is Stopped; the codes are those of STATE.WAIT (R91). -/
inductive StopKind
  | fault | keeper | hstop | brk
deriving DecidableEq, Repr

/-- The state a Halted hand returns to on release (R64, R377). A hand halted while sleeping in a waiting glyph returns
Running, so only SLEEP's wait is kept. -/
inductive HaltPrior
  | idle | running | sleeping | stopped (k : StopKind)
deriving DecidableEq, Repr

/-- The states of a hand (R64). -/
inductive HandSt
  | idle | running | sleeping (w : WaitKind) | stopped (k : StopKind) | halted (p : HaltPrior) | locked
deriving DecidableEq, Repr

/-- What a fault reports: the fields of SCAUSE and SFA (R78, R91). -/
structure FaultRec where
  cause : W8
  slot : BitVec 3
  imprecise : Bool := false
  dev : Bool := false
  len : BitVec 3 := 0
  sfa : W32 := 0
deriving DecidableEq, Repr

/-- A save set (R75): SPC, SPSW, SCAUSE and SFA of one level. -/
structure SaveSet where
  spc : W32 := 0
  spsw : W32 := 0
  scause : W32 := 0
  sfa : W32 := 0
deriving DecidableEq, Repr

/-- One hardware-loop level: LPS, LPE and LPC (R114). -/
structure LoopLv where
  lps : W32 := 0
  lpe : W32 := 0
  lpc : BitVec 24 := 0
deriving DecidableEq, Repr

/-- The tally latch of a hand (R261). For a TREAD, `target` takes the value read. `asked` says that the request has
left for the tally unit and has not reached it. -/
structure TallyLatch where
  valid : Bool := false
  sat : Bool := false
  read : Bool := false
  tally : BitVec 12 := 0
  target : BitVec 48 := 0
  asked : Bool := false
deriving DecidableEq, Repr

/-- A staged multi-word message (R112, R245). -/
structure Staged where
  ep : Fin 8
  words : List W32
deriving DecidableEq, Repr

/-- The operations of the S-slot atomics (R107). -/
inductive AtomOp
  | add | swap | cas | min | max | or | and
deriving DecidableEq, Repr

/-- The S-slot operations on ACC and an operand v (R107). -/
inductive AluOp
  | add | sub | mul | mulhs | mulhu | div | divu | rem | remu | and | or | xor | shl | shr | sar | cmp | tst
  | min | max | minu | maxu
deriving DecidableEq, Repr

/-- Where the data of a device-address load goes: a register, or the operand of an S-slot operation whose line is
still open. -/
inductive LoadDest
  | acc (bytes : Nat) (signed : Bool) | xr (x : XReg) | fp | alu (op : AluOp)
deriving DecidableEq, Repr

/-- What a device-address request does at its home. -/
inductive DevOp
  | load (bytes : Nat) (dest : LoadDest)
  | store (data : List W8)
  | atomic (op : AtomOp) (a b : W64)
deriving DecidableEq, Repr

/-- A device-address request of a hand, in flight (R142, R267). `seq` numbers the bead's requests and merging-buffer
entries in program order. `served` holds the data once the home has performed it; `refused` says that the folio
controller refused it (R144); `bad` that it read a parity error which was not cured (R167); `dead` that its hand was killed, so
that nothing is delivered (R84). `ctx` is the context that the access was translated through (R188). -/
structure DevReq where
  seq : Nat
  line : W32
  slot : BitVec 3
  len : BitVec 3
  va : BitVec 48
  pa : Nat
  mirror : Option Nat := none
  op : DevOp
  served : Option (List W8) := none
  refused : Bool := false
  bad : Bool := false
  dead : Bool := false
  ctx : Option Nat := none
deriving DecidableEq, Repr

/-- A queued release raise of a tally (R262), with the number below which the bead's stores must be done. -/
structure RaiseReq where
  seq : Nat
  tally : Nat
  amount : BitVec 48
deriving DecidableEq, Repr

/-- A steal under way (R240): where the descriptor goes, the victims probed, the one now probed, the neighbours left,
random probes and draws used, and the answer once the probe was served. -/
structure Steal where
  ea : Nat
  probed : List Nat
  victim : Nat
  neighbours : List Nat
  walks : Nat
  draws : Nat
  answer : Option (Option (List W8)) := none
deriving DecidableEq, Repr

/-- A nib drain issued and not yet written (R138): group, issuing hand, the descriptor captured, and what the drain
emits: the bytes of its rows, its scale bytes and its summary in the places of FSW. -/
structure NibDrain where
  group : Fin 4
  hand : Fin 4
  desc : W64
  rows : List (List W8)
  scales : List W8
  summary : W32
deriving DecidableEq, Repr

/-- One accumulator cell: sum and error term, binary32 (R44). -/
structure Cell where
  s : W32 := 0
  e : W32 := 0
deriving DecidableEq, Repr

/-- The condition of one accumulation group (R50). -/
structure Group where
  isOpen : Bool := false
  perr : Bool := false
deriving DecidableEq, Repr

/-- One write of a line, as plain data; a line's writes land together, in slot order (R95). `act` stands for a
glyph's further effect, performed from the accumulator and index registers its line found. `quill` issues a descriptor. `nib` gives a group its
cells and condition, puts a drain in flight, and names the address of a parity error that lost the group (R140). -/
inductive Eff
  | acc (v : W64)
  | xr (x : XReg) (v : W32)
  | fp (v : W32)
  | psw (mask v : W32)
  | fswSet (v : W32)
  | fswOr (v : W32)
  | store (a : Nat) (data : List W8)
  | row (tile : Nat) (r : Nat) (data : Row) (scale : W32)
  | jump (target : W32) (leaves : Bool)
  | nib (group : Fin 4) (cells : Option (SMap Cell)) (cond : Group) (drain : Option NibDrain) (lost : Option W32)
  | quill (desc : List W8)
  | act (c : Instr) (acc : W64) (x0 x1 : W32)
deriving DecidableEq, Repr

/-- A transfer of TLD or TST (R128): tile, direction and the fields of form T, with the registers its
line found, and the next row to move. `snap` holds the tile's rows as a transposed load sampled them, once it has read its
source (R128). -/
structure Transfer where
  tile : Fin 8
  store : Bool
  dev : Bool
  trn : Bool
  lay : Bool
  es : Nat
  x0 : W32
  x1 : W32
  acc : W64
  next : Nat
  snap : List Row := []
deriving DecidableEq, Repr

/-- What keeps an issued line from retiring (R129, R159, R270); `room` stands for a resource that one of its glyphs needs
as they take effect (log 27). -/
inductive Pending
  | transfer (t : Transfer)
  | operand
  | fence (kind : Fin 4) (seq : Nat) (quills : List (Fin 8))
  | scan
  | room
deriving DecidableEq, Repr

/-- A line that has issued and not retired: its address, length, successor, what it waits for and the writes that land
when it retires. `late` is the line's Q-slot glyph where its effect is worked out at retirement, and its place among the
writes is held by its `act` (R129; log 27). `killed` says that its hand was killed meanwhile, so that
it no longer moves the PC (R84). -/
structure OpenLine where
  pc : W32
  len : Nat
  succ : W32
  why : List Pending
  effs : List Eff
  late : Option Instr := none
  killed : Bool := false
deriving DecidableEq, Repr

/-- One hand (*Scalar state per hand* and the per-hand registers). `line` holds the glyphs of the line being formed,
`heldLine` a complete line that is held at issue, `stopAfter` an HSTOP that waits for the open line to complete (R66, R119). -/
structure Hand where
  st : HandSt := .idle
  wake : BitVec 3 := 0
  pc : W32 := 0
  psw : W32 := 0
  acc : W64 := 0
  x0 : W32 := 0
  x1 : W32 := 0
  fp : W32 := 0
  fsw : W32 := 0
  loops : SMap LoopLv := []
  save1 : SaveSet := {}
  save2 : SaveSet := {}
  sliceBase : W32 := 0
  sliceLimit : W32 := 0
  ksp : W32 := 0
  tctl : W32 := 0
  tcmp : W64 := 0
  tsr : W32 := 0
  firePc : W32 := 0
  fireQ : W32 := 0
  fireTok : W32 := 0
  latch : TallyLatch := {}
  staged : Option Staged := none
  line : List Instr := []
  heldLine : List Instr := []
  sleepMask : W8 := 0
  openLine : Option OpenLine := none
  stopAfter : Bool := false
  reqs : List DevReq := []
  raises : List RaiseReq := []
  steal : Option Steal := none
  heldFaults : List FaultRec := []
deriving DecidableEq, Repr

/-- A notice (R80): its source under R82 and its four words. -/
structure Notice where
  source : Nat
  word0 : W32
  word1 : W32
  word2 : W32
  word3 : W32
deriving DecidableEq, Repr

/-- A tile row with its scale word (R122). -/
structure TileRow where
  data : Row := 0
  scale : W32 := 0
deriving DecidableEq, Repr

/-- One way of one blotter set (R148, R149). `bad` has a bit for each word with a parity error, and `tagBad` says that the
tag has one (R167, R410). -/
structure BlotWay where
  valid : Bool := false
  line : Nat := 0
  age : BitVec 2 := 0
  data : List W8 := []
  bad : BitVec 16 := 0
  tagBad : Bool := false
deriving DecidableEq, Repr

/-- A fill in flight (R151): the line, the age it takes, its mirror, and whether a load waits for it. -/
structure Fill where
  line : Nat
  age : BitVec 2
deriving DecidableEq, Repr

/-- A merging-buffer entry (R153): its line, byte mask and bytes, whether it is draining, and whether it has been sent
again; `hand`, `slot`, `len` and `va` are those of the store that took the entry, which a refusal is reported to (R21). -/
structure MergeEntry where
  seq : Nat
  line : Nat
  mirror : Option Nat := none
  mask : BitVec 64 := 0
  data : List W8 := []
  draining : Bool := false
  resent : Bool := false
  hand : Fin 4 := 0
  slot : BitVec 3 := 1
  len : BitVec 3 := 0
  va : BitVec 48 := 0
deriving DecidableEq, Repr

/-- A quill slot (R160 to R165): the descriptor's 64 bytes, issuing hand and level, and whether it has started. `bad`
says that the quill holds a word whose parity error its
re-send does not cure (R167), and `fenced` that a brush refused a write it had taken (R190). -/
structure QuillSlot where
  busy : Bool := false
  desc : List W8 := []
  hand : Fin 4 := 0
  level : BitVec 2 := 0
  order : Nat := 0
  started : Bool := false
  err : Bool := false
  ecode : BitVec 6 := 0
  rows : BitVec 24 := 0
  fenced : Bool := false
  qerr : Bool := false
deriving DecidableEq, Repr

/-- The blotter, merging buffer and their registers (R145 to R159, R410). -/
structure Blotter where
  size : BitVec 3 := 0
  pf : Bool := false
  switching : Option (BitVec 3 × Bool) := none
  refused : Bool := false
  badop : Bool := false
  sw0Base : W32 := 0
  sw0Limit : W32 := 0
  sw1Base : W32 := 0
  sw1Limit : W32 := 0
  hits : W32 := 0
  misses : W32 := 0
  perr : W32 := 0
  ways : SMap BlotWay := []
  fills : List Fill := []
  merge : List MergeEntry := []
deriving DecidableEq, Repr

/-- The queue endpoints of a bead (R241 to R250). -/
structure Endpoints where
  sin : SMap (List (W32 × Bool)) := []
  vin : SMap (List Row) := []
  tin : SMap W8 := []
  tout : SMap W8 := []
  soutCred : SMap Nat := []
  voutCred : SMap Nat := []
  toutCred : BitVec 16 := 0
  freed : List (Nat × Nat) := []
  sinClosed : BitVec 8 := 0xFF
  soutClosed : BitVec 8 := 0xFF
  vinClosed : BitVec 4 := 0xF
  voutClosed : BitVec 4 := 0xF
  tokClosed : BitVec 16 := 0xFFFF
  discard : W32 := 0
  vqBind : W32 := 0
  counters : SMap W32 := []
  steerS : Nat := 0
  steerV : Nat := 0
  steerSDir : Option Bool := none
  steerVDir : Option Bool := none
deriving DecidableEq, Repr

/-- The four hands, the hand that issued last (R61), notices and hand-to-hand channels of a bead. -/
structure BeadCore where
  hands : SMap Hand := []
  lastIssue : Fin 4 := 3
  notices : List Notice := []
  chan : SMap (List W64) := []
  cw : SMap W32 := []
  lockup : W32 := 0
  tickHi : W32 := 0
  seq : Nat := 0
deriving DecidableEq, Repr

/-- The bead-wide registers of R91 and R140 that are stored as written. -/
structure BeadRegs where
  ctx : W32 := 0
  commonsBase : W32 := 0
  commonsLimit : W32 := 0
  chanCfg : W32 := 0
  cwLock : W32 := 0
  gateBase : W32 := 0
  gateCount : W32 := 0
  intMask : W32 := 0
  intPend : W32 := 0
  nibGrant : W32 := 0xFFFF
  hstat : W32 := 0
  tileAlloc : W32 := 0
  tcfg : SMap W32 := []
  ngd : SMap W64 := []
  trayCfg : W32 := 0
  trayHead : W32 := 0
  trayTail : W32 := 0
  traySeed : W32 := 0
  slumberLimit : BitVec 24 := 0x100000
  slumberEvent : Bool := false
  slumberDone : Bool := false
  slumberTicks : Nat := 0
  page : W32 := 0
  rule : SMap W32 := []
deriving DecidableEq, Repr

/-- One bead, by logical position (R399). `held` says that it is held after its check wire (R351); `heldWrites` are the
control-space writes, offset and word, that wait at it, oldest first (R124, R146, R246). `rowBad` lists the tile
rows, by 32 × tile + row, that hold a parity error (R140). `route` is the bead's record of its Slate's active ruling as the
switches keep it, which a bead reset leaves (R249, R386); `regs.rule` is what BEAD_RULE_w and the endpoints show of it. -/
structure Bead where
  core : BeadCore := {}
  regs : BeadRegs := {}
  tiles : SMap TileRow := []
  nibCells : SMap Cell := []
  nibGroups : SMap Group := []
  nibDrains : List NibDrain := []
  blot : Blotter := {}
  quills : SMap QuillSlot := []
  quillSeq : Nat := 0
  ends : Endpoints := {}
  bankErrs : SMap (List Nat) := []
  held : Bool := false
  heldWrites : List (Nat × W32) := []
  rowBad : List Nat := []
  route : SMap W32 := []
deriving DecidableEq, Repr

/-- Hand h after a hand reset (R91): hand 0's PC is 0x800 and its level 2; HID is h. -/
def handReset (h : Nat) : Hand :=
  if h = 0 then { pc := 0x800, psw := 2 } else { psw := BitVec.ofNat 32 (0x10000000 * h) }

/-- Bead i (256 × Slate + logical index) after a bead reset: the tray LFSR's seed is 1 + logical index + 256 × Slate
(R240); everything else is at the defaults above. -/
def beadReset (i : Nat) : Bead := { regs := { traySeed := BitVec.ofNat 32 (1 + i) } }

end Sys2Proof.Machine
end

