-- ==== Sys2Proof/Machine/SlateState.lean ====
section
/-! DEFINITION. The state of one brush (R168 to R191) and of one Slate's controller, tally unit, ruling store, slot
fabric and page (R8, R219 to R240, R255 to R273, R308, R400). -/

namespace Sys2Proof.Machine

/-- An order in the order queue: its sixteen words and the status its entry check found, 0 for none (R181). -/
structure QueuedOrder where
  words : List W32
  status : W8 := 0
deriving DecidableEq, Repr

/-- An order that has left the queue and has not completed (R183 to R186): its words, whether it drains, the drain's
summary, its status, the place of a parity error that ended it, and whether its drain has been emitted. -/
structure RunningOrder where
  words : List W32
  drains : Bool := false
  summary : BitVec 5 := 0
  status : W8 := 0
  place : Option W8 := none
  formed : Bool := false
deriving DecidableEq, Repr

/-- One in port of a brush (R179). -/
structure InPort where
  cfg : W32 := 0
  base : W32 := 0
  limit : W32 := 0
  ptr : W32 := 0
deriving DecidableEq, Repr

/-- A write waiting at a brush or held at its memory tap (R170, R177, R188): of a quill, the bead and slot that wait for
it (R164), and the raise of an arrival tally that its row makes once it is performed, as Slate, tally and amount (R266). -/
structure TapWrite where
  pa : Nat
  data : List W8
  quill : Option (Nat × Nat) := none
  count : Option (Nat × Nat × BitVec 48) := none
deriving DecidableEq, Repr

/-- One brush. Of `waiting`, oldest first, the first 16 stand in the brush and the others are held at the memory tap
(R170). `cellBad` lists the accumulator cells that hold a parity error (R189). -/
structure Brush where
  ctx : W32 := 0
  gscale : W32 := 0
  wdog : W32 := 0x100000
  errinfo : W32 := 0
  drops : W32 := 0
  oqovf : Bool := false
  failed : Bool := false
  inPorts : SMap InPort := []
  outBound : W8 := 0
  done : W32 := 0
  crec : SMap W64 := []
  stage : SMap W32 := []
  queue : List QueuedOrder := []
  running : List RunningOrder := []
  groups : SMap Group := []
  cells : SMap Cell := []
  outQ : SMap (List Row) := []
  inFlight : SMap (List (Row × Option (Nat × Nat))) := []
  zeroing : Bool := false
  waiting : List TapWrite := []
  bankErrs : List Nat := []
  cellBad : List Nat := []
deriving DecidableEq, Repr

/-- The three networks of the bead mesh. -/
inductive Net
  | scalar | vector | control
deriving DecidableEq, Repr

/-- A queue unit on its way along a route (R243): source and sink bead and endpoint number, the epoch it was sent in
(R233), and its payload; `last` is the message-end bit, and `held` says that it has reached a steer without a token or an in
slot that is not empty, and waits there (R217; log 42). -/
structure QUnit where
  net : Net
  src : Nat
  srcEp : Nat
  dst : Nat
  dstEp : Nat
  epoch : BitVec 2
  word : W32 := 0
  row : Row := 0
  last : Bool := false
  held : Bool := false
deriving DecidableEq, Repr

/-- A credit on its way back to an out-endpoint (R242, R249). -/
structure Credit where
  net : Net
  src : Nat
  srcEp : Nat
  sink : Nat
  sinkEp : Nat
  closure : Bool := false
deriving DecidableEq, Repr

/-- A raise on its way to the tally unit (R259): physical tally and amount. -/
structure Raise where
  tally : Nat
  amount : BitVec 48
deriving DecidableEq, Repr

/-- A waiter entry of the tally unit (R261). -/
structure Waiter where
  bead : Fin 256
  hand : Fin 4
  tally : Nat
  target : BitVec 48
deriving DecidableEq, Repr

/-- A wake on its way to a hand's latch (R261): the tally and target of the request that it answers, and in `value` what
a TREAD read. -/
structure TallyWakeMsg where
  bead : Fin 256
  hand : Fin 4
  tally : Nat
  target : BitVec 48
  value : Option (BitVec 48)
deriving DecidableEq, Repr

/-- One frame of the ruling store (R224). `source` is the image of the book from which BOOK_LOAD made it, whose circuit
windows in HBM are virtual addresses (R314, R325); empty where the frame was written directly. -/
structure Frame where
  valid : Bool := false
  image : List W8 := []
  bringup : Bool := false
  source : List W8 := []
deriving DecidableEq, Repr

/-- The running state of one slot circuit (R222): the release tally's value at apply, bytes sent and received, and the
beats on the fabric, each with the tally of its Slate and the amount that a Ductus window counts for it, if one does. -/
structure Circuit where
  origin : BitVec 48 := 0
  sent : Nat := 0
  received : Nat := 0
  flight : List (Row × Option (Nat × Nat)) := []
deriving DecidableEq, Repr

/-- The phases of SLATE_PAGE.PHASE (R240's table). -/
inductive Phase
  | idle | running | draining | closing | loading | ready | starting | aborting
deriving DecidableEq, Repr

/-- A segment entry (R227): the device address of its source, which is the copy that BOOK_LOAD made (R325), the kind
and number of its target, the offset there and its length in bytes. -/
structure Seg where
  src : Nat
  kind : Nat
  target : Nat
  dst : Nat
  len : Nat
deriving DecidableEq, Repr

/-- A page descriptor (*Page descriptor*) as its Slate uses it: addresses are device addresses. -/
structure PageDesc where
  number : W16 := 0
  last : Bool := false
  evstart : Bool := false
  frame : Fin 64 := 0
  variants : List W16 := []
  next : Option W16 := none
  doneTally : Option (BitVec 10) := none
  doneTarget : BitVec 48 := 0
  segs : List Seg := []
  orderCounts : List Nat := []
  gscale : List W8 := []
  orders : BitVec 48 := 0
  sched : BitVec 48 := 0
  schedCount : Nat := 0
deriving DecidableEq, Repr

/-- The job a Slate runs (R207, R228): its ring, sequence, context, book and the page in progress. -/
structure SlateJob where
  fn : Fin 16
  ctx : Fin 64
  seq : BitVec 48
  book : Nat
  page : PageDesc
deriving DecidableEq, Repr

/-- A page switch in progress (R231, R232): the page it goes to, the tick at which its close began, which of its steps
have finished, and the stroke of the replay that it serves (R305). -/
structure Switch where
  page : PageDesc
  start : W64 := 0
  closed : Bool := false
  segsDone : Bool := false
  replayAt : Option (BitVec 40) := none
deriving DecidableEq, Repr

/-- A slot window of a Slate (R298): its 32-byte descriptor's words, and while it is open the flits counted and when
it closes. -/
structure Window where
  words : List W32 := []
  isOpen : Bool := false
  flits : Nat := 0
  closesAt : Nat := 0
deriving DecidableEq, Repr

/-- The header of the running page's stroke schedule (R281) and its base stroke (R282). -/
structure Sched where
  held : Bool := false
  sync : Bool := false
  ckpt : Bool := false
  energy : W32 := 0
  ckBase : BitVec 10 := 0
  ckCount : Nat := 0
  base : BitVec 40 := 0
  waitsBase : Bool := false
deriving DecidableEq, Repr

/-- The stall watchdog, dump and slumber registers of a Slate (R256, R271, R272); `moved` says that a unit has left an
in-endpoint or in slot of a ruled rod in this tick (R255). -/
structure SlateWatch where
  stallCfg : W32 := 0x80010000
  fired : Bool := false
  stallCount : BitVec 24 := 0
  moved : Bool := false
  dumpBase : BitVec 48 := 0
  dumpBusy : Bool := false
  dumpDone : Bool := false
  dumpSeq : W16 := 0
  dumpCause : BitVec 3 := 0
  dumpTick : W64 := 0
  dumpStroke : BitVec 40 := 0
  dumpPhase : BitVec 24 := 0
  slumbers : W32 := 0
deriving DecidableEq, Repr

/-- The tally unit of a Slate (R257 to R263). -/
structure TallyUnit where
  map : SMap W32 := []
  values : SMap (BitVec 48) := []
  waiters : List Waiter := []
  raises : List Raise := []
  wakes : List TallyWakeMsg := []
  ckpt : List (Nat × BitVec 48) := []
deriving DecidableEq, Repr

/-- The page, ruling and switch state of a Slate (R224 to R240); `load` is a ruling load into the shadow and whether it
repeats one whose digests differed (R226), and `circuitsOff` says that the Slate is between the end of a close and the next
apply, where no ruled circuit is active (R219). -/
structure PageState where
  phase : Phase := .idle
  epoch : BitVec 2 := 0
  page : W16 := 0
  job : Option SlateJob := none
  switch : Option Switch := none
  active : Option (Fin 64) := none
  shadow : Option (Fin 64) := none
  shadowFrame : Fin 64 := 0
  load : Option (Fin 64 × Bool) := none
  frames : SMap Frame := []
  stale : W32 := 0
  switchTicks : W16 := 0
  paired : BitVec 6 := 0
  circuits : SMap Circuit := []
  circuitsOff : Bool := false
  sched : Sched := {}
  windows : SMap Window := []
deriving DecidableEq, Repr

/-- One Slate. `recovering` says that a bead or brush recovery runs in it (R350, R353); `pendingSite` is the site that
is to be shifted at the next close, and `siteWhy` the site and reason that the recovery's record names (R351). -/
structure Slate where
  tick : W64 := 0
  tickHi : W32 := 0
  offline : Bool := false
  failed : Bool := false
  inReset : Bool := false
  selfTest : Bool := false
  recovering : Bool := false
  freeMask : W16 := 0
  switching : Bool := false
  bgrp : SMap W32 := []
  brushAvail : BitVec 6 := 0x3F
  brushFailed : BitVec 6 := 0
  rodFailed : SMap (BitVec 17) := []
  rodShifting : W16 := 0
  pg : PageState := {}
  watch : SlateWatch := {}
  tallies : TallyUnit := {}
  units : List QUnit := []
  credits : List Credit := []
  pendingSite : Option (Fin 16 × Fin 17) := none
  siteWhy : Option (Fin 17 × SiteReason) := none
deriving DecidableEq, Repr

end Sys2Proof.Machine
end

