-- ==== Sys2Proof/Machine/SpineState.lean ====
section
/-! DEFINITION. The state of the spine: contexts and books, function wells and rings, the ledger and error log, the
stroke unit and Ductus ports, the Scribes, the security and power blocks, and the module's pins. -/

namespace Sys2Proof.Machine

/-- A translation entry (R315): permissions, attributes, kind, device page (address / 2 MiB) and, for a Guarded page,
the device page of its mirror (R345). -/
structure PageEnt where
  r : Bool
  w : Bool
  cache : Bool
  guard : Bool
  kind : Fin 3
  dev : Nat
  mirror : Option Nat := none
deriving DecidableEq, Repr

/-- A context (R313, R314); `pages` is keyed by VA / 2 MiB. -/
structure Ctx where
  owner : Option (Fin 16) := none
  q : BitVec 3 := 0
  dbgen : Bool := false
  pages : SMap PageEnt := []
deriving DecidableEq, Repr

/-- A loaded book (R325): its context, Slate mask, class, the image as loaded, and for each Slate the frames that its
rulings took, the ruling images as written to those frames, which firmware keeps (R378), the segments of each page with
SRC rewritten, and the device pages of its segment copies with their mirrors. -/
structure Book where
  ctx : Fin 64
  mask : BitVec 4
  bringup : Bool
  image : List W8
  frames : List (Nat × List Nat)
  rulings : SMap (SMap Frame)
  segs : List (Nat × Nat × List Seg)
  copies : List (Nat × List (Nat × Option Nat))
deriving DecidableEq, Repr

/-- A submission ring (R326 to R328), kept across resets of the well registers. -/
structure Ring where
  next : BitVec 48 := 1
  accepted : BitVec 48 := 0
  committed : BitVec 48 := 0
  reported : BitVec 48 := 0
deriving DecidableEq, Repr

/-- The binding of a function's rings (R326). -/
structure Binding where
  ctx : Fin 64
  sqLog : Nat
  cqLog : Nat
  eqLog : Nat
  sqVa : BitVec 48
  cqBus : W64
  eqBus : W64
  rsbBus : W64
deriving DecidableEq, Repr

/-- A write to host memory that the device has made: bus address and words. -/
structure HostWrite where
  addr : W64
  words : List W32
deriving DecidableEq, Repr

/-- One function's well registers, rings and PCI Express state (R309, R311 to R318, R326 to R333). `accShown` is WELL_SQ_ACC,
`msix` the words of the MSI-X table but for the mask bits, and `aer` the AER status. -/
structure Fn where
  req : SMap W32 := []
  rsp : SMap W32 := []
  busy : Bool := false
  done : Bool := false
  overrun : Bool := false
  bind : Option Binding := none
  sqTail : W32 := 0
  sqHead : W32 := 0
  halt : Bool := false
  waiting : Bool := false
  reason : W8 := 0
  cqHead : W32 := 0
  cqTail : W32 := 0
  eqHead : W32 := 0
  eqTail : W32 := 0
  eqLost : W32 := 0
  lostOwed : Bool := false
  flr : Bool := false
  apFault : Option (Bool × BitVec 48) := none
  ring : Ring := {}
  accShown : BitVec 48 := 0
  aperture : Option (Fin 64) := none
  bar2Log : Nat := 30
  d3hot : Bool := false
  aer : W32 := 0
  msix : SMap W32 := []
  msixOn : Bool := false
  masked : BitVec 128 := BitVec.allOnes 128
  pba : BitVec 128 := 0
  raised : List (Fin 128) := []
  out : List HostWrite := []
  read : List W8 := []
  dupOut : List (List W32) := []
deriving DecidableEq, Repr

/-- The states of a ledger entry (R342), with the codes of R331. -/
inductive LState
  | accepted | dispatched | running | committed | reported | retired
deriving DecidableEq, Repr

/-- A staged adapter outcome (R208). -/
inductive JobOutcome
  | none | flip | skip
deriving DecidableEq, Repr

/-- A ledger entry (R341). `record` is the count of its completion record in the ring bound now (R331). `busyHeld` says that the job has set BUSY on the tensors of its update list (R207). -/
structure LEntry where
  fn : Fin 16
  seq : BitVec 48
  words : List W32
  state : LState := .accepted
  status : W8 := 0
  slate : Fin 4 := 0
  restarts : BitVec 4 := 0
  ended : Bool := false
  page : W16 := 0
  dispatchStamp : W64 := 0
  commitStamp : W64 := 0
  outcome : JobOutcome := .none
  intent : Bool := false
  detail : W32 := 0
  gens : List W32 := []
  busyHeld : Bool := false
  record : Option W32 := none
deriving DecidableEq, Repr

/-- An error-log record (R359), as its eight words. -/
structure LogRec where
  index : W32
  cause : W8
  severity : BitVec 2
  slate : BitVec 4 := 0xF
  rod : BitVec 4 := 0
  site : BitVec 5 := 0
  kind : BitVec 3 := 0
  number : BitVec 4 := 0
  stamp : W64 := 0
  ctx : Option (BitVec 6) := none
  fn : BitVec 4 := 0
  seq : Option (BitVec 48) := none
  detail : W32 := 0
deriving DecidableEq, Repr

/-- The ledger engine, ledger and error log (R341 to R343, R359), and the firmware region (R315): its first device page
and its size in pages, which the spec leaves open (log 48). -/
structure Ledger where
  entries : List LEntry := []
  epoch : W16 := 1
  ready : Bool := false
  soft : Bool := false
  rollfwd : Bool := false
  primary : BitVec 4 := 0
  mirror : BitVec 4 := 0
  cfg : W32 := 3
  commits : W32 := 0
  restarts : W32 := 0
  log : List LogRec := []
  logIndex : W32 := 0
  fwBase : Nat := 0
  fwPages : Nat := 512
deriving DecidableEq, Repr

/-- The states of the stroke unit (R277), with the codes of STROKE_STAT.STATE. -/
inductive StrokeSt
  | off | acquiring | locked | flywheel | free | held | fenced
deriving DecidableEq, Repr

/-- A checkpoint of a Slate (R302). -/
structure Ckpt where
  page : W16
  tick : BitVec 24
  stroke : BitVec 40
deriving DecidableEq, Repr

/-- A replay that is to start (R305). -/
structure ReplayReq where
  stroke : BitVec 40
deriving DecidableEq, Repr

/-- A control block a port has to send in its next control units (R286, R287). `since` is the port's tick at which a marker
block to be relayed came; an own echo takes LAT, LREQ and the flags of the state at sending, and a ranging block its T1 or
T3, as it leaves. -/
inductive CtlBlock
  | marker (m : Marker) (since : W64)
  | echo (e : Echo)
  | ownEcho (e : Echo)
  | rangeReq (seq : BitVec 4) (t1 : W64)
  | rangeAns (seq : BitVec 4) (t1 t2 t3 : W64)
  | sparing (lane : Fin 5) (count : Bool) (seq : W16)
  | sparingAck (lane : Fin 5) (seq : W16)
  | credit (flits : BitVec 5) (acks : List MgmtAck)
deriving DecidableEq, Repr

/-- The stroke unit's registers and state (R274 to R308). Of the present stroke, `pinErr` is the compensated error of the pin
edge, `block` the error of the marker block's edge and its count, `marked` says that its marker was measured, and `synth` that
it is synthetic. -/
structure Stroke where
  cfg : W32 := 0x00020430
  recovering : Bool := false
  len : BitVec 24 := 0x3E80
  lenNext : Option (BitVec 24) := none
  count : BitVec 40 := 0
  countHi : W8 := 0
  phase : BitVec 24 := 0
  st : StrokeSt := .off
  run : Nat := 0
  fly : Nat := 0
  marked : Bool := false
  pinErr : Option Int := none
  block : Option (Int × BitVec 40) := none
  synth : Bool := false
  slip : Bool := false
  loss : Bool := false
  miss : Bool := false
  late : Bool := false
  echoLate : Bool := false
  heldFlag : Bool := false
  replayx : Bool := false
  strokeMiss : Bool := false
  strokeLate : Bool := false
  prevMiss : Bool := false
  prevLate : Bool := false
  slipNow : Bool := false
  flyNow : Bool := false
  missRec : W32 := 0
  missTaken : Bool := false
  prevRec : W32 := 0
deriving DecidableEq, Repr

/-- The rest of the stroke unit: trim, budgets, schedule entries, checkpoints, the last void and replay acted on, the
Slates whose entries stopped at a close or at a void, the entries that have fired in the stroke, and the Slates that were not
ready for the replay asked for last (R305). -/
structure StrokeAux where
  trim : W16 := 0
  pinAdj : W8 := 0
  pbudget : W16 := 2250
  alloc : W32 := 0x10101010
  voidsTotal : W16 := 0
  consec : W16 := 0
  vstroke : BitVec 40 := 0
  vacted : Option (BitVec 40) := none
  racted : Option (BitVec 40) := none
  echoMax : W16 := 0
  devnum : BitVec 12 := 0
  masterDev : BitVec 12 := 0
  edges : SMap W64 := []
  entries : SMap (List W32) := []
  stopped : BitVec 4 := 0
  ckpts : SMap (Option Ckpt) := []
  voided : BitVec 4 := 0
  fired : List Nat := []
  replayMissed : BitVec 4 := 0
  routes : List W8 := []
deriving DecidableEq, Repr

/-- A management packet a port has sent and not had acknowledged (R336). -/
structure SentPacket where
  pkt : MgmtPacket
  resends : Nat := 0
deriving DecidableEq, Repr

/-- One Ductus port (R287 to R300). `ctlWait` counts the ticks since its last control unit while a block waits, and `ctlTx`
holds the control blocks as sent; `sparing` is the sparing request that awaits its acknowledgement: lane, whether for its error
count, and SEQ; `recovering` holds while a lane's sparing goes on (R350). -/
structure Port where
  cfg : BitVec 4 := 0
  up : Bool := false
  aligned : Bool := false
  failed : Bool := false
  laneFail : BitVec 5 := 0
  spared : BitVec 3 := 7
  delay : W16 := 0
  delayValid : Bool := false
  corr : W32 := 0
  uncorr : W32 := 0
  drop : W32 := 0
  sendBuf : SMap (List Row) := []
  delivBuf : SMap (List (Row × Option (Nat × Nat))) := []
  fwdq : List (List Row) := []
  sendOpen : Option (Fin 4 × Fin 64) := none
  recvOpen : Option (Fin 4 × Fin 64) := none
  dropStreams : List Nat := []
  ranging : SMap W64 := []
  measures : List Nat := []
  credits : Nat := 0
  seen : List (MgmtAck × W64) := []
  sent : List SentPacket := []
  ctl : List CtlBlock := []
  ctlWait : Nat := 0
  ctlTx : List (List W8) := []
  tx : List (List Row) := []
  mgmtQ : List MgmtPacket := []
  mgmtTx : List MgmtPacket := []
  spareSeq : W16 := 0
  sparing : Option (Fin 5 × Bool × W16) := none
  recovering : Bool := false
  ackedSpare : Option (Fin 5 × W16) := none
deriving DecidableEq, Repr

/-- A Scribe's state (SPINE_SCRIBE_STAT): 0 running, 1 rebooting, 2 failed. -/
inductive ScribeSt
  | running | rebooting | failed
deriving DecidableEq, Repr

/-- Spine health, Scribe, group, broadcast and reset registers (R350 to R357, R384, R407). `waits` and `retrains` hold
the Slates whose reset waits for a recovery's end, and those of them whose ports retrain (R385). `lostSlates` holds the
Slates whose stacks were lost with copies that are not mirrored anew yet (R346). -/
structure SpineRegs where
  presence : BitVec 4 := 0xF
  part : W32 := 0x40
  groups : SMap W32 := []
  diverge : Bool := false
  skipped : Bool := false
  bcastPath : BitVec 2 := 0
  bcastWin : BitVec 4 := 0
  bcastAddr : W32 := 0
  dbgBase : BitVec 28 := 0
  primaryB : Bool := false
  scribeA : ScribeSt := .running
  scribeB : ScribeSt := .running
  failovers : W16 := 0
  scribeWd : W32 := 0x1900
  slateWd : W32 := 0x1000
  corr : SMap W32 := []
  warms : W16 := 0
  resetKind : BitVec 3 := 0
  orphan : Bool := false
  mctpIn : List (List W8) := []
  recovering : Bool := false
  exposed : Bool := false
  slateFailed : BitVec 4 := 0
  stackFailed : W8 := 0
  portFailed : BitVec 12 := 0
  lostSlates : BitVec 4 := 0
  journal : List (Fin 16 × W16) := []
  waits : BitVec 4 := 0
  retrains : BitVec 4 := 0
deriving DecidableEq, Repr

/-- A firmware image slot (R365): its bytes, and the verdicts of the digest and signature checks on them. -/
structure FwSlot where
  image : List W8 := []
  digestOk : Bool := false
  sigOk : Bool := false
deriving DecidableEq, Repr

/-- The lifecycle states (R360). -/
inductive Lifecycle
  | blank | openLc | sealed | voided
deriving DecidableEq, Repr

/-- The open debug session (R369, R374): its number, level and path. -/
structure Session where
  number : W16
  level : BitVec 2
  jtag : Bool
deriving DecidableEq, Repr

/-- A debug nonce held for one path (R371): its bytes and the level challenged. -/
structure Nonce where
  bytes : List W8
  level : BitVec 2
deriving DecidableEq, Repr

/-- The security block (R360 to R383). `scrub` holds the TAG of the request that a Factory entry in progress answers
(R372). `burnt` holds the customer key, passphrase digest and configuration that SEAL burnt, until the module reset that
makes them the fields' only value (R361). `uds` is the fuses of the unique device secret, none in Blank, and `fuseLock` the
lock of the port that reads them; `cdi1`, `aliasKey` and `aliasCert` are what the boot ROM left to the firmware, and
`deviceCert` is the DeviceID certificate in the flash (R363). The DeviceID secret is erased once the boot ROM has signed. -/
structure Sec where
  lifecycle : Lifecycle := .openLc
  pendingLc : Option Lifecycle := none
  session : Option Session := none
  scrub : Option W32 := none
  fails : BitVec 3 := 0
  blocked : Bool := false
  romVer : W8 := 1
  svn : BitVec 6 := 0
  fallback : Bool := false
  imageB : Bool := false
  version : W32 := 0
  keyIdx : BitVec 2 := 0
  minSvn : BitVec 6 := 0
  keyRev : BitVec 4 := 0
  denyCount : W32 := 0
  dbgKey : SMap W32 := []
  ppDigest : SMap W32 := []
  fuseCfg : W32 := 0
  burnt : Option (SMap W32 × SMap W32 × W32) := none
  serial : W64 := 0
  opened : W16 := 0
  highest : BitVec 2 := 0
  nextSession : W16 := 1
  nonceWells : Option Nonce := none
  nonceJtag : Option Nonce := none
  keysErased : Bool := false
  uds : List W8 := []
  fuseLock : Bool := false
  deviceCert : List W8 := []
  cdi1 : List W8 := []
  aliasKey : List W8 := []
  aliasCert : List W8 := []
  slotA : FwSlot := {}
  slotB : FwSlot := {}
  selectB : Bool := false
  staged : Option Bool := none
deriving DecidableEq, Repr

/-- The power states of the device (R378); Off is `rails = false` of the pins. -/
inductive PwrSt
  | run | hold | doze | standby
deriving DecidableEq, Repr

/-- Where a command's response goes: a function's command well (R318), an MCTP transport (R335), or the JTAG mailbox
(R370). -/
inductive Via
  | well (fn : Fin 16)
  | mctp (t : Transport)
  | mbox
deriving DecidableEq, Repr

/-- The power block (R378 to R380, R395). `waiter` is the command whose response a transition ends, with its TAG. -/
structure Pwr where
  st : PwrSt := .run
  target : PwrSt := .run
  moving : Bool := false
  waiter : Option (Via × W32) := none
  refuse : W8 := 0
  limit : W16 := 2400
  reserve : W16 := 150
  measured : W16 := 0
  temp : W32 := 0
  therm : BitVec 2 := 0
  forced : Bool := false
deriving DecidableEq, Repr

/-- The module's pins and boot condition (R387 to R392). -/
structure Pins where
  rails : Bool := true
  pwrgd : Bool := true
  inReset : Bool := true
  booted : Bool := false
  bootFailed : Bool := false
  alertN : Bool := true
  lockupA : Bool := false
  lockupB : Bool := false
  thermTripN : Bool := true
  spineFailed : Bool := false
deriving DecidableEq, Repr

/-- The TAP of the debug header (R369, R370): instruction register, bypass and boundary bits, and the last data out. -/
structure Tap where
  ir : W8 := 0xFF
  held : Bool := false
  tdo : W32 := 0
  bypassBit : Bool := false
  boundary : Bool := false
  driven : Option Bool := none
  rsp : List W32 := []
deriving DecidableEq, Repr

/-- The SPDM responder on one transport (R367): the version and algorithms negotiated, and the last response. -/
structure Spdm where
  version : Option W8 := none
  algorithms : Bool := false
  rsp : List W8 := []
deriving DecidableEq, Repr

/-- The last control-space read answered to each debug path, and the last debug-window and MCTP answers. `dumpBusy` says that
the last dump that the debugger asked for was refused with status "busy" (R272). `control` is the last MCTP control response
on each transport and `eid` its endpoint ID (R335). -/
structure Answers where
  bar0 : W32 := 0
  jtag : W32 := 0
  firmware : W32 := 0
  window : List W8 := []
  mctp : SMap (List W32) := []
  atomic : Option W64 := none
  unsupported : Bool := false
  pldm : List W32 := []
  doe : List W32 := []
  dumpBusy : Bool := false
  control : SMap (List W8) := []
  eid : SMap W8 := []
deriving DecidableEq, Repr

end Sys2Proof.Machine
end

