-- ==== Sys2Proof/Machine/State.lean ====
section
/-! DEFINITION. The state of the machine, its faults and refusals, and the state right after power-on reset. -/

namespace Sys2Proof.Machine

/-- A control-space access of a requester that waits (R124, R401): a write of a bead register that is granted and has yet to
take effect, or what the requester issued after it: a word written or read, or an access through the debug memory window. -/
inductive HeldAcc
  | bead (i o : Nat) (v : W32)
  | write (a : CtlPlace) (v : W32)
  | read (a : CtlPlace)
  | window (o n : Nat) (write : Option (List W8))
deriving DecidableEq, Repr

/-- The state of the Ihlyth. `heldAcc` holds the accesses that wait, oldest first, by requester. `mem` holds HBM, folios, reservoirs and ink buffers by device address (R397), in the form
`memWf`: addresses strictly rising and no entry 0; `parity` lists the 32-bit words of `mem` that hold a parity error
(R347, R410); `pending` is the queue of commands. `freeCtr` is the model's own field: the number of the next free
value (log 1). -/
structure State where
  mem : List Host.Cell
  parity : List Nat
  beads : SMap Bead
  brushes : SMap Brush
  slates : SMap Slate
  ports : SMap Port
  ctxs : SMap Ctx
  books : SMap Book
  fns : SMap Fn
  ledger : Ledger
  stroke : Stroke
  aux : StrokeAux
  spine : SpineRegs
  sec : Sec
  pwr : Pwr
  pins : Pins
  tap : Tap
  spdm : SMap Spdm
  answers : Answers
  hbmUsed : List Nat
  vfOn : Bool
  heldAcc : SMap (List HeldAcc)
  freeCtr : Nat
  pending : List Instr
deriving DecidableEq, Repr

/-- The ways in which the model stops with a fault. The spec gives every command an outcome, so no command ends so. -/
inductive Fault
  /-- The state's memory is not in its canonical form: raised by no command; kept as the named stuck state of a state
  that no run reaches (safe). -/
  | badState
deriving DecidableEq, Repr

/-- The ways in which the model refuses a command. -/
inductive Refusal
  /-- A command without a meaning in this model: raised by the arms of Dispatch.lean that name it (safe). -/
  | notModelled (mnemonic : String)
deriving DecidableEq, Repr

/-- The firmware image that stands in slot A after power-on: a header of R365 with FORMAT 1 and version 1 (log 6). -/
def resetImage : List W8 := [0x46, 0x49, 0x52, 0x4D, 0x01, 0, 0, 0, 0, 0, 0, 0, 1, 0, 0, 0]

/-- The machine right after power-on, with PERST_N still low: every register at the reset value its table gives, and
the values named in the log where the tables give none (logs 5 and 6). -/
def State.reset : State where
  mem := []
  parity := []
  beads := []
  brushes := []
  slates := []
  ports := []
  ctxs := []
  books := []
  fns := []
  ledger := {}
  stroke := {}
  aux := {}
  spine := {}
  sec := { slotA := { image := resetImage, digestOk := true, sigOk := true }
           uds := (List.range 64).map (Config.secretByte 5), deviceCert := Config.deviceCert }
  pwr := {}
  pins := {}
  tap := {}
  spdm := []
  answers := {}
  hbmUsed := []
  vfOn := false
  heldAcc := []
  freeCtr := 0
  pending := []

end Sys2Proof.Machine
end

