-- ==== Sys2Proof/Machine/Bits.lean ====
section
/-! DEFINITION. Bit fields, byte order and counting helpers. Multi-byte values are little-endian (*Notation*). -/

namespace Sys2Proof.Machine

/-- Field [hi:lo] of a number. -/
def fld (v : Nat) (hi lo : Nat) : Nat := (v >>> lo) % 2 ^ (hi + 1 - lo)

/-- Bit i of a number. -/
def bitAt (v i : Nat) : Bool := v.testBit i

/-- A word with the bits of mask taken from v and the others from w. -/
def merge32 (w mask v : W32) : W32 := (w &&& ~~~mask) ||| (v &&& mask)

/-- One bit as a word, shifted to its place. -/
def flag (b : Bool) (i : Nat) : W32 := if b then BitVec.ofNat 32 (2 ^ i) else 0

/-- The n low bytes of a number, lowest first. -/
def toBytes : Nat → Nat → List W8
  | 0, _ => []
  | n + 1, v => BitVec.ofNat 8 v :: toBytes n (v / 256)

/-- The number that bytes spell, lowest first. -/
def ofBytes : List W8 → Nat
  | [] => 0
  | b :: bs => b.toNat + 256 * ofBytes bs

/-- The n-byte little-endian value at offset o of a byte list; bytes beyond its end read 0. -/
def leAt (bs : List W8) (o n : Nat) : Nat := ofBytes ((bs.drop o).take n)

/-- The 32-bit word at offset o of a byte list. -/
def wordAt (bs : List W8) (o : Nat) : W32 := BitVec.ofNat 32 (leAt bs o 4)

/-- A list of words as bytes. -/
def wordsBytes (ws : List W32) : List W8 := ws.flatMap (fun w => toBytes 4 w.toNat)

/-- n words read from a byte list. -/
def bytesWords (n : Nat) (bs : List W8) : List W32 := (List.range n).map (fun i => wordAt bs (4 * i))

/-- The bytes of a 512-bit row, byte 0 lowest (R122). -/
def rowBytes (r : Row) : List W8 := toBytes 64 r.toNat

/-- The row that up to 64 bytes spell. -/
def bytesRow (bs : List W8) : Row := BitVec.ofNat 512 (ofBytes bs)

/-- A list cut into pieces of n. -/
def chunks (n : Nat) : Nat → List W8 → List (List W8)
  | 0, _ => []
  | k + 1, bs => bs.take n :: chunks n k (bs.drop n)

/-- Saturating increment of a 32-bit counter register. -/
def satInc (w : W32) : W32 := if w = BitVec.allOnes 32 then w else w + 1

/-- Saturating addition to a 32-bit counter register. -/
def satAdd (w : W32) (n : Nat) : W32 :=
  if w.toNat + n < 2 ^ 32 then BitVec.ofNat 32 (w.toNat + n) else BitVec.allOnes 32

/-- A signed value as an integer wrapped to 64 bits. -/
def int64 (i : Int) : W64 := BitVec.ofInt 64 i

/-- The smallest multiple of n at or above v. -/
def roundUp (n v : Nat) : Nat := (v + n - 1) / n * n

/-- Quotient rounded up. -/
def ceilDiv (a b : Nat) : Nat := (a + b - 1) / b

/-- Whether two half-open ranges share a number. -/
def overlaps (a b : Nat × Nat) : Bool := a.1 < b.2 && b.1 < a.2

/-- A list with element i replaced. -/
def listSet {α : Type} : List α → Nat → α → List α
  | [], _, _ => []
  | _ :: xs, 0, v => v :: xs
  | x :: xs, i + 1, v => x :: listSet xs i v

/-- A list without element i. -/
def listDrop {α : Type} : List α → Nat → List α
  | [], _ => []
  | _ :: xs, 0 => xs
  | x :: xs, i + 1 => x :: listDrop xs i

/-- f applied n times. -/
def iterate {α : Type} (f : α → α) : Nat → α → α
  | 0, x => x
  | n + 1, x => iterate f n (f x)

/-- One step of the CRC-32 of IEEE 802.3 on a byte, bits lowest first (log 7). -/
def crcByte (crc : W32) (b : W8) : W32 :=
  iterate (fun (c : W32) => if c.getLsbD 0 then (c >>> 1) ^^^ 0xEDB88320#32 else c >>> 1) 8 (crc ^^^ b.zeroExtend 32)

/-- The CRC-32 of IEEE 802.3 of a byte list (log 7). -/
def crc32 (bs : List W8) : W32 := ~~~(bs.foldl crcByte (BitVec.allOnes 32))

end Sys2Proof.Machine
end

