-- ==== Sys2Proof/Machine/Mem.lean ====
section
/-! DEFINITION. The device memories (R397): HBM, folios, reservoirs and ink buffers, as one sparse list of bytes keyed
by device address, and the parity bits of its words (R347, R410). An unlisted byte reads 0 (logs 8 and 9). -/

namespace Sys2Proof.Machine

/-- The canonical form of memory: addresses strictly rising, and no byte listed that an unlisted address reads as. -/
def memWf : List Host.Cell → Bool
  | [] => true
  | [(_, b)] => b != 0
  | (a, b) :: (a', b') :: m => b != 0 && a < a' && memWf ((a', b') :: m)

/-- The byte at an address. -/
def memRead : List Host.Cell → Nat → W8
  | [], _ => 0
  | (k, b) :: m, a => if k = a then b else if a < k then 0 else memRead m a

/-- Memory with one byte written, in canonical form. -/
def memWrite : List Host.Cell → Nat → W8 → List Host.Cell
  | [], a, b => if b = 0 then [] else [(a, b)]
  | (k, c) :: m, a, b =>
    if k = a then (if b = 0 then m else (a, b) :: m)
    else if a < k then (if b = 0 then (k, c) :: m else (a, b) :: (k, c) :: m)
    else (k, c) :: memWrite m a b

/-- n bytes from an address up. -/
def memReadN (m : List Host.Cell) (a n : Nat) : List W8 := (List.range n).map (fun i => memRead m (a + i))

/-- Memory with a run of bytes written. -/
def memWriteN : List Host.Cell → Nat → List W8 → List Host.Cell
  | m, _, [] => m
  | m, a, b :: bs => memWriteN (memWrite m a b) (a + 1) bs

/-- Memory with every byte of [lo, hi) zero. -/
def memZero (m : List Host.Cell) (lo hi : Nat) : List Host.Cell := m.filter (fun c => !(lo ≤ c.1 && c.1 < hi))

/-- The parity list after a store of n bytes at a: a word wholly written gets fresh parity, a word partly written keeps
its parity error (R410). -/
def parityStore (p : List Nat) (a n : Nat) : List Nat := p.filter (fun w => !(a ≤ 4 * w && 4 * w + 4 ≤ a + n))

/-- The parity list after [lo, hi) was zeroed. -/
def parityZero (p : List Nat) (lo hi : Nat) : List Nat := p.filter (fun w => !(lo ≤ 4 * w && 4 * w < hi))

/-- The lowest word address in [a, a + n) with a parity error. -/
def parityFind (p : List Nat) (a n : Nat) : Option Nat :=
  (p.filter (fun w => 4 * w < a + n && a < 4 * w + 4)).foldl
    (fun (o : Option Nat) w => match o with | none => some (4 * w) | some v => some (min v (4 * w))) none

/-- A store performed at its home (R267): the bytes and their parity. -/
def storeBytes (s : State) (a : Nat) (bs : List W8) : State :=
  { s with mem := memWriteN s.mem a bs, parity := parityStore s.parity a bs.length }

/-- A range zeroed. -/
def zeroRange (s : State) (lo hi : Nat) : State :=
  { s with mem := memZero s.mem lo hi, parity := parityZero s.parity lo hi }

/-- n bytes read at their home. -/
def loadBytes (s : State) (a n : Nat) : List W8 := memReadN s.mem a n

/-- The little-endian number in n bytes at a. -/
def loadNat (s : State) (a n : Nat) : Nat := ofBytes (loadBytes s a n)

/-- Folio of bead i, by 256 × Slate + logical index (R397, R399). -/
def folioBase (i : Nat) : Nat := 0x010000000000 + (i / 256) * 0x40000000 + (i % 256) * 0x200000

/-- Reservoir of brush k, by 6 × Slate + brush (R397). -/
def reservoirBase (k : Nat) : Nat := 0x011000000000 + (k / 6) * 0x100000000 + (k % 6) * 0x1000000

/-- Ink buffer of brush k, by 6 × Slate + brush (R397). -/
def inkBase (k : Nat) : Nat := 0x019000000000 + (k / 6) * 0x100000000 + (k % 6) * 0x1000000

/-- Where a device address lies (R397): the unit, and the offset within it. -/
inductive Region
  | hbm (stack : Nat) (off : Nat)
  | folio (bead : Nat) (off : Nat)
  | reservoir (brush : Nat) (off : Nat)
  | ink (brush : Nat) (off : Nat)
  | tally (slate : Nat) (off : Nat)
  | control (off : Nat)
  | reserved
deriving DecidableEq, Repr

/-- The device address map of R397. -/
def regionOf (a : Nat) : Region :=
  if a < 0x008000000000 then .hbm (a / 0x1000000000) (a % 0x1000000000)
  else if 0x010000000000 ≤ a && a < 0x010100000000 then
    let o := a - 0x010000000000
    if o % 0x40000000 < 0x20000000 then
      .folio (256 * (o / 0x40000000) + o % 0x40000000 / 0x200000) (o % 0x200000)
    else .reserved
  else if 0x011000000000 ≤ a && a < 0x011400000000 then
    let o := a - 0x011000000000
    if o % 0x100000000 < 0x6000000 then
      .reservoir (6 * (o / 0x100000000) + o % 0x100000000 / 0x1000000) (o % 0x1000000)
    else .reserved
  else if 0x019000000000 ≤ a && a < 0x019400000000 then
    let o := a - 0x019000000000
    if o % 0x100000000 < 0x6000000 && o % 0x1000000 < 0x100000 then
      .ink (6 * (o / 0x100000000) + o % 0x100000000 / 0x1000000) (o % 0x100000)
    else .reserved
  else if 0x012000000000 ≤ a && a < 0x012000010000 then
    let o := a - 0x012000000000
    .tally (o / 0x4000) (o % 0x4000)
  else if 0x018000000000 ≤ a && a < 0x018040000000 then .control (a - 0x018000000000)
  else .reserved

/-- The Slate that a region belongs to, if any. -/
def regionSlate : Region → Option Nat
  | .hbm k _ => some (k / 2)
  | .folio i _ => some (i / 256)
  | .reservoir k _ => some (k / 6)
  | .ink k _ => some (k / 6)
  | .tally t _ => some t
  | .control o => if o < 0x10000000 then some (o / 0x4000000) else none
  | .reserved => none

end Sys2Proof.Machine
end

