-- ==== Sys2Proof/Machine/Access.lean ====
section
/-! DEFINITION. Reading and writing the parts of the state: beads, hands, brushes, Slates, ports, contexts, functions.
Every later definition goes through these. -/

namespace Sys2Proof.Machine

/-- The number of a bead: 256 × Slate + logical index. -/
def beadNo (b : BeadRef) : Nat := 256 * b.slate.val + b.bead.val
/-- The number of a brush: 6 × Slate + brush. -/
def brushNo (k : BrushRef) : Nat := 6 * k.slate.val + k.brush.val

/-- A bead of the state. -/
def getBead (s : State) (i : Nat) : Bead := mapGet beadReset s.beads i
/-- The state with a bead replaced. -/
def putBead (s : State) (i : Nat) (b : Bead) : State := { s with beads := mapPut s.beads i b }
/-- A hand of a bead. -/
def handOf (b : Bead) (h : Nat) : Hand := mapGet handReset b.core.hands h
/-- A bead with one hand replaced. -/
def setHand (b : Bead) (h : Nat) (x : Hand) : Bead :=
  { b with core := { b.core with hands := mapPut b.core.hands h x } }
/-- A hand of the state. -/
def getHand (s : State) (i h : Nat) : Hand := handOf (getBead s i) h
/-- The state with one hand replaced. -/
def putHand (s : State) (i h : Nat) (x : Hand) : State := putBead s i (setHand (getBead s i) h x)
/-- The state with one hand changed by a function. -/
def modHand (s : State) (i h : Nat) (f : Hand → Hand) : State := putHand s i h (f (getHand s i h))
/-- The state with one bead changed by a function. -/
def modBead (s : State) (i : Nat) (f : Bead → Bead) : State := putBead s i (f (getBead s i))

/-- A brush of the state. -/
def getBrush (s : State) (k : Nat) : Brush := mapGet (fun _ => {}) s.brushes k
/-- The state with a brush replaced. -/
def putBrush (s : State) (k : Nat) (b : Brush) : State := { s with brushes := mapPut s.brushes k b }
/-- The state with one brush changed by a function. -/
def modBrush (s : State) (k : Nat) (f : Brush → Brush) : State := putBrush s k (f (getBrush s k))

/-- A Slate of the state. -/
def getSlate (s : State) (t : Nat) : Slate := mapGet (fun _ => {}) s.slates t
/-- The state with a Slate replaced. -/
def putSlate (s : State) (t : Nat) (x : Slate) : State := { s with slates := mapPut s.slates t x }
/-- The state with one Slate changed by a function. -/
def modSlate (s : State) (t : Nat) (f : Slate → Slate) : State := putSlate s t (f (getSlate s t))
/-- The state with a Slate's page state changed by a function. -/
def modPage (s : State) (t : Nat) (f : PageState → PageState) : State :=
  modSlate s t (fun x => { x with pg := f x.pg })
/-- The state with a Slate's tally unit changed by a function. -/
def modTally (s : State) (t : Nat) (f : TallyUnit → TallyUnit) : State :=
  modSlate s t (fun x => { x with tallies := f x.tallies })

/-- A Ductus port of the state. -/
def getPort (s : State) (p : Nat) : Port := mapGet (fun _ => {}) s.ports p
/-- The state with a port replaced. -/
def putPort (s : State) (p : Nat) (x : Port) : State := { s with ports := mapPut s.ports p x }
/-- The state with one port changed by a function. -/
def modPort (s : State) (p : Nat) (f : Port → Port) : State := putPort s p (f (getPort s p))

/-- A context of the state. -/
def getCtx (s : State) (c : Nat) : Ctx := mapGet (fun _ => {}) s.ctxs c
/-- The state with a context replaced. -/
def putCtx (s : State) (c : Nat) (x : Ctx) : State := { s with ctxs := mapPut s.ctxs c x }

/-- A PCI Express function of the state. -/
def getFn (s : State) (f : Nat) : Fn := mapGet (fun _ => {}) s.fns f
/-- The state with a function replaced. -/
def putFn (s : State) (f : Nat) (x : Fn) : State := { s with fns := mapPut s.fns f x }
/-- The state with one function changed by a function. -/
def modFn (s : State) (f : Nat) (g : Fn → Fn) : State := putFn s f (g (getFn s f))

/-- Whether Slate t is present (R4). -/
def slatePresent (s : State) (t : Nat) : Bool := s.spine.presence.getLsbD t
/-- Whether Slate t's crossings are closed (R21). -/
def slateOffline (s : State) (t : Nat) : Bool := (getSlate s t).offline
/-- The present Slates, in ascending order. -/
def presentSlates (s : State) : List Nat := (List.range 4).filter (fun t => slatePresent s t)

/-- The beads of a Slate, by number. -/
def slateBeads (t : Nat) : List Nat := (List.range 256).map (fun i => 256 * t + i)
/-- The brushes of a Slate, by number. -/
def slateBrushes (t : Nat) : List Nat := (List.range 6).map (fun k => 6 * t + k)

/-- The failed sites of a rod (R235). -/
def rodFailed (s : State) (t rod : Nat) : BitVec 17 := mapGet (fun _ => 0) (getSlate s t).rodFailed rod
/-- The sites of a rod that have not failed, ascending (R235). -/
def goodSites (f : BitVec 17) : List Nat := (List.range 17).filter (fun i => !f.getLsbD i)
/-- How many sites of a rod have failed. -/
def failCount (f : BitVec 17) : Nat := 17 - (goodSites f).length
/-- Whether a rod is disabled: three failed sites, or sites 0 and 1 both (R235). -/
def rodDisabled (f : BitVec 17) : Bool := failCount f ≥ 3 || (f.getLsbD 0 && f.getLsbD 1)
/-- Whether a rod is degraded: two failed sites (R235). -/
def rodDegraded (f : BitVec 17) : Bool := failCount f == 2 && !rodDisabled f
/-- The physical site of a logical position, if the position has one (R10, R235). -/
def siteOf (s : State) (t rod pos : Nat) : Option Nat :=
  let f := rodFailed s t rod
  if rodDisabled f then none else if pos < 16 then (goodSites f)[pos]? else none
/-- The logical position a physical site holds, if any. -/
def posOf (s : State) (t rod site : Nat) : Option Nat :=
  (List.range 16).find? (fun p => siteOf s t rod p == some site)
/-- Whether bead i stands on a site of a present Slate. -/
def beadExists (s : State) (i : Nat) : Bool :=
  i < 1024 && slatePresent s (i / 256) && (siteOf s (i / 256) (i % 256 / 16) (i % 16)).isSome

/-- Whether the rod of bead i is in free mode (R14). -/
def inFreeRod (s : State) (i : Nat) : Bool := (getSlate s (i / 256)).freeMask.getLsbD (i % 256 / 16)
/-- Whether a rod is ruled: not free and not disabled. -/
def ruledRod (s : State) (t rod : Nat) : Bool :=
  !(getSlate s t).freeMask.getLsbD rod && !rodDisabled (rodFailed s t rod)
/-- The beads of a Slate's ruled rods. -/
def ruledBeads (s : State) (t : Nat) : List Nat :=
  (slateBeads t).filter (fun i => ruledRod s t (i % 256 / 16) && beadExists s i)

/-- PSW.PL (R74, R91). -/
def pswPl (w : W32) : Nat := fld w.toNat 1 0
/-- PSW.LD. -/
def pswLd (w : W32) : Nat := fld w.toNat 22 20
/-- PSW.OVE. -/
def pswOve (w : W32) : Bool := w.getLsbD 9
/-- PSW.DZE. -/
def pswDze (w : W32) : Bool := w.getLsbD 8
/-- A PSW with another level. -/
def pswSetPl (w : W32) (l : Nat) : W32 := merge32 w 3 (BitVec.ofNat 32 l)
/-- A PSW with another loop depth. -/
def pswSetLd (w : W32) (l : Nat) : W32 := merge32 w 0x700000 (BitVec.ofNat 32 (l * 0x100000))
/-- The writable fields of PSW as software restores them: every field but HID and the reserved bits (R88, R89). -/
def pswRestore (old v : W32) : W32 := merge32 (merge32 0 0x007F0303 v) 0x30000000 old

/-- The loop level n of a hand. -/
def loopOf (x : Hand) (n : Nat) : LoopLv := mapGet (fun _ => {}) x.loops n
/-- A hand with loop level n replaced. -/
def setLoop (x : Hand) (n : Nat) (l : LoopLv) : Hand := { x with loops := mapPut x.loops n l }

/-- The code of a wait in STATE.WAIT (R91). -/
def waitCode : WaitKind → Nat
  | .twait => 0 | .sleep => 1 | .crecv => 2 | .csend => 3 | .nwait => 4
/-- The code of a stop in STATE.WAIT (R91). -/
def stopCode : StopKind → Nat
  | .fault => 0 | .keeper => 1 | .hstop => 2 | .brk => 3
/-- STATE.ST and STATE.WAIT of a hand state (R64, R91). -/
def stCodes : HandSt → Nat × Nat
  | .idle => (0, 0)
  | .running => (1, 0)
  | .sleeping w => (2, waitCode w)
  | .stopped k => (3, stopCode k)
  | .halted .sleeping => (4, waitCode .sleep)
  | .halted (.stopped k) => (4, stopCode k)
  | .halted _ => (4, 0)
  | .locked => (5, 0)

/-- The context bound to a bead (BEAD_CTX), if any. -/
def beadCtx (b : Bead) : Option Nat := if b.regs.ctx.getLsbD 31 then some (fld b.regs.ctx.toNat 5 0) else none
/-- The context bound to a brush (BRUSH_k_CTX), if any. -/
def brushCtx (b : Brush) : Option Nat := if b.ctx.getLsbD 31 then some (fld b.ctx.toNat 5 0) else none

/-- The banks that operate as blotter for a SIZE start here (R145): 32 where there is none. -/
def blotterBank (size : Nat) : Nat := 32 - 2 * size
/-- Whether a folio address lies in a bank operating as blotter (R145). -/
def inBlotter (b : Bead) (a : Nat) : Bool := blotterBank b.blot.size.toNat ≤ a / 0x10000 && a < 0x200000

/-- The Slate tick counter of a bead's Slate (R67). -/
def slateTick (s : State) (i : Nat) : W64 := (getSlate s (i / 256)).tick

/-- The next free value, and the state with the counter advanced (log 1). -/
def freeBits (s : State) : W64 × State := (Config.freeValue s.freeCtr, { s with freeCtr := s.freeCtr + 1 })

/-- The stamp stroke:tick as one 64-bit word, [63:24] stroke and [23:0] tick (R331, R333). -/
def stampNow (s : State) : W64 := s.stroke.count.zeroExtend 64 <<< 24 ||| s.stroke.phase.zeroExtend 64

/-- The severity of each error-log cause (R359). -/
def logSeverity (cause : Nat) : BitVec 2 :=
  if cause ∈ [0x06, 0x09] then 0
  else if cause ∈ [0x01, 0x02, 0x03, 0x04, 0x07, 0x08, 0x0B, 0x0C, 0x11, 0x13] then 1 else 2

/-- A record added to the error log; a full log of 4,096 records drops its oldest (R359). -/
def appendLog (l : List LogRec) (r : LogRec) : List LogRec :=
  if l.length < 4096 then l ++ [r] else l.drop 1 ++ [r]

/-- An error-log record written (R359): INDEX counts from the log's creation. Stamp and severity are filled in here. -/
def logRecord (s : State) (r : LogRec) : State :=
  let r := { r with index := s.ledger.logIndex, severity := logSeverity r.cause.toNat, stamp := stampNow s }
  { s with ledger := { s.ledger with log := appendLog s.ledger.log r, logIndex := s.ledger.logIndex + 1 } }

end Sys2Proof.Machine
end

