-- ==== Sys2Proof/Machine/Mesh.lean ====
section
/-! DEFINITION. The bead mesh's static channels (R212 to R217): the active bead records, the routes they set, and
the units and credits that travel on them. -/

namespace Sys2Proof.Machine

/-- Word w of a bead's active record (BEAD_RULE_w), as a number. -/
def ruleWord (b : Bead) (w : Nat) : Nat := (mapGet (fun _ => 0) b.regs.rule w).toNat

/-- Word w of the record that a bead's switches keep (R212, R386), as a number. -/
def routeWord (b : Bead) (w : Nat) : Nat := (mapGet (fun _ => 0) b.route w).toNat

/-- The select code of output o of a bead's switch (*Bead record*: SSW, VSW, CSW). -/
def switchSel (b : Bead) (n : Net) (o : Nat) : Nat :=
  match n with
  | .scalar => fld (routeWord b 2 + routeWord b 3 * 2 ^ 32) (4 * o + 3) (4 * o)
  | .vector => fld (routeWord b 4 + routeWord b 5 * 2 ^ 32) (4 * o + 3) (4 * o)
  | .control => fld (routeWord b (6 + o / 4)) (8 * (o % 4) + 4) (8 * (o % 4))

/-- The steer word of a network's switch, if the network has a steer and it is valid (R217). -/
def steerWord (b : Bead) (n : Net) : Option Nat :=
  match n with
  | .scalar => if bitAt (routeWord b 12) 31 then some (routeWord b 12) else none
  | .vector => if bitAt (routeWord b 13) 31 then some (routeWord b 13) else none
  | .control => none

/-- Where a unit enters the mesh, or leaves a steer. -/
inductive Origin
  | ep (bead : Nat) (code : Nat)
  | steer (bead : Nat) (branch : Bool)
  | counter (bead : Nat) (k : Nat)
deriving DecidableEq, Repr

/-- The bit of SLATE_XCH_STAT for channel c of a network. -/
def netNo : Net → Nat
  | .scalar => 0 | .vector => 1 | .control => 2

/-- The crossing declaration of a ruling image for channel c of network n: peer Slate and channel (R214, R224). -/
def xchPeer (img : List W8) (n : Net) (c : Nat) : Option (Nat × Nat) :=
  let v := leAt img (0x20 + 2 * netNo n + c) 1
  if bitAt v 0 then some (fld v 2 1, fld v 3 3) else none

/-- The image of a Slate's active ruling; empty where none is applied. -/
def activeImage (s : State) (t : Nat) : List W8 :=
  match (getSlate s t).pg.active with
  | none => []
  | some f => (mapGet (fun _ => {}) (getSlate s t).pg.frames f.val).image

/-- The origin that feeds select code c at bead i, traced through the links (R212, R214). Fuel bounds the hops. -/
def traceBack (s : State) (n : Net) : Nat → Nat → Nat → Option Origin
  | 0, _, _ => none
  | fuel + 1, i, c =>
    let t := i / 256
    let rod := i % 256 / 16
    let pos := i % 16
    let link (ok : Bool) (j o : Nat) : Option Origin :=
      if ok then traceBack s n fuel j (switchSel (getBead s j) n o) else none
    if c = 1 then link (pos < 15) (i + 1) 1
    else if c = 2 then link (0 < pos) (i - 1) 0
    else if c = 3 then link (rod < 15) (i + 16) 3
    else if c = 4 then link (0 < rod) (i - 16) 2
    else if c = 5 then
      if pos = 0 ∧ (rod = 7 ∨ rod = 8) then
        if (getSlate s t).pg.paired.getLsbD (2 * netNo n + (rod - 7)) then
          match xchPeer (activeImage s t) n (rod - 7) with
          | some (p, ch) => link true (256 * p + 16 * (7 + ch)) 4
          | none => none
        else none
      else none
    else if n ≠ .control ∧ (c = 6 ∨ c = 7) then some (.steer i (c = 7))
    else match n with
      | .scalar => if 8 ≤ c ∧ c ≤ 15 then some (.ep i (c - 8)) else none
      | .vector => if 8 ≤ c ∧ c ≤ 11 then some (.ep i (c - 8)) else none
      | .control => if 8 ≤ c ∧ c ≤ 23 then some (.ep i (c - 8))
          else if 24 ≤ c ∧ c ≤ 31 then some (.counter i (c - 24)) else none

/-- More hops than any route has: every switch of the device passed once. -/
def hopFuel : Nat := 1100

/-- The local sinks of a network. -/
def sinkCount : Net → Nat
  | .scalar => 8 | .vector => 4 | .control => 16

/-- The endpoint number that stands for a bead's steer among the stops of a unit. -/
def steerStop : Nat := 64

/-- The stops that units of one origin reach next: in-endpoints, in slots and steers (R215, R217). -/
def nextStops (s : State) (n : Net) (o : Origin) : List (Nat × Nat) :=
  (s.beads.filter (fun p => p.2.route != [])).flatMap (fun p =>
    let eps := (List.range (sinkCount n)).filter (fun e =>
      traceBack s n hopFuel p.1 (switchSel p.2 n (5 + e)) == some o)
    let st := match steerWord p.2 n with
      | some w => if traceBack s n hopFuel p.1 (fld w 3 0) == some o then [steerStop] else []
      | none => []
    (eps ++ st).map (fun e => (p.1, e)))

/-- Every stop an out-endpoint's units can reach in the end, steers resolved both ways (R215). -/
def routeSinks (s : State) (n : Net) : Nat → Origin → List (Nat × Nat)
  | 0, _ => []
  | fuel + 1, o => (nextStops s n o).flatMap (fun st =>
      if st.2 = steerStop then routeSinks s n fuel (.steer st.1 false) ++ routeSinks s n fuel (.steer st.1 true)
      else [st])

/-- The out-endpoint or counter behind an origin, steers passed through. -/
def upSource (s : State) (n : Net) : Nat → Option Origin → Option Origin
  | 0, _ => none
  | fuel + 1, some (.steer b _) =>
    match steerWord (getBead s b) n with
    | some w => upSource s n fuel (traceBack s n hopFuel b (fld w 3 0))
    | none => none
  | _ + 1, o => o

/-- The out-endpoint or counter that feeds a sink, steers passed through. -/
def sinkSource (s : State) (n : Net) (bead ep : Nat) : Option Origin :=
  upSource s n 64 (traceBack s n hopFuel bead (switchSel (getBead s bead) n (5 + ep)))

/-- The credits that one unit leaving a sink sends back (R242): one to the out-endpoint that feeds it. -/
def creditFor (s : State) (n : Net) (bead ep : Nat) (closure : Bool) : List (Nat × Credit) :=
  match sinkSource s n bead ep with
  | some (.ep b c) => [(b / 256, ⟨n, b, c, bead, ep, closure⟩)]
  | _ => []

/-- Credits put on their way, each kept with the Slate of its out-endpoint. -/
def addCredits (s : State) (cs : List (Nat × Credit)) : State :=
  cs.foldl (fun s p => modSlate s p.1 (fun x => { x with credits := x.credits ++ [p.2] })) s

/-- n credits of one sink put on their way. Units that left a sink of a ruled rod, a closed one
included (R242), are noted for the stall watchdog (R255). -/
def returnCredits (s : State) (net : Net) (bead ep n : Nat) (closure : Bool) : State :=
  let s := addCredits s ((List.replicate n (creditFor s net bead ep closure)).flatten)
  if n = 0 || inFreeRod s bead then s
  else modSlate s (bead / 256) (fun x => { x with watch := { x.watch with moved := true } })

/-- The unit of one send put on its way to each next stop, in the epoch of the sender's Slate (R233, R243). -/
def launch (s : State) (n : Net) (o : Origin) (bead ep : Nat) (word : W32) (row : Row) (last : Bool) : State :=
  let e := (getSlate s (bead / 256)).pg.epoch
  (nextStops s n o).foldl (fun s st =>
    modSlate s (bead / 256) (fun x =>
      { x with units := x.units ++ [⟨n, bead, ep, st.1, st.2, e, word, row, last, false⟩] })) s

/-- Closing in-endpoints and in slots (R248): they discard the units they hold, count them and return their credits. -/
def closeIns (s : State) (i : Nat) (sin : BitVec 8) (vin : BitVec 4) (tok : BitVec 16) : State :=
  let b := getBead s i
  let e := b.ends
  let ss := (List.range 8).filter (fun k => sin.getLsbD k && !e.sinClosed.getLsbD k)
  let vs := (List.range 4).filter (fun k => vin.getLsbD k && !e.vinClosed.getLsbD k)
  let ts := (List.range 16).filter (fun k => tok.getLsbD k && !e.tokClosed.getLsbD k)
  let nS := fun k => (mapGet (fun _ => []) e.sin k).length
  let nV := fun k => (mapGet (fun _ => []) e.vin k).length
  let nT := fun k => if (mapFind e.tin k).isSome then 1 else 0
  let total := (ss.map nS).sum + (vs.map nV).sum + (ts.map nT).sum
  let s := ss.foldl (fun s k => returnCredits s .scalar i k (nS k) false) s
  let s := vs.foldl (fun s k => returnCredits s .vector i k (nV k) false) s
  let s := ts.foldl (fun s k => returnCredits s .control i k (nT k) false) s
  modBead s i (fun b => { b with ends := { b.ends with
    sin := mapDropWhere b.ends.sin (fun k => sin.getLsbD k)
    vin := mapDropWhere b.ends.vin (fun k => vin.getLsbD k)
    tin := mapDropWhere b.ends.tin (fun k => tok.getLsbD k)
    sinClosed := b.ends.sinClosed ||| sin
    vinClosed := b.ends.vinClosed ||| vin
    tokClosed := b.ends.tokClosed ||| tok
    discard := satAdd b.ends.discard total } })

/-- Every endpoint of a bead closed: bead reset, lockup (R90, R248). -/
def closeAll (s : State) (i : Nat) : State :=
  let s := closeIns s i (BitVec.allOnes 8) (BitVec.allOnes 4) (BitVec.allOnes 16)
  modBead s i (fun b => { b with ends := { b.ends with
    soutClosed := BitVec.allOnes 8, voutClosed := BitVec.allOnes 4 } })

/-- Whether token slot k of a bead is an in slot of the active record (TOKDIR). -/
def tokIsIn (b : Bead) (k : Nat) : Bool := bitAt (ruleWord b 1) k

end Sys2Proof.Machine
end

