-- ==== Sys2Proof/Machine/Ops.lean ====
section
/-! DEFINITION. The operations that many commands share: waking a hand, posting a notice, setting an interrupt, taking
a fault (R76 to R79), lockup (R90), aborting a staged message (R245), hand and bead reset (R384, R386). -/

namespace Sys2Proof.Machine

/-- A sleeping hand woken with a STATE.WAKE code (R66); a hand in any other state is unchanged. -/
def wakeHand (x : Hand) (code : BitVec 3) : Hand :=
  match x.st with
  | .sleeping _ => { x with st := .running, wake := code }
  | _ => x

/-- The SCAUSE word of a fault (R91). -/
def scauseOf (f : FaultRec) : W32 :=
  f.slot.zeroExtend 32 <<< 13 ||| flag f.imprecise 12 ||| flag f.dev 11 ||| f.len.zeroExtend 32 <<< 8
    ||| f.cause.zeroExtend 32

/-- A hand that no longer holds a line: its fetch buffer and any open line are discarded. -/
def dropLine (x : Hand) : Hand := { x with line := [], heldLine := [], openLine := none }

/-- The requests that a hand leaves behind when it gives up its lines in flight: loads are discarded, stores and atomics
already sent stay on their way, and nothing is delivered (R84, R90). -/
def sentOnly (l : List DevReq) : List DevReq :=
  (l.filter (fun r => match r.op with | .load .. => false | _ => true)).map (fun r => { r with dead := true })

/-- Lockup of a bead (R90): every hand Locked with its lines in flight abandoned, endpoints closed, BEAD_LOCKUP set;
entry says that the fault was raised during entry to sentinel level. -/
def lockup (s : State) (i h : Nat) (cause : W8) (entry : Bool) : State :=
  let s := closeAll s i
  modBead s i (fun b =>
    let b := (List.range 4).foldl (fun b k =>
      let x := dropLine (handOf b k)
      setHand b k { x with st := .locked, reqs := sentOnly x.reqs, steal := none }) b
    let w := flag entry 16 ||| cause.zeroExtend 32 <<< 8 ||| BitVec.ofNat 32 (h * 16) ||| 1
    { b with core := { b.core with lockup := w } })

/-- An uncured parity error of a folio bank of bead i noted with its tick: the last two of each bank count (R351). -/
def noteBank (s : State) (i bank : Nat) : State :=
  let tick := (slateTick s i).toNat
  modBead s i (fun b =>
    let l := tick :: (mapGet (fun _ => []) b.bankErrs bank).take 1
    { b with bankErrs := mapPut b.bankErrs bank l })

/-- A fault taken by hand h of bead i at a level where no hand can be stopped for it (R76): the hand enters the sentinel
vector of the cause with the level-2 save set written (R79), or the bead locks up where it stands at sentinel level. -/
def takeInside (s : State) (i h : Nat) (spc : W32) (f : FaultRec) : State :=
  let x := getHand s i h
  if pswPl x.psw ≥ 2 then
    lockup s i h f.cause
      (f.slot = 7 ∧ f.cause ≠ 1 ∧ x.pc = x.save2.scause <<< 6 &&& 0x3FC0)
  else
    putHand s i h { dropLine x with
      st := .running, save2 := ⟨spc, x.psw, scauseOf f, f.sfa⟩, psw := pswSetPl (x.psw &&& ~~~0x300) 2,
      pc := f.cause.zeroExtend 32 <<< 6 }

/-- An uncured parity error of the own folio noted against its bank (R351). -/
def noteFault (s : State) (i : Nat) (f : FaultRec) : State :=
  if f.cause = 6 ∧ !f.dev then noteBank s i (f.sfa.toNat / 0x10000) else s

/-- The oldest imprecise fault held for hand 0 taken as it becomes Running (R411), which stops it nowhere. -/
def deliverSupervisor (s : State) (i : Nat) : State :=
  let x := getHand s i 0
  match x.heldFaults with
  | f :: fs =>
    if x.st = .running ∧ x.openLine.isNone then
      takeInside (noteFault (putHand s i 0 { x with heldFaults := fs }) i f) i 0 x.pc f
    else s
  | [] => s

/-- A bead whose slumber has ended, as one of its hands no longer sleeps: a new slumber counts and reports anew (R271). -/
def endSlumber (b : Bead) : Bead := { b with regs := { b.regs with slumberDone := false, slumberTicks := 0 } }

/-- A notice queued (R80, R82): it replaces, in place and with MERGED set, a queued notice of its source; its posting
wakes hand 0 from NWAIT, which then takes a fault held for it (R411). -/
def postNotice (s : State) (i : Nat) (n : Notice) : State :=
  let b := getBead s i
  let queued := b.core.notices.any (fun m => m.source == n.source)
  let n' := if queued then { n with word0 := n.word0 ||| 1 } else n
  let ns := if queued then b.core.notices.map (fun m => if m.source = n.source then n' else m)
    else b.core.notices ++ [n']
  let b := { b with core := { b.core with notices := ns } }
  let x := handOf b 0
  if x.st = .sleeping .nwait then deliverSupervisor (putBead s i (endSlumber (setHand b 0 (wakeHand x 4)))) i
  else putBead s i b

/-- Word 0 of a notice (R80). -/
def noticeWord0 (kind hand code : Nat) (scause : W32) : W32 :=
  BitVec.ofNat 32 (kind * 2 ^ 28 + hand * 2 ^ 24 + code * 2 ^ 16) ||| (scause &&& 0xFF00)

/-- The tick that a notice's word 3 carries (R80). -/
def noticeTick (s : State) (i : Nat) : W32 := (slateTick s i).truncate 32

/-- The stop notice of hand h, kinds 0, 1, 4 and 5 (R80). -/
def stopNotice (s : State) (i h kind : Nat) (code : Nat) (scause w1 w2 : W32) : State :=
  postNotice s i ⟨h, noticeWord0 kind h code scause, w1, w2, noticeTick s i⟩

/-- An interrupt notice of source bit k (R80, R81). -/
def intNotice (s : State) (i k : Nat) (detail : W32) : State :=
  postNotice s i ⟨8 + k, noticeWord0 2 0 k 0, 0, detail, noticeTick s i⟩

/-- Source bit k of BEAD_INT_PEND set: a notice is posted when the bit changes from 0 to 1 while its MASK bit is 1
(R81). -/
def setInterrupt (s : State) (i k : Nat) (detail : W32) : State :=
  let b := getBead s i
  if b.regs.intPend.getLsbD k then s
  else
    let s := modBead s i (fun b => { b with regs := { b.regs with intPend := b.regs.intPend ||| flag true k } })
    if b.regs.intMask.getLsbD k then intNotice s i k detail else s

/-- BEAD_INT_PEND source bits (R91). -/
def intPage : Nat := 0
@[inherit_doc intPage] def intCtxLeave : Nat := 1
@[inherit_doc intPage] def intDump : Nat := 2
@[inherit_doc intPage] def intQerr : Nat := 3
@[inherit_doc intPage] def intEvent : Nat := 4
@[inherit_doc intPage] def intStall : Nat := 5
@[inherit_doc intPage] def intXparity : Nat := 6
@[inherit_doc intPage] def intDebug : Nat := 7

/-- A source bit of BEAD_INT_PEND set by the hardware, where the spec gives no source detail for the notice (log 38). -/
def raiseInt (s : State) (i k : Nat) : State :=
  let (v, s) := freeBits s
  setInterrupt s i k (v.truncate 32)

/-- A fault taken by hand h of bead i (R76): the save set of the level entered is written with spc, and the hand is
Stopped with a notice (user level), enters the sentinel vector (keeper level, R79) or locks the bead up. -/
def takeFault (s : State) (i h : Nat) (spc : W32) (f : FaultRec) : State :=
  let s := noteFault s i f
  let x := getHand s i h
  if pswPl x.psw ≥ 1 ∨ h = 0 then takeInside s i h spc f
  else
    let brk := f.cause = 0x0D
    let s := putHand s i h { dropLine x with
      st := .stopped (if brk then .brk else .fault), save1 := ⟨spc, x.psw, scauseOf f, f.sfa⟩ }
    stopNotice s i h (if brk then 5 else 0) f.cause.toNat (scauseOf f) spc f.sfa

/-- Whether hand h stands at the vector of the keeper-level fault that it has just taken (R79). -/
def atVector (x : Hand) : Bool :=
  x.st == .running && pswPl x.psw == 2 && x.line.isEmpty && x.openLine.isNone
    && x.pc == (x.save2.scause &&& 0xFF) <<< 6 && x.save2.scause &&& 0xFF != 0x20

/-- What the sentinel image does with a keeper-level fault of hands 1 to 3 (R64, R80, R86): the hand is Stopped and a
KIND 1 notice carries the level-2 save set. The level-1 save set, through which HRESUME returns the hand to its gate
caller, and ACC stand. -/
def sentinelStops (s : State) (i h : Nat) : State :=
  let x := getHand s i h
  if h ≠ 0 && atVector x then
    let s := putHand s i h { x with st := .stopped .keeper }
    stopNotice s i h 1 (fld x.save2.scause.toNat 7 0) x.save2.scause x.save2.spc x.save2.sfa
  else s

/-- A staged message discarded, its credits returned and the send port released (R245). -/
def abortStaged (s : State) (i h : Nat) : State :=
  let x := getHand s i h
  match x.staged with
  | none => s
  | some m =>
    let s := putHand s i h { x with staged := none }
    modBead s i (fun b => { b with ends := { b.ends with
      soutCred := mapPut b.ends.soutCred m.ep.val
        (mapGet (fun _ => 0) b.ends.soutCred m.ep.val + m.words.length) } })

/-- The waiter entry and latch of a hand cancelled (R261). -/
def cancelWait (s : State) (i h : Nat) : State :=
  let s := modTally s (i / 256) (fun t => { t with
    waiters := t.waiters.filter (fun w => !(w.bead.val == i % 256 && w.hand.val == h))
    wakes := t.wakes.filter (fun w => !(w.bead.val == i % 256 && w.hand.val == h)) })
  modHand s i h (fun x => { x with latch := {} })

/-- The in-endpoints and in slots that a hand's fire gate names are closed when the hand becomes Idle by HKILL or by
hand reset, while FIRE_PC.EN = 1 (R248 point 4). -/
def closeGateIns (s : State) (i h : Nat) : State :=
  let x := getHand s i h
  if x.firePc.getLsbD 31 then
    let b := getBead s i
    let ins := (List.range 16).foldl (fun (w : BitVec 16) k => if tokIsIn b k then w ||| BitVec.ofNat 16 (2 ^ k) else w) 0
    closeIns s i (x.fireQ.truncate 8) ((x.fireQ >>> 8).truncate 4) ((x.fireTok.truncate 16) &&& ins)
  else s

/-- A masked write of one merging-buffer entry at its home, and at its mirror (R154, R345). A word whose four bytes are
all in the entry is written as a word, so that it gets fresh parity (R410). -/
def writeEntry (s : State) (m : MergeEntry) : State :=
  let both (s : State) (k : Nat) (bs : List W8) : State :=
    let s := storeBytes s (64 * m.line + k) bs
    match m.mirror with
    | some q => storeBytes s (64 * q + k) bs
    | none => s
  (List.range 16).foldl (fun s w =>
    if (m.mask >>> (4 * w)) &&& 0xF = 0xF then both s (4 * w) ((m.data.drop (4 * w)).take 4)
    else (List.range 4).foldl (fun s k =>
      if m.mask.getLsbD (4 * w + k) then both s (4 * w + k) ((m.data.drop (4 * w + k)).take 1) else s) s) s

/-- The merging buffer of a bead drained to memory (R154, R159). -/
def drainMerge (s : State) (i : Nat) : State :=
  let s := (getBead s i).blot.merge.foldl writeEntry s
  modBead s i (fun b => { b with blot := { b.blot with merge := [] } })

/-- A context number as the VALID word of BEAD_CTX and BRUSH_k_CTX. -/
def ctxWord (c : Nat) : W32 := BitVec.ofNat 32 (0x80000000 + c)

/-- A raise of a physical tally on its way to the tally unit of Slate t (R259). -/
def queueRaise (s : State) (t tally : Nat) (amount : BitVec 48) : State :=
  modTally s t (fun u => { u with raises := u.raises ++ [⟨tally, amount⟩] })

/-- The block of a context in a Slate's tally unit: base and size, where it holds one (R257). -/
def tallyBlock (s : State) (t c : Nat) : Option (Nat × Nat) :=
  let w := mapGet (fun _ => (0 : W32)) (getSlate s t).tallies.map c
  if w.getLsbD 31 then some (64 * fld w.toNat 21 16, 64 * 2 ^ fld w.toNat 2 0) else none

/-- The physical tally of a virtual identifier (R257). -/
def tallyOf (s : State) (t c v : Nat) : Option Nat :=
  match tallyBlock s t c with
  | some (base, n) => if v < n then some (base + v) else none
  | none => none

/-- A tally's value. -/
def tallyValue (s : State) (t p : Nat) : BitVec 48 := mapGet (fun _ => 0) (getSlate s t).tallies.values p

/-- Whether a value satisfies a target (R258). -/
def tallyMeets (v target : BitVec 48) : Bool := (v - target).toNat < 2 ^ 47

end Sys2Proof.Machine
end

