-- ==== Sys2Proof/Machine/Operands.lean ====
section
/-! DEFINITION. The glyphs as R92 encodes them: slot, opcode, operand form and the items each reads and writes; the
operand forms of R92, R99 to R102, R113 and R121; and the checks and accesses of memory operands. -/

namespace Sys2Proof.Machine

/-- The operand forms, with what each opcode accepts of them (R92, R102, R121). `m`, `mk`, `k`, `ml`, `md` are form M
with the modes of R102; `r` names the fields of form R that the opcode uses, what SP means (0 unused, 1 a condition,
2 a part) and whether DP is used. `unlisted` is that of a word whose opcode its slot does not list (R93, R120). -/
inductive Form
  | m | mk | k | k16 | ml | md
  | num (bits : Nat)
  | tally
  | c | cz | c0
  | l | l0
  | z
  | r (td ta tb : Bool) (sp : Nat) (dp : Bool)
  | t (store : Bool)
  | g
  | unlisted
deriving DecidableEq, Repr

/-- A glyph: its hand, STOP bit, slot, opcode and operand field, its form, and the items it writes and reads, as sums
of 1 ACC, 2 X0, 4 X1, 8 FP, 16 flags (R94). Items read through an addressing mode are added by `glyphReads`. -/
structure Glyph where
  hand : HandRef
  stop : Bool
  slot : Nat
  op : Nat
  opd : BitVec 22
  form : Form
  writes : BitVec 5
  reads : BitVec 5
deriving DecidableEq, Repr

/-- The item bit of an index register. -/
def xbit : XReg → BitVec 5
  | .x0 => 2 | .x1 => 4
/-- The opcode of an A glyph with two forms: the X1 form is the X0 opcode plus 1 (R106). -/
def xop (op : Nat) : XReg → Nat
  | .x0 => op | .x1 => op + 1

/-- The glyph that a glyph command stands for (R106, R107, R109, R111, R132, R140). -/
def glyphOf (c : Instr) : Option Glyph :=
  match c with
  | .xld h st x o => some ⟨h, st, 0, xop 0x02 x, o, .m, (xbit x), 0⟩
  | .xst h st x o => some ⟨h, st, 0, xop 0x04 x, o, .m, 0, (xbit x)⟩
  | .xaddi h st x o => some ⟨h, st, 0, xop 0x06 x, o, .k, (xbit x), (xbit x)⟩
  | .xlea h st x o => some ⟨h, st, 0, xop 0x08 x, o, .ml, (xbit x), 0⟩
  | .xmuli h st x o => some ⟨h, st, 0, xop 0x0A x, o, .k, (xbit x), (xbit x)⟩
  | .xacc h st x o => some ⟨h, st, 0, xop 0x0C x, o, .z, (xbit x), 1⟩
  | .xandi h st x o => some ⟨h, st, 0, xop 0x0E x, o, .k, (xbit x), (xbit x)⟩
  | .fpaddi h st o => some ⟨h, st, 0, 0x10, o, .k, 8, 8⟩
  | .fpld h st o => some ⟨h, st, 0, 0x11, o, .m, 8, 0⟩
  | .fpst h st o => some ⟨h, st, 0, 0x12, o, .m, 0, 8⟩
  | .fpacc h st o => some ⟨h, st, 0, 0x13, o, .z, 8, 1⟩
  | .fplea h st o => some ⟨h, st, 0, 0x14, o, .ml, 8, 0⟩
  | .blcln h st o => some ⟨h, st, 0, 0x18, o, .m, 0, 0⟩
  | .blinv h st o => some ⟨h, st, 0, 0x19, o, .m, 0, 0⟩
  | .blci h st o => some ⟨h, st, 0, 0x1A, o, .m, 0, 0⟩
  | .blswClean h st o => some ⟨h, st, 0, 0x1B, o, .z, 0, 1⟩
  | .blswInvalidate h st o => some ⟨h, st, 0, 0x1B, o, .z, 0, 1⟩
  | .blswCleanInvalidate h st o => some ⟨h, st, 0, 0x1B, o, .z, 0, 1⟩
  | .blswAll h st o => some ⟨h, st, 0, 0x1B, o, .z, 0, 1⟩
  | .pref h st o => some ⟨h, st, 0, 0x1C, o, .md, 0, 0⟩
  | .ld h st o => some ⟨h, st, 1, 0x01, o, .mk, 1, 0⟩
  | .ldw h st o => some ⟨h, st, 1, 0x02, o, .m, 1, 0⟩
  | .ldwu h st o => some ⟨h, st, 1, 0x03, o, .m, 1, 0⟩
  | .ldh h st o => some ⟨h, st, 1, 0x04, o, .m, 1, 0⟩
  | .ldhu h st o => some ⟨h, st, 1, 0x05, o, .m, 1, 0⟩
  | .ldb h st o => some ⟨h, st, 1, 0x06, o, .m, 1, 0⟩
  | .ldbu h st o => some ⟨h, st, 1, 0x07, o, .m, 1, 0⟩
  | .st h st o => some ⟨h, st, 1, 0x08, o, .m, 0, 1⟩
  | .stw h st o => some ⟨h, st, 1, 0x09, o, .m, 0, 1⟩
  | .sth h st o => some ⟨h, st, 1, 0x0A, o, .m, 0, 1⟩
  | .stb h st o => some ⟨h, st, 1, 0x0B, o, .m, 0, 1⟩
  | .add h st o => some ⟨h, st, 1, 0x10, o, .mk, 17, 1⟩
  | .sub h st o => some ⟨h, st, 1, 0x11, o, .mk, 17, 1⟩
  | .mul h st o => some ⟨h, st, 1, 0x12, o, .mk, 17, 1⟩
  | .mulhs h st o => some ⟨h, st, 1, 0x13, o, .mk, 17, 1⟩
  | .mulhu h st o => some ⟨h, st, 1, 0x14, o, .mk, 17, 1⟩
  | .div h st o => some ⟨h, st, 1, 0x15, o, .mk, 17, 1⟩
  | .divu h st o => some ⟨h, st, 1, 0x16, o, .mk, 17, 1⟩
  | .rem h st o => some ⟨h, st, 1, 0x17, o, .mk, 17, 1⟩
  | .remu h st o => some ⟨h, st, 1, 0x18, o, .mk, 17, 1⟩
  | .and_ h st o => some ⟨h, st, 1, 0x19, o, .mk, 17, 1⟩
  | .or_ h st o => some ⟨h, st, 1, 0x1A, o, .mk, 17, 1⟩
  | .xor_ h st o => some ⟨h, st, 1, 0x1B, o, .mk, 17, 1⟩
  | .shl h st o => some ⟨h, st, 1, 0x1C, o, .mk, 17, 1⟩
  | .shr h st o => some ⟨h, st, 1, 0x1D, o, .mk, 17, 1⟩
  | .sar h st o => some ⟨h, st, 1, 0x1E, o, .mk, 17, 1⟩
  | .cmp h st o => some ⟨h, st, 1, 0x1F, o, .mk, 16, 1⟩
  | .tst h st o => some ⟨h, st, 1, 0x20, o, .mk, 16, 1⟩
  | .min h st o => some ⟨h, st, 1, 0x21, o, .mk, 17, 1⟩
  | .max h st o => some ⟨h, st, 1, 0x22, o, .mk, 17, 1⟩
  | .minu h st o => some ⟨h, st, 1, 0x23, o, .mk, 17, 1⟩
  | .maxu h st o => some ⟨h, st, 1, 0x24, o, .mk, 17, 1⟩
  | .shlori h st o => some ⟨h, st, 1, 0x28, o, .k16, 1, 1⟩
  | .neg h st o => some ⟨h, st, 1, 0x29, o, .z, 17, 1⟩
  | .not_ h st o => some ⟨h, st, 1, 0x2A, o, .z, 17, 1⟩
  | .abs h st o => some ⟨h, st, 1, 0x2B, o, .z, 17, 1⟩
  | .clz h st o => some ⟨h, st, 1, 0x2C, o, .z, 17, 1⟩
  | .popc h st o => some ⟨h, st, 1, 0x2D, o, .z, 17, 1⟩
  | .rget h st o => some ⟨h, st, 1, 0x2E, o, (.num 3), 1, 14⟩
  | .fswput h st o => some ⟨h, st, 1, 0x2F, o, .z, 0, 1⟩
  | .pswput h st o => some ⟨h, st, 1, 0x30, o, .z, 16, 1⟩
  | .crd h st o => some ⟨h, st, 1, 0x31, o, (.num 19), 1, 15⟩
  | .cwr h st o => some ⟨h, st, 1, 0x32, o, (.num 19), 0, 15⟩
  | .aadd h st o => some ⟨h, st, 1, 0x38, o, .m, 1, 1⟩
  | .aswp h st o => some ⟨h, st, 1, 0x39, o, .m, 1, 1⟩
  | .acas h st o => some ⟨h, st, 1, 0x3A, o, .m, 1, 7⟩
  | .amin h st o => some ⟨h, st, 1, 0x3B, o, .m, 1, 1⟩
  | .amax h st o => some ⟨h, st, 1, 0x3C, o, .m, 1, 1⟩
  | .aor h st o => some ⟨h, st, 1, 0x3D, o, .m, 1, 1⟩
  | .aand h st o => some ⟨h, st, 1, 0x3E, o, .m, 1, 1⟩
  | .vadd h st o => some ⟨h, st, 2, 0x01, o, (.r true true true 0 false), 0, 0⟩
  | .vsub h st o => some ⟨h, st, 2, 0x02, o, (.r true true true 0 false), 0, 0⟩
  | .vmul h st o => some ⟨h, st, 2, 0x03, o, (.r true true true 0 false), 0, 0⟩
  | .vfma h st o => some ⟨h, st, 2, 0x04, o, (.r true true true 0 false), 0, 0⟩
  | .vfnma h st o => some ⟨h, st, 2, 0x05, o, (.r true true true 0 false), 0, 0⟩
  | .vmin h st o => some ⟨h, st, 2, 0x06, o, (.r true true true 0 false), 0, 0⟩
  | .vmax h st o => some ⟨h, st, 2, 0x07, o, (.r true true true 0 false), 0, 0⟩
  | .vabs h st o => some ⟨h, st, 2, 0x08, o, (.r true true false 0 false), 0, 0⟩
  | .vneg h st o => some ⟨h, st, 2, 0x09, o, (.r true true false 0 false), 0, 0⟩
  | .vcmp h st o => some ⟨h, st, 2, 0x0A, o, (.r true true true 1 false), 0, 0⟩
  | .vbsl h st o => some ⟨h, st, 2, 0x0B, o, (.r true true true 0 false), 0, 0⟩
  | .vand h st o => some ⟨h, st, 2, 0x0C, o, (.r true true true 0 false), 0, 0⟩
  | .vor h st o => some ⟨h, st, 2, 0x0D, o, (.r true true true 0 false), 0, 0⟩
  | .vxor h st o => some ⟨h, st, 2, 0x0E, o, (.r true true true 0 false), 0, 0⟩
  | .vmov h st o => some ⟨h, st, 2, 0x0F, o, (.r true true false 0 false), 0, 0⟩
  | .vcvt h st o => some ⟨h, st, 2, 0x10, o, (.r true true true 2 true), 0, 0⟩
  | .vcadd h st o => some ⟨h, st, 2, 0x11, o, (.r true true true 0 false), 0, 0⟩
  | .vcrnd h st o => some ⟨h, st, 2, 0x12, o, (.r true true false 0 true), 0, 0⟩
  | .vrsum h st o => some ⟨h, st, 2, 0x13, o, (.r false true false 0 false), 1, 0⟩
  | .vgetl h st o => some ⟨h, st, 2, 0x14, o, (.r false true false 0 false), 1, 4⟩
  | .vputl h st o => some ⟨h, st, 2, 0x15, o, (.r true false false 0 false), 0, 5⟩
  | .vbcast h st o => some ⟨h, st, 2, 0x16, o, (.r true false false 0 false), 0, 1⟩
  | .vexp h st o => some ⟨h, st, 2, 0x18, o, (.r true true false 0 false), 0, 0⟩
  | .vlog2 h st o => some ⟨h, st, 2, 0x19, o, (.r true true false 0 false), 0, 0⟩
  | .vrcp h st o => some ⟨h, st, 2, 0x1A, o, (.r true true false 0 false), 0, 0⟩
  | .vrsq h st o => some ⟨h, st, 2, 0x1B, o, (.r true true false 0 false), 0, 0⟩
  | .vtanh h st o => some ⟨h, st, 2, 0x1C, o, (.r true true false 0 false), 0, 0⟩
  | .verf h st o => some ⟨h, st, 2, 0x1D, o, (.r true true false 0 false), 0, 0⟩
  | .tld h st o => some ⟨h, st, 3, 0x01, o, (.t false), 0, 7⟩
  | .tstore h st o => some ⟨h, st, 3, 0x02, o, (.t true), 0, 7⟩
  | .tzero h st o => some ⟨h, st, 3, 0x03, o, (.num 3), 0, 0⟩
  | .tcfg h st o => some ⟨h, st, 3, 0x04, o, (.num 3), 0, 1⟩
  | .nset h st o => some ⟨h, st, 3, 0x08, o, (.num 2), 0, 1⟩
  | .nget h st o => some ⟨h, st, 3, 0x09, o, (.num 2), 1, 0⟩
  | .nopen h st o => some ⟨h, st, 3, 0x0A, o, (.num 2), 0, 0⟩
  | .nmac h st o => some ⟨h, st, 3, 0x10, o, .g, 0, 6⟩
  | .ndrn h st o => some ⟨h, st, 3, 0x11, o, (.num 2), 0, 0⟩
  | .send h st o => some ⟨h, st, 4, 0x01, o, (.num 3), 0, 1⟩
  | .sendm h st o => some ⟨h, st, 4, 0x02, o, (.num 3), 0, 1⟩
  | .sendl h st o => some ⟨h, st, 4, 0x03, o, (.num 3), 0, 1⟩
  | .recv h st o => some ⟨h, st, 4, 0x04, o, (.num 3), 1, 0⟩
  | .qpoll h st o => some ⟨h, st, 4, 0x05, o, (.num 3), 1, 0⟩
  | .qcred h st o => some ⟨h, st, 4, 0x06, o, (.num 3), 1, 0⟩
  | .toksend h st o => some ⟨h, st, 4, 0x08, o, (.num 4), 0, 1⟩
  | .tokrecv h st o => some ⟨h, st, 4, 0x09, o, (.num 4), 1, 0⟩
  | .twait h st o => some ⟨h, st, 4, 0x10, o, .tally, 0, 1⟩
  | .tadd h st o => some ⟨h, st, 4, 0x11, o, .tally, 0, 1⟩
  | .tinc h st o => some ⟨h, st, 4, 0x12, o, .tally, 0, 0⟩
  | .tread h st o => some ⟨h, st, 4, 0x13, o, .tally, 1, 0⟩
  | .trpush h st o => some ⟨h, st, 4, 0x18, o, .ml, 1, 0⟩
  | .trpop h st o => some ⟨h, st, 4, 0x19, o, .ml, 1, 0⟩
  | .trsteal h st o => some ⟨h, st, 4, 0x1A, o, .ml, 1, 0⟩
  | .quill h st o => some ⟨h, st, 4, 0x20, o, .ml, 1, 0⟩
  | .quillst h st o => some ⟨h, st, 4, 0x21, o, .z, 1, 0⟩
  | .fence h st o => some ⟨h, st, 4, 0x28, o, (.num 2), 0, 0⟩
  | .cwld h st o => some ⟨h, st, 4, 0x30, o, (.num 3), 1, 0⟩
  | .cwst h st o => some ⟨h, st, 4, 0x31, o, (.num 3), 0, 1⟩
  | .cwadd h st o => some ⟨h, st, 4, 0x32, o, (.num 3), 1, 1⟩
  | .cwswp h st o => some ⟨h, st, 4, 0x33, o, (.num 3), 1, 1⟩
  | .csend h st o => some ⟨h, st, 4, 0x34, o, (.num 2), 0, 1⟩
  | .crecv h st o => some ⟨h, st, 4, 0x35, o, (.num 2), 1, 0⟩
  | .sleep h st o => some ⟨h, st, 4, 0x36, o, (.num 8), 0, 0⟩
  | .nwait h st o => some ⟨h, st, 4, 0x38, o, .z, 0, 0⟩
  | .npop h st o => some ⟨h, st, 4, 0x39, o, .ml, 0, 0⟩
  | .nop h st o => some ⟨h, st, 5, 0x01, o, .z, 0, 0⟩
  | .br h st o => some ⟨h, st, 5, 0x02, o, .c, 0, 16⟩
  | .jr h st o => some ⟨h, st, 5, 0x03, o, .cz, 0, 17⟩
  | .call h st o => some ⟨h, st, 5, 0x04, o, .c0, 8, 8⟩
  | .callr h st o => some ⟨h, st, 5, 0x05, o, .z, 8, 9⟩
  | .ret h st o => some ⟨h, st, 5, 0x06, o, .z, 8, 8⟩
  | .loop h st o => some ⟨h, st, 5, 0x08, o, .l0, 0, 1⟩
  | .loopi h st o => some ⟨h, st, 5, 0x09, o, .l, 0, 0⟩
  | .lexit h st o => some ⟨h, st, 5, 0x0A, o, .z, 0, 0⟩
  | .gate h st o => some ⟨h, st, 5, 0x10, o, (.num 8), 15, 15⟩
  | .gret h st o => some ⟨h, st, 5, 0x11, o, .z, 24, 0⟩
  | .rete h st o => some ⟨h, st, 5, 0x12, o, .z, 16, 0⟩
  | .brk h st o => some ⟨h, st, 5, 0x13, o, (.num 16), 0, 0⟩
  | .hstart h st o => some ⟨h, st, 5, 0x14, o, (.num 2), 1, 2⟩
  | .hstop h st o => some ⟨h, st, 5, 0x15, o, (.num 2), 1, 0⟩
  | .hresume h st o => some ⟨h, st, 5, 0x16, o, (.num 2), 1, 0⟩
  | .hkill h st o => some ⟨h, st, 5, 0x17, o, (.num 2), 1, 0⟩  | _ => none

/-- The 32-bit word of a glyph (R92). -/
def glyphWord (g : Glyph) : W32 :=
  BitVec.ofNat 32 ((if g.stop then 2 ^ 31 else 0) + g.slot * 2 ^ 28 + g.op * 2 ^ 22 + g.opd.toNat)

/-- MODE and FIELD of form M. -/
def opdMode (o : BitVec 22) : Nat := fld o.toNat 21 19
@[inherit_doc opdMode] def opdField (o : BitVec 22) : Nat := fld o.toNat 18 0
/-- sext(FIELD) as an integer (R99). -/
def opdDisp (o : BitVec 22) : Int := ((o.truncate 19 : BitVec 19)).toInt
/-- sext(k) as a 64-bit operand. -/
def opdImm (o : BitVec 22) : W64 := (o.truncate 19 : BitVec 19).signExtend 64

/-- Fields of form R. -/
def rTd (o : BitVec 22) : Nat := fld o.toNat 21 19
@[inherit_doc rTd] def rTa (o : BitVec 22) : Nat := fld o.toNat 18 16
@[inherit_doc rTd] def rTb (o : BitVec 22) : Nat := fld o.toNat 15 13
@[inherit_doc rTd] def rXr (o : BitVec 22) : Bool := o.getLsbD 12
@[inherit_doc rTd] def rRow (o : BitVec 22) : Nat := fld o.toNat 11 7
@[inherit_doc rTd] def rBr (o : BitVec 22) : Bool := o.getLsbD 6
@[inherit_doc rTd] def rSp (o : BitVec 22) : Nat := fld o.toNat 5 3
@[inherit_doc rTd] def rDp (o : BitVec 22) : Nat := fld o.toNat 2 0

/-- Whether the fields of form T are a combination that the table of R128 allows. -/
def transferForm (store : Bool) (o : BitVec 22) : Bool :=
  let dev := o.getLsbD 18
  let trn := o.getLsbD 17
  let lay := o.getLsbD 16
  let es := fld o.toNat 15 13
  fld o.toNat 12 0 == 0 &&
    ((!trn && !lay && es == 0) || (!trn && !lay && !dev && 1 ≤ es && es ≤ 4)
      || (trn && !lay && !dev && es == 0 && !store) || (!trn && lay && es == 0))

/-- Whether an operand field is one that its form accepts (R120, R121); a field refused here raises RSVD. -/
def formOk (f : Form) (o : BitVec 22) : Bool :=
  match f with
  | .m => opdMode o ≤ 3 || opdMode o == 5
  | .mk => opdMode o ≤ 5
  | .k => opdMode o == 4
  | .k16 => opdMode o == 4 && fld o.toNat 18 16 == 0
  | .ml => opdMode o ≤ 3
  | .md => opdMode o == 5
  | .num n => opdMode o == 4 && opdField o < 2 ^ n
  | .tally => opdMode o == 1 || opdMode o == 2 || (opdMode o == 4 && fld o.toNat 18 10 == 0)
  | .c => fld o.toNat 21 18 != 15
  | .cz => fld o.toNat 21 18 != 15 && fld o.toNat 17 0 == 0
  | .c0 => fld o.toNat 21 18 == 0
  | .l => true
  | .l0 => fld o.toNat 21 12 == 0
  | .z => o == 0
  | .r td ta tb sp dp =>
    (td || rTd o == 0) && (ta || rTa o == 0) && (tb || (rTb o == 0 && !rBr o))
      && (if sp = 0 then rSp o == 0 else if sp = 1 then rSp o ≤ 4 else true) && (dp || rDp o == 0)
  | .t store => transferForm store o
  | .g => fld o.toNat 13 0 == 0
  | .unlisted => false

/-- RGET 7 is reserved (R107). -/
def numOk (g : Glyph) : Bool := !(g.slot == 1 && g.op == 0x2E && opdField g.opd == 7)

/-- Whether a glyph's encoding is reserved (R120). -/
def glyphReserved (g : Glyph) : Bool := !(formOk g.form g.opd && numOk g)

/-- The items a glyph reads, those of its addressing mode or row number included (R99, R113, R121). -/
def glyphReads (g : Glyph) : BitVec 5 :=
  let byMode : BitVec 5 := match opdMode g.opd with
    | 1 => 2 | 2 => 4 | 3 => 8 | 5 => 1 | _ => 0
  match g.form with
  | .m | .mk | .ml | .md | .tally => g.reads ||| byMode
  | .r .. => if rXr g.opd then g.reads ||| 2 else g.reads
  | _ => g.reads

/-- Whether a glyph is an S-slot or A-slot load of a device address: XLD, FPLD, LD to LDBU and the operand of an S-slot
operation, in ACC-indirect mode (R99, R106, R107). -/
def isDevLoad (c : Instr) : Bool :=
  match glyphOf c with
  | some g => opdMode g.opd == 5 && ((g.slot == 0 && (g.op == 0x02 || g.op == 0x03 || g.op == 0x11))
      || (g.slot == 1 && ((1 ≤ g.op && g.op ≤ 7) || (0x10 ≤ g.op && g.op ≤ 0x24))))
  | none => false

/-- Whether a glyph is a store to a device address: XST, FPST, ST to STB in ACC-indirect mode (R106, R107). -/
def isDevStore (c : Instr) : Bool :=
  match glyphOf c with
  | some g => opdMode g.opd == 5 && ((g.slot == 0 && (g.op == 0x04 || g.op == 0x05 || g.op == 0x12))
      || (g.slot == 1 && 8 ≤ g.op && g.op ≤ 0x0B))
  | none => false

/-- What a glyph is evaluated in: the state and hand as the line found them (R95), the line's address, length and
successor (R119). -/
structure Env where
  s : State
  i : Nat
  h : Nat
  x : Hand
  pc : W32
  len : Nat
  succ : W32

/-- A fault that a glyph raises, its slot left out; `others` lists further values that SFA may take where the spec
does not say which of several tiles it names (log 21), `abort` discards the hand's staged message (R249), `log` names
the error-log cause and Slate of an access to an absent or offline Slate (R5, R21). -/
structure GFault where
  cause : Nat
  sfa : W32
  others : List W32 := []
  dev : Bool := false
  abort : Bool := false
  log : Option (Nat × Nat) := none
deriving DecidableEq, Repr

/-- Why a glyph does not complete: its line is held at issue (R60), with or without the start of a drain of the oldest
merging-buffer entry (R153), the start of a blotter switch (R146) or a request of the tally latch (R261); its line is withdrawn and the hand sleeps (R96); or
it raises a fault. -/
inductive Stop
  | held
  | heldFull
  | heldSwitch (size : BitVec 3) (pf : Bool)
  | ask (l : TallyLatch)
  | asleep (w : WaitKind) (l : Option TallyLatch)
  | fault (f : GFault)
deriving DecidableEq, Repr

/-- The result of evaluating a glyph: what stops it, or its writes. -/
abbrev Ev (α : Type) := Except Stop α

/-- A fault of a local address. -/
def raise {α : Type} (cause : Nat) (sfa : W32) : Ev α := .error (.fault { cause, sfa })
/-- A fault of a device address: SFA holds bits [47:16] (R78). -/
def raiseDev {α : Type} (cause : Nat) (va : Nat) : Ev α :=
  .error (.fault { cause, sfa := BitVec.ofNat 32 (va / 65536), dev := true })

/-- The bead an environment stands in. -/
def envBead (e : Env) : Bead := getBead e.s e.i
/-- The privilege level of an environment's hand. -/
def envPl (e : Env) : Nat := pswPl e.x.psw

/-- Whether a 4 KiB granule lies in [base, limit) of a slice or of the commons (R69). -/
def granuleIn (base limit : W32) (g : Nat) : Bool := fld base.toNat 21 12 ≤ g && g < fld limit.toNat 21 12

/-- Whether level pl of a hand may reach a 4 KiB granule of the folio (R70). The sentinel region's row decides below
0x8000 (log 10). -/
def granuleOk (b : Bead) (x : Hand) (pl g : Nat) : Bool :=
  if g ≥ 512 || blotterBank b.blot.size.toNat * 16 ≤ g then false
  else if pl ≥ 2 then true
  else if g < 8 then false
  else if pl = 1 then true
  else granuleIn x.sliceBase x.sliceLimit g || granuleIn b.regs.commonsBase b.regs.commonsLimit g

/-- Whether every byte of [a, a + n) is allowed (R70). -/
def localOk (b : Bead) (x : Hand) (pl a n : Nat) : Bool :=
  (List.range ((a + n - 1) / 4096 + 1 - a / 4096)).all (fun k => granuleOk b x pl (a / 4096 + k))

/-- The byte range [lo, hi) over rows of n bytes at a pitch, either sign (R166). -/
def pitchRange (base : Nat) (pitch : Int) (rows n : Nat) : Nat × Nat :=
  let last : Int := base + pitch * (rows - 1 : Nat)
  ((min (base : Int) last).toNat, (max (base : Int) last).toNat + n)

/-- Fields of a quill descriptor (R160). -/
def qSrc (d : List W8) : Nat := leAt d 0 8
@[inherit_doc qSrc] def qDst (d : List W8) : Nat := leAt d 8 8
@[inherit_doc qSrc] def qSpitch (d : List W8) : Int := (wordAt d 0x10).toInt
@[inherit_doc qSrc] def qDpitch (d : List W8) : Int := (wordAt d 0x14).toInt
@[inherit_doc qSrc] def qRbytes (d : List W8) : Nat := leAt d 0x18 4
@[inherit_doc qSrc] def qRows (d : List W8) : Nat := leAt d 0x1C 4
@[inherit_doc qSrc] def qCtrl (d : List W8) : Nat := leAt d 0x20 4
@[inherit_doc qSrc] def qSdev (d : List W8) : Bool := bitAt (qCtrl d) 0
@[inherit_doc qSrc] def qDdev (d : List W8) : Bool := bitAt (qCtrl d) 1
@[inherit_doc qSrc] def qKind (d : List W8) : Nat := fld (qCtrl d) 3 2
@[inherit_doc qSrc] def qEsz (d : List W8) : Nat := fld (qCtrl d) 5 4
@[inherit_doc qSrc] def qCtally (d : List W8) : Nat := leAt d 0x24 4
@[inherit_doc qSrc] def qAtally (d : List W8) : Nat := leAt d 0x28 4
@[inherit_doc qSrc] def qFill (d : List W8) : List W8 := (d.drop 0x30).take 8

/-- Destination rows of a descriptor and the bytes of each (R161). -/
def qDstShape (d : List W8) : Nat × Nat :=
  if qKind d = 1 then (qRbytes d / 2 ^ qEsz d, qRows d * 2 ^ qEsz d) else (qRows d, qRbytes d)

/-- The local ranges that a descriptor holds in the range scoreboard: source and destination (R166). -/
def qSrcRange (d : List W8) : Option (Nat × Nat) :=
  if qSdev d || qKind d = 2 then none else some (pitchRange (qSrc d) (qSpitch d) (qRows d) (qRbytes d))
@[inherit_doc qSrcRange] def qDstRange (d : List W8) : Option (Nat × Nat) :=
  let (rows, n) := qDstShape d
  if qDdev d then none else some (pitchRange (qDst d) (qDpitch d) rows n)
@[inherit_doc qSrcRange] def qRanges (d : List W8) : List (Nat × Nat) :=
  (qSrcRange d).toList ++ (qDstRange d).toList

/-- Fields of a nib group descriptor (R135). -/
def ngWfmt (d : W64) : Nat := fld d.toNat 3 0
@[inherit_doc ngWfmt] def ngOfmt (d : W64) : Nat := fld d.toNat 7 4
@[inherit_doc ngWfmt] def ngSat (d : W64) : Bool := d.getLsbD 9
@[inherit_doc ngWfmt] def ngRows (d : W64) : Nat := fld d.toNat 14 10 + 1
@[inherit_doc ngWfmt] def ngBase (d : W64) : Nat := fld d.toNat 30 16 * 64
@[inherit_doc ngWfmt] def ngPitch (d : W64) : Nat := fld d.toNat 41 32 * 64
@[inherit_doc ngWfmt] def ngScaleBase (d : W64) : Nat := fld d.toNat 62 48 * 64

/-- Bytes of one drained row of 32 outputs (R138). -/
def drainRowBytes (ofmt : Nat) : Nat :=
  if ofmt = 0 then 128 else if ofmt ≤ 3 then 64 else if ofmt ≤ 9 then 32 else if ofmt ≤ 0xB then 16 else 256

/-- The destination range of a drain (R138, R166): its data rows, from the lowest to the highest byte. -/
def drainRange (d : W64) : Nat × Nat := pitchRange (ngBase d) (ngPitch d) (ngRows d) (drainRowBytes (ngOfmt d))
/-- The range of an MX drain's scale bytes, if it has one (R138). -/
def drainScales (d : W64) : Option (Nat × Nat) :=
  if 7 ≤ ngOfmt d ∧ ngOfmt d ≤ 0xB then some (ngScaleBase d, ngScaleBase d + ngRows d) else none

/-- The busy quill slots of a bead. -/
def busyQuills (b : Bead) : List QuillSlot := (b.quills.map (·.2)).filter (·.busy)

/-- The ranges held in the bead's range scoreboard (R166). An MX drain's scale bytes are held with its rows (log 11). -/
def heldRanges (b : Bead) : List (Nat × Nat) :=
  (busyQuills b).flatMap (fun q => qRanges q.desc)
    ++ b.nibDrains.flatMap (fun d => drainRange d.desc :: (drainScales d.desc).toList)

/-- The entries used in the range scoreboard (R166): one per local range of a descriptor and one per drain. -/
def heldEntries (b : Bead) : Nat :=
  ((busyQuills b).map (fun q => (qRanges q.desc).length)).sum + b.nibDrains.length

/-- Whether [a, a + n) meets a held range. -/
def rangeHeld (b : Bead) (a n : Nat) : Bool := (heldRanges b).any (fun r => overlaps r (a, a + n))

/-- The checks of a local operand of n bytes with alignment al (R100, R101, R70, R166). -/
def checkLocal (e : Env) (a n al : Nat) : Ev Unit :=
  if a ≥ 0x200000 || a % al != 0 || !localOk (envBead e) e.x (envPl e) a n then raise 0x05 (BitVec.ofNat 32 a)
  else if rangeHeld (envBead e) a n then .error .held
  else .ok ()

/-- n bytes of the own folio read by a hand: checks, and FPARITY at the first failing word (R77, R167). -/
def localLoad (e : Env) (a n al : Nat) : Ev (List W8) := do
  checkLocal e a n al
  let g := folioBase e.i + a
  match parityFind e.s.parity g n with
  | some w => raise 0x06 (BitVec.ofNat 32 (w - folioBase e.i))
  | none => .ok (loadBytes e.s g n)

/-- The EA of a local mode (R99). -/
def localEa (x : Hand) (o : BitVec 22) : W32 :=
  match opdMode o with
  | 0 => BitVec.ofNat 32 (opdField o * 4)
  | 1 => x.x0 + BitVec.ofInt 32 (opdDisp o)
  | 2 => x.x1 + BitVec.ofInt 32 (opdDisp o)
  | _ => x.fp + BitVec.ofInt 32 (opdDisp o)

/-- The EA of ACC-indirect mode (R99). -/
def devEa (acc : W64) (o : BitVec 22) : W64 := acc + BitVec.ofInt 64 (opdDisp o)

/-- A device page reached through a context (R314): device address, mirror address and attributes. -/
structure Xlat where
  pa : Nat
  mirror : Option Nat
  cache : Bool
deriving DecidableEq, Repr

/-- Translation of a virtual address through a context, for a read or a write (R314): none where there is no valid
translation, the mapping forbids the access, or the folio or brush is not bound to the context. -/
def translate (s : State) (ctx : Option Nat) (va : Nat) (write : Bool) : Option Xlat :=
  match ctx with
  | none => none
  | some c =>
    if va ≥ 2 ^ 48 then none else
    match mapFind (getCtx s c).pages (va / 0x200000) with
    | none => none
    | some p =>
      if !(if write then p.w else p.r) then none
      else
        let pa := p.dev * 0x200000 + va % 0x200000
        let x : Xlat := ⟨pa, p.mirror.map (fun q => q * 0x200000 + va % 0x200000), p.cache⟩
        match regionOf pa with
        | .hbm _ _ => some x
        | .folio j _ => if beadCtx (getBead s j) = some c then some x else none
        | .reservoir k _ => if brushCtx (getBrush s k) = some c then some x else none
        | .ink k _ => if brushCtx (getBrush s k) = some c then some x else none
        | _ => none

/-- Whether a device address lies in tally space, which passes untranslated (R314). -/
def inTallySpace (va : Nat) : Bool :=
  match regionOf va with
  | .tally _ _ => true
  | _ => false

/-- The tally window word that an access names, if it is one that R264 gives: Slate, physical tally and whether it is
the word at 16 t + 8. -/
def tallyWindow (s : State) (ctx : Option Nat) (va n : Nat) : Option (Nat × Nat × Bool) :=
  match regionOf va, ctx with
  | .tally t off, some c =>
    if n = 8 ∧ off % 8 = 0 then (tallyOf s t c (off / 16)).map (fun p => (t, p, off % 16 = 8)) else none
  | _, _ => none

/-- Whether a Slate answers an access: the error-log cause where it does not, 0x01 absent (R5) or 0x02 offline (R21).
An access from within an offline Slate does not pass its crossing. -/
def slateRefuses (s : State) (from_ : Option Nat) (t : Nat) : Option Nat :=
  if !slatePresent s t then some 0x01
  else if from_ != some t && slateOffline s t then some 0x02
  else none

/-- Whether a folio controller refuses an access to [off, off + n) of bead j: sentinel region, blotter bank, or a
position with no site (R144, R399). -/
def folioRefuses (s : State) (j off n : Nat) : Bool :=
  off < 0x8000 || inBlotter (getBead s j) (off + n - 1) || !beadExists s j

/-- What a checked device-address access reaches. -/
inductive DevTarget
  | mem (x : Xlat)
  | tally (slate : Nat) (p : Nat) (upper : Bool)
deriving DecidableEq, Repr

/-- The checks of a device-address access of n bytes by a hand of bead i (R5, R21, R100, R101, R144, R264, R269), in
the priority order of R78: XMISS before FBOUND. -/
def checkDev (e : Env) (va : W64) (n al : Nat) (write atomic : Bool) : Ev DevTarget :=
  let a := va.toNat
  let v := a % 2 ^ 48
  let ctx := beadCtx (envBead e)
  let refuse (t : Nat) (k : DevTarget) : Ev DevTarget :=
    match slateRefuses e.s (some (e.i / 256)) t with
    | some c => .error (.fault { cause := 0x05, sfa := BitVec.ofNat 32 (v / 65536), dev := true, log := some (c, t) })
    | none => .ok k
  if a ≥ 2 ^ 48 then raiseDev 0x04 v
  else if inTallySpace v then
    if atomic || n != 8 || v % 8 != 0 then raiseDev 0x04 v
    else
      let sl := (regionSlate (regionOf v)).getD 0
      match tallyWindow e.s ctx v n with
      | some (t, p, up) => refuse t (.tally t p up)
      | none =>
        if (slateRefuses e.s (some (e.i / 256)) sl).isSome then refuse sl (.tally 0 0 false) else raiseDev 0x04 v
  else match translate e.s ctx v write with
    | none => raiseDev 0x04 v
    | some x =>
      let r := regionOf x.pa
      if atomic && !(match r with | .hbm .. => true | .folio .. => true | _ => false) then raiseDev 0x04 v
      else if atomic && (translate e.s ctx v (!write)).isNone then raiseDev 0x04 v
      else if v % al != 0 then raiseDev 0x05 v
      else do
        let k ← refuse ((regionSlate r).getD 0) (.mem x)
        match r with
        | .folio j off => if folioRefuses e.s j off n then raiseDev 0x05 v else .ok k
        | _ => .ok k

/-- Whether device-address accesses of a hand are held: a blotter switch (R146), or a clean-and-invalidate-all scan of
another hand (R159). -/
def devHeld (e : Env) : Bool :=
  let b := envBead e
  b.blot.switching.isSome || (List.range 4).any (fun k => k != e.h &&
    match (handOf b k).openLine with
    | some l => l.why.contains .scan
    | none => false)

end Sys2Proof.Machine
end

