-- ==== Sys2Proof/Machine/Report.lean ====
section
/-! DEFINITION. Reports to the host: MSI-X vectors (R312), events (R333), and error-log records with their events
(R359). -/

namespace Sys2Proof.Machine

/-- A vector of a function raised, or its PBA bit set while MSI-X is off or the vector is masked (R312). -/
def raiseVector (x : Fn) (v : Fin 128) : Fn :=
  if x.msixOn && !x.masked.getLsbD v.val then { x with raised := x.raised ++ [v] }
  else { x with pba := x.pba ||| BitVec.ofNat 128 (2 ^ v.val) }

/-- PHASE of the record at count n of a ring of 2^k records (R331): 1 on the first pass, then alternating. -/
def phaseBit (n k : Nat) : Bool := n / 2 ^ k % 2 = 0

/-- An event without its PHASE (R333). -/
structure EventRec where
  kind : Nat
  severity : Nat
  slate : Nat := 0xF
  ctx : Nat := 0
  stamp : W64
  detail : List W32 := []
deriving DecidableEq, Repr

/-- The eight words of an event record. -/
def eventWords (e : EventRec) (phase : Bool) : List W32 :=
  [BitVec.ofNat 32 (e.kind + e.severity * 0x100 + e.slate * 0x400 + (if phase then 0x80000000 else 0)),
    BitVec.ofNat 32 e.ctx, e.stamp.truncate 32, (e.stamp >>> 32).truncate 32]
    ++ (List.range 4).map (fun k => (e.detail[k]?).getD 0)

/-- Whether a function's event well has room for n more records. -/
def eqRoom (x : Fn) (b : Binding) (n : Nat) : Bool := (x.eqTail - x.eqHead).toNat + n ≤ 2 ^ b.eqLog

/-- A record written at the event well's tail (R333). -/
def writeEvent (x : Fn) (b : Binding) (e : EventRec) : Fn :=
  let k := x.eqTail.toNat
  raiseVector { x with
    out := x.out ++ [⟨b.eqBus + BitVec.ofNat 64 (32 * (k % 2 ^ b.eqLog)), eventWords e (phaseBit k b.eqLog)⟩]
    eqTail := x.eqTail + 1 } 1

/-- The LOST event owed to a function, written once there is room (R333). -/
def payLost (x : Fn) (e : EventRec) : Fn :=
  match x.bind with
  | some b =>
    if x.lostOwed && eqRoom x b 1 then
      { writeEvent x b { kind := 0x0B, severity := e.severity, stamp := e.stamp, detail := [x.eqLost] } with lostOwed := false }
    else x
  | none => x

/-- An event posted to one function (R333): counted as lost while its event well is full; nothing without a bound
event well (log 31). -/
def deliverEvent (x : Fn) (e : EventRec) : Fn :=
  match x.bind with
  | none => x
  | some b =>
    let x := payLost x e
    if eqRoom x b 1 && !x.lostOwed then writeEvent x b e else { x with eqLost := satInc x.eqLost, lostOwed := true }

/-- Whether an event kind is device-wide (R333). -/
def eventWide (kind : Nat) : Bool := !(kind ∈ [0x01, 0x02, 0x0B, 0x0E, 0x0F])

/-- An event posted: the PF receives every event, a VF its own and those that are device-wide (R333). -/
def sendEvent (s : State) (about : Nat) (e : EventRec) : State :=
  (List.range 16).foldl (fun s f =>
    if f = 0 ∨ eventWide e.kind ∨ f = about then modFn s f (fun x => deliverEvent x e) else s) s

/-- An event whose severity the spec does not give: it is a free value (log 32). -/
def postEvent (s : State) (kind about slate ctx : Nat) (detail : List W32) : State :=
  let (v, s) := freeBits s
  sendEvent s about ⟨kind, v.toNat % 3, slate, ctx, stampNow s, detail⟩

/-- A device-wide event that names no Slate. -/
def postWide (s : State) (kind : Nat) (detail : List W32) : State := postEvent s kind 0 0xF 0 detail

/-- The event kind that accompanies an error-log record (R359). -/
def logEventKind (cause : Nat) : Option Nat :=
  if cause = 0x04 then some 0x0C
  else if cause ∈ [0x0D, 0x0E, 0x0F, 0x10] then some 0x04
  else if cause = 0x11 then some 0x05
  else if cause = 0x12 then some 0x0D
  else if cause = 0x13 then some 0x0E
  else if cause = 0x14 then some 0x0F
  else if cause = 0x16 then some 0x10
  else none

/-- An error-log record written, with the event that accompanies it (R359); `detail` is the event's own (log 33). -/
def report (s : State) (r : LogRec) (detail : List W32) : State :=
  let s := logRecord s r
  match logEventKind r.cause.toNat with
  | some k => sendEvent s r.fn.toNat ⟨k, (logSeverity r.cause.toNat).toNat, r.slate.toNat, (r.ctx.getD 0).toNat, stampNow s, detail⟩
  | none => s

/-- A plain error-log record about a Slate. -/
def logSlate (s : State) (cause t : Nat) (detail : W32) : State :=
  report s { index := 0, cause := BitVec.ofNat 8 cause, severity := 0, slate := BitVec.ofNat 4 t, detail := detail } [detail]

/-- An error-log record about a unit of a Slate: UNIT and unit number (R359). -/
def logUnit (s : State) (cause t unit number : Nat) (detail : W32) : State :=
  report s { index := 0, cause := BitVec.ofNat 8 cause, severity := 0, slate := BitVec.ofNat 4 t,
             kind := BitVec.ofNat 3 unit, number := BitVec.ofNat 4 number, detail := detail } [detail]

/-- An error-log record about no Slate. -/
def logSpine (s : State) (cause : Nat) (detail : W32) : State := logSlate s cause 0xF detail

end Sys2Proof.Machine
end

