-- ==== Sys2Proof/Machine/HomeMem.lean ====
section
/-! DEFINITION. The homes of device addresses as every kind of access meets them: HBM with its mirrors (R345, R348), and
the writes that wait at a reservoir (R170). -/

namespace Sys2Proof.Machine

/-- Whether a device address lies in HBM. -/
def inHbm (a : Nat) : Bool := match regionOf a with | .hbm .. => true | _ => false

/-- The mirror address of an HBM address (R345), by the mapping whose page holds it. -/
def mirrorOf (s : State) (pa : Nat) : Option Nat :=
  s.ctxs.findSome? (fun c => c.2.pages.findSome? (fun p =>
    if p.2.kind == 0 && p.2.dev == pa / 0x200000 then p.2.mirror.map (fun q => q * 0x200000 + pa % 0x200000) else none))

/-- The primary's line rewritten from its mirror, word by word where the mirror's word is good (R345). -/
def rewriteLine (s : State) (pa q : Nat) : State :=
  (List.range 16).foldl (fun s w =>
    let d := pa / 64 * 64 + 4 * w
    let m := q / 64 * 64 + 4 * w
    if (parityFind s.parity m 4).isNone then storeBytes s d (loadBytes s m 4) else s) s

/-- n bytes of one line read from HBM (R345, R348): where the stack cannot correct them, from the mirror, whose line is
copied back; none where there is no good copy. Both cases are logged (R359). -/
def hbmRead (s : State) (pa n : Nat) (mirror : Option Nat) (bad : Bool) : Option (List W8) × State :=
  let stack := pa / 0x1000000000
  if !bad && (parityFind s.parity pa n).isNone then (some (loadBytes s pa n), s)
  else
    let lost (_ : Unit) : Option (List W8) × State :=
      (none, logUnit s 0x07 (stack / 2) 3 stack (BitVec.ofNat 32 stack))
    match mirror with
    | none => lost ()
    | some q =>
      if (parityFind s.parity q n).isSome then lost ()
      else
        let bs := loadBytes s q n
        let s := logUnit s 0x07 (stack / 2) 3 stack (BitVec.ofNat 32 (stack + 0x100))
        let s := logUnit s 0x04 (stack / 2) 3 stack 3
        (some bs, rewriteLine s pa q)

/-- Bytes stored in HBM and, for a Guarded page, in its mirror (R345). -/
def hbmWrite (s : State) (pa : Nat) (mirror : Option Nat) (bs : List W8) : State :=
  let s := storeBytes s pa bs
  match mirror with
  | some q => storeBytes s q bs
  | none => s

/-- Whether n bytes of HBM can be read, from the primary or else from the mirror (R345). -/
def hbmGood (s : State) (pa n : Nat) (mirror : Option Nat) : Bool :=
  (parityFind s.parity pa n).isNone || (match mirror with
    | some q => (parityFind s.parity q n).isNone
    | none => false)

/-- Whether a write that has not been performed waits at the brush, or at its tap, for any of n bytes (R170). -/
def tapHolds (s : State) (pa n : Nat) : Bool :=
  match regionOf pa with
  | .reservoir kb _ => (getBrush s kb).waiting.any (fun w => overlaps (w.pa, w.pa + w.data.length) (pa, pa + n))
  | _ => false

/-- Whether a brush refuses device-address access (R190). -/
def brushRefuses (s : State) (k : Nat) : Bool := (getBrush s k).failed

/-- Whether a device address lies in the memory of a brush that serves no access for now: it is being zeroed for another
context (R188). -/
def brushZeroing (s : State) (pa : Nat) : Bool :=
  match regionOf pa with
  | .reservoir kb _ => (getBrush s kb).zeroing
  | .ink kb _ => (getBrush s kb).zeroing
  | _ => false

/-- Whether a device address lies in the memory of a failed brush (R190). -/
def brushFenced (s : State) (pa : Nat) : Bool :=
  match regionOf pa with
  | .reservoir kb _ => brushRefuses s kb
  | .ink kb _ => brushRefuses s kb
  | _ => false

/-- A write put among those that wait at a reservoir (R170), in the order in which they came. -/
def joinTap (s : State) (kb : Nat) (w : TapWrite) : State :=
  modBrush s kb (fun br => { br with waiting := br.waiting ++ [w] })

end Sys2Proof.Machine
end

