-- ==== Sys2Proof/Machine/Flags.lean ====
section
/-! DEFINITION. The S-slot operations on ACC and the flags they set (R43, R105, R107), and the branch conditions. -/

namespace Sys2Proof.Machine

/-- PSW masks of the flags N, Z, V and C (R91). -/
def mN : W32 := 0x80000
@[inherit_doc mN] def mZ : W32 := 0x40000
@[inherit_doc mN] def mV : W32 := 0x20000
@[inherit_doc mN] def mC : W32 := 0x10000

/-- N and Z of a result, in place (R105). -/
def nzOf (v : W64) : W32 := (if v.getLsbD 63 then mN else 0) ||| (if v = 0 then mZ else 0)

/-- Whether a signed value does not fit in 64 bits. -/
def tooWide (i : Int) : Bool := i < -(2 ^ 63) || 2 ^ 63 ≤ i

/-- What an S-slot operation gives: the new ACC (none leaves it), the flags it names and their values, and the fault it
raises. -/
structure AluOut where
  res : Option W64
  mask : W32
  flags : W32
  fault : Option Nat := none
deriving DecidableEq, Repr

/-- A result with N and Z. -/
def outNZ (v : W64) : AluOut := ⟨some v, mN ||| mZ, nzOf v, none⟩
/-- A result with N, Z, C and V; OVF (0x0C) where it overflows and OVE = 1 (R43). -/
def outNZCV (psw : W32) (v : W64) (c o : Bool) : AluOut :=
  ⟨some v, mN ||| mZ ||| mC ||| mV, nzOf v ||| (if c then mC else 0) ||| (if o then mV else 0),
    if o && pswOve psw then some 0x0C else none⟩
/-- A result with N, Z and C. -/
def outNZC (v : W64) (c : Bool) : AluOut := ⟨some v, mN ||| mZ ||| mC, nzOf v ||| (if c then mC else 0), none⟩

/-- DIVZ (0x0B) where it is enabled; otherwise quotient 0, remainder the dividend (R43). -/
def divZero (psw : W32) (r : W64) : AluOut := { outNZ r with fault := if pswDze psw then some 0x0B else none }

/-- An S-slot operation on ACC and v (R43, R105, R107). -/
def aluEval (op : AluOp) (psw : W32) (a v : W64) : AluOut :=
  match op with
  | .add => outNZCV psw (a + v) (2 ^ 64 ≤ a.toNat + v.toNat) (tooWide (a.toInt + v.toInt))
  | .sub => outNZCV psw (a - v) (v.toNat ≤ a.toNat) (tooWide (a.toInt - v.toInt))
  | .mul => outNZCV psw (a * v) false (tooWide (a.toInt * v.toInt))
  | .mulhs => outNZ (BitVec.ofInt 64 ((a.toInt * v.toInt) / 2 ^ 64))
  | .mulhu => outNZ (BitVec.ofNat 64 (a.toNat * v.toNat / 2 ^ 64))
  | .div =>
    if v = 0 then divZero psw 0
    else { outNZ (BitVec.ofInt 64 (Int.tdiv a.toInt v.toInt)) with
      fault := if tooWide (Int.tdiv a.toInt v.toInt) && pswOve psw then some 0x0C else none }
  | .divu => if v = 0 then divZero psw 0 else outNZ (BitVec.ofNat 64 (a.toNat / v.toNat))
  | .rem =>
    if v = 0 then divZero psw a
    else { outNZ (BitVec.ofInt 64 (Int.tmod a.toInt v.toInt)) with
      fault := if tooWide (Int.tdiv a.toInt v.toInt) && pswOve psw then some 0x0C else none }
  | .remu => if v = 0 then divZero psw a else outNZ (BitVec.ofNat 64 (a.toNat % v.toNat))
  | .and => outNZ (a &&& v)
  | .or => outNZ (a ||| v)
  | .xor => outNZ (a ^^^ v)
  | .shl =>
    let n := v.toNat % 64
    outNZC (a <<< n) (n != 0 && a.getLsbD (64 - n))
  | .shr =>
    let n := v.toNat % 64
    outNZC (a >>> n) (n != 0 && a.getLsbD (n - 1))
  | .sar =>
    let n := v.toNat % 64
    outNZC (a.sshiftRight n) (n != 0 && a.getLsbD (n - 1))
  | .cmp => { outNZCV 0 (a - v) (v.toNat ≤ a.toNat) (tooWide (a.toInt - v.toInt)) with res := none }
  | .tst => { outNZ (a &&& v) with res := none }
  | .min => outNZ (if a.toInt ≤ v.toInt then a else v)
  | .max => outNZ (if a.toInt ≤ v.toInt then v else a)
  | .minu => outNZ (if a.toNat ≤ v.toNat then a else v)
  | .maxu => outNZ (if a.toNat ≤ v.toNat then v else a)

/-- NEG: 0 − ACC; C is the carry out of the addition NOT ACC + 1 (R105; log 12). -/
def negEval (psw : W32) (a : W64) : AluOut := outNZCV psw (0 - a) (a = 0) (tooWide (-a.toInt))

/-- ABS: |ACC|; C as for 0 − ACC, no borrow (R105, R107). -/
def absEval (psw : W32) (a : W64) : AluOut :=
  outNZCV psw (if a.getLsbD 63 then 0 - a else a) (a = 0) (tooWide (a.toInt.natAbs : Int))

/-- Leading zeros of ACC, 0 to 64. -/
def clz64 (a : W64) : W64 := BitVec.ofNat 64 (if a = 0 then 64 else 63 - a.toNat.log2)

/-- One bits of ACC. -/
def popc64 (a : W64) : W64 := BitVec.ofNat 64 ((List.range 64).countP (fun k => a.getLsbD k))

/-- The writes of an S-slot result, or its fault (R43: a faulting operation writes nothing). -/
def aluWrites (o : AluOut) : Ev (List Eff) :=
  match o.fault with
  | some c => raise c 0
  | none => .ok ((o.res.map Eff.acc).toList ++ [.psw o.mask o.flags])

/-- Whether a condition code holds (R105). -/
def condHolds (psw : W32) (cond : Nat) : Bool :=
  let n := psw.getLsbD 19
  let z := psw.getLsbD 18
  let v := psw.getLsbD 17
  let c := psw.getLsbD 16
  match cond with
  | 0 => true
  | 1 => z
  | 2 => !z
  | 3 => n != v
  | 4 => n == v
  | 5 => !c
  | 6 => c
  | 7 => !z && n == v
  | 8 => z || n != v
  | 9 => c && !z
  | 10 => !c || z
  | 11 => n
  | 12 => !n
  | 13 => v
  | 14 => !v
  | _ => false

end Sys2Proof.Machine
end

