-- ==== Sys2Proof/Machine/Blotter.lean ====
section
/-! DEFINITION. The blotter and merging buffer (R145 to R159): lookup, ages, fills, stores and drains. -/

namespace Sys2Proof.Machine

/-- Sets of a blotter (R145). -/
def blotSets (b : Bead) : Nat := 512 * b.blot.size.toNat

/-- A way of the blotter, by 4 × set + way. -/
def wayAt (b : Bead) (k : Nat) : BlotWay := mapGet (fun _ => {}) b.blot.ways k

/-- The bead with a way replaced. -/
def putWay (b : Bead) (k : Nat) (w : BlotWay) : Bead :=
  { b with blot := { b.blot with ways := mapPut b.blot.ways k w } }

/-- The bead with a way invalidated. -/
def dropWay (b : Bead) (k : Nat) : Bead := { b with blot := { b.blot with ways := mapDrop b.blot.ways k } }

/-- The first slot number of the set of a line (R148). -/
def setBase (b : Bead) (line : Nat) : Nat := 4 * (line % blotSets b)

/-- The slot that holds a line, if it is present (R148). A way whose tag has a parity error holds no line (R167). -/
def blotFind (b : Bead) (line : Nat) : Option Nat :=
  if b.blot.size = 0 then none
  else (List.range 4).findSome? (fun w =>
    let k := setBase b line + w
    if (wayAt b k).valid && !(wayAt b k).tagBad && (wayAt b k).line == line then some k else none)

/-- A parity event of the blotter counted (R167). -/
def countPerr (b : Bead) : Bead := { b with blot := { b.blot with perr := satInc b.blot.perr } }

/-- The ways of a line's set whose tags have a parity error, found by a lookup: invalidated and counted (R167). -/
def scrubTags (b : Bead) (line : Nat) : Bead :=
  if b.blot.size = 0 then b
  else (List.range 4).foldl (fun b w =>
    let k := setBase b line + w
    if (wayAt b k).valid && (wayAt b k).tagBad then countPerr (dropWay b k) else b) b

/-- Whether n bytes at an offset of a way meet a word with a parity error (R167). -/
def wayBad (w : BlotWay) (off n : Nat) : Bool :=
  (List.range 16).any (fun k => w.bad.getLsbD k && overlaps (4 * k, 4 * k + 4) (off, off + n))

/-- Whether an access looks up the blotter (R147). -/
def looksUp (b : Bead) (x : Xlat) : Bool :=
  b.blot.size != 0 && x.cache && (match regionOf x.pa with | .hbm .. => true | _ => false)

/-- Whether an untranslated address falls in a streaming window (R150). -/
def streaming (b : Bead) (va : Nat) : Bool :=
  let within (base limit : W32) : Bool := base.toNat * 0x10000 ≤ va && va < limit.toNat * 0x10000
  within b.blot.sw0Base b.blot.sw0Limit || within b.blot.sw1Base b.blot.sw1Limit

/-- The age that a fill takes (R149): 3 in a streaming window, 2 for a prefetch, 1 on demand. -/
def fillAge (b : Bead) (va : Nat) (demand : Bool) : BitVec 2 :=
  if streaming b va then 3 else if demand then 1 else 2

/-- A way hit by a load or store: its age becomes 0 (R149), and the hit is counted. -/
def touchWay (b : Bead) (k : Nat) : Bead :=
  let b := putWay b k { wayAt b k with age := 0 }
  { b with blot := { b.blot with hits := satInc b.blot.hits } }

/-- The bead with the ages of a set raised by 3 minus the largest, where no way has age 3 (R149). -/
def ageSet (b : Bead) (base : Nat) : Bead :=
  let top := ((List.range 4).map (fun w => (wayAt b (base + w)).age.toNat)).foldl Nat.max 0
  (List.range 4).foldl (fun b w =>
    putWay b (base + w) { wayAt b (base + w) with age := BitVec.ofNat 2 ((wayAt b (base + w)).age.toNat + (3 - top)) }) b

/-- A filled line placed in the blotter (R149): the lowest invalid way, else the lowest way of age 3 after ageing. -/
def placeLine (b : Bead) (line : Nat) (age : BitVec 2) (data : List W8) : Bead :=
  let base := setBase b line
  let put (b : Bead) (w : Nat) : Bead := putWay b (base + w) { valid := true, line, age, data }
  match (List.range 4).find? (fun w => !(wayAt b (base + w)).valid) with
  | some w => put b w
  | none =>
    let b := ageSet b base
    match (List.range 4).find? (fun w => (wayAt b (base + w)).age == 3) with
    | some w => put b w
    | none => b

/-- Whether a merging-buffer entry holds a line. -/
def mergeHas (b : Bead) (line : Nat) : Bool := b.blot.merge.any (fun m => m.line == line)

/-- The entries of a line start to drain (R154, R155). -/
def startDrain (b : Bead) (line : Nat) : Bead :=
  { b with blot := { b.blot with merge := b.blot.merge.map (fun m => if m.line = line then { m with draining := true } else m) } }

/-- Every entry starts to drain (R155). -/
def startDrainAll (b : Bead) : Bead :=
  { b with blot := { b.blot with merge := b.blot.merge.map (fun m => { m with draining := true }) } }

/-- The oldest entry starts to drain (R153). -/
def startDrainOldest (b : Bead) : Bead :=
  match b.blot.merge with
  | [] => b
  | m :: ms => { b with blot := { b.blot with merge := { m with draining := true } :: ms } }

/-- Whether a store to a line finds an entry to merge into or a free one (R153). -/
def mergeRoom (b : Bead) (line : Nat) : Bool :=
  b.blot.merge.length < 8 || b.blot.merge.any (fun m => m.line == line && !m.draining)

/-- Bytes written into a 64-byte line at an offset, bytes beyond the line left out. -/
def overlay (old : List W8) (off : Nat) (bs : List W8) : List W8 :=
  (List.range 64).map (fun k =>
    if off ≤ k ∧ k < off + bs.length then (bs[k - off]?).getD 0 else (old[k]?).getD 0)

/-- The byte mask of n bytes at an offset. -/
def byteMask (off n : Nat) : BitVec 64 := BitVec.ofNat 64 ((2 ^ n - 1) * 2 ^ off)

/-- A store of bytes into the merging buffer (R153): into the line's entry that is not draining, else a new entry with
the bead's next sequence number, which `new` has the line and store of. A full entry starts to drain (R154). -/
def mergeStore (b : Bead) (new : MergeEntry) (off : Nat) (bs : List W8) : Bead :=
  let line := new.line
  let put (m : MergeEntry) : MergeEntry :=
    let mask := m.mask ||| byteMask off bs.length
    { m with mask := mask, data := overlay m.data off bs, draining := m.draining || mask == BitVec.allOnes 64 }
  if b.blot.merge.any (fun m => m.line == line && !m.draining) then
    { b with blot := { b.blot with
      merge := b.blot.merge.map (fun m => if m.line = line && !m.draining then put m else m) } }
  else
    { b with
      core := { b.core with seq := b.core.seq + 1 }
      blot := { b.blot with merge := b.blot.merge ++ [put { new with seq := b.core.seq }] } }

/-- A way with bytes stored into it: a word wholly written gets fresh parity, a word partly written keeps its parity error
(R410). -/
def storeWay (w : BlotWay) (off : Nat) (bs : List W8) : BlotWay :=
  let whole := (List.range 16).foldl (fun (m : BitVec 16) k =>
    if off ≤ 4 * k ∧ 4 * k + 4 ≤ off + bs.length then m ||| BitVec.ofNat 16 (2 ^ k) else m) 0
  { w with data := overlay w.data off bs, bad := w.bad &&& ~~~whole }

/-- The blotter's side of a store to HBM, by a hand or by a row of TST (R149, R153, R155): a present line's copy is
updated and its age becomes 0. -/
def blotStore (b : Bead) (x : Xlat) (bs : List W8) : Bead :=
  if looksUp b x then
    let b := scrubTags b (x.pa / 64)
    match blotFind b (x.pa / 64) with
    | some k => touchWay (putWay b k (storeWay (wayAt b k) (x.pa % 64) bs)) k
    | none => b
  else b

/-- A hand's store to HBM (R153), by the glyph in a slot of a line of len glyphs: a present line's copy is updated, and the
store enters the merging buffer. -/
def hbmStore (b : Bead) (h slot len : Nat) (va : BitVec 48) (x : Xlat) (bs : List W8) : Bead :=
  mergeStore (blotStore b x bs) { seq := 0, line := x.pa / 64, mirror := x.mirror.map (· / 64), va := va
                                  hand := ⟨h % 4, Nat.mod_lt _ (by decide)⟩, slot := BitVec.ofNat 3 slot
                                  len := BitVec.ofNat 3 len } (x.pa % 64) bs

/-- Whether the line after L may be prefetched (R151): absent, in the same 2 MiB, with a valid cacheable translation and
a free fill entry. -/
def nextLineOk (s : State) (i : Nat) (va : Nat) (x : Xlat) : Bool :=
  let b := getBead s i
  let next := x.pa / 64 + 1
  b.blot.pf && (blotFind b next).isNone && !(b.blot.fills.any (fun f => f.line == next))
    && next / 32768 == x.pa / 64 / 32768 && b.blot.fills.length < 8
    && (match translate s (beadCtx b) (va / 64 * 64 + 64) false with | some y => y.cache | none => false)

/-- A miss of a hand's load, or of PREF, which is counted as no demand miss and returns nothing (R151, R152): the line's
merging-buffer entries start to drain (R155), a fill entry is taken unless the line is being filled already, and the next
line may be prefetched. The caller has seen that a fill entry is free; a line that retires late and finds none goes
without (log 27). -/
def demandMiss (s : State) (i : Nat) (va : Nat) (x : Xlat) (demand : Bool) : State :=
  let line := x.pa / 64
  let s := modBead s i (fun b =>
    let b := startDrain b line
    let b := if demand then { b with blot := { b.blot with misses := satInc b.blot.misses } } else b
    if b.blot.fills.any (fun f => f.line == line) || 8 ≤ b.blot.fills.length then b
    else { b with blot := { b.blot with fills := b.blot.fills ++ [⟨line, fillAge b va demand⟩] } })
  if nextLineOk s i va x then
    modBead s i (fun b => { b with blot := { b.blot with
      fills := b.blot.fills ++ [⟨line + 1, fillAge b (va / 64 * 64 + 64) false⟩] } })
  else s

/-- Whether a demand miss finds a fill entry (R151). -/
def fillRoom (b : Bead) (line : Nat) : Bool :=
  b.blot.fills.length < 8 || b.blot.fills.any (fun f => f.line == line)

end Sys2Proof.Machine
end

