-- ==== Sys2Proof/Machine/Scalar.lean ====
section
/-! DEFINITION. What the A-slot and S-slot glyphs write (R106 to R108): loads, stores, index arithmetic, the S-slot
operations, atomics and blotter maintenance. Control-register access is in Control.lean. -/

namespace Sys2Proof.Machine

/-- What an evaluated glyph gives: the writes that land when its line completes, those made when the line issues, and why
the line stays open. -/
structure Out where
  effs : List Eff
  start : List Eff := []
  opens : Option Pending := none
deriving DecidableEq, Repr

/-- A glyph that makes these writes. -/
def writes (l : List Eff) : Ev Out := .ok { effs := l }

/-- A glyph's further effect, from the registers its line found. -/
def actOf (e : Env) (c : Instr) : Eff := .act c e.x.acc e.x.x0 e.x.x1

/-- The data of a device-address load, if the blotter has it (R147, R148): none where a request must be made. The line
is held while no fill entry is free for a miss (R151). -/
def devLoad (e : Env) (o : BitVec 22) (n : Nat) : Ev (Option (List W8)) := do
  let va := devEa e.x.acc o
  match ← checkDev e va n n false false with
  | .tally .. => if devHeld e then .error .held else .ok none
  | .mem x =>
    if devHeld e then .error .held
    else if looksUp (envBead e) x then
      match blotFind (envBead e) (x.pa / 64) with
      | some k =>
        if wayBad (wayAt (envBead e) k) (x.pa % 64) n then
          if fillRoom (envBead e) (x.pa / 64) then .ok none else .error .held
        else .ok (some (((wayAt (envBead e) k).data.drop (x.pa % 64)).take n))
      | none => if fillRoom (envBead e) (x.pa / 64) then .ok none else .error .held
    else .ok none

/-- A device-address request put in flight by a hand (R142). -/
def pushReq (s : State) (i h : Nat) (pc : W32) (len slot : Nat) (va : BitVec 48) (pa : Nat) (mirror : Option Nat)
    (op : DevOp) : State :=
  let seq := (getBead s i).core.seq
  let s := modBead s i (fun b => { b with core := { b.core with seq := seq + 1 } })
  modHand s i h (fun x => { x with reqs := x.reqs ++ [{
    seq := seq, line := pc, slot := BitVec.ofNat 3 slot, len := BitVec.ofNat 3 len, va := va, pa := pa
    mirror := mirror, op := op, ctx := beadCtx (getBead s i) }] })

/-- The request side of a device-address load (R142, R151, R155, R167): a hit touches its way; a hit on a line with a
parity error invalidates it and fetches it again; any other access goes out. `out` says that the line found no data at
hand, so that the access goes out whatever the blotter holds by now. -/
def actDevLoad (s : State) (i h : Nat) (pc : W32) (len slot : Nat) (o : BitVec 22) (acc : W64) (n : Nat)
    (dest : LoadDest) (out : Bool) : State :=
  let v := (devEa acc o).toNat % 2 ^ 48
  let op := DevOp.load n dest
  if inTallySpace v then pushReq s i h pc len slot (BitVec.ofNat 48 v) v none op
  else match translate s (beadCtx (getBead s i)) v false with
    | none => s
    | some x =>
      let push (s : State) : State := pushReq s i h pc len slot (BitVec.ofNat 48 v) x.pa x.mirror op
      if looksUp (getBead s i) x then
        let s := modBead s i (fun b => scrubTags b (x.pa / 64))
        let b := getBead s i
        match blotFind b (x.pa / 64) with
        | some k =>
          if wayBad (wayAt b k) (x.pa % 64) n then
            push (demandMiss (modBead s i (fun b => countPerr (dropWay b k))) i v x true)
          else if out then push s
          else modBead s i (fun b => touchWay b k)
        | none => push (demandMiss s i v x true)
      else push (modBead s i (fun b => startDrain b (x.pa / 64)))

/-- The value of a form M operand of n bytes (R99, R100, R102): some bytes, or none where they come from a device
address and are not at hand. -/
def operandBytes (e : Env) (o : BitVec 22) (n : Nat) : Ev (Option (List W8)) :=
  if opdMode o = 5 then devLoad e o n
  else do
    let bs ← localLoad e (localEa e.x o).toNat n n
    .ok (some bs)

/-- A loaded value, sign- or zero-extended to 64 bits. -/
def extend (signed : Bool) (bs : List W8) : W64 :=
  match signed, bs.length with
  | true, 1 => (BitVec.ofNat 8 (ofBytes bs)).signExtend 64
  | true, 2 => (BitVec.ofNat 16 (ofBytes bs)).signExtend 64
  | true, 4 => (BitVec.ofNat 32 (ofBytes bs)).signExtend 64
  | _, _ => BitVec.ofNat 64 (ofBytes bs)

/-- A load whose destination is a register: the write where the data is at hand, and the device side otherwise. -/
def evalLoad (e : Env) (c : Instr) (o : BitVec 22) (n : Nat) (put : List W8 → Eff) : Ev Out := do
  match ← operandBytes e o n with
  | some bs => .ok { effs := [put bs], start := if opdMode o = 5 then [actOf e c] else [] }
  | none => writes [actOf e c]

/-- LD, LDW and the narrower loads of the S slot (R107). -/
def evalLd (e : Env) (c : Instr) (o : BitVec 22) (n : Nat) (signed : Bool) : Ev Out :=
  if opdMode o = 4 then writes [.acc (opdImm o)] else evalLoad e c o n (fun bs => .acc (extend signed bs))

/-- A store of a register to a form M operand (R100, R101, R106, R107): local bytes at once, a device-address store
through its home or the merging buffer. -/
def evalSt (e : Env) (c : Instr) (o : BitVec 22) (bs : List W8) : Ev Out :=
  let n := bs.length
  if opdMode o = 5 then do
    let va := devEa e.x.acc o
    match ← checkDev e va n n true false with
    | .tally .. => if devHeld e then .error .held else writes [actOf e c]
    | .mem x =>
      if devHeld e then .error .held
      else match regionOf x.pa with
        | .hbm .. => if mergeRoom (envBead e) (x.pa / 64) then writes [actOf e c] else .error .heldFull
        | _ => writes [actOf e c]
  else do
    let a := (localEa e.x o).toNat
    checkLocal e a n n
    writes [.store (folioBase e.i + a) bs]

/-- The device side of a store (R142, R153, R264). -/
def actDevStore (s : State) (i h : Nat) (pc : W32) (len slot : Nat) (o : BitVec 22) (acc : W64) (bs : List W8) :
    State :=
  let v := (devEa acc o).toNat % 2 ^ 48
  if inTallySpace v then pushReq s i h pc len slot (BitVec.ofNat 48 v) v none (.store bs)
  else match translate s (beadCtx (getBead s i)) v true with
    | none => s
    | some x =>
      match regionOf x.pa with
      | .hbm .. => modBead s i (fun b => hbmStore b h slot len (BitVec.ofNat 48 v) x bs)
      | _ => pushReq s i h pc len slot (BitVec.ofNat 48 v) x.pa x.mirror (.store bs)

/-- An S-slot operation with an operand (R107): an operand from a device address that is not at hand keeps the line
open until it returns (R104, class P). -/
def evalAlu (e : Env) (c : Instr) (op : AluOp) (o : BitVec 22) : Ev Out :=
  if opdMode o = 4 then do
    let l ← aluWrites (aluEval op e.x.psw e.x.acc (opdImm o))
    writes l
  else do
    match ← operandBytes e o 8 with
    | some bs =>
      let l ← aluWrites (aluEval op e.x.psw e.x.acc (extend false bs))
      .ok { effs := l, start := if opdMode o = 5 then [actOf e c] else [] }
    | none => .ok { effs := [], start := [actOf e c], opens := some .operand }

/-- The old value of an atomic's word and its operands give the new one (R107). -/
def atomNew (op : AtomOp) (old a b : W64) : W64 :=
  match op with
  | .add => old + a
  | .swap => a
  | .cas => if old = a then b else old
  | .min => if old.toInt ≤ a.toInt then old else a
  | .max => if old.toInt ≤ a.toInt then a else old
  | .or => old ||| a
  | .and => old &&& a

/-- X1 × 2^32 + X0. -/
def x1x0 (x0 x1 : W32) : W64 := x1.zeroExtend 64 <<< 32 ||| x0.zeroExtend 64

/-- The checks of an atomic (R101, R107, R157, R269). -/
def evalAtomic (e : Env) (c : Instr) (o : BitVec 22) : Ev Out :=
  if opdMode o = 5 then do
    let _ ← checkDev e (devEa e.x.acc o) 8 8 true true
    if devHeld e then .error .held else writes [actOf e c]
  else do
    let _ ← localLoad e (localEa e.x o).toNat 8 8
    writes [actOf e c]

/-- The performance of an atomic: at the own folio at once, after the line's stores (R107); on a device address as a
request, after the line's merging-buffer entries and blotter line are dealt with (R157). `x` is the hand as the line
found it. -/
def actAtomic (s : State) (i h : Nat) (pc : W32) (len : Nat) (x : Hand) (o : BitVec 22) (op : AtomOp) (acc : W64)
    (x0 x1 : W32) : State :=
  if opdMode o = 5 then
    let v := (devEa acc o).toNat % 2 ^ 48
    match translate s (beadCtx (getBead s i)) v true with
    | none => s
    | some t =>
      let s := modBead s i (fun b =>
        let b := startDrain b (t.pa / 64)
        match blotFind b (t.pa / 64) with
        | some k => dropWay b k
        | none => b)
      pushReq s i h pc len 1 (BitVec.ofNat 48 v) t.pa t.mirror (.atomic op acc (x1x0 x0 x1))
  else
    let a := folioBase i + (localEa x o).toNat
    let old := BitVec.ofNat 64 (loadNat s a 8)
    let s := storeBytes s a (toBytes 8 (atomNew op old acc (x1x0 x0 x1)).toNat)
    modHand s i h (fun x => { x with acc := old })

/-- XLD, FPLD (R106). -/
def evalXld (e : Env) (c : Instr) (x : XReg) (o : BitVec 22) : Ev Out :=
  evalLoad e c o 4 (fun bs => .xr x (BitVec.ofNat 32 (ofBytes bs)))
@[inherit_doc evalXld] def evalFpld (e : Env) (c : Instr) (o : BitVec 22) : Ev Out :=
  evalLoad e c o 4 (fun bs => .fp (BitVec.ofNat 32 (ofBytes bs)))

/-- An index register of a hand. -/
def xOf (x : Hand) : XReg → W32
  | .x0 => x.x0 | .x1 => x.x1

/-- A 32-bit immediate. -/
def imm32 (o : BitVec 22) : W32 := (opdImm o).truncate 32

/-- The register read by RGET r (R107). -/
def rgetValue (e : Env) (r : Nat) : W64 :=
  let w : W32 := match r with
    | 0 => e.x.x0
    | 1 => e.x.x1
    | 2 => e.x.fp
    | 3 => e.x.fsw
    | 4 => e.x.psw
    | 5 => if pswLd e.x.psw = 0 then 0 else (loopOf e.x (pswLd e.x.psw - 1)).lpc.zeroExtend 32
    | _ => e.succ
  w.zeroExtend 64

/-- FSWPUT (R108): RM and SAT from ACC; sticky flags whose ACC bit is 1 are cleared. -/
def fswPut (fsw : W32) (acc : W64) : W32 :=
  let a : W32 := acc.truncate 32
  merge32 (fsw &&& ~~~(a &&& 0x3F)) 0xB00 a

/-- PSWPUT (R108): flags and enables, and LD above user level, where an LD above 4 raises LOOP with SFA 4. -/
def evalPswput (e : Env) : Ev Out :=
  let a : W32 := e.x.acc.truncate 32
  if envPl e = 0 then writes [.psw 0x000F0300 a]
  else if pswLd a > 4 then raise 0x0A 4
  else writes [.psw 0x007F0300 a]

/-- The line that a maintenance glyph names (R158): of the translated address in ACC-indirect mode, else the line that
the position in the blotter's data array holds. -/
def maintLine (s : State) (i : Nat) (x : Hand) (acc : W64) (o : BitVec 22) : Option Nat :=
  let b := getBead s i
  if opdMode o = 5 then
    (translate s (beadCtx b) ((devEa acc o).toNat % 2 ^ 48) false).map (fun t => t.pa / 64)
  else
    let pos := ((localEa x o).toNat - blotterBank b.blot.size.toNat * 0x10000) / 64
    let k := Config.blotterLineAt b.blot.size.toNat pos % (4 * blotSets b)
    if (wayAt b k).valid then some (wayAt b k).line else none

/-- BLCLN, BLINV and BLCI check their address (R100, R158): a local EA lies in a bank operating as blotter. The line is
not accessed, so no alignment is asked (log 14). -/
def evalMaint (e : Env) (c : Instr) (o : BitVec 22) : Ev Out :=
  if opdMode o = 5 then
    let a := (devEa e.x.acc o).toNat
    if a ≥ 2 ^ 48 ∨ (translate e.s (beadCtx (envBead e)) a false).isNone then raiseDev 0x04 (a % 2 ^ 48)
    else writes [actOf e c]
  else
    let a := localEa e.x o
    if a.toNat ≥ 0x200000 ∨ !inBlotter (envBead e) a.toNat then raise 0x05 a
    else writes [actOf e c]

/-- A line cleaned, invalidated or both (R158). -/
def maintain (b : Bead) (line : Nat) (clean inval : Bool) : Bead :=
  let b := if clean then startDrain b line else b
  if inval then
    match blotFind b line with
    | some k => dropWay b k
    | none => b
  else b

/-- BLCLN, BLINV and BLCI performed (R158). -/
def actMaint (s : State) (i : Nat) (x : Hand) (acc : W64) (o : BitVec 22) (clean inval : Bool) : State :=
  match maintLine s i x acc o with
  | some l => modBead s i (fun b => maintain b l clean inval)
  | none => s

/-- Whether ACC is a legal BLSW word for the operations 0 to 2 (R159). -/
def blswOk (b : Bead) (acc : W64) : Bool :=
  acc &&& 0xFFFFFFFFFFF800CC == 0 && fld acc.toNat 18 8 < blotSets b

/-- BLSW with OP 0 to 2 performed (R159): an illegal word sets BADOP and does nothing. -/
def actBlsw (s : State) (i : Nat) (acc : W64) (clean inval : Bool) : State :=
  modBead s i (fun b =>
    if blswOk b acc then
      let k := 4 * fld acc.toNat 18 8 + fld acc.toNat 5 4
      if (wayAt b k).valid then maintain b (wayAt b k).line clean inval else b
    else { b with blot := { b.blot with badop := true } })

/-- BLSW (R159): PRIV at user level. Operation 3 keeps its line open while its scan runs; non-zero bits outside its
fields set BADOP as for the others. -/
def evalBlsw (e : Env) (c : Instr) (op : Nat) : Ev Out :=
  if envPl e = 0 then raise 0x02 e.pc
  else if fld e.x.acc.toNat 1 0 ≠ op then .error .held
  else if op = 3 ∧ e.x.acc &&& 0xFFFFFFFFFFF800CC = 0 then
    .ok { effs := [], start := [actOf e c], opens := some .scan }
  else writes [actOf e c]

/-- BLSW with OP 3 begun (R159): every merging-buffer entry starts to drain. -/
def actBlswAll (s : State) (i : Nat) (acc : W64) : State :=
  modBead s i (fun b =>
    if acc &&& 0xFFFFFFFFFFF800CC = 0 then startDrainAll b
    else { b with blot := { b.blot with badop := true } })

/-- PREF performed (R106, R151, R152): a miss that returns nothing and may prefetch the next line; dropped without a
valid, cacheable translation of HBM, with the line present or being filled, or with no free fill entry. -/
def actPref (s : State) (i : Nat) (acc : W64) (o : BitVec 22) : State :=
  let a := (devEa acc o).toNat
  let b := getBead s i
  match if a < 2 ^ 48 then translate s (beadCtx b) a false else none with
  | none => s
  | some x =>
    let line := x.pa / 64
    if !looksUp b x then s
    else
      let s := modBead s i (fun b => scrubTags b line)
      let b := getBead s i
      if (blotFind b line).isNone && !(b.blot.fills.any (fun f => f.line == line)) && b.blot.fills.length < 8 then
        demandMiss s i a x false
      else s

end Sys2Proof.Machine
end

