-- ==== Sys2Proof/Machine/Queues.lean ====
section
/-! DEFINITION. Queue endpoints, counters, the fire gate, and what the Q-slot glyphs do (R68 to R72, R80, R111 to R113,
R160, R216, R218, R237 to R249, R261, R262, R270). -/

namespace Sys2Proof.Machine

/-- A counter's word pair in the active record: LIMIT, SRC, EMIT, VALID (*Bead record*, CTR_k). -/
def ctrCfg (b : Bead) (k : Nat) : Nat := ruleWord b (16 + 2 * k) + ruleWord b (17 + 2 * k) * 2 ^ 32

/-- The token of an EMIT code, for a counter at its limit or below it (R216, R247). -/
def emitToken (emit : Nat) (atLimit : Bool) : Option W8 :=
  match emit, atLimit with
  | 1, true => some 0x81
  | 2, true => some 0x82
  | 3, true => some 0x83
  | 4, true => some 0x91
  | 4, false => some 0x90
  | _, _ => none

/-- One unit that passes the point src of bead i counted on its counters, in ascending order, so that a counter may
count a lower one's tokens (R216). -/
def countUnit (s : State) (i src : Nat) : State :=
  let step (p : State × List Nat) (k : Nat) : State × List Nat :=
    let (s, srcs) := p
    let c := ctrCfg (getBead s i) k
    if bitAt c 63 && srcs.contains (fld c 31 24) then
      let v := (mapGet (fun _ => (0 : W32)) (getBead s i).ends.counters k).toNat + 1
      let atLimit := v = fld c 23 0
      let s := modBead s i (fun b => { b with ends := { b.ends with
        counters := mapPut b.ends.counters k (if atLimit then 0 else BitVec.ofNat 32 v) } })
      match emitToken (fld c 34 32) atLimit with
      | some t =>
        (launch s .control (.counter i k) i (24 + k) (t.zeroExtend 32) 0 true, srcs ++ [0x30 + k])
      | none => (s, srcs)
    else (s, srcs)
  ((List.range 8).foldl step (s, [src])).1

/-- Whether scalar out-endpoint e of a bead is closed. -/
def soutClosed (b : Bead) (e : Nat) : Bool := b.ends.soutClosed.getLsbD e
/-- Whether vector out-endpoint v of a bead is closed. -/
def voutClosed (b : Bead) (v : Nat) : Bool := b.ends.voutClosed.getLsbD v
/-- The words of a scalar in-endpoint. -/
def sinWords (b : Bead) (e : Nat) : List (W32 × Bool) := mapGet (fun _ => []) b.ends.sin e
/-- The rows of a vector in-endpoint. -/
def vinRows (b : Bead) (v : Nat) : List Row := mapGet (fun _ => []) b.ends.vin v
/-- The credits of a scalar out-endpoint. -/
def soutCredits (b : Bead) (e : Nat) : Nat := mapGet (fun _ => 0) b.ends.soutCred e
/-- The credits of a vector out-endpoint. -/
def voutCredits (b : Bead) (v : Nat) : Nat := mapGet (fun _ => 0) b.ends.voutCred v

/-- The readable words of an in-endpoint: those up to the last message end (R244). -/
def readable (ws : List (W32 × Bool)) : Nat :=
  ws.length - (ws.reverse.takeWhile (fun w => !w.2)).length

/-- The conditions of a hand's fire gate (R218). -/
def gateOpen (b : Bead) (x : Hand) : Bool :=
  let q := x.fireQ.toNat
  let need := fld q 30 28 + 1
  let e := b.ends
  (List.range 8).all (fun k => !bitAt q k || (!e.sinClosed.getLsbD k && need ≤ (sinWords b k).length))
  && (List.range 4).all (fun k => !bitAt q (8 + k) || (!e.vinClosed.getLsbD k && (vinRows b k).length ≥ 1))
  && (List.range 8).all (fun k => !bitAt q (16 + k) || soutClosed b k || need ≤ soutCredits b k)
  && (List.range 4).all (fun k => !bitAt q (24 + k) || voutClosed b k || 1 ≤ voutCredits b k)
  && (List.range 16).all (fun k => !x.fireTok.getLsbD k ||
      (if tokIsIn b k then !e.tokClosed.getLsbD k && (mapFind e.tin k).isSome
       else e.tokClosed.getLsbD k || (mapFind e.tout k).isNone))

/-- Whether a hand is held at its fire line (R218). -/
def gateHolds (b : Bead) (x : Hand) : Bool :=
  x.firePc.getLsbD 31 && fld x.firePc.toNat 20 2 * 4 == x.pc.toNat && !gateOpen b x

/-- Whether another hand of the bead has a message staged on an out-endpoint (R244). -/
def portTaken (e : Env) (ep : Nat) : Bool :=
  (List.range 4).any (fun k => k != e.h && match (handOf (envBead e) k).staged with
    | some m => m.ep.val == ep
    | none => false)

/-- SEND, SENDM and SENDL (R112, R242, R244, R249): RSVD while a message is staged on another endpoint or a ninth word
would be staged, QCLOSED on a closed endpoint, held without the port or a credit. -/
def evalSend (e : Env) (c : Instr) (o : BitVec 22) (staging : Bool) (last : Bool) : Ev Out :=
  let ep := opdField o
  let elsewhere := match e.x.staged with
    | some m => m.ep.val != ep
    | none => false
  let full := match e.x.staged with
    | some m => m.words.length ≥ 8
    | none => false
  if elsewhere || (staging && !last && full) then raise 0x01 e.pc
  else if soutClosed (envBead e) ep then
    .error (.fault { cause := 0x07, sfa := BitVec.ofNat 32 ep, abort := staging })
  else if portTaken e ep || soutCredits (envBead e) ep == 0 then .error .held
  else writes [actOf e c]

/-- One credit of a scalar out-endpoint taken. -/
def takeSout (b : Bead) (ep : Nat) : Bead :=
  { b with ends := { b.ends with soutCred := mapPut b.ends.soutCred ep (soutCredits b ep - 1) } }

/-- Words that leave on scalar out-endpoint ep: each is put on its route and counted (R216, R243). -/
def sendWords (s : State) (i ep : Nat) : List W32 → State
  | [] => s
  | w :: ws =>
    let s := launch s .scalar (.ep i ep) i ep w 0 ws.isEmpty
    sendWords (countUnit s i (0x11 + ep)) i ep ws

/-- SEND performed. -/
def actSend (s : State) (i : Nat) (o : BitVec 22) (acc : W64) : State :=
  sendWords (modBead s i (fun b => takeSout b (opdField o))) i (opdField o) [acc.truncate 32]

/-- SENDM performed, and SENDL, which commits the message (R112). -/
def actSendm (s : State) (i h : Nat) (o : BitVec 22) (acc : W64) (commit : Bool) : State :=
  let ep := opdField o
  let x := getHand s i h
  let ws := (match x.staged with | some m => m.words | none => []) ++ [acc.truncate 32]
  let s := modBead s i (fun b => takeSout b ep)
  let s := modHand s i h (fun x =>
    { x with staged := if commit then none else some ⟨⟨ep % 8, Nat.mod_lt _ (by decide)⟩, ws⟩ })
  if commit then sendWords s i ep ws else s

/-- RECV: held on a closed endpoint or without a whole message (R97, R244, R249). -/
def evalRecv (e : Env) (c : Instr) (o : BitVec 22) : Ev Out :=
  let ep := opdField o
  let ws := sinWords (envBead e) ep
  if (envBead e).ends.sinClosed.getLsbD ep || readable ws = 0 then .error .held
  else writes [.acc ((ws.headD (0, false)).1.zeroExtend 64), actOf e c]

/-- RECV performed: the word leaves and its credit returns (R242). -/
def actRecv (s : State) (i : Nat) (o : BitVec 22) : State :=
  let ep := opdField o
  let s := modBead s i (fun b => { b with ends := { b.ends with
    sin := mapPut b.ends.sin ep ((sinWords b ep).drop 1) } })
  returnCredits s .scalar i ep 1 false

/-- QCRED (R249): all ones on a closed endpoint. -/
def qcredValue (b : Bead) (ep : Nat) : W64 :=
  if soutClosed b ep then BitVec.allOnes 64 else BitVec.ofNat 64 (soutCredits b ep)

/-- Whether slot k accepts a TOKSEND as an open out slot. -/
def tokOutOpen (b : Bead) (k : Nat) : Bool := !tokIsIn b k && !b.ends.tokClosed.getLsbD k

/-- TOKSEND (R242, R249): QCLOSED on a closed slot or one that is no out slot, held while the slot is full. -/
def evalToksend (e : Env) (c : Instr) (o : BitVec 22) : Ev Out :=
  let k := opdField o
  if !tokOutOpen (envBead e) k then raise 0x07 (BitVec.ofNat 32 (16 + k))
  else if (mapFind (envBead e).ends.tout k).isSome then .error .held
  else writes [actOf e c]

/-- The token of out slot k sent, if the slot holds one and has its credit (R242). -/
def releaseToken (s : State) (i k : Nat) : State :=
  let b := getBead s i
  match mapFind b.ends.tout k with
  | some t =>
    if b.ends.toutCred.getLsbD k then
      let s := modBead s i (fun b => { b with ends := { b.ends with
        tout := mapDrop b.ends.tout k, toutCred := b.ends.toutCred &&& ~~~(BitVec.ofNat 16 (2 ^ k)) } })
      launch s .control (.ep i k) i k (t.zeroExtend 32) 0 true
    else s
  | none => s

/-- TOKSEND performed. -/
def actToksend (s : State) (i : Nat) (o : BitVec 22) (acc : W64) : State :=
  let k := opdField o
  let s := modBead s i (fun b => { b with ends := { b.ends with tout := mapPut b.ends.tout k (acc.truncate 8) } })
  releaseToken s i k

/-- TOKRECV: held on a slot that is no in slot, is closed or is empty (R97, R249). -/
def evalTokrecv (e : Env) (c : Instr) (o : BitVec 22) : Ev Out :=
  let k := opdField o
  let b := envBead e
  if !tokIsIn b k || b.ends.tokClosed.getLsbD k then .error .held
  else match mapFind b.ends.tin k with
    | some t => writes [.acc (t.zeroExtend 64), actOf e c]
    | none => .error .held

/-- TOKRECV performed: the slot empties and its credit returns. -/
def actTokrecv (s : State) (i : Nat) (o : BitVec 22) : State :=
  let k := opdField o
  let s := modBead s i (fun b => { b with ends := { b.ends with tin := mapDrop b.ends.tin k } })
  returnCredits s .control i k 1 false

/-- The virtual tally identifier of form N (R113). -/
def tallyId (x : Hand) (o : BitVec 22) : Nat :=
  match opdMode o with
  | 1 => (x.x0 + BitVec.ofInt 32 (opdDisp o)).toNat % 1024
  | 2 => (x.x1 + BitVec.ofInt 32 (opdDisp o)).toNat % 1024
  | _ => opdField o % 1024

/-- The physical tally that a tally glyph names; XMISS with DEV = 0 and SFA = t where it has no translation (R113). -/
def glyphTally (e : Env) (o : BitVec 22) : Ev Nat :=
  let t := tallyId e.x o
  match beadCtx (envBead e) with
  | none => raise 0x04 (BitVec.ofNat 32 t)
  | some c =>
    match tallyOf e.s (e.i / 256) c t with
    | some p => .ok p
    | none => raise 0x04 (BitVec.ofNat 32 t)

/-- TWAIT (R96, R261). -/
def evalTwait (e : Env) (c : Instr) (o : BitVec 22) : Ev Out := do
  let p ← glyphTally e o
  let l := e.x.latch
  let target : BitVec 48 := e.x.acc.truncate 48
  if l.valid && l.sat && !l.read && l.tally == BitVec.ofNat 12 p && l.target == target then writes [actOf e c]
  else .error (.asleep .twait (some { valid := true, tally := BitVec.ofNat 12 p, target := target, asked := true }))

/-- TREAD (R261): held until the value is in the latch. -/
def evalTread (e : Env) (c : Instr) (o : BitVec 22) : Ev Out := do
  let p ← glyphTally e o
  let l := e.x.latch
  if l.valid && l.read && l.tally == BitVec.ofNat 12 p then
    if l.sat then writes [.acc (l.target.zeroExtend 64), actOf e c] else .error .held
  else .error (.ask { valid := true, read := true, tally := BitVec.ofNat 12 p, asked := true })

/-- The latch cleared when its line issues (R261). -/
def actLatch (s : State) (i h : Nat) : State := modHand s i h (fun x => { x with latch := {} })

/-- TADD and TINC: held while four raises wait (R262). -/
def evalTadd (e : Env) (c : Instr) (o : BitVec 22) : Ev Out := do
  let _ ← glyphTally e o
  if e.x.raises.length ≥ 4 then .error .held else writes [actOf e c]

/-- A raise queued behind the hand's earlier stores (R262). -/
def actTadd (s : State) (i h : Nat) (x : Hand) (o : BitVec 22) (amount : BitVec 48) : State :=
  match beadCtx (getBead s i) with
  | none => s
  | some c =>
    match tallyOf s (i / 256) c (tallyId x o) with
    | none => s
    | some p =>
      let seq := (getBead s i).core.seq
      modHand s i h (fun x => { x with raises := x.raises ++ [⟨seq, p, amount⟩] })

/-- The folio address of a tray's entry (R237). -/
def trayEntry (b : Bead) (n : Nat) : Nat := fld b.regs.trayCfg.toNat 20 14 * 0x4000 + 64 * (n % 256)
/-- Whether a bead's tray is enabled. -/
def trayOn (b : Bead) : Bool := b.regs.trayCfg.getLsbD 31
/-- Entries of a tray (R237). -/
def trayCount (b : Bead) : Nat := (b.regs.trayTail - b.regs.trayHead).toNat

/-- TRPUSH (R111, R238): PRIV in a ruled rod; ACC 1 where the tray is off or full. -/
def evalTrpush (e : Env) (o : BitVec 22) (c : Instr) : Ev Out :=
  if !inFreeRod e.s e.i then raise 0x02 e.pc
  else do
    let bs ← localLoad e (localEa e.x o).toNat 64 64
    let b := envBead e
    if !trayOn b || trayCount b ≥ 256 then writes [.acc 1]
    else
      let a := trayEntry b b.regs.trayTail.toNat
      if rangeHeld b a 64 then .error .held
      else writes [.acc 0, .store (folioBase e.i + a) bs, actOf e c]

/-- TRPOP (R111, R238): PRIV in a ruled rod; ACC 1 where the tray is off or empty. -/
def evalTrpop (e : Env) (o : BitVec 22) (c : Instr) : Ev Out :=
  if !inFreeRod e.s e.i then raise 0x02 e.pc
  else do
    let a := (localEa e.x o).toNat
    checkLocal e a 64 64
    let b := envBead e
    if !trayOn b || trayCount b = 0 then writes [.acc 1]
    else
      let t := trayEntry b (b.regs.trayTail - 1).toNat
      match parityFind e.s.parity (folioBase e.i + t) 64 with
      | some w => raise 0x06 (BitVec.ofNat 32 (w - folioBase e.i))
      | none => writes [.acc 0, .store (folioBase e.i + a) (loadBytes e.s (folioBase e.i + t) 64), actOf e c]

/-- The tail moved by TRPUSH or TRPOP (R238). -/
def actTail (s : State) (i : Nat) (push : Bool) : State :=
  modBead s i (fun b => { b with regs := { b.regs with
    trayTail := if push then b.regs.trayTail + 1 else b.regs.trayTail - 1 } })

/-- One step of the 16-bit LFSR x^16 + x^14 + x^13 + x^11 + 1, shifting toward bit 0 (R240; log 16). -/
def lfsrStep (w : W32) : W32 :=
  let v := w.toNat % 65536
  let b := (bitAt v 0 ^^ bitAt v 2 ^^ bitAt v 3 ^^ bitAt v 5)
  BitVec.ofNat 32 (v / 2 + if b then 0x8000 else 0)

/-- The logical neighbours of a bead at +site, −site, +rod and −rod that exist in free-mode rods (R240). -/
def trayNeighbours (s : State) (i : Nat) : List Nat :=
  let pos := i % 16
  let rod := i % 256 / 16
  let all := (if pos < 15 then [i + 1] else []) ++ (if 0 < pos then [i - 1] else [])
    ++ (if rod < 15 then [i + 16] else []) ++ (if 0 < rod then [i - 16] else [])
  all.filter (fun j => beadExists s j && inFreeRod s j)

/-- The next victim of a steal (R240): the neighbours left, then random draws, at most 64 in all, until the walk is
used up. Answers the victim, the LFSR state and the draws made. -/
def walkDraw (s : State) (i : Nat) (probed : List Nat) : Nat → W32 → Nat → Option Nat × W32 × Nat
  | 0, w, draws => (none, w, draws)
  | fuel + 1, w, draws =>
    let w := lfsrStep w
    let j := i / 256 * 256 + w.toNat % 256
    if j ≠ i ∧ !probed.contains j ∧ inFreeRod s j ∧ beadExists s j then (some j, w, draws + 1)
    else walkDraw s i probed fuel w (draws + 1)

/-- A steal moved on to its next victim, or ended with ACC all ones (R240). -/
def stealNext (s : State) (i h : Nat) (t : Steal) : State :=
  match t.neighbours with
  | j :: js => modHand s i h (fun x => { x with
      steal := some { t with victim := j, neighbours := js, probed := t.probed ++ [j], answer := none } })
  | [] =>
    let stop (s : State) : State := modHand s i h (fun x => { x with steal := none, acc := BitVec.allOnes 64 })
    if t.walks = 0 then stop s
    else
      let b := getBead s i
      let (v, w, n) := walkDraw s i t.probed (64 - t.draws) b.regs.traySeed t.draws
      let s := modBead s i (fun b => { b with regs := { b.regs with traySeed := w } })
      match v with
      | none => stop s
      | some j => modHand s i h (fun x => { x with
          steal := some { t with victim := j, probed := t.probed ++ [j], walks := t.walks - 1, draws := n, answer := none } })

/-- TRSTEAL (R111, R240). -/
def evalTrsteal (e : Env) (o : BitVec 22) (c : Instr) : Ev Out :=
  if !inFreeRod e.s e.i then raise 0x02 e.pc
  else do
    checkLocal e (localEa e.x o).toNat 64 64
    writes [actOf e c]

/-- TRSTEAL begun: its first probe leaves (R239, R240). -/
def actTrsteal (s : State) (i h : Nat) (x : Hand) (o : BitVec 22) : State :=
  let walk := fld (getBead s i).regs.trayCfg.toNat 11 8
  stealNext s i h ⟨(localEa x o).toNat, [], 0, trayNeighbours s i, walk, 0, none⟩

/-- The lowest-numbered free quill slot (R160). -/
def freeQuill (b : Bead) : Option Nat :=
  (List.range 8).find? (fun k => !(mapGet (fun _ => {}) b.quills k : QuillSlot).busy)

/-- QUILL (R138, R160, R166): held while all slots are busy, the scoreboard lacks entries, or a range of the descriptor
meets one that a drain holds. -/
def evalQuill (e : Env) (o : BitVec 22) : Ev Out :=
  let b := envBead e
  match freeQuill b with
  | none => .error .held
  | some k => do
    let d ← localLoad e (localEa e.x o).toNat 64 64
    let drains := b.nibDrains.flatMap (fun d => drainRange d.desc :: (drainScales d.desc).toList)
    if heldEntries b + (qRanges d).length > 8 || (qRanges d).any (fun r => drains.any (overlaps r)) then .error .held
    else writes [.acc (BitVec.ofNat 64 k), .quill d]

/-- QUILL performed: the descriptor takes its slot, and ERR, ECODE and ROWS_DONE of the slot start at zero (log 162). `x` is
the hand as the line found it. -/
def actQuill (s : State) (i h : Nat) (x : Hand) (d : List W8) : State :=
  modBead s i (fun b =>
    match freeQuill b with
    | none => b
    | some k =>
      let old : QuillSlot := mapGet (fun _ => {}) b.quills k
      { b with
        quillSeq := b.quillSeq + 1
        quills := mapPut b.quills k { busy := true, desc := d, hand := ⟨h % 4, Nat.mod_lt _ (by decide)⟩
                                      level := BitVec.ofNat 2 (pswPl x.psw), order := b.quillSeq, qerr := old.qerr } })

/-- QUILLST (R111): slots busy, and slots completed with error since the last QUILLST. -/
def quillstValue (b : Bead) : W64 :=
  let bit (p : QuillSlot → Bool) (k : Nat) : Nat := if p (mapGet (fun _ => {}) b.quills k) then 2 ^ k else 0
  BitVec.ofNat 64 (((List.range 8).map (bit (·.busy))).sum + 256 * ((List.range 8).map (bit (·.qerr))).sum)

/-- The error bits cleared by QUILLST. -/
def actQuillst (s : State) (i : Nat) : State :=
  modBead s i (fun b => { b with quills := b.quills.map (fun p => (p.1, { p.2 with qerr := false })) })

/-- FENCE (R270): the line stays open, and the merging buffer starts to drain (R155). -/
def evalFence (e : Env) (o : BitVec 22) (c : Instr) : Ev Out :=
  let b := envBead e
  let f := opdField o % 4
  let mine (k : Nat) : Bool :=
    let q : QuillSlot := mapGet (fun _ => {}) b.quills k
    q.busy && (f = 3 || (f = 2 && q.hand.val == e.h))
  let qs := (List.finRange 8).filter (fun k => mine k.val)
  .ok { effs := [], start := [actOf e c], opens := some (.fence ⟨f % 4, Nat.mod_lt _ (by decide)⟩ b.core.seq qs) }

/-- A common word (R72). -/
def cwOf (b : Bead) (w : Nat) : W32 := mapGet (fun _ => 0) b.core.cw w

/-- A common word written (R68, R72): hands that sleep on its bit wake with STATE.WAKE = 3; a hand halted in such a
sleep wakes when it is released (R377). -/
def writeCw (b : Bead) (w : Nat) (v : W32) : Bead :=
  let b := { b with core := { b.core with cw := mapPut b.core.cw w v } }
  (List.range 4).foldl (fun b k =>
    let x := handOf b k
    if !x.sleepMask.getLsbD w then b
    else if x.st = .sleeping .sleep then setHand b k (wakeHand x 3)
    else if x.st = .halted .sleeping then setHand b k { x with st := .halted .running, wake := 3 }
    else b) b

/-- CWST, CWADD and CWSWP take PRIV on a locked word at user level (R72). -/
def evalCw (e : Env) (o : BitVec 22) (c : Instr) (old : Bool) : Ev Out :=
  let w := opdField o
  if envPl e = 0 && (envBead e).regs.cwLock.getLsbD w then raise 0x02 e.pc
  else writes ((if old then [.acc ((cwOf (envBead e) w).zeroExtend 64)] else []) ++ [actOf e c])

/-- Fields of BEAD_CHAN_CFG for a channel: enabled, receiver, sender. -/
def chanEn (b : Bead) (c : Nat) : Bool := b.regs.chanCfg.getLsbD (8 * c + 7)
@[inherit_doc chanEn] def chanDst (b : Bead) (c : Nat) : Nat := fld b.regs.chanCfg.toNat (8 * c + 3) (8 * c + 2)
@[inherit_doc chanEn] def chanSrc (b : Bead) (c : Nat) : Nat := fld b.regs.chanCfg.toNat (8 * c + 1) (8 * c)
/-- The entries of a channel. -/
def chanQ (b : Bead) (c : Nat) : List W64 := mapGet (fun _ => []) b.core.chan c

/-- CSEND (R71, R96). -/
def evalCsend (e : Env) (o : BitVec 22) (c : Instr) : Ev Out :=
  let b := envBead e
  let k := opdField o
  if !chanEn b k || chanSrc b k != e.h then raise 0x02 e.pc
  else if (chanQ b k).length ≥ 2 then .error (.asleep .csend none)
  else writes [actOf e c]

/-- CRECV (R71, R96). -/
def evalCrecv (e : Env) (o : BitVec 22) (c : Instr) : Ev Out :=
  let b := envBead e
  let k := opdField o
  if !chanEn b k || chanDst b k != e.h then raise 0x02 e.pc
  else match chanQ b k with
    | [] => .error (.asleep .crecv none)
    | v :: _ => writes [.acc v, actOf e c]

/-- A channel's entries replaced. -/
def putChan (b : Bead) (c : Nat) (q : List W64) : Bead := { b with core := { b.core with chan := mapPut b.core.chan c q } }

/-- SLEEP performed after its line (R68, R96). -/
def actSleep (s : State) (i h : Nat) (o : BitVec 22) : State :=
  modHand s i h (fun x => { x with st := .sleeping .sleep, sleepMask := BitVec.ofNat 8 (opdField o) })

/-- NWAIT (R80, R96): hand 0 only. -/
def evalNwait (e : Env) : Ev Out :=
  if e.h ≠ 0 then raise 0x02 e.pc
  else if (envBead e).core.notices.isEmpty then .error (.asleep .nwait none)
  else writes []

/-- NPOP (R80): hand 0 only; held while the queue is empty. -/
def evalNpop (e : Env) (o : BitVec 22) (c : Instr) : Ev Out :=
  if e.h ≠ 0 then raise 0x02 e.pc
  else match (envBead e).core.notices with
    | [] => .error .held
    | n :: _ => do
      let a := (localEa e.x o).toNat
      checkLocal e a 16 16
      writes [.store (folioBase e.i + a) (wordsBytes [n.word0, n.word1, n.word2, n.word3]), actOf e c]

/-- The oldest notice removed (R80). -/
def actNpop (s : State) (i : Nat) : State :=
  modBead s i (fun b => { b with core := { b.core with notices := b.core.notices.drop 1 } })

end Sys2Proof.Machine
end

