-- ==== Sys2Proof/Machine/Tiles.lean ====
section
/-! DEFINITION. The tile file (R121 to R124), vector endpoint bindings (R246), and the transfers of TLD and TST
(R128 to R131). -/

namespace Sys2Proof.Machine

/-- Element width in bits of a format code (R122). -/
def fmtBits (f : Nat) : Nat :=
  if f = 0 then 32 else if f ≤ 3 then 16 else if f ≤ 9 then 8 else 4
/-- Lanes per row of a format code (R122). -/
def fmtLanes (f : Nat) : Nat := 512 / fmtBits f
/-- Whether a format code is an MX format. -/
def fmtMx (f : Nat) : Bool := 7 ≤ f && f ≤ 0xB
/-- Whether a format code is a plain integer format. -/
def fmtInt (f : Nat) : Bool := f == 3 || f == 6
/-- MX blocks per row. -/
def fmtBlocks (f : Nat) : Nat := fmtLanes f / 32

/-- BEAD_TCFG_t (R124): reset 0x1F. -/
def tcfgOf (b : Bead) (t : Nat) : W32 := mapGet (fun _ => 0x1F) b.regs.tcfg t
/-- Row count of a tile. -/
def tileRows (b : Bead) (t : Nat) : Nat := fld (tcfgOf b t).toNat 4 0 + 1
/-- Format code of a tile. -/
def tileFmt (b : Bead) (t : Nat) : Nat := fld (tcfgOf b t).toNat 11 8
/-- Row r of tile t as stored. -/
def tileRow (b : Bead) (t r : Nat) : TileRow := mapGet (fun _ => {}) b.tiles (32 * t + r)
/-- A tile row replaced, with fresh parity. -/
def putRow (b : Bead) (t r : Nat) (v : TileRow) : Bead :=
  { b with tiles := mapPut b.tiles (32 * t + r) v, rowBad := b.rowBad.filter (· != 32 * t + r) }
/-- Every row and scale word of a tile zero. -/
def zeroTile (b : Bead) (t : Nat) : Bead :=
  { b with tiles := mapDropWhere b.tiles (fun k => k / 32 == t), rowBad := b.rowBad.filter (fun k => k / 32 != t) }

/-- Whether a hand may write, or read, a tile at its level (R123). -/
def mayWriteTile (b : Bead) (h pl t : Nat) : Bool := pl ≥ 1 || fld b.regs.tileAlloc.toNat (2 * t + 1) (2 * t) == h
@[inherit_doc mayWriteTile] def mayReadTile (b : Bead) (h pl t : Nat) : Bool :=
  mayWriteTile b h pl t || b.regs.tileAlloc.getLsbD (16 + t)

/-- The tiles that a V or M glyph names. -/
def formTiles (g : Glyph) : List Nat :=
  match g.form with
  | .r td ta tb _ _ => (if ta then [rTa g.opd] else []) ++ (if tb then [rTb g.opd] else []) ++ (if td then [rTd g.opd] else [])
  | .t _ => [fld g.opd.toNat 21 19]
  | .g => [fld g.opd.toNat 21 19]
  | .num 3 => if g.slot = 3 then [opdField g.opd % 8] else []
  | _ => []

/-- The tiles that a V glyph or a TLD writes. -/
def writtenTiles (g : Glyph) : List Nat :=
  match g.form with
  | .r true _ _ _ _ => [rTd g.opd]
  | .t false => [fld g.opd.toNat 21 19]
  | _ => []

/-- TILE with SFA the tile number (R78). -/
def raiseTile {α : Type} (t : Nat) : Ev α := raise 0x09 (BitVec.ofNat 32 t)
/-- TILE where several tiles are at fault: SFA is one of them (log 21). -/
def raiseTiles {α : Type} (t : Nat) (ts : List Nat) : Ev α :=
  .error (.fault { cause := 0x09, sfa := BitVec.ofNat 32 t, others := ts.map (BitVec.ofNat 32) })

/-- The vector in-endpoint bound to a tile, the lowest where several are, and the out-endpoints (R246). -/
def boundIn (b : Bead) (t : Nat) : Option Nat :=
  (List.range 4).find? (fun v => b.ends.vqBind.getLsbD (4 * v + 3) && fld b.ends.vqBind.toNat (4 * v + 2) (4 * v) == t)
@[inherit_doc boundIn] def boundOuts (b : Bead) (t : Nat) : List Nat :=
  (List.range 4).filter (fun v =>
    b.ends.vqBind.getLsbD (16 + 4 * v + 3) && fld b.ends.vqBind.toNat (16 + 4 * v + 2) (16 + 4 * v) == t)
@[inherit_doc boundIn] def boundOut (b : Bead) (t : Nat) : Option Nat := (boundOuts b t).head?

/-- The oldest row of a vector in-endpoint taken, its credit returned (R242, R246). -/
def takeVin (s : State) (i v : Nat) : State :=
  let s := modBead s i (fun b => { b with ends := { b.ends with vin := mapPut b.ends.vin v ((vinRows b v).drop 1) } })
  returnCredits s .vector i v 1 false

/-- A row sent on vector out-endpoint v, its credit taken and counted (R216, R246). -/
def sendRow (s : State) (i v : Nat) (r : Row) : State :=
  let s := modBead s i (fun b => { b with ends := { b.ends with
    voutCred := mapPut b.ends.voutCred v (voutCredits b v - 1) } })
  countUnit (launch s .vector (.ep i v) i v 0 r true) i (0x19 + v)

/-- A row written to a tile, and sent as one unit on every out-endpoint to which the tile is bound (R246). -/
def writeRow (s : State) (i t r : Nat) (v : TileRow) : State :=
  let s := modBead s i (fun b => putRow b t r v)
  (boundOuts (getBead s i) t).foldl (fun s e => sendRow s i e v.data) s

/-- QCLOSED of a write to a tile bound to a closed out-endpoint, with SFA its endpoint code: the lowest where several
are closed (R249; log 21). -/
def outClosedFault (b : Bead) (t : Nat) : Option GFault :=
  ((boundOuts b t).find? (voutClosed b)).map (fun v => { cause := 0x07, sfa := BitVec.ofNat 32 (8 + v) })

/-- Whether every out-endpoint to which a tile is bound holds a credit (R246). -/
def outReady (b : Bead) (t : Nat) : Bool := (boundOuts b t).all (fun v => 0 < voutCredits b v)

/-- Whether a write to a tile finds its bound out-endpoints open and with a credit each (R246, R249): QCLOSED on a closed
one, held without a credit. -/
def checkOut (b : Bead) (t : Nat) : Ev Unit :=
  match outClosedFault b t with
  | some f => .error (.fault f)
  | none => if outReady b t then .ok () else .error .held

/-- The pitch of a transfer, a signed number (R128; log 18). -/
def trPitch (t : Transfer) : Int := t.x1.toInt

/-- The address base + d of a transfer (R99, R128; log 18): a local address is formed modulo 2^32, a device address
modulo 2^64, so that one outside 48 bits has no translation (R100). -/
def trAddr (t : Transfer) (d : Int) : Nat :=
  if t.dev then (t.acc + BitVec.ofInt 64 d).toNat else (t.x0 + BitVec.ofInt 32 d).toNat

/-- The pieces (address, bytes) that make up the data of row j of a transfer (R128). -/
def rowSpans (t : Transfer) (fmt j : Nat) : List (Nat × Nat) :=
  let p := trPitch t
  let size := fmtBits fmt / 8
  if t.trn then (List.range (fmtLanes fmt)).map (fun (r : Nat) => (trAddr t (r * p + j * size), size))
  else if t.lay then
    let u := if fmtBits fmt = 4 then 1088 else 2112
    let m := if fmtBits fmt = 4 then 16 else 32
    [(trAddr t (j / m * u + 64 + j % m * 64), 64)]
  else if t.es ≠ 0 then (List.range (fmtLanes fmt)).map (fun (e : Nat) => (trAddr t (j * p + e * 2 ^ t.es * size), size))
  else if fmtMx fmt then [(trAddr t (64 * j), 64)]
  else [(trAddr t (j * p), 64)]

/-- The piece that holds the scale bytes of row j of a transfer, for an MX tile (R128). -/
def scaleSpan (t : Transfer) (fmt j : Nat) : Option (Nat × Nat) :=
  let nb := fmtBlocks fmt
  if !fmtMx fmt then none
  else if t.lay then
    let u := if fmtBits fmt = 4 then 1088 else 2112
    let m := if fmtBits fmt = 4 then 16 else 32
    some (trAddr t (j / m * u + j % m * nb), nb)
  else some ((t.x1.toNat + nb * j) % 2 ^ 32, nb)

/-- Every piece of row j. -/
def allSpans (t : Transfer) (fmt j : Nat) : List (Nat × Nat) := rowSpans t fmt j ++ (scaleSpan t fmt j).toList

/-- The pieces whose request decides whether row j can move (R130): its own, and for a transposed load the rows of the
source from column j on, all of which are read before the first tile row is written (R128). -/
def askSpans (t : Transfer) (fmt j : Nat) : List (Nat × Nat) :=
  if t.trn then
    let size := fmtBits fmt / 8
    (List.range (fmtLanes fmt)).map (fun (r : Nat) => (trAddr t (r * trPitch t + j * size), (32 - j) * size))
  else allSpans t fmt j

/-- The range from the lowest to the highest byte of pieces in the own folio, if there is one (R166). -/
def hullOf (l : List (Nat × Nat)) : Option (Nat × Nat) :=
  let l := l.filter (fun p => p.1 < 0x200000)
  match l with
  | [] => none
  | p :: ps => some (ps.foldl (fun r q => (min r.1 q.1, max r.2 (q.1 + q.2))) (p.1, p.1 + p.2))

/-- The whole byte range of a local transfer's remaining rows (R128, R166): that of its data, and that of its scale
bytes. -/
def transferHulls (t : Transfer) (fmt rows : Nat) : List (Nat × Nat) :=
  let js := (List.range rows).filter (fun j => t.next ≤ j)
  (hullOf (js.flatMap (rowSpans t fmt))).toList ++ (hullOf (js.flatMap (fun j => (scaleSpan t fmt j).toList))).toList

/-- n bytes read at their home for a row, one that HBM cannot correct from its mirror (R345); the caller has seen that
there is a good copy. -/
def homeRead (s : State) (x : Xlat) (n : Nat) : List W8 × State :=
  if inHbm x.pa then
    match hbmRead s x.pa n x.mirror false with
    | (some bs, s) => (bs, s)
    | (none, s) => (loadBytes s x.pa n, s)
  else (loadBytes s x.pa n, s)

/-- One piece of a device-address row read (R147, R149, R152, R167): from the blotter on a hit of a cacheable line, whose
age becomes 0, else from its home without a fill. A line with a parity error is invalidated, counted and read from its
home. -/
def devPiece (s : State) (i : Nat) (x : Xlat) (n : Nat) : List W8 × State :=
  if looksUp (getBead s i) x then
    let s := modBead s i (fun b => scrubTags b (x.pa / 64))
    let b := getBead s i
    match blotFind b (x.pa / 64) with
    | some k =>
      if wayBad (wayAt b k) (x.pa % 64) n then homeRead (modBead s i (fun b => countPerr (dropWay b k))) x n
      else (((wayAt b k).data.drop (x.pa % 64)).take n, modBead s i (fun b => touchWay b k))
    | none => homeRead s x n
  else homeRead s x n

/-- The bytes of a list of pieces, and the state as the reads leave it. -/
def readSpans (s : State) (i : Nat) (dev : Bool) : List (Nat × Nat) → List W8 × State
  | [] => ([], s)
  | p :: l =>
    let (bs, s) :=
      if dev then
        match translate s (beadCtx (getBead s i)) p.1 false with
        | some x => devPiece s i x p.2
        | none => ([], s)
      else (loadBytes s (folioBase i + p.1) p.2, s)
    let (more, s) := readSpans s i dev l
    (bs ++ more, s)

/-- A piece of a TST row written to a device address: a present blotter line is updated and its age becomes 0 (R149), and
the piece goes to its home and its mirror (R155, R345). A piece in a reservoir joins the writes that wait there (R170). -/
def storeDev (s : State) (i : Nat) (va : Nat) (bs : List W8) : State :=
  match translate s (beadCtx (getBead s i)) va true with
  | none => s
  | some x =>
    match regionOf x.pa with
    | .reservoir kb _ => joinTap s kb { pa := x.pa, data := bs }
    | _ => hbmWrite (modBead s i (fun b => blotStore b x bs)) x.pa x.mirror bs

/-- Bytes laid over a list of pieces, in order. -/
def writeSpans (s : State) (i : Nat) (dev : Bool) : List (Nat × Nat) → List W8 → State
  | [], _ => s
  | (a, n) :: l, bs =>
    let s := if dev then storeDev s i a (bs.take n) else storeBytes s (folioBase i + a) (bs.take n)
    writeSpans s i dev l (bs.drop n)

/-- FBOUND or XMISS of a piece of a row (R70, R100, R130, R190). -/
def pieceRefused (e : Env) (t : Transfer) (p : Nat × Nat) : Option GFault :=
  if t.dev then
    match checkDev { e with x := { e.x with acc := t.acc } } (BitVec.ofNat 64 p.1) p.2 1 t.store false with
    | .error (.fault f) => some f
    | .ok (.mem x) =>
      if brushFenced e.s x.pa then some { cause := 0x05, sfa := BitVec.ofNat 32 (p.1 / 65536), dev := true } else none
    | _ => none
  else if p.1 + p.2 > 0x200000 || !localOk (envBead e) e.x (envPl e) p.1 p.2 then
    some { cause := 0x05, sfa := BitVec.ofNat 32 p.1 }
  else none

/-- FPARITY of a piece that TLD reads (R130, R167): a folio word, or a device word that neither the blotter nor a mirror
gives. -/
def pieceBad (e : Env) (t : Transfer) (p : Nat × Nat) : Option GFault :=
  if t.dev then
    match translate e.s (beadCtx (envBead e)) p.1 false with
    | none => none
    | some x =>
      let b := envBead e
      let hit := if looksUp b x then
          match blotFind b (x.pa / 64) with
          | some k => !wayBad (wayAt b k) (x.pa % 64) p.2
          | none => false
        else false
      let good := hit || (if inHbm x.pa then hbmGood e.s x.pa p.2 x.mirror else (parityFind e.s.parity x.pa p.2).isNone)
      if good then none else some { cause := 0x06, sfa := BitVec.ofNat 32 (p.1 / 65536), dev := true }
  else (parityFind e.s.parity (folioBase e.i + p.1) p.2).map (fun w =>
    { cause := 0x06, sfa := BitVec.ofNat 32 (w - folioBase e.i) })

/-- The fault of row j of a transfer (R130): FBOUND or XMISS of its first failing piece, in which case the row is not
requested; else FPARITY of what TLD reads, or of the tile row that TST stores, whose SFA is the first address of the
row (log 62). A transposed load that has read its source fails no more. -/
def rowFault (e : Env) (t : Transfer) (j : Nat) : Option GFault :=
  let b := envBead e
  let ps := askSpans t (tileFmt b t.tile.val) j
  if !t.snap.isEmpty then none
  else (ps.findSome? (pieceRefused e t)).orElse (fun _ =>
    if !t.store then ps.findSome? (pieceBad e t)
    else if (boundIn b t.tile.val).isNone && b.rowBad.contains (32 * t.tile.val + j) then
      let a := (ps.headD (0, 0)).1
      some { cause := 0x06, sfa := BitVec.ofNat 32 (if t.dev then a / 65536 else a), dev := t.dev }
    else none)

/-- QCLOSED of a row that TLD loads into a tile bound to a closed out-endpoint (R249). -/
def rowClosed (b : Bead) (t : Transfer) : Option GFault := if t.store then none else outClosedFault b t.tile.val

/-- The HBM lines that the pieces of a device-address transfer lie in. -/
def spanLines (s : State) (i : Nat) (t : Transfer) (ps : List (Nat × Nat)) : List Nat :=
  if t.dev then ps.filterMap (fun p => (translate s (beadCtx (getBead s i)) p.1 t.store).map (fun x => x.pa / 64)) else []

/-- Whether the pieces of a row can be served now: no merging-buffer entry of the bead still holds a line of them
(R155), no write that waits at a reservoir meets one that TLD reads (R267), and no brush is being zeroed (R188). -/
def rowClear (s : State) (i : Nat) (t : Transfer) (ps : List (Nat × Nat)) : Bool :=
  !t.dev || ps.all (fun p =>
    match translate s (beadCtx (getBead s i)) p.1 t.store with
    | some x => !mergeHas (getBead s i) (x.pa / 64) && (t.store || !tapHolds s x.pa p.2) && !brushZeroing s x.pa
    | none => true)

/-- Whether row j of a transfer can move now: a credit for a bound tile that TLD writes, a row for a bound tile that TST
reads (R246), and pieces that can be served. -/
def rowReady (s : State) (i : Nat) (t : Transfer) (j : Nat) : Bool :=
  let b := getBead s i
  (!t.snap.isEmpty || rowClear s i t (askSpans t (tileFmt b t.tile.val) j))
    && (if t.store then
      match boundIn b t.tile.val with
      | some v => !(vinRows b v).isEmpty
      | none => true
    else outReady b t.tile.val)

/-- A transposed load's source sampled whole before its first tile row is written (R128); another transfer samples
nothing. -/
def sampleSource (s : State) (i : Nat) (t : Transfer) : State × Transfer :=
  if t.trn && t.snap.isEmpty then
    let fmt := tileFmt (getBead s i) t.tile.val
    let (l, s) := (List.range 32).foldl (fun (p : List Row × State) j =>
      let (bs, s) := readSpans p.2 i t.dev (rowSpans t fmt j)
      (p.1 ++ [bytesRow bs], s)) ([], s)
    (s, { t with snap := l })
  else (s, t)

/-- Row j of a transfer moved (R128, R246). A TLD of a plain tile leaves the scale word as it stands. -/
def moveRow (s : State) (i : Nat) (t : Transfer) (j : Nat) : State :=
  let b := getBead s i
  let tt := t.tile.val
  let fmt := tileFmt b tt
  if t.store then
    let (row, s) := match boundIn b tt with
      | some v => (({ data := (vinRows b v).headD 0, scale := (tileRow b tt j).scale } : TileRow), takeVin s i v)
      | none => (tileRow b tt j, s)
    let s := writeSpans s i t.dev (rowSpans t fmt j) (rowBytes row.data)
    match scaleSpan t fmt j with
    | some p => writeSpans s i t.dev [p] (toBytes p.2 row.scale.toNat)
    | none => s
  else
    let (data, s) := match t.snap[j]? with
      | some r => (r, s)
      | none =>
        let (bs, s) := readSpans s i t.dev (rowSpans t fmt j)
        (bytesRow bs, s)
    let (scale, s) := match scaleSpan t fmt j with
      | some p =>
        let (bs, s) := readSpans s i t.dev [p]
        (BitVec.ofNat 32 (ofBytes bs), s)
      | none => ((tileRow b tt j).scale, s)
    writeRow s i tt j ⟨data, scale⟩

/-- The merging-buffer entries of the lines that a row names start to drain (R154, R155). -/
def drainLines (s : State) (i : Nat) (ls : List Nat) : State := modBead s i (fun b => ls.foldl startDrain b)

/-- Rows from `next` on moved while they can, stopping at row `stop` or at a row that fails or is not ready. -/
def moveRows (pc : W32) (len : Nat) (i h : Nat) : Nat → Nat → State → Transfer → State × Transfer
  | 0, _, s, t => (s, t)
  | fuel + 1, stop, s, t =>
    if t.next ≥ stop then (s, t)
    else
      let e : Env := ⟨s, i, h, getHand s i h, pc, len, pc⟩
      let ps := askSpans t (tileFmt (getBead s i) t.tile.val) t.next
      if (rowFault e t t.next).isSome || (rowClosed (getBead s i) t).isSome then (s, t)
      else if !t.snap.isEmpty || rowClear s i t ps then
        let (s, t) := sampleSource s i t
        if rowReady s i t t.next then moveRows pc len i h fuel stop (moveRow s i t t.next) { t with next := t.next + 1 }
        else (s, t)
      else (drainLines s i (spanLines s i t ps), t)

/-- TSR.ROW of a hand (R131). -/
def tsrRow (x : Hand) : Nat := fld x.tsr.toNat 5 0

/-- Whether the tile's format and row count meet the case that the fields of form T name (R128). -/
def transferShape (b : Bead) (t : Transfer) : Bool :=
  let fmt := tileFmt b t.tile.val
  let rows := tileRows b t.tile.val
  if t.trn then !fmtMx fmt && (fmtBits fmt == 8 || fmtBits fmt == 16) && rows == 32
  else if t.lay then fmtMx fmt && rows % (if fmtBits fmt = 4 then 16 else 32) == 0
  else if t.es ≠ 0 then !fmtMx fmt
  else true

/-- Whether the tile's format, its row count apart, meets the case that the fields of form T name (R128). -/
def transferFormat (fmt : Nat) (t : Transfer) : Bool :=
  if t.trn then !fmtMx fmt && (fmtBits fmt == 8 || fmtBits fmt == 16) else if t.lay then fmtMx fmt else t.es == 0 || !fmtMx fmt

/-- The misaligned address that TLD or TST reports at issue, if its base or pitch is misaligned (R128). With a format
that does not meet the case, only a base that every format of the case aligns alike is judged. -/
def transferMisaligned (b : Bead) (t : Transfer) (row : Nat) : Option Nat :=
  let fmt := tileFmt b t.tile.val
  let fits := transferFormat fmt t
  let al := if t.es = 0 then 64 else if fits then fmtBits fmt / 8 else 1
  let p := trPitch t
  let pitched := fits && !t.lay && (t.es ≠ 0 || !fmtMx fmt)
  if trAddr t 0 % al ≠ 0 then some (trAddr t 0)
  else if pitched && p % al != 0 then
    ((List.range 65).find? (fun (k : Nat) => trAddr t ((row + k) * p) % al != 0)).map (fun (k : Nat) => trAddr t ((row + k) * p))
  else none

/-- The transfer that a TLD or TST of a hand names, from TSR.ROW on (R128, R131). -/
def transferOf (x : Hand) (o : BitVec 22) (store : Bool) : Transfer :=
  { tile := ⟨fld o.toNat 21 19 % 8, Nat.mod_lt _ (by decide)⟩, store, dev := o.getLsbD 18, trn := o.getLsbD 17
    lay := o.getLsbD 16, es := fld o.toNat 15 13, x0 := x.x0, x1 := x.x1, acc := x.acc, next := tsrRow x }

/-- TLD and TST at issue (R123, R128, R131, R166): the line stays open until the transfer completes. MX split with
DEV = 1 raises RSVD. Of the glyph's faults the one with the lowest priority number is reported (R78): a misaligned base
or pitch before a tile that is not the hand's or has the wrong shape. -/
def evalTransfer (e : Env) (c : Instr) (o : BitVec 22) (store : Bool) : Ev Out :=
  let b := envBead e
  let t := transferOf e.x o store
  let tt := t.tile.val
  let row := t.next
  let fmt := tileFmt b tt
  if t.dev && !t.lay && fmtMx fmt then raise 0x01 e.pc
  else if t.dev && e.x.acc.toNat ≥ 2 ^ 48 then raiseDev 0x04 (e.x.acc.toNat % 2 ^ 48)
  else match transferMisaligned b t row with
    | some a => if t.dev then raiseDev 0x05 a else raise 0x05 (BitVec.ofNat 32 a)
    | none =>
      if !(if store then mayReadTile b e.h (envPl e) tt else mayWriteTile b e.h (envPl e) tt) then raiseTile tt
      else if !transferShape b t || row ≥ tileRows b tt then raiseTile tt
      else if t.dev && devHeld e then .error .held
      else if !t.dev && (transferHulls t fmt (tileRows b tt)).any (fun r => (heldRanges b).any (overlaps r)) then .error .held
      else .ok { effs := [], start := [actOf e c], opens := some (.transfer t) }

/-- A transfer begun: the merging-buffer entries of the lines that its rows name start to drain (R154, R155). -/
def actTransfer (s : State) (i : Nat) (x : Hand) (o : BitVec 22) (store : Bool) : State :=
  let t := transferOf x o store
  let b := getBead s i
  let js := (List.range (tileRows b t.tile.val)).filter (fun j => t.next ≤ j)
  drainLines s i (spanLines s i t (js.flatMap (allSpans t (tileFmt b t.tile.val))))

/-- The transfer of a hand's open line, if one keeps the line open. -/
def openTransfer (x : Hand) : Option Transfer :=
  match x.openLine with
  | some l => l.why.findSome? (fun w => match w with | .transfer t => some t | _ => none)
  | none => none

/-- Whether a row that TST has sent still waits at a reservoir (R170). -/
def rowsWait (s : State) (i : Nat) (t : Transfer) : Bool :=
  t.store && t.dev && (List.range t.next).any (fun j =>
    (allSpans t (tileFmt (getBead s i) t.tile.val) j).any (fun p =>
      match translate s (beadCtx (getBead s i)) p.1 true with
      | some x => tapHolds s x.pa p.2
      | none => false))

/-- The requests of a hand whose open line was given up: the operand that the line waited for is discarded. -/
def dropOperand (x : Hand) : Hand :=
  { x with reqs := x.reqs.filter (fun r => match r.op with | .load _ (.alu _) => false | _ => true) }

/-- A transfer that an HSTOP, HKILL or debug halt ends: the rows already requested finish, how many being open (log 1),
and TSR.ROW holds the lowest incomplete row (R131). The line has not completed, and the hand no longer holds it. An open
line without a transfer, or one whose rows are all under way, stays. -/
def endTransfer (s : State) (i h : Nat) : State :=
  let x := getHand s i h
  match x.openLine, openTransfer x with
  | some l, some t =>
    let (v, s) := freeBits s
    let rows := tileRows (getBead s i) t.tile.val
    if rows ≤ t.next then s
    else
    let stop := t.next + v.toNat % (rows - t.next)
    let (s, t) := moveRows l.pc l.len i h 32 stop s t
    modHand s i h (fun x => { dropOperand x with openLine := none, tsr := BitVec.ofNat 32 t.next })
  | _, _ => s

/-- n free bytes, and the state with the counter advanced (log 1). -/
def freeBytes (s : State) (n : Nat) : List W8 × State :=
  ((List.range n).map (fun k => (Config.freeValue (s.freeCtr + k)).truncate 8), { s with freeCtr := s.freeCtr + n })

/-- A row that was in flight when a reset abandoned its transfer: what the load left in the tile, or the store in memory,
is free (R131). -/
def loseRow (s : State) (i : Nat) (t : Transfer) (j : Nat) : State :=
  let fmt := tileFmt (getBead s i) t.tile.val
  if t.store then
    (allSpans t fmt j).foldl (fun s p =>
      let (bs, s) := freeBytes s p.2
      writeSpans s i t.dev [p] bs) s
  else
    let (bs, s) := freeBytes s 68
    modBead s i (fun b => putRow b t.tile.val j ⟨bytesRow (bs.take 64), wordAt bs 64⟩)

/-- A transfer that a hand or bead reset abandons (R131): the rows in flight are undefined. How many of the remaining rows
were in flight is open (log 160); each that could be requested holds free values. -/
def abandonTransfer (s : State) (i h : Nat) : State :=
  let x := getHand s i h
  match x.openLine, openTransfer x with
  | some l, some t =>
    let (v, s) := freeBits s
    let rows := tileRows (getBead s i) t.tile.val
    let n := v.toNat % (rows - t.next + 1)
    (List.range n).foldl (fun s k =>
      let e : Env := ⟨s, i, h, getHand s i h, l.pc, l.len, l.pc⟩
      if ((askSpans t (tileFmt (getBead s i) t.tile.val) (t.next + k)).findSome? (pieceRefused e t)).isSome then s
      else loseRow s i t (t.next + k)) s
  | _, _ => s

end Sys2Proof.Machine
end

