-- ==== Sys2Proof/Machine/Branch.lean ====
section
/-! DEFINITION. What the B-slot glyphs do (R64 to R66, R84, R87 to R89, R109, R110, R114 to R119). -/

namespace Sys2Proof.Machine

/-- The back-edge test of R115 for the address a that follows a line in sequence: the hand with its loop registers
updated, and the address at which it continues. Fuel is the depth of the levels. -/
def backEdge : Nat → Hand → W32 → Hand × W32
  | 0, x, a => (x, a)
  | fuel + 1, x, a =>
    let ld := pswLd x.psw
    if ld = 0 then (x, a)
    else
      let l := loopOf x (ld - 1)
      if a ≠ l.lpe then (x, a)
      else if l.lpc.toNat > 1 then (setLoop x (ld - 1) { l with lpc := l.lpc - 1 }, l.lps)
      else backEdge fuel { setLoop x (ld - 1) { l with lpc := 0 } with psw := pswSetLd x.psw (ld - 1) } a

/-- A hand whose innermost open level is closed (R116, R118). -/
def closeLevel (x : Hand) : Hand :=
  let k := pswLd x.psw - 1
  { setLoop x k { loopOf x k with lpc := 0 } with psw := pswSetLd x.psw k }

/-- A hand that takes a transfer with the leaving rule of R116 (BR, JR, RET): the innermost level closes while the
target lies outside its body. Fuel is the depth of the levels. -/
def leaveLoop : Nat → Hand → W32 → Hand
  | 0, x, _ => x
  | fuel + 1, x, target =>
    if pswLd x.psw = 0 then x
    else
      let l := loopOf x (pswLd x.psw - 1)
      if l.lps ≤ target ∧ target < l.lpe then x else leaveLoop fuel (closeLevel x) target

/-- The target named by DISP (R109). -/
def branchTarget (pc : W32) (o : BitVec 22) : W32 := pc + BitVec.ofInt 32 (4 * ((o.truncate 18 : BitVec 18)).toInt)

/-- An address with bits [1:0] cleared. -/
def word4 (w : W32) : W32 := w &&& ~~~3

/-- BR and JR (R109). -/
def evalBr (e : Env) (o : BitVec 22) (target : W32) : Ev Out :=
  if condHolds e.x.psw (fld o.toNat 21 18) then writes [.jump target true] else writes []

/-- CALL and CALLR (R110): the successor is pushed at FP − 8. -/
def evalCall (e : Env) (target : W32) : Ev Out := do
  let fp := e.x.fp - 8
  checkLocal e fp.toNat 8 8
  writes [.fp fp, .store (folioBase e.i + fp.toNat) (toBytes 8 e.succ.toNat), .jump target false]

/-- RET (R110). -/
def evalRet (e : Env) : Ev Out := do
  let bs ← localLoad e e.x.fp.toNat 8 8
  writes [.fp (e.x.fp + 8), .jump (word4 (wordAt bs 0)) true]

/-- LOOP and LOOPI (R114), by the number and kind of the rule's steps; `big` says that LOOP's ACC[63:24] is not zero. -/
def evalLoop (e : Env) (c : Instr) (o : BitVec 22) (count : Nat) (big : Bool) : Ev Out :=
  let n := pswLd e.x.psw
  let exit := e.pc + BitVec.ofNat 32 (4 * fld o.toNat 11 0)
  let next := e.pc + BitVec.ofNat 32 (4 * e.len)
  if big then raise 0x0A (BitVec.ofNat 32 n)
  else if n ≥ 4 then raise 0x0A 4
  else if 1 ≤ n ∧ next = (loopOf e.x (n - 1)).lpe then raise 0x0A (BitVec.ofNat 32 n)
  else if exit ≤ next then raise 0x0A (BitVec.ofNat 32 n)
  else if count = 0 then writes [.jump exit false]
  else writes [actOf e c]

/-- A loop level opened (R114, step 7) above those that the line found. -/
def actLoop (s : State) (i h : Nat) (found : Hand) (pc : W32) (len : Nat) (o : BitVec 22) (count : Nat) : State :=
  modHand s i h (fun x =>
    let n := pswLd found.psw
    let l : LoopLv := ⟨pc + BitVec.ofNat 32 (4 * len), pc + BitVec.ofNat 32 (4 * fld o.toNat 11 0), BitVec.ofNat 24 count⟩
    { setLoop x n l with psw := pswSetLd x.psw (n + 1) })

/-- LEXIT (R118): LOOP with SFA 0 where no level is open. The level is closed by the line's issue itself. -/
def evalLexit (e : Env) (c : Instr) : Ev Out := if pswLd e.x.psw = 0 then raise 0x0A 0 else writes [actOf e c]

/-- Fields of a gate descriptor (*Gate descriptor*). -/
def gTarget (d : List W8) : W32 := BitVec.ofNat 32 (fld (leAt d 0 4) 20 2 * 4)
@[inherit_doc gTarget] def gCtrl (d : List W8) : Nat := leAt d 4 4
@[inherit_doc gTarget] def gArgc (d : List W8) : Nat := fld (gCtrl d) 1 0
@[inherit_doc gTarget] def gMin (d : List W8) : W64 := BitVec.ofNat 64 (leAt d 8 8)
@[inherit_doc gTarget] def gMax (d : List W8) : W64 := BitVec.ofNat 64 (leAt d 0x10 8)
@[inherit_doc gTarget] def gWinBase (d : List W8) : W32 := wordAt d 0x18
@[inherit_doc gTarget] def gWinLimit (d : List W8) : W32 := wordAt d 0x1C

/-- The address of gate n's descriptor (R87). -/
def gateAddr (b : Bead) (n : Nat) : Nat := fld b.regs.gateBase.toNat 20 5 * 32 + 32 * n

/-- The checks of R87, steps 2 and 3, on a descriptor that is present. -/
def gateArgsOk (x : Hand) (d : List W8) : Bool :=
  let argc := gArgc d
  let within (v : W32) : Bool := gWinBase d ≤ v && v < gWinLimit d
  (!(1 ≤ argc && bitAt (gCtrl d) 8) || ((gMin d).sle x.acc && x.acc.sle (gMax d)))
    && (!(bitAt (gCtrl d) 9 && 2 ≤ argc) || within x.x0) && (!(bitAt (gCtrl d) 9 && argc == 3) || within x.x1)

/-- GATE n (R87). -/
def evalGate (e : Env) (c : Instr) (o : BitVec 22) : Ev Out :=
  let n := opdField o
  let b := envBead e
  let a := gateAddr b n
  let bad : Ev Out := raise 0x03 (BitVec.ofNat 32 a)
  if envPl e ≠ 0 then raise 0x02 e.pc
  else if n ≥ fld b.regs.gateCount.toNat 8 0 || a + 32 > 0x200000 || a < 0x8000 then bad
  else if rangeHeld b a 32 then .error .held
  else match parityFind e.s.parity (folioBase e.i + a) 32 with
    | some w => raise 0x06 (BitVec.ofNat 32 (w - folioBase e.i))
    | none =>
      let d := loadBytes e.s (folioBase e.i + a) 32
      if !bitAt (gCtrl d) 31 || !gateArgsOk e.x d then bad
      else
        let argc := gArgc d
        writes ((if argc = 0 then [.acc 0] else []) ++ (if argc ≤ 1 then [.xr .x0 0] else [])
          ++ (if argc ≤ 2 then [.xr .x1 0] else []) ++ [actOf e c, .psw 0x303 1]
          ++ (if bitAt (gCtrl d) 10 then [.fp e.x.ksp] else []) ++ [.jump (gTarget d) false])

/-- The level-1 save set that GATE n writes (R87, step 5). -/
def gateSave (x : Hand) (succ : W32) (n : Nat) : SaveSet :=
  ⟨succ, x.psw, BitVec.ofNat 32 (n % 256 * 0x1000000 + 0x20), x.fp⟩

/-- The writes that restore a saved PSW but for HID, and continue at a saved PC (R88, R89). -/
def returnTo (e : Env) (v : SaveSet) : List Eff :=
  [.psw 0xCFFFFFFF (pswRestore e.x.psw v.spsw), .jump (word4 v.spc) false]

/-- GRET (R88). -/
def evalGret (e : Env) : Ev Out :=
  let v := e.x.save1
  if e.h ≠ 0 ∧ envPl e = 1 ∧ fld v.scause.toNat 7 0 = 0x20 ∧ pswPl v.spsw = 0 then writes (.fp v.sfa :: returnTo e v)
  else raise 0x02 e.pc

/-- RETE (R89). -/
def evalRete (e : Env) : Ev Out :=
  let l := envPl e
  let v := if l = 1 then e.x.save1 else e.x.save2
  if l ≥ 1 ∧ pswPl v.spsw < l ∧ (e.h ≠ 0 ∨ pswPl v.spsw ≥ 1) then writes (returnTo e v) else raise 0x02 e.pc

/-- Whether a hand is Stopped. -/
def isStopped (x : Hand) : Bool := match x.st with | .stopped _ => true | _ => false
/-- Whether a hand is Sleeping. -/
def isSleeping (x : Hand) : Bool := match x.st with | .sleeping _ => true | _ => false
/-- Whether a hand is Halted. -/
def isHalted (x : Hand) : Bool := match x.st with | .halted _ => true | _ => false

/-- The hand-control glyphs that hand 0 alone issues, on hands 1 to 3 (R65, *Hand-control glyphs*). -/
inductive HandCtl
  | start | stop | resume | kill
deriving DecidableEq, Repr

/-- ACC after a hand-control glyph; 0 says that it acts. -/
def handCtlCode (k : HandCtl) (x : Hand) : Nat :=
  match k with
  | .start => if x.st = .idle then 0 else 1
  | .stop => if x.st = .running ∨ isSleeping x then 0 else 1
  | .resume => if !isStopped x then 1 else if pswPl x.save1.spsw ≥ 2 then 2 else 0
  | .kill => if x.st = .locked then 1 else 0

/-- HSTART, HSTOP, HRESUME and HKILL: PRIV for hands 1 to 3 and for operand 0 (R65). -/
def evalHandCtl (e : Env) (c : Instr) (k : HandCtl) (o : BitVec 22) : Ev Out :=
  let t := opdField o
  if e.h ≠ 0 ∨ t = 0 then raise 0x02 e.pc
  else writes [.acc (BitVec.ofNat 64 (handCtlCode k (handOf (envBead e) t))), actOf e c]

/-- The oldest imprecise fault held for a hand taken as the hand becomes Running, before it issues a line and after
an open line has retired (R411; log 25). -/
def deliverHeld (s : State) (i h : Nat) : State :=
  let x := getHand s i h
  match x.heldFaults with
  | f :: fs =>
    if x.st = .running ∧ x.openLine.isNone then takeFault (putHand s i h { x with heldFaults := fs }) i h x.pc f else s
  | [] => s

/-- What follows where hands that slept in the state `old` have been woken since: the slumber has ended (R271), and the
faults held for those hands are taken (R411). -/
def deliverWoken (old : State) (i : Nat) (s : State) : State :=
  let woken := (List.range 4).filter (fun k => isSleeping (getHand old i k) && !isSleeping (getHand s i k))
  if woken.isEmpty then s else woken.foldl (fun s k => deliverHeld s i k) (modBead s i endSlumber)

/-- A common word written at its bead (R68, R72), and the faults held for the hands that it wakes (R411). -/
def putCw (s : State) (i w : Nat) (v : W32) : State := deliverWoken s i (modBead s i (fun b => writeCw b w v))

/-- HSTART h performed (R65, R411): PC is X0 of the issuing hand with bits [1:0] cleared and the level is user. -/
def actHstart (s : State) (i t : Nat) (x0 : W32) : State :=
  let x := getHand s i t
  if handCtlCode .start x = 0 then
    deliverHeld (putHand s i t { dropLine x with st := .running, pc := word4 x0, psw := pswSetPl x.psw 0 }) i t
  else s

/-- HSTOP h performed (R66, R119, R131, R245, R261): the wait is cancelled, a transfer ends, the level-1 save set is
written with the address at which the hand would continue, and a KIND 4 notice is posted. An open line without a
transfer completes first. -/
def actHstop (s : State) (i t : Nat) : State :=
  if handCtlCode .stop (getHand s i t) = 0 then
    let s := modBead (endTransfer (cancelWait s i t) i t) i endSlumber
    let x := getHand s i t
    if x.openLine.isSome then putHand s i t { x with stopAfter := true }
    else
      let s := putHand s i t { dropLine x with st := .stopped .hstop, stopAfter := false, save1 := ⟨x.pc, x.psw, 0, 0⟩ }
      stopNotice s i t 4 0 0 x.pc 0
  else s

/-- HRESUME h performed (R74), from the level-1 save set that the line found (R95). -/
def actHresume (old s : State) (i t : Nat) : State :=
  let v := (getHand old i t).save1
  if handCtlCode .resume (getHand old i t) = 0 then
    let x := getHand s i t
    deliverHeld (putHand s i t { x with
      st := .running, wake := 5, pc := word4 v.spc, psw := pswRestore x.psw v.spsw, line := [], heldLine := [] }) i t
  else s

/-- HKILL h performed (R84, R131, R245, R248, R261, R411): lines in flight complete and their loads are discarded, the staged message is aborted,
waits end, the timer is disarmed, TSR.ROW becomes 0, the in-endpoints of its fire gate close, and the hand is Idle. -/
def actHkill (s : State) (i t : Nat) : State :=
  let x := getHand s i t
  if handCtlCode .kill x = 0 then
    let s := closeGateIns s i t
    let s := abortStaged s i t
    let s := endTransfer (cancelWait s i t) i t
    modHand s i t (fun x => { x with
      st := .idle, line := [], openLine := x.openLine.map (fun l => { l with killed := true }), stopAfter := false
      tsr := 0, tctl := x.tctl &&& ~~~1, steal := none, heldFaults := []
      reqs := (x.reqs.filter (fun r => match r.op with | .load _ (.alu _) => true | .load .. => false | _ => true)).map
        (fun r => { r with dead := true }) })
  else s

end Sys2Proof.Machine
end

