-- ==== Sys2Proof/Machine/Control.lean ====
section
/-! DEFINITION. The bead control block (R91, R140, R240, R273, R377, R410): what each register reads as, and what a
write of it does, by CWR or through control space (R75, R85). -/

namespace Sys2Proof.Machine

/-- A Bool as a number. -/
def b1 (b : Bool) : Nat := if b then 1 else 0

/-- A word of fields, each a value and its lowest bit. -/
def pack (l : List (Nat × Nat)) : W32 := BitVec.ofNat 32 ((l.map (fun p => p.1 * 2 ^ p.2)).sum)

/-- BEAD_ID (R91). -/
def beadId (s : State) (i : Nat) : W32 :=
  let rod := i % 256 / 16
  pack [(b1 (failCount (rodFailed s (i / 256) rod) > 0), 24), ((siteOf s (i / 256) rod (i % 16)).getD 16, 12),
    (i % 16, 8), (rod, 4), (i / 256, 0)]

/-- Whether a bead slumbers (R271). -/
def slumbering (b : Bead) : Bool :=
  let hs := (List.range 4).map (handOf b)
  hs.all (fun x => x.st == .idle || isSleeping x) && hs.any isSleeping && hs.all (fun x => !x.tctl.getLsbD 0)

/-- BEAD_NIB_STAT (R140). -/
def nibStat (b : Bead) : W32 :=
  let grp (g : Nat) : Group := mapGet (fun _ => {}) b.nibGroups g
  let draining (g : Nat) : Bool := b.nibDrains.any (fun d => d.group.val == g)
  pack ((List.range 4).flatMap (fun g => [(b1 (grp g).perr, 12 + g), (b1 (draining g), 4 + g), (b1 (grp g).isOpen, g)]))

/-- STATE of a hand (R91). -/
def stateWord (x : Hand) : W32 :=
  pack [(b1 x.staged.isSome, 12), (x.wake.toNat, 8), ((stCodes x.st).2, 4), ((stCodes x.st).1, 0)]

/-- A per-hand register at an offset from the hand's base (R91, R140, R240, R273, R377). -/
def handReg (b : Bead) (h : Nat) (o : Nat) : W32 :=
  let x := handOf b h
  if o = 0x00 then x.pc
  else if o = 0x04 then x.psw
  else if o = 0x08 then x.acc.truncate 32
  else if o = 0x0C then (x.acc >>> 32).truncate 32
  else if o = 0x10 then x.x0
  else if o = 0x14 then x.x1
  else if o = 0x18 then x.fp
  else if o = 0x1C then x.fsw
  else if o = 0x20 then x.save1.spc
  else if o = 0x24 then x.save1.spsw
  else if o = 0x28 then x.save1.scause
  else if o = 0x2C then x.save1.sfa
  else if o = 0x30 then x.save2.spc
  else if o = 0x34 then x.save2.spsw
  else if o = 0x38 then x.save2.scause
  else if o = 0x3C then x.save2.sfa
  else if o = 0x40 then x.sliceBase
  else if o = 0x44 then x.sliceLimit
  else if o = 0x48 then x.ksp
  else if o = 0x4C then x.tctl
  else if o = 0x50 then x.tcmp.truncate 32
  else if o = 0x54 then (x.tcmp >>> 32).truncate 32
  else if o = 0x58 then stateWord x
  else if 0x60 ≤ o ∧ o < 0x70 then (loopOf x ((o - 0x60) / 4)).lps
  else if 0x70 ≤ o ∧ o < 0x80 then (loopOf x ((o - 0x70) / 4)).lpe
  else if 0x80 ≤ o ∧ o < 0x90 then (loopOf x ((o - 0x80) / 4)).lpc.zeroExtend 32
  else if o = 0x90 then x.tsr
  else if o = 0x94 then x.firePc ||| flag (x.st == .running && gateHolds b x) 30
  else if o = 0x98 then x.fireQ
  else if o = 0x9C then x.fireTok
  else if o = 0xA0 then x.latch.target.truncate 32
  else if o = 0xA4 then
    pack [(b1 x.latch.valid, 31), (b1 x.latch.sat, 30), (b1 x.latch.read, 29), (x.latch.tally.toNat, 16),
      (x.latch.target.toNat / 2 ^ 32, 0)]
  else if o = 0xA8 then
    match x.staged with
    | some m => pack [(m.words.length, 8), (m.ep.val, 0)]
    | none => 0
  else if o = 0xAC then flag (isHalted x) 2
  else 0

/-- The counts of four-bit fields, one for each of n endpoints. -/
def nibbles (n : Nat) (f : Nat → Nat) : W32 := pack ((List.range n).map (fun k => (f k, 4 * k)))

/-- A quill slot's status word (R410). -/
def quillStat (q : QuillSlot) : W32 := pack [(b1 q.busy, 31), (b1 q.err, 30), (q.ecode.toNat, 24), (q.rows.toNat, 0)]

/-- The bead control block's word at an offset: 0 where no register stands (R107). Which entries BEAD_SB_STAT shows as held is
the model's choice: as many as are held, from bit 0 up (R166; log 182). -/
def beadReg (s : State) (i : Nat) (o : Nat) : W32 :=
  let b := getBead s i
  let r := b.regs
  let e := b.ends
  if o % 4 ≠ 0 then 0
  else if o = 0x00 then beadId s i
  else if o = 0x04 then r.ctx
  else if o = 0x08 then r.commonsBase
  else if o = 0x0C then r.commonsLimit
  else if o = 0x10 then r.chanCfg
  else if o = 0x14 then r.cwLock
  else if o = 0x18 then r.gateBase
  else if o = 0x1C then r.gateCount
  else if o = 0x20 then pack [(b1 ((handOf b 0).st == .sleeping .nwait), 8), (b.core.notices.length, 0)]
  else if o = 0x24 then r.intMask
  else if o = 0x28 then r.intPend
  else if o = 0x2C then r.nibGrant
  else if o = 0x30 then r.hstat
  else if o = 0x34 then b.core.lockup
  else if o = 0x38 then (slateTick s i).truncate 32
  else if o = 0x3C then b.core.tickHi
  else if 0x40 ≤ o ∧ o < 0x60 then cwOf b ((o - 0x40) / 4)
  else if o = 0x60 then r.tileAlloc
  else if o = 0x64 then nibStat b
  else if o = 0x68 then pack [(b1 b.blot.switching.isSome, 16), (b1 b.blot.pf, 8), (b.blot.size.toNat, 0)]
  else if o = 0x6C then
    let scan := (List.range 4).any (fun k => match (handOf b k).openLine with
      | some l => l.why.contains .scan
      | none => false)
    pack [(b1 b.blot.refused, 26), (b1 b.blot.badop, 25), (b1 scan, 24), (b.blot.merge.length, 8), (b.blot.fills.length, 0)]
  else if o = 0x70 then b.blot.sw0Base
  else if o = 0x74 then b.blot.sw0Limit
  else if o = 0x78 then b.blot.sw1Base
  else if o = 0x7C then b.blot.sw1Limit
  else if 0x80 ≤ o ∧ o < 0xA0 then tcfgOf b ((o - 0x80) / 4)
  else if 0xA0 ≤ o ∧ o < 0xC0 then
    let d : W64 := mapGet (fun _ => 0) r.ngd ((o - 0xA0) / 8)
    if o % 8 = 0 then d.truncate 32 else (d >>> 32).truncate 32
  else if 0xC0 ≤ o ∧ o < 0xE0 then quillStat (mapGet (fun _ => {}) b.quills ((o - 0xC0) / 4))
  else if o = 0xE0 then b.blot.hits
  else if o = 0xE4 then b.blot.misses
  else if o = 0xE8 then b.blot.perr
  else if o = 0xEC then r.trayCfg
  else if o = 0xF0 then pack [(heldEntries b, 8), (2 ^ heldEntries b - 1, 0)]
  else if o = 0xF4 then r.trayHead
  else if o = 0xF8 then r.trayTail
  else if o = 0xFC then r.traySeed
  else if 0x100 ≤ o ∧ o < 0x500 then handReg b ((o - 0x100) / 0x100) (o % 0x100)
  else if o = 0x500 then nibbles 8 (fun k => readable (sinWords b k))
  else if o = 0x504 then nibbles 8 (soutCredits b)
  else if o = 0x508 then
    pack ((List.range 4).flatMap (fun v => [((vinRows b v).length, 3 * v), (voutCredits b v, 16 + 3 * v)]))
  else if o = 0x50C then
    pack ((List.range 16).map (fun k => (b1 ((mapFind e.tin k).isSome || (mapFind e.tout k).isSome), k)))
  else if o = 0x510 then
    pack [(e.voutClosed.toNat, 24), (e.soutClosed.toNat, 16), (e.vinClosed.toNat, 8), (e.sinClosed.toNat, 0)]
  else if o = 0x514 then e.tokClosed.zeroExtend 32
  else if o = 0x51C then e.discard
  else if o = 0x520 then e.vqBind
  else if o = 0x524 then pack [(b1 r.slumberEvent, 31), (b1 (slumbering b), 30), (r.slumberLimit.toNat, 0)]
  else if 0x600 ≤ o ∧ o < 0x6C0 then mapGet (fun _ => 0) r.rule ((o - 0x600) / 4)
  else if 0x700 ≤ o ∧ o < 0x720 then mapGet (fun _ => 0) e.counters ((o - 0x700) / 4)
  else if o = 0x720 then r.page
  else 0

/-- Whether an offset is a per-hand register, and of which hand. -/
def handOfOffset (o : Nat) : Option Nat := if 0x100 ≤ o ∧ o < 0x500 then some ((o - 0x100) / 0x100) else none

/-- Whether a register is sentinel only for CRD and CWR: BEAD_LOCKUP and the level-2 save sets (R75, R91). -/
def sentinelOnly (o : Nat) : Bool :=
  o == 0x34 || (match handOfOffset o with | some _ => 0x30 ≤ o % 0x100 && o % 0x100 < 0x40 | none => false)

/-- Who writes a bead register: a hand's CWR, or control space. -/
inductive Writer
  | hand (h : Nat)
  | space
deriving DecidableEq, Repr

/-- BEAD_HSTAT.WDISC set (R85). -/
def setWdisc (s : State) (i : Nat) : State :=
  modBead s i (fun b => { b with regs := { b.regs with hstat := b.regs.hstat ||| 1 } })

/-- A stored per-hand register written with its fields' access rules (R91). A new PC empties the fetch buffer. -/
def handPut (x : Hand) (o : Nat) (v : W32) : Hand :=
  if o = 0x00 then { x with pc := word4 v, line := [], heldLine := [] }
  else if o = 0x04 then { x with psw := merge32 x.psw 0x007F0300 v }
  else if o = 0x08 then { x with acc := (x.acc >>> 32 <<< 32) ||| v.zeroExtend 64 }
  else if o = 0x0C then { x with acc := (v.zeroExtend 64 <<< 32) ||| (x.acc &&& 0xFFFFFFFF) }
  else if o = 0x10 then { x with x0 := v }
  else if o = 0x14 then { x with x1 := v }
  else if o = 0x18 then { x with fp := v }
  else if o = 0x1C then { x with fsw := fswPut x.fsw (v.zeroExtend 64) }
  else if o = 0x20 then { x with save1 := { x.save1 with spc := v } }
  else if o = 0x24 then { x with save1 := { x.save1 with spsw := v &&& 0x307F0303 } }
  else if o = 0x28 then { x with save1 := { x.save1 with scause := v &&& 0xFF00FFFF } }
  else if o = 0x2C then { x with save1 := { x.save1 with sfa := v } }
  else if o = 0x30 then { x with save2 := { x.save2 with spc := v } }
  else if o = 0x34 then { x with save2 := { x.save2 with spsw := v &&& 0x307F0303 } }
  else if o = 0x38 then { x with save2 := { x.save2 with scause := v &&& 0xFF00FFFF } }
  else if o = 0x3C then { x with save2 := { x.save2 with sfa := v } }
  else if o = 0x40 then { x with sliceBase := v &&& 0x003FF000 }
  else if o = 0x44 then { x with sliceLimit := v &&& 0x003FF000 }
  else if o = 0x48 then { x with ksp := v &&& 0x001FFFF8 }
  else if o = 0x4C then { x with tctl := merge32 (x.tctl &&& ~~~(v &&& 4)) 0xB v }
  else if o = 0x50 then
    { x with tcmp := (x.tcmp >>> 32 <<< 32) ||| v.zeroExtend 64, tctl := x.tctl &&& ~~~1 }
  else if o = 0x54 then
    { x with tcmp := (v.zeroExtend 64 <<< 32) ||| (x.tcmp &&& 0xFFFFFFFF), tctl := x.tctl &&& ~~~1 }
  else if 0x60 ≤ o ∧ o < 0x70 ∧ o % 4 = 0 then
    let n := (o - 0x60) / 4
    setLoop x n { loopOf x n with lps := v }
  else if 0x70 ≤ o ∧ o < 0x80 ∧ o % 4 = 0 then
    let n := (o - 0x70) / 4
    setLoop x n { loopOf x n with lpe := v }
  else if 0x80 ≤ o ∧ o < 0x90 ∧ o % 4 = 0 then
    let n := (o - 0x80) / 4
    setLoop x n { loopOf x n with lpc := v.truncate 24 }
  else if o = 0x90 then { x with tsr := v &&& 0x3F }
  else if o = 0x94 then { x with firePc := v &&& 0x801FFFFC }
  else if o = 0x98 then { x with fireQ := v &&& 0x7FFF0FFF }
  else if o = 0x9C then { x with fireTok := v &&& 0xFFFF }
  else x

/-- A write of QCTL.ABORT (R245): hand 0's CWR or control space, on a Stopped or Halted hand. -/
def writeQctl (s : State) (i h : Nat) (v : W32) (w : Writer) : State :=
  if !v.getLsbD 31 then s
  else
    let x := getHand s i h
    if (isStopped x || isHalted x) && (w == .space || (w == .hand 0 && h != 0)) then abortStaged s i h
    else setWdisc s i

/-- What a hand halted now will return to (R64, R377). -/
def haltPrior (x : Hand) : HaltPrior :=
  match x.st with
  | .idle => .idle
  | .running => .running
  | .sleeping .sleep => .sleeping
  | .sleeping _ => .running
  | .stopped k => .stopped k
  | .halted p => p
  | .locked => .idle

/-- A debug halt (R131, R261, R377): issuing stops, lines issued complete, a waiting glyph's line is withdrawn and its
waiter entry cancelled, a transfer ends. It has no effect on a Halted or Locked hand. -/
def haltHand (s : State) (i h : Nat) : State :=
  let x := getHand s i h
  if x.st = .locked ∨ isHalted x then s
  else
    let p := haltPrior x
    let s := modBead (endTransfer (cancelWait s i h) i h) i endSlumber
    modHand s i h (fun x => { x with st := .halted p })

/-- A debug release (R64, R377, R411): the hand returns to its state before the halt. -/
def releaseHand (s : State) (i h : Nat) : State :=
  let x := getHand s i h
  match x.st with
  | .halted .idle => putHand s i h { x with st := .idle }
  | .halted .running => deliverHeld (putHand s i h { x with st := .running }) i h
  | .halted .sleeping => putHand s i h { x with st := .sleeping .sleep }
  | .halted (.stopped k) => putHand s i h { x with st := .stopped k }
  | _ => s

/-- A write of BEAD_HAND_h_DBG (R85, R377): acts through control space alone. -/
def writeDbg (s : State) (i h : Nat) (v : W32) (w : Writer) : State :=
  match w with
  | .hand _ => setWdisc s i
  | .space =>
    let s := if v.getLsbD 0 then haltHand s i h else s
    if v.getLsbD 1 && !v.getLsbD 0 then releaseHand s i h else s

/-- STATE.START (R64, R411): control space only, hand 0 only, Idle to Running. -/
def writeState (s : State) (i h : Nat) (v : W32) (w : Writer) : State :=
  if w = .space ∧ h = 0 ∧ v.getLsbD 11 ∧ (getHand s i 0).st = .idle then
    deliverHeld (modHand (modBead s i endSlumber) i 0 (fun x => { x with st := .running })) i 0
  else s

/-- A write of a per-hand register (R85). -/
def writeHandReg (s : State) (i h o : Nat) (v : W32) (w : Writer) : State :=
  let x := getHand s i h
  let self := w = .hand h
  if o = 0xAC then writeDbg s i h v w
  else if self ∧ (o = 0x00 ∨ o = 0x04 ∨ o = 0x58 ∨ o = 0xA8) then setWdisc s i
  else if (o = 0x58 ∨ o = 0xA8) ∧ (x.st = .running ∨ isSleeping x) then setWdisc s i
  else if o = 0xA8 then writeQctl s i h v w
  else if o = 0x58 then writeState s i h v w
  else if o = 0x04 ∧ pswLd v > 4 then setWdisc s i
  else if self ∨ x.st = .idle ∨ isStopped x ∨ isHalted x then putHand s i h (handPut x o v)
  else if x.st = .running ∨ isSleeping x then setWdisc s i
  else s

/-- Whether every tile operation in flight that names tile t has completed (R124): the transfers of open lines, and
their V and M glyphs, which take effect when the lines retire. -/
def tileQuiet (b : Bead) (t : Nat) : Bool :=
  let names (f : Eff) : Bool := match f with
    | .act c _ _ _ => (match glyphOf c with | some g => (formTiles g).contains t | none => false)
    | _ => false
  (List.range 4).all (fun k => match (handOf b k).openLine with
    | some l => !(l.effs.any names) && l.why.all (fun w => match w with | .transfer tr => tr.tile.val != t | _ => true)
    | none => true)

/-- Whether a shape word is one that BEAD_TCFG_t may hold (R122, R124): no reserved code and, for TCFG, no reserved
bit. -/
def shapeOk (v : W32) : Bool := fld v.toNat 11 8 ≤ 0xB

/-- A tile reshaped (R124): its rows and scale words become zero if ROWSM1 or FMT changes. -/
def reshape (b : Bead) (t : Nat) (v : W32) : Bead :=
  let v := v &&& 0xF1F
  if v = tcfgOf b t then b
  else zeroTile { b with regs := { b.regs with tcfg := mapPut b.regs.tcfg t v } } t

/-- A write of BEAD_TCFG_t that has not to wait: a reserved code is discarded (R124). -/
def writeTcfg (b : Bead) (t : Nat) (v : W32) : Bead := if shapeOk v then reshape b t v else b

/-- The tiles whose binding a write of BEAD_VQ_BIND changes (R246). -/
def bindChanges (old v : W32) : List Nat :=
  (List.range 8).flatMap (fun k =>
    let f (w : W32) : Nat := fld w.toNat (4 * k + 3) (4 * k)
    if f old = f v then [] else [f old % 8, f v % 8])

/-- Whether a write of BEAD_VQ_BIND finds every tile it changes quiet. -/
def bindQuiet (b : Bead) (v : W32) : Bool := (bindChanges b.ends.vqBind v).all (tileQuiet b)

/-- BEAD_CHAN_CFG written (R71): a channel whose fields change is emptied and hands that sleep on it wake with
STATE.WAKE = 2. -/
def writeChan (b : Bead) (v : W32) : Bead :=
  let v := v &&& 0x8F8F8F8F
  let old := b.regs.chanCfg
  let b := { b with regs := { b.regs with chanCfg := v } }
  (List.range 4).foldl (fun b c =>
    if fld old.toNat (8 * c + 7) (8 * c) = fld v.toNat (8 * c + 7) (8 * c) then b
    else (List.range 4).foldl (fun b k =>
      let x := handOf b k
      if (x.st = .sleeping .csend ∨ x.st = .sleeping .crecv) ∧ x.sleepMask.getLsbD c then setHand b k (wakeHand x 2) else b)
      (putChan b c [])) b

/-- BEAD_INT_MASK written (R81): a source whose MASK bit is set while its PEND bit is 1 posts a notice, whose source
detail the spec does not give (log 38). -/
def writeIntMask (s : State) (i : Nat) (v : W32) : State :=
  let old := (getBead s i).regs.intMask
  let v := v &&& 0xFF
  let s := modBead s i (fun b => { b with regs := { b.regs with intMask := v } })
  (List.range 8).foldl (fun s k =>
    if v.getLsbD k && !old.getLsbD k && (getBead s i).regs.intPend.getLsbD k then
      let (d, s) := freeBits s
      intNotice s i k (d.truncate 32)
    else s) s

/-- Whether the tray that a BEAD_TRAY_CFG word describes lies in the sentinel region or in a bank that a blotter of a
SIZE takes (R146, R237). -/
def trayIn (cfg : W32) (size : Nat) : Bool :=
  let base := fld cfg.toNat 20 14 * 0x4000
  base < 0x8000 || blotterBank size ≤ (base + 0x3FFF) / 0x10000

/-- What a write of BEAD_BLOT_CFG asks for (R145, R146). -/
inductive BlotAsk
  | nothing | pf | refuse | switch
deriving DecidableEq, Repr

/-- A write of BEAD_BLOT_CFG judged (R145, R146). -/
def blotAsk (b : Bead) (v : W32) : BlotAsk :=
  let size := fld v.toNat 2 0
  if size > 4 then .nothing
  else if size = b.blot.size.toNat then .pf
  else if b.blot.size.toNat < size ∧ trayOn b ∧ trayIn b.regs.trayCfg size then .refuse
  else .switch

/-- A blotter switch begun (R146): SWITCHING is 1 and the merging buffer starts to drain. -/
def startSwitch (b : Bead) (size : BitVec 3) (pf : Bool) : Bead :=
  let b := startDrainAll b
  { b with blot := { b.blot with switching := some (size, pf) } }

/-- BEAD_BLOT_CFG written (R145, R146). -/
def writeBlotCfg (b : Bead) (v : W32) : Bead :=
  match blotAsk b v with
  | .nothing => b
  | .pf => { b with blot := { b.blot with pf := v.getLsbD 8 } }
  | .refuse => { b with blot := { b.blot with refused := true } }
  | .switch => startSwitch b (v.truncate 3) (v.getLsbD 8)

/-- BEAD_QCLOSE written (R248, R250). -/
def writeQclose (s : State) (i : Nat) (v : W32) : State :=
  let b := getBead s i
  let ins := (List.range 16).foldl (fun (w : BitVec 16) k => if tokIsIn b k then w ||| BitVec.ofNat 16 (2 ^ k) else w) 0
  closeIns s i (v.truncate 8) ((v >>> 8).truncate 4) (((v >>> 16).truncate 16) &&& ins)

/-- A group descriptor half written; its reserved bits stay zero (R135). -/
def writeNgd (b : Bead) (g : Nat) (hi : Bool) (v : W32) : Bead :=
  let d : W64 := mapGet (fun _ => 0) b.regs.ngd g
  let d := if hi then ((v &&& 0x7FFF03FF).zeroExtend 64 <<< 32) ||| (d &&& 0xFFFFFFFF)
    else (d >>> 32 <<< 32) ||| (v &&& 0x7FFF7EFF).zeroExtend 64
  { b with regs := { b.regs with ngd := mapPut b.regs.ngd g d } }

/-- The bead-wide registers that are stored as written, within their fields. -/
def plainReg (b : Bead) (o : Nat) (v : W32) : Bead :=
  let r := b.regs
  if o = 0x08 then { b with regs := { r with commonsBase := v &&& 0x003FF000 } }
  else if o = 0x0C then { b with regs := { r with commonsLimit := v &&& 0x003FF000 } }
  else if o = 0x14 then { b with regs := { r with cwLock := v &&& 0xFF } }
  else if o = 0x18 then { b with regs := { r with gateBase := v &&& 0x001FFFE0 } }
  else if o = 0x1C then { b with regs := { r with gateCount := v &&& 0x1FF } }
  else if o = 0x28 then { b with regs := { r with intPend := r.intPend &&& ~~~v } }
  else if o = 0x2C then { b with regs := { r with nibGrant := v &&& 0xFFFF } }
  else if o = 0x30 then { b with regs := { r with hstat := r.hstat &&& ~~~v } }
  else if o = 0x60 then { b with regs := { r with tileAlloc := v &&& 0x00FFFFFF } }
  else if o = 0x6C then
    { b with blot := { b.blot with refused := b.blot.refused && !v.getLsbD 26, badop := b.blot.badop && !v.getLsbD 25 } }
  else if o = 0x70 then { b with blot := { b.blot with sw0Base := v } }
  else if o = 0x74 then { b with blot := { b.blot with sw0Limit := v } }
  else if o = 0x78 then { b with blot := { b.blot with sw1Base := v } }
  else if o = 0x7C then { b with blot := { b.blot with sw1Limit := v } }
  else if o = 0xE0 then if v = BitVec.allOnes 32 then { b with blot := { b.blot with hits := 0 } } else b
  else if o = 0xE4 then if v = BitVec.allOnes 32 then { b with blot := { b.blot with misses := 0 } } else b
  else if o = 0xE8 then if v = BitVec.allOnes 32 then { b with blot := { b.blot with perr := 0 } } else b
  else if o = 0xEC then
    if v.getLsbD 31 && trayIn v b.blot.size.toNat then b
    else { b with regs := { r with trayCfg := v &&& 0x801FCF00 } }
  else if o = 0xF4 then if trayOn b then b else { b with regs := { r with trayHead := v } }
  else if o = 0xF8 then if trayOn b then b else { b with regs := { r with trayTail := v } }
  else if o = 0xFC then if v &&& 0xFFFF = 0 then b else { b with regs := { r with traySeed := v &&& 0xFFFF } }
  else if o = 0x51C then if v = BitVec.allOnes 32 then { b with ends := { b.ends with discard := 0 } } else b
  else if o = 0x524 then
    { b with regs := { r with slumberEvent := r.slumberEvent && !v.getLsbD 31, slumberLimit := v.truncate 24 } }
  else b

/-- A write of a bead register that has not to wait (R85, R91, R401). -/
def writeBeadReg (s : State) (i o : Nat) (v : W32) (w : Writer) : State :=
  if o % 4 ≠ 0 then s
  else match handOfOffset o with
    | some h => writeHandReg s i h (o % 0x100) v w
    | none =>
      if o = 0x10 then deliverWoken s i (modBead s i (fun b => writeChan b v))
      else if o = 0x24 then writeIntMask s i v
      else if 0x40 ≤ o ∧ o < 0x60 then putCw s i ((o - 0x40) / 4) v
      else if o = 0x68 then modBead s i (fun b => writeBlotCfg b v)
      else if 0x80 ≤ o ∧ o < 0xA0 then modBead s i (fun b => writeTcfg b ((o - 0x80) / 4) v)
      else if 0xA0 ≤ o ∧ o < 0xC0 then modBead s i (fun b => writeNgd b ((o - 0xA0) / 8) (o % 8 = 4) v)
      else if o = 0x518 then writeQclose s i v
      else if o = 0x520 then modBead s i (fun b => { b with ends := { b.ends with vqBind := v } })
      else modBead s i (fun b => plainReg b o v)

/-- Whether a write of a bead register has to wait (R124, R146, R246). -/
def beadWriteWaits (b : Bead) (o : Nat) (v : W32) : Bool :=
  if 0x80 ≤ o ∧ o < 0xA0 then shapeOk v && !tileQuiet b ((o - 0x80) / 4)
  else if o = 0x520 then !bindQuiet b v
  else if o = 0x68 then b.blot.switching.isSome
  else false

/-- BEAD_TICK_LO read: the upper half of the Slate tick counter is latched (R67). -/
def latchTick (s : State) (i : Nat) : State :=
  let hi : W32 := (slateTick s i >>> 32).truncate 32
  modBead s i (fun b => { b with core := { b.core with tickHi := hi } })

/-- CRD (R91, R107). -/
def evalCrd (e : Env) (o : BitVec 22) (c : Instr) : Ev Out :=
  let k := opdField o
  if envPl e = 0 ∨ (envPl e = 1 ∧ sentinelOnly k) then raise 0x02 e.pc
  else writes (.acc ((beadReg e.s e.i k).zeroExtend 64) :: (if k = 0x38 then [actOf e c] else []))

/-- CWR (R85, R91, R107): held while the write itself has to wait; one that starts a blotter switch is held until the
switch ends (R146). -/
def evalCwr (e : Env) (o : BitVec 22) (c : Instr) : Ev Out :=
  let k := opdField o
  let v : W32 := e.x.acc.truncate 32
  let b := envBead e
  if envPl e = 0 ∨ (envPl e = 1 ∧ sentinelOnly k) then raise 0x02 e.pc
  else if beadWriteWaits b k v then .error .held
  else if k = 0x68 ∧ blotAsk b v = .switch then .error (.heldSwitch (v.truncate 3) (v.getLsbD 8))
  else writes [actOf e c]

end Sys2Proof.Machine
end

