-- ==== Sys2Proof/Machine/Float.lean ====
section
/-! DEFINITION. Number formats, rounding, special values and flags (R24 to R41, R409), and the compensated update
(R44 to R47, R52, R53, R58). A finite value is held exactly, as an integer times a power of two. -/

namespace Sys2Proof.Machine

/-- A value of a floating-point format: a NaN, an infinity, or ± m × 2^e with its sign kept for zeros. -/
inductive FVal
  | nan (signalling : Bool)
  | inf (neg : Bool)
  | fin (neg : Bool) (m : Nat) (e : Int)
deriving DecidableEq, Repr

/-- The kinds of floating-point encoding of R27: as IEEE 754, E4M3 (one NaN code, no infinity), E2M1 (neither). -/
inductive FKind
  | ieee | e4m3 | e2m1
deriving DecidableEq, Repr

/-- A floating-point encoding (R27). -/
structure FFmt where
  eb : Nat
  fb : Nat
  bias : Nat
  kind : FKind
deriving DecidableEq, Repr

/-- The encodings of R27. -/
def f32 : FFmt := ⟨8, 23, 127, .ieee⟩
@[inherit_doc f32] def bf16 : FFmt := ⟨8, 7, 127, .ieee⟩
@[inherit_doc f32] def f16 : FFmt := ⟨5, 10, 15, .ieee⟩
@[inherit_doc f32] def e5m2 : FFmt := ⟨5, 2, 15, .ieee⟩
@[inherit_doc f32] def e4m3 : FFmt := ⟨4, 3, 7, .e4m3⟩
@[inherit_doc f32] def e2m1 : FFmt := ⟨2, 1, 1, .e2m1⟩

/-- Sticky flags of FSW (R35). -/
def fNV : W32 := 1
@[inherit_doc fNV] def fDZ : W32 := 2
@[inherit_doc fNV] def fOF : W32 := 4
@[inherit_doc fNV] def fUF : W32 := 8
@[inherit_doc fNV] def fNX : W32 := 16
@[inherit_doc fNV] def fSA : W32 := 32

/-- Rounding modes by FSW.RM (R35): 0 RNE, 1 RTZ, 2 RUP, 3 RDN; and the saturate control. -/
structure Rnd where
  rm : Nat
  sat : Bool
deriving DecidableEq, Repr

/-- RNE with a saturate control (R36). -/
def rne (sat : Bool) : Rnd := ⟨0, sat⟩

/-- The rounding control of an FSW. -/
def rndOf (fsw : W32) : Rnd := ⟨fld fsw.toNat 9 8, fsw.getLsbD 11⟩

/-- The sign bit of a format, as a number. -/
def signBit (f : FFmt) (neg : Bool) : Nat := if neg then 2 ^ (f.eb + f.fb) else 0

/-- The value that bits of a format encode (R27, R409). -/
def fdecode (f : FFmt) (bits : Nat) : FVal :=
  let neg := bitAt bits (f.eb + f.fb)
  let ex := fld bits (f.eb + f.fb - 1) f.fb
  let fr := bits % 2 ^ f.fb
  let top := 2 ^ f.eb - 1
  if f.kind = .ieee ∧ ex = top then
    if fr = 0 then .inf neg else .nan (!bitAt fr (f.fb - 1))
  else if f.kind = .e4m3 ∧ ex = top ∧ fr = 2 ^ f.fb - 1 then .nan false
  else if ex = 0 then .fin neg fr (1 - (f.bias : Int) - f.fb)
  else .fin neg (2 ^ f.fb + fr) ((ex : Int) - f.bias - f.fb)

/-- The canonical NaN of a format (R38). -/
def canonNan (f : FFmt) : Nat :=
  match f.kind with
  | .ieee => (2 ^ f.eb - 1) * 2 ^ f.fb + 2 ^ (f.fb - 1)
  | _ => 2 ^ (f.eb + f.fb) - 1

/-- The bits of an infinity. -/
def infBits (f : FFmt) (neg : Bool) : Nat := signBit f neg + (2 ^ f.eb - 1) * 2 ^ f.fb

/-- The bits of the largest finite value (R27), without its sign. -/
def maxBits (f : FFmt) : Nat :=
  match f.kind with
  | .ieee => (2 ^ f.eb - 2) * 2 ^ f.fb + (2 ^ f.fb - 1)
  | .e4m3 => 2 ^ (f.eb + f.fb) - 2
  | .e2m1 => 2 ^ (f.eb + f.fb) - 1

/-- m × 2^e rounded to an integer multiple n of 2^q, and whether the rounding was inexact. -/
def roundAt (rm : Nat) (neg : Bool) (m : Nat) (e q : Int) : Nat × Bool :=
  if q ≤ e then (m * 2 ^ (e - q).toNat, false)
  else
    let k := (q - e).toNat
    let n := m / 2 ^ k
    let r := m % 2 ^ k
    let up : Bool :=
      match rm with
      | 0 => decide (2 ^ k < 2 * r) || (2 * r == 2 ^ k && n % 2 == 1)
      | 1 => false
      | 2 => r != 0 && !neg
      | _ => r != 0 && neg
    (if up then n + 1 else n, r != 0)

/-- An overflow (R35, R39): E4M3 and E2M1 saturate; the others follow the saturate control, and without it IEEE 754 for
the rounding mode. -/
def overflow (f : FFmt) (r : Rnd) (neg : Bool) : Nat × W32 :=
  if f.kind ≠ .ieee ∨ r.sat then (signBit f neg + maxBits f, fSA ||| fNX)
  else if r.rm = 1 ∨ (r.rm = 2 ∧ neg) ∨ (r.rm = 3 ∧ !neg) then (signBit f neg + maxBits f, fOF ||| fNX)
  else (infBits f neg, fOF ||| fNX)

/-- The exact value ± m × 2^e rounded once to a format (R35, R38, R39): bits and flags; tininess is detected after
rounding. -/
def fround (f : FFmt) (r : Rnd) (neg : Bool) (m : Nat) (e : Int) : Nat × W32 :=
  if m = 0 then (signBit f neg, 0)
  else
    let top : Int := (m.log2 : Int) + e
    let emin : Int := 1 - (f.bias : Int)
    let q : Int := max (top - f.fb) (emin - f.fb)
    let (n, inexact) := roundAt r.rm neg m e q
    let (n, q) := if n = 2 ^ (f.fb + 1) then (2 ^ f.fb, q + 1) else (n, q)
    let bits : Nat := if n < 2 ^ f.fb then n else (q + f.fb + f.bias).toNat * 2 ^ f.fb + (n - 2 ^ f.fb)
    if bits > maxBits f then overflow f r neg
    else
      let (u, _) := roundAt r.rm neg m e (top - f.fb)
      let tiny : Bool := decide (top < emin) && !(top == emin - 1 && u == 2 ^ (f.fb + 1))
      (signBit f neg + bits, (if inexact then fNX else 0) ||| (if tiny && inexact then fUF else 0))

/-- A value rounded to a format (R38, R39). An infinity gives E4M3's NaN with NV. -/
def fencode (f : FFmt) (r : Rnd) (v : FVal) : Nat × W32 :=
  match v with
  | .nan s => (canonNan f, if s then fNV else 0)
  | .inf neg => if f.kind = .ieee then (infBits f neg, 0) else (canonNan f, fNV)
  | .fin neg m e => fround f r neg m e

/-- An exact integer multiple of 2^e as a value; a zero takes the sign given. -/
def ofInt (i : Int) (e : Int) (zeroNeg : Bool) : FVal :=
  if i = 0 then .fin zeroNeg 0 0 else .fin (i < 0) i.natAbs e

/-- A signed integer of a finite value's significand. -/
def sgn (neg : Bool) (m : Nat) : Int := if neg then -(m : Int) else m

/-- Whether a value is a signalling NaN. -/
def isSnan : FVal → Bool
  | .nan s => s
  | _ => false
/-- Whether a value is a NaN. -/
def isNan : FVal → Bool
  | .nan _ => true
  | _ => false

/-- NV for a signalling operand (R38). -/
def snanFlag (l : List FVal) : W32 := if l.any isSnan then fNV else 0

/-- Two integers over a common exponent. -/
def alignPair (a : Int) (ea : Int) (b : Int) (eb : Int) : Int × Int × Int :=
  let e := min ea eb
  (a * 2 ^ (ea - e).toNat, b * 2 ^ (eb - e).toNat, e)

/-- The exact sum of two finite values, its zero signed for a rounding mode as IEEE 754 has it. -/
def addExact (rm : Nat) (na : Bool) (ma : Nat) (ea : Int) (nb : Bool) (mb : Nat) (eb : Int) : FVal :=
  let (x, y, e) := alignPair (sgn na ma) ea (sgn nb mb) eb
  let zneg := if ma = 0 ∧ mb = 0 ∧ na = nb then na else rm == 3
  ofInt (x + y) e zneg

/-- The sum of two values before rounding (R38, R40), and its flags: an invalid sum of infinities gives NaN with NV. -/
def faddV (rm : Nat) (a b : FVal) : FVal × W32 :=
  match a, b with
  | .nan _, _ => (.nan false, snanFlag [a, b])
  | _, .nan _ => (.nan false, snanFlag [a, b])
  | .inf x, .inf y => if x = y then (.inf x, 0) else (.nan false, fNV)
  | .inf x, _ => (.inf x, 0)
  | _, .inf y => (.inf y, 0)
  | .fin na ma ea, .fin nb mb eb => (addExact rm na ma ea nb mb eb, 0)

/-- The negation of a value. -/
def fnegV : FVal → FVal
  | .nan s => .nan s
  | .inf n => .inf (!n)
  | .fin n m e => .fin (!n) m e

/-- The product of two values before rounding: ∞ × 0 gives NaN with NV. -/
def fmulV (a b : FVal) : FVal × W32 :=
  match a, b with
  | .nan _, _ => (.nan false, snanFlag [a, b])
  | _, .nan _ => (.nan false, snanFlag [a, b])
  | .inf x, .inf y => (.inf (x ^^ y), 0)
  | .inf x, .fin y m _ => if m = 0 then (.nan false, fNV) else (.inf (x ^^ y), 0)
  | .fin x m _, .inf y => if m = 0 then (.nan false, fNV) else (.inf (x ^^ y), 0)
  | .fin x m e, .fin y n f => (.fin (x ^^ y) (m * n) (e + f), 0)

/-- a + b, a × b and a × b + c rounded once to a format (R40). -/
def fadd (f : FFmt) (r : Rnd) (a b : FVal) : Nat × W32 :=
  let (v, g) := faddV r.rm a b
  let (x, h) := fencode f r v
  (x, g ||| h)
@[inherit_doc fadd] def fmul (f : FFmt) (r : Rnd) (a b : FVal) : Nat × W32 :=
  let (v, g) := fmulV a b
  let (x, h) := fencode f r v
  (x, g ||| h)
@[inherit_doc fadd] def ffma (f : FFmt) (r : Rnd) (a b c : FVal) : Nat × W32 :=
  let (p, g) := fmulV a b
  let (v, k) := faddV r.rm p c
  let (x, h) := fencode f r v
  (x, g ||| k ||| h ||| snanFlag [c])

/-- The order of two values that are no NaN: −1, 0 or 1. -/
def fcmp (a b : FVal) : Int :=
  match a, b with
  | .inf x, .inf y => if x = y then 0 else if x then -1 else 1
  | .inf x, _ => if x then -1 else 1
  | _, .inf y => if y then 1 else -1
  | .fin na ma ea, .fin nb mb eb =>
    let (x, y, _) := alignPair (sgn na ma) ea (sgn nb mb) eb
    if x < y then -1 else if y < x then 1 else 0
  | _, _ => 0

/-- Whether a value's sign is negative. -/
def fneg? : FVal → Bool
  | .nan _ => false
  | .inf n => n
  | .fin n _ _ => n

/-- Minimum and maximum (R132): a single NaN yields the other operand, and −0 < +0. -/
def fminmax (wantMax : Bool) (a b : FVal) : FVal × W32 :=
  let g := snanFlag [a, b]
  if isNan a && isNan b then (.nan false, g)
  else if isNan a then (b, g)
  else if isNan b then (a, g)
  else
    let less := fcmp a b < 0 || (fcmp a b == 0 && fneg? a && !fneg? b)
    (if less != wantMax then a else b, g)

/-- A value converted to a plain two's complement integer of w bits (R39). -/
def toIntFmt (w : Nat) (rm : Nat) (v : FVal) : Nat × W32 :=
  let top : Int := 2 ^ (w - 1) - 1
  let put (i : Int) : Nat := (i % 2 ^ w).toNat
  match v with
  | .nan _ => (0, fNV)
  | .inf neg => (put (if neg then -top - 1 else top), fNV)
  | .fin neg m e =>
    let (n, inexact) := roundAt rm neg m e 0
    let i := sgn neg n
    if i > top then (put top, fNV ||| fSA)
    else if i < -top - 1 then (put (-top - 1), fNV ||| fSA)
    else (put i, if inexact then fNX else 0)

/-- The floating-point encoding of a plain format code (R122), if it is one. -/
def fmtFloat (code : Nat) : Option FFmt :=
  match code with
  | 0 => some f32 | 1 => some bf16 | 2 => some f16 | 4 => some e4m3 | 5 => some e5m2 | _ => none

/-- The value of an element of a plain format code. -/
def plainVal (code bits : Nat) : FVal :=
  match fmtFloat code with
  | some f => fdecode f bits
  | none =>
    let w := if code = 3 then 16 else 8
    ofInt (BitVec.ofNat w bits).toInt 0 false

/-- A value converted once to a plain format code (R39): bits and flags. -/
def plainEncode (code : Nat) (r : Rnd) (v : FVal) : Nat × W32 :=
  match fmtFloat code with
  | some f => fencode f r v
  | none => toIntFmt (if code = 3 then 16 else 8) r.rm v

/-- The value of an element of an MX format code with its block's scale byte (R28, R29, R33). -/
def mxVal (code bits scale : Nat) : FVal :=
  let scaled (v : FVal) : FVal := match v with
    | .fin n m e => .fin n m (e + scale - 127)
    | v => v
  if scale = 255 then .nan false
  else match code with
    | 7 => scaled (fdecode e4m3 bits)
    | 8 => scaled (fdecode e5m2 bits)
    | 9 => scaled (ofInt (BitVec.ofNat 8 bits).toInt (-6) false)
    | 0xA => scaled (fdecode e2m1 bits)
    | _ => scaled (ofInt (BitVec.ofNat 4 bits).toInt (-2) false)

/-- emax of an MX element format (R34). -/
def mxEmax (code : Nat) : Int :=
  match code with
  | 7 => 8 | 8 => 15 | 0xA => 2 | _ => 0

/-- The shared exponent X of a block (R34, steps 1 to 3). -/
def mxExp (code : Nat) (vs : List FVal) : Int :=
  let tops := vs.filterMap (fun v => match v with
    | .fin _ m e => if m = 0 then none else some ((m.log2 : Int) + e)
    | _ => none)
  match tops with
  | [] => -127
  | t :: ts => max (-127) (min 127 ((ts.foldl max t) - mxEmax code))

/-- One element of a block with shared exponent x (R34, step 4; R39). A NaN, and an infinity that the element format
lacks, has no stated element bits in FP4 and the integer formats: `free` gives them (log 1). -/
def mxElement (code : Nat) (sat : Bool) (x : Int) (free : Nat) (v : FVal) : Nat × W32 :=
  match v with
  | .fin neg m e =>
    let e := e - x
    match code with
    | 7 => fround e4m3 (rne sat) neg m e
    | 8 => fround e5m2 (rne sat) neg m e
    | 0xA => fround e2m1 (rne sat) neg m e
    | _ =>
      let w := if code = 9 then 8 else 4
      let top := 2 ^ (w - 1) - 1
      let (n, inexact) := roundAt 0 neg m e (-(w - 2 : Nat))
      if n > top then (((sgn neg top) % 2 ^ w).toNat, fSA ||| fNX)
      else (((sgn neg n) % 2 ^ w).toNat,
        (if inexact then fNX else 0) ||| (if inexact && n == 0 then fUF else 0))
  | .inf neg =>
    match code with
    | 8 => (infBits e5m2 neg, 0)
    | 7 => (canonNan e4m3, fNV)
    | 9 => (free % 256, fNV)
    | _ => (free % 16, fNV)
  | .nan s =>
    let g := if s then fNV else 0
    match code with
    | 7 => (canonNan e4m3, g)
    | 8 => (canonNan e5m2, g)
    | 9 => (free % 256, g)
    | _ => (free % 16, g)

/-- An MX block of 32 values (R34, R41): element bits, scale byte and flags. -/
def mxBlock (code : Nat) (sat : Bool) (free : Nat → Nat) (vs : List FVal) : List Nat × Nat × W32 :=
  let x := mxExp code vs
  let els := vs.mapIdx (fun k v => mxElement code sat x (free k) v)
  let bad := vs.any (fun v => match v with | .nan _ => true | .inf _ => code != 8 | _ => false)
  (els.map (·.1), if bad then 255 else (x + 127).toNat, (els.map (·.2)).foldl (· ||| ·) 0)

/-- binary32 bits as a word. -/
def w32 (n : Nat) : W32 := BitVec.ofNat 32 n
/-- The value of a binary32 word. -/
def v32 (w : W32) : FVal := fdecode f32 w.toNat

/-- The exact difference b − h of a finite value and its rounding, as a value. -/
def diffExact (b h : FVal) : FVal :=
  match b, h with
  | .fin nb mb eb, .fin nh mh eh => addExact 0 nb mb eb (!nh) mh eh
  | _, _ => .fin false 0 0

/-- The addend pair (h, l) of an exact value (R45): an overflow gives an infinity and +0. -/
def addendPair (b : FVal) : W32 × W32 :=
  let h := w32 (fencode f32 (rne false) b).1
  match v32 h with
  | .fin .. => (h, w32 (fencode f32 (rne false) (diffExact b (v32 h))).1)
  | _ => (h, 0)

/-- The exact error of s = a + b in binary32 (R46): a binary32 value whenever s is finite. -/
def twoSumError (a b s : W32) : W32 :=
  match (faddV 0 (v32 a) (v32 b)).1, v32 s with
  | .fin nx mx ex, .fin ns ms es =>
    match addExact 0 nx mx ex (!ns) ms es with
    | .fin n m e => if m = 0 then 0 else w32 (fround f32 (rne false) n m e).1
    | _ => 0
  | _, _ => 0

/-- binary32 addition with RNE. -/
def add32 (a b : W32) : W32 := w32 (fadd f32 (rne false) (v32 a) (v32 b)).1

/-- The canonical NaN of binary32. -/
def nan32 : W32 := 0x7FC00000

/-- A pair of a sum and an error term with the special values of R47 applied. -/
def settle (s e : W32) : W32 × W32 :=
  match v32 s, v32 e with
  | .nan _, _ => (nan32, 0)
  | _, .nan _ => (nan32, 0)
  | .inf _, _ => (s, 0)
  | _, .inf _ => (e, 0)
  | _, _ => (s, e)

/-- The compensated update of a cell by an addend pair (R46, R47). -/
def cellAdd (s e h l : W32) : W32 × W32 :=
  if isNan (v32 s) || isNan (v32 h) || isNan (v32 l) then (nan32, 0)
  else match v32 s with
    | .inf n => (match v32 h with
      | .inf k => if n = k then (s, 0) else (nan32, 0)
      | _ => (match v32 l with
        | .inf k => if n = k then (s, 0) else (nan32, 0)
        | _ => (s, 0)))
    | _ =>
      let s' := add32 s h
      match v32 s' with
      | .fin .. => settle s' (add32 e (add32 (twoSumError s h s') l))
      | .inf n => (match v32 l with
        | .inf k => if n = k then (s', 0) else (nan32, 0)
        | _ => settle s' 0)
      | .nan _ => (nan32, 0)

/-- The exact value S + E of a cell (R45, R52); an exact zero is +0. -/
def cellVal (s e : W32) : FVal :=
  match (faddV 0 (v32 s) (v32 e)).1 with
  | .fin n m x => .fin (n && m != 0) m x
  | v => v

/-- The renormalised pair of a cell and its flags (R53). -/
def renorm (sat : Bool) (s e : W32) : W32 × W32 × W32 :=
  match cellVal s e with
  | .fin n m x =>
    let (b, g) := fround f32 (rne sat) n m x
    let s' := w32 b
    let ofl := g &&& (fOF ||| fSA)
    if ofl ≠ 0 then (s', 0, ofl ||| fNX)
    else (s', (match diffExact (.fin n m x) (v32 s') with
      | .fin n m e => if m = 0 then 0 else w32 (fround f32 (rne false) n m e).1
      | _ => 0), 0)
  | _ => ((settle s e).1, 0, 0)

/-- VCADD on one pair position (R47, R58): the pair and the flags of its rounded additions (log 20). -/
def pairAdd (s1 e1 s2 e2 : W32) : W32 × W32 × W32 :=
  let g0 := snanFlag [v32 s1, v32 e1, v32 s2, v32 e2]
  if [s1, e1, s2, e2].any (fun w => isNan (v32 w)) then (nan32, 0, g0)
  else
    let (sb, g1) := fadd f32 (rne false) (v32 s1) (v32 s2)
    let s := w32 sb
    let (ea, g2) := fadd f32 (rne false) (v32 e1) (v32 e2)
    match v32 s with
    | .fin .. =>
      let (eb, g3) := fadd f32 (rne false) (v32 (w32 ea)) (v32 (twoSumError s1 s2 s))
      let e := w32 eb
      match v32 e with
      | .fin .. =>
        let (tb, g4) := fadd f32 (rne false) (v32 s) (v32 e)
        let t := w32 tb
        let (x, y) := settle t (twoSumError s e t)
        (x, y, g1 ||| g2 ||| g3 ||| g4)
      | _ =>
        let (x, y) := settle s e
        (x, y, g1 ||| g2 ||| g3)
    | _ =>
      let (x, y) := settle s (w32 ea)
      (x, (if isNan (v32 x) then 0 else y), g1 ||| g2)

end Sys2Proof.Machine
end

