-- ==== Sys2Proof/Machine/Special.lean ====
section
/-! DEFINITION. The special functions of the vector unit (R42). The device's result is a fixed function of the input
that R42 bounds but does not give: it is `Config.specialResult` wherever that lies within the bound, and the rounded
exact value elsewhere (log 2). The exact value is computed here in fixed point with `sfP` fractional bits. -/

namespace Sys2Proof.Machine

/-- Fractional bits of the fixed-point values below. -/
def sfP : Nat := 320
/-- 1 in fixed point. -/
def sfOne : Int := 2 ^ sfP
/-- A fixed-point product. -/
def sfMul (a b : Int) : Int := a * b / sfOne

/-- ± m × 2^e in fixed point; every binary32 value is exact. -/
def sfOf (neg : Bool) (m : Nat) (e : Int) : Int :=
  let a : Nat := if 0 ≤ e + sfP then m * 2 ^ (e + sfP).toNat else m / 2 ^ (-(e + sfP)).toNat
  sgn neg a

/-- A fixed-point value as a value. -/
def sfVal (v : Int) : FVal := ofInt v (-(sfP : Int)) false

/-- The Taylor sum of exp: term k is the one before it times x / k. -/
def expTaylor (x : Int) : Nat → Nat → Int → Int → Int
  | 0, _, _, acc => acc
  | n + 1, k, term, acc =>
    let term := sfMul term x / (k : Int)
    expTaylor x n (k + 1) term (acc + term)

/-- exp of a fixed-point x with |x| < 128, by exp(x / 1024) squared ten times. -/
def sfExp (x : Int) : Int := iterate (fun v => sfMul v v) 10 (expTaylor (x / 1024) 48 1 sfOne sfOne)

/-- The fraction bits of log2 of f in [1, 2), by repeated squaring. -/
def log2Bits : Nat → Int → Int → Int → Int
  | 0, _, _, acc => acc
  | n + 1, f, bit, acc =>
    let f := sfMul f f
    if 2 * sfOne ≤ f then log2Bits n (f / 2) (bit / 2) (acc + bit) else log2Bits n f (bit / 2) acc

/-- The integer square root of v, found bit by bit from bit n − 1 down. -/
def isqrtBits (v : Nat) : Nat → Nat → Nat
  | 0, r => r
  | n + 1, r => if (r + 2 ^ n) * (r + 2 ^ n) ≤ v then isqrtBits v n (r + 2 ^ n) else isqrtBits v n r

/-- 2 / √π in fixed point. -/
def twoOverRootPi : Int := 0x120dd750429b6d11ae3a914fed7fd8688281341d7587cea2e7342b06199cc416180eb39f0b24e1e22

/-- The sum of (−1)^k x^(2k+1) / (k! (2k+1)), whose 2 / √π multiple is erf. -/
def erfSum (xx : Int) : Nat → Nat → Int → Int → Int
  | 0, _, _, acc => acc
  | n + 1, k, term, acc =>
    let term := -(sfMul term xx) / (k : Int)
    erfSum xx n (k + 1) term (acc + term / ((2 * k + 1 : Nat) : Int))

/-- The value of a special function at a finite x that R42 gives no special result, to far more places than binary32
has. -/
def specialExact (f : SpecialFn) (neg : Bool) (m : Nat) (e : Int) : FVal :=
  let x := sfOf neg m e
  match f with
  | .exp =>
    if 128 * sfOne ≤ x then .fin false 1 192
    else if x ≤ -(128 * sfOne) then .fin false 1 (-192)
    else sfVal (sfExp x)
  | .log2 =>
    let k := m.log2
    let g : Int := m * 2 ^ (sfP - k)
    sfVal (((k : Int) + e) * sfOne + log2Bits 160 g (sfOne / 2) 0)
  | .rcp => .fin neg (2 ^ 256 / m) (-256 - e)
  | .rsq =>
    let (m, e) := if e % 2 = 0 then (m, e) else (2 * m, e - 1)
    .fin false (isqrtBits (2 ^ 256 / m) 129 0) (-128 - e / 2)
  | .tanh =>
    if 64 * sfOne ≤ x then .fin false 1 0
    else if x ≤ -(64 * sfOne) then .fin true 1 0
    else
      let t := sfExp (2 * x)
      sfVal ((t - sfOne) * sfOne / (t + sfOne))
  | .erf =>
    if 8 * sfOne ≤ x then .fin false 1 0
    else if x ≤ -(8 * sfOne) then .fin true 1 0
    else sfVal (sfMul twoOverRootPi (erfSum (sfMul x x) 320 1 x x))

/-- The largest error of a special function in units of the last place (R42). -/
def specialUlps : SpecialFn → Nat
  | .exp => 2 | .log2 => 1 | .rcp => 1 | .rsq => 1 | .tanh => 2 | .erf => 2

/-- Whether a binary32 word lies within n units in the last place of an exact value. -/
def withinUlps (n : Nat) (exact : FVal) (y : W32) : Bool :=
  match exact, v32 y with
  | .fin na ma ea, .fin nb mb eb =>
    match addExact 0 nb mb eb (!na) ma ea with
    | .fin _ d ed =>
      let ulp : Int := max ((ma.log2 : Int) + ea) (-126) - 23
      let (a, b, _) := alignPair d ed n ulp
      decide (a ≤ b)
    | _ => false
  | _, _ => false

/-- The special results of R42, and a NaN's (R38): bits and flags. -/
def specialGiven (f : SpecialFn) (v : FVal) : Option (W32 × W32) :=
  let one (neg : Bool) : W32 := if neg then 0xBF800000 else 0x3F800000
  match v with
  | .nan s => some (nan32, if s then fNV else 0)
  | .inf neg =>
    match f with
    | .exp => some (if neg then 0 else w32 (infBits f32 false), 0)
    | .log2 => some (if neg then (nan32, fNV) else (w32 (infBits f32 false), 0))
    | .rcp => some (w32 (signBit f32 neg), 0)
    | .rsq => some (if neg then (nan32, fNV) else (0, 0))
    | .tanh => some (one neg, 0)
    | .erf => some (one neg, 0)
  | .fin neg m _ =>
    if m = 0 then
      match f with
      | .exp => none
      | .log2 => some (w32 (infBits f32 true), fDZ)
      | .rcp => some (w32 (infBits f32 neg), fDZ)
      | .rsq => some (w32 (infBits f32 neg), fDZ)
      | .tanh => some (w32 (signBit f32 neg), 0)
      | .erf => some (w32 (signBit f32 neg), 0)
    else if neg && (f == .log2 || f == .rsq) then some (nan32, fNV)
    else none

/-- A special function of a binary32 word, under a saturate control: bits and flags (R35, R42). A result beyond the
largest finite value follows FSW.SAT. -/
def specialEval (f : SpecialFn) (sat : Bool) (w : W32) : W32 × W32 :=
  match specialGiven f (v32 w) with
  | some r => r
  | none =>
    match v32 w with
    | .fin neg m e =>
      let exact := if m = 0 then FVal.fin false 1 0 else specialExact f neg m e
      let (b, g) := fencode f32 (rne sat) exact
      if g &&& (fOF ||| fSA) ≠ 0 then (w32 b, g &&& (fOF ||| fSA ||| fNX))
      else
        let y := Config.specialResult f w
        (if withinUlps (specialUlps f) exact y then y else w32 b, 0)
    | _ => (nan32, 0)

end Sys2Proof.Machine
end

