-- ==== Sys2Proof/Machine/Vector.lean ====
section
/-! DEFINITION. The vector unit (R132 to R134) and the emission of accumulator cells by a drain (R52 to R55). -/

namespace Sys2Proof.Machine

/-- Lane j of a row of w-bit lanes (R122). -/
def lane (w : Nat) (r : Row) (j : Nat) : Nat := r.toNat / 2 ^ (w * j) % 2 ^ w
/-- The n lanes of a row from lane k on. -/
def lanes (w : Nat) (r : Row) (k n : Nat) : List Nat := (List.range n).map (fun j => lane w r (k + j))
/-- The number that w-bit lanes spell, lane 0 lowest. -/
def packLanes (w : Nat) : List Nat → Nat
  | [] => 0
  | v :: vs => v % 2 ^ w + 2 ^ w * packLanes w vs
/-- A row with its lanes from k on replaced. -/
def putLanes (w : Nat) (r : Row) (k : Nat) (vs : List Nat) : Row :=
  let all := (List.range (512 / w)).map (fun j =>
    if k ≤ j ∧ j < k + vs.length then (vs[j - k]?).getD 0 else lane w r j)
  BitVec.ofNat 512 (packLanes w all)

/-- The lane-wise operations of R132. -/
inductive VOp
  | add | sub | mul | fma | fnma | min | max | abs | neg
  | cmp (cond : Nat)
deriving DecidableEq, Repr

/-- Whether a compare holds (R132), by the order of its operands: none where they are unordered. -/
def cmpHolds (cond : Nat) (o : Option Int) : Bool :=
  match cond, o with
  | 0, some c => c == 0
  | 1, some c => c != 0
  | 1, none => true
  | 2, some c => c < 0
  | 3, some c => c ≤ 0
  | 4, none => true
  | _, _ => false

/-- A floating-point lane (R38, R40, R132). -/
def floatLane (f : FFmt) (r : Rnd) (op : VOp) (a b d : Nat) : Nat × W32 :=
  let x := fdecode f a
  let y := fdecode f b
  let pair (p : FVal × W32) : Nat × W32 :=
    let (v, g) := fencode f r p.1
    (v, p.2 ||| g)
  match op with
  | .add => fadd f r x y
  | .sub => fadd f r x (fnegV y)
  | .mul => fmul f r x y
  | .fma => ffma f r x y (fdecode f d)
  | .fnma => ffma f r (fnegV x) y (fdecode f d)
  | .min => pair (fminmax false x y)
  | .max => pair (fminmax true x y)
  | .abs => fencode f r (if fneg? x then fnegV x else x)
  | .neg => fencode f r (fnegV x)
  | .cmp c =>
    let o := if isNan x || isNan y then none else some (fcmp x y)
    (if cmpHolds c o then 2 ^ (1 + f.eb + f.fb) - 1 else 0, snanFlag [x, y])

/-- An integer result of w bits: it wraps, or saturates and sets SA (R132). -/
def intFit (w : Nat) (sat : Bool) (i : Int) : Nat × W32 :=
  let top : Int := 2 ^ (w - 1) - 1
  let put (i : Int) : Nat := (i % 2 ^ w).toNat
  if sat && i > top then (put top, fSA)
  else if sat && i < -top - 1 then (put (-top - 1), fSA)
  else (put i, 0)

/-- An integer lane (R132). -/
def intLane (w : Nat) (sat : Bool) (op : VOp) (a b : Nat) : Nat × W32 :=
  let x := (BitVec.ofNat w a).toInt
  let y := (BitVec.ofNat w b).toInt
  match op with
  | .add => intFit w sat (x + y)
  | .sub => intFit w sat (x - y)
  | .mul => intFit w sat (x * y)
  | .min => (if x ≤ y then a else b, 0)
  | .max => (if x ≤ y then b else a, 0)
  | .abs => intFit w sat (x.natAbs : Int)
  | .neg => intFit w sat (-x)
  | .cmp c => (if cmpHolds c (some (x - y)) then 2 ^ w - 1 else 0, 0)
  | .fma => (a, 0)
  | .fnma => (a, 0)

/-- A lane of a plain format. -/
def laneEval (fmt : Nat) (r : Rnd) (op : VOp) (a b d : Nat) : Nat × W32 :=
  match fmtFloat fmt with
  | some f => floatLane f r op a b d
  | none => intLane (fmtBits fmt) r.sat op a b

/-- The flags of a list of results together. -/
def flagsOf (l : List (Nat × W32)) : W32 := (l.map (·.2)).foldl (· ||| ·) 0

/-- Every lane of a row. -/
def rowEval (fmt : Nat) (r : Rnd) (op : VOp) (a b d : Row) : Row × W32 :=
  let w := fmtBits fmt
  let l := (List.range (fmtLanes fmt)).map (fun j => laneEval fmt r op (lane w a j) (lane w b j) (lane w d j))
  (BitVec.ofNat 512 (packLanes w (l.map (·.1))), flagsOf l)

/-- The drain summary's flags of one cell and what it emits in a plain format (R55), in the places of FSW: NAN in NV,
INF in OF, SAT in SA, UF in UF, and NX. -/
def emitFlags (code : Nat) (cell : FVal) (bits : Nat) (g : W32) : W32 :=
  let out := plainVal code bits
  let isInf (v : FVal) : Bool := match v with | .inf _ => true | _ => false
  (if isNan cell || isNan out then fNV else 0) ||| (if isInf cell || isInf out then fOF else 0)
    ||| (g &&& (fSA ||| fUF ||| fNX))

/-- A cell emitted in a plain format (R52): the exact S + E rounded once under RNE. -/
def emitPlain (code : Nat) (sat : Bool) (c : W32 × W32) : Nat × W32 :=
  let v := cellVal c.1 c.2
  let (b, g) := plainEncode code (rne sat) v
  (b, emitFlags code v b g)

/-- 32 cells emitted as an MX block (R54): element bits, scale byte and summary flags. -/
def emitBlock (code : Nat) (sat : Bool) (free : Nat → Nat) (cs : List (W32 × W32)) : List Nat × Nat × W32 :=
  let vs := cs.map (fun c => cellVal c.1 c.2)
  let (els, x, g) := mxBlock code sat free vs
  let inf := vs.any (fun v => match v with | .inf _ => true | _ => false)
  (els, x, (if x = 255 then fNV else 0) ||| (if inf then fOF else 0) ||| (g &&& (fOF ||| fSA ||| fUF ||| fNX)))

/-- A cell emitted as a full-width pair (R53): its 8 bytes and summary flags. -/
def emitPair (sat : Bool) (c : W32 × W32) : Nat × W32 :=
  let (s, e, g) := renorm sat c.1 c.2
  let isInf : Bool := match v32 s with | .inf _ => true | _ => false
  (s.toNat + 2 ^ 32 * e.toNat, (if isNan (v32 s) then fNV else 0) ||| (if isInf then fOF else 0) ||| (g &&& (fSA ||| fNX)))

/-- The row number of form R (R121). -/
def vRow (x : Hand) (o : BitVec 22) : Nat := if rXr o then (fld x.x0.toNat 4 0 + rRow o) % 32 else rRow o

/-- What a V glyph reads and writes: tiles with their first row and number of rows. -/
structure VUse where
  reads : List (Nat × Nat × Nat)
  dest : Option (Nat × Nat) := none
deriving DecidableEq, Repr

/-- The row that a V glyph gets for row r of tile t (R246): the oldest row of a bound in-endpoint, with the tile's own
scale word, since scale words are not carried (log 22). -/
def vRead (b : Bead) (t r k : Nat) : TileRow :=
  match boundIn b t with
  | some v => { data := ((vinRows b v)[k]?).getD 0, scale := (tileRow b t (r + k)).scale }
  | none => tileRow b t (r + k)

/-- The checks of a V glyph's tiles (R122, R123, R246, R249): held for an endpoint first, then QCLOSED, then TILE. -/
def vCheck (e : Env) (u : VUse) (shapeOk : Bool) : Ev Unit :=
  let b := envBead e
  let pl := envPl e
  let waits := u.reads.any (fun p => match boundIn b p.1 with
    | some v => (vinRows b v).length < p.2.2
    | none => false)
  let badRead := u.reads.filter (fun p => !mayReadTile b e.h pl p.1
    || ((boundIn b p.1).isNone && p.2.1 + p.2.2 > tileRows b p.1))
  let badDest := u.dest.toList.filter (fun p => !mayWriteTile b e.h pl p.1 || p.2 ≥ tileRows b p.1)
  let named := u.reads.map (·.1) ++ u.dest.toList.map (·.1)
  if waits then .error .held
  else do
    match u.dest with
    | some p => checkOut b p.1
    | none => .ok ()
    match badRead.map (·.1) ++ badDest.map (·.1) with
    | t :: ts => raiseTiles t ts
    | [] =>
      if shapeOk then .ok ()
      else match named with
        | t :: ts => raiseTiles t ts
        | [] => .ok ()

/-- The rows that a glyph takes from bound in-endpoints, one for each tile it reads, or four where it reads four
(R246; log 22). -/
def vTakes (b : Bead) (reads : List (Nat × Nat × Nat)) : List (Nat × Nat) :=
  (List.range 8).filterMap (fun t =>
    match boundIn b t, (reads.filter (fun p => p.1 == t)).map (·.2.2) with
    | some v, n :: ns => some (v, ns.foldl Nat.max n)
    | _, _ => none)

/-- The uses of a lane-wise glyph: TA, TB where it has one, TD as the third read where it is read. -/
def useOf (e : Env) (o : BitVec 22) (tb third : Bool) : VUse :=
  let r := vRow e.x o
  { reads := [(rTa o, r, 1)] ++ (if tb then [(rTb o, if rBr o then 0 else r, 1)] else [])
      ++ (if third then [(rTd o, r, 1)] else [])
    dest := some (rTd o, r) }

/-- The writes of a V glyph: the row of TD, the flags, and the rows it takes from bound in-endpoints. -/
def vWrites (e : Env) (c : Instr) (o : BitVec 22) (data : Row) (scale : W32) (g : W32) : Ev Out :=
  writes [.row (rTd o) (vRow e.x o) data scale, .fswOr g, actOf e c]

/-- The stored scale word of TD's row. -/
def tdScale (e : Env) (o : BitVec 22) : W32 := (tileRow (envBead e) (rTd o) (vRow e.x o)).scale

/-- The lane-wise glyphs of R132: TA, TB and TD in one plain format, a float format where they must be. -/
def evalLanes (e : Env) (c : Instr) (o : BitVec 22) (op : VOp) (tb third floatOnly : Bool) : Ev Out := do
  let b := envBead e
  let r := vRow e.x o
  let f := tileFmt b (rTd o)
  let ok := !fmtMx f && tileFmt b (rTa o) == f && (!tb || tileFmt b (rTb o) == f) && !(floatOnly && fmtInt f)
  vCheck e (useOf e o tb third) ok
  let x := (vRead b (rTa o) r 0).data
  let y := (vRead b (rTb o) (if rBr o then 0 else r) 0).data
  let (v, g) := rowEval f (rndOf e.x.fsw) op x y (vRead b (rTd o) r 0).data
  vWrites e c o v (tdScale e o) g

/-- The bitwise glyphs of R132. -/
def evalBits (e : Env) (c : Instr) (o : BitVec 22) (third : Bool) (f : Row → Row → Row → Row) : Ev Out := do
  let b := envBead e
  let r := vRow e.x o
  let k := tileFmt b (rTd o)
  vCheck e (useOf e o true third) (!fmtMx k && tileFmt b (rTa o) == k && tileFmt b (rTb o) == k)
  let x := (vRead b (rTa o) r 0).data
  let y := (vRead b (rTb o) (if rBr o then 0 else r) 0).data
  vWrites e c o (f x y (vRead b (rTd o) r 0).data) (tdScale e o) 0

/-- VMOV (R132): the row with its scale word. -/
def evalVmov (e : Env) (c : Instr) (o : BitVec 22) : Ev Out := do
  let b := envBead e
  vCheck e (useOf e o false false) (tileFmt b (rTa o) == tileFmt b (rTd o))
  let v := vRead b (rTa o) (vRow e.x o) 0
  vWrites e c o v.data v.scale 0

/-- The value of element j of a row in any format (R39). -/
def elemVal (fmt : Nat) (r : TileRow) (j : Nat) : FVal :=
  let bits := lane (fmtBits fmt) r.data j
  if fmtMx fmt then mxVal fmt bits (fld r.scale.toNat (8 * (j / 32) + 7) (8 * (j / 32))) else plainVal fmt bits

/-- Byte k of a scale word replaced. -/
def putScale (w : W32) (k v : Nat) : W32 := merge32 w (BitVec.ofNat 32 (0xFF * 2 ^ (8 * k))) (BitVec.ofNat 32 (v * 2 ^ (8 * k)))

/-- The free element bits a line may use (log 1). -/
def freeElem (e : Env) (k : Nat) : Nat := (Config.freeValue (e.s.freeCtr + k)).toNat

/-- VCVT (R133). With a binary32 source and an MX destination SP names the row's one part, 0 (log 23). -/
def evalVcvt (e : Env) (c : Instr) (o : BitVec 22) : Ev Out := do
  let b := envBead e
  let fa := tileFmt b (rTa o)
  let fd := tileFmt b (rTd o)
  let two := fa == 0 && fmtMx fd
  let n := if fmtMx fd then 32 else min (fmtLanes fa) (fmtLanes fd)
  let parts := if two then 1 else fmtLanes fa / n
  if rSp o ≥ parts || rDp o ≥ fmtLanes fd / n || (!two && (rTb o != 0 || rBr o)) then raise 0x01 e.pc
  else do
    vCheck e (useOf e o two true) (!two || tileFmt b (rTb o) == 0)
    let r := vRow e.x o
    let x := vRead b (rTa o) r 0
    let y := vRead b (rTb o) (if rBr o then 0 else r) 0
    let old := (vRead b (rTd o) r 0).data
    let w := fmtBits fd
    let vs := if two then (List.range 16).map (elemVal 0 x) ++ (List.range 16).map (elemVal 0 y)
      else (List.range n).map (fun j => elemVal fa x (rSp o * n + j))
    let rd := rndOf e.x.fsw
    if fmtMx fd then
      let (els, sc, g) := mxBlock fd rd.sat (freeElem e) vs
      vWrites e c o (putLanes w old (rDp o * 32) els) (putScale (tdScale e o) (rDp o) sc) g
    else
      let l := vs.map (plainEncode fd rd)
      vWrites e c o (putLanes w old (rDp o * n) (l.map (·.1))) (tdScale e o) (flagsOf l)

/-- Pair p of a row of pairs (R58). -/
def pairOf (r : Row) (p : Nat) : W32 × W32 := (w32 (lane 32 r (2 * p)), w32 (lane 32 r (2 * p + 1)))

/-- VCADD (R58). -/
def evalVcadd (e : Env) (c : Instr) (o : BitVec 22) : Ev Out := do
  let b := envBead e
  let r := vRow e.x o
  vCheck e (useOf e o true false) (tileFmt b (rTa o) == 0 && tileFmt b (rTb o) == 0 && tileFmt b (rTd o) == 0)
  let x := (vRead b (rTa o) r 0).data
  let y := (vRead b (rTb o) (if rBr o then 0 else r) 0).data
  let l := (List.range 8).map (fun p => pairAdd (pairOf x p).1 (pairOf x p).2 (pairOf y p).1 (pairOf y p).2)
  vWrites e c o (BitVec.ofNat 512 (packLanes 32 (l.flatMap (fun p => [p.1.toNat, p.2.1.toNat])))) (tdScale e o)
    ((l.map (·.2.2)).foldl (· ||| ·) 0)

/-- What VCRND uses: rows i to i + 3 of TA for an MX destination (R134). -/
def crndUse (b : Bead) (x : Hand) (o : BitVec 22) : VUse :=
  let r := vRow x o
  ⟨[(rTa o, r, if fmtMx (tileFmt b (rTd o)) then 4 else 1), (rTd o, r, 1)], some (rTd o, r)⟩

/-- VCRND (R134). Every format that a tile may have is accepted for TD, since none is the pair format (log 24). -/
def evalVcrnd (e : Env) (c : Instr) (o : BitVec 22) : Ev Out := do
  let b := envBead e
  let r := vRow e.x o
  let fd := tileFmt b (rTd o)
  let parts := if fmtMx fd then fmtBlocks fd else fmtLanes fd / 8
  if rDp o ≥ parts then raise 0x01 e.pc
  else do
    vCheck e (crndUse b e.x o) (tileFmt b (rTa o) == 0)
    let old := (vRead b (rTd o) r 0).data
    let w := fmtBits fd
    let sat := (rndOf e.x.fsw).sat
    if fmtMx fd then
      let cs := (List.range 32).map (fun k => pairOf (vRead b (rTa o) r (k / 8)).data (k % 8))
      let (els, sc, g) := emitBlock fd sat (freeElem e) cs
      vWrites e c o (putLanes w old (rDp o * 32) els) (putScale (tdScale e o) (rDp o) sc) g
    else
      let l := (List.range 8).map (fun p => emitPlain fd sat (pairOf (vRead b (rTa o) r 0).data p))
      vWrites e c o (putLanes w old (rDp o * 8) (l.map (·.1))) (tdScale e o) (flagsOf l)

/-- One round of VRSUM's pairwise sums. -/
def sumPairs (r : Rnd) : List (Nat × W32) → List (Nat × W32)
  | a :: b :: l =>
    let (v, g) := fadd f32 r (fdecode f32 a.1) (fdecode f32 b.1)
    (v, a.2 ||| b.2 ||| g) :: sumPairs r l
  | l => l

/-- VRSUM (R132). -/
def evalVrsum (e : Env) (c : Instr) (o : BitVec 22) : Ev Out := do
  let b := envBead e
  let r := vRow e.x o
  vCheck e ⟨[(rTa o, r, 1)], none⟩ (tileFmt b (rTa o) == 0)
  let l := (lanes 32 (vRead b (rTa o) r 0).data 0 16).map (fun v => (v, (0 : W32)))
  let s := iterate (sumPairs (rndOf e.x.fsw)) 4 l
  writes [.acc (BitVec.ofNat 64 (s.headD (0, 0)).1), .fswOr (s.headD (0, 0)).2, actOf e c]

/-- Whether a glyph may move single lanes of a format: not MXFP4 or MXINT4 (R132). -/
def laneable (f : Nat) : Bool := f ≤ 9

/-- VGETL (R132). -/
def evalVgetl (e : Env) (c : Instr) (o : BitVec 22) : Ev Out := do
  let b := envBead e
  let r := vRow e.x o
  let f := tileFmt b (rTa o)
  vCheck e ⟨[(rTa o, r, 1)], none⟩ (laneable f)
  writes [.acc (BitVec.ofNat 64 (lane (fmtBits f) (vRead b (rTa o) r 0).data (e.x.x1.toNat % fmtLanes f))), actOf e c]

/-- VPUTL (R132). -/
def evalVputl (e : Env) (c : Instr) (o : BitVec 22) : Ev Out := do
  let b := envBead e
  let r := vRow e.x o
  let f := tileFmt b (rTd o)
  vCheck e ⟨[(rTd o, r, 1)], some (rTd o, r)⟩ (laneable f)
  vWrites e c o (putLanes (fmtBits f) (vRead b (rTd o) r 0).data (e.x.x1.toNat % fmtLanes f) [e.x.acc.toNat % 2 ^ fmtBits f])
    (tdScale e o) 0

/-- VBCAST (R132). -/
def evalVbcast (e : Env) (c : Instr) (o : BitVec 22) : Ev Out := do
  let b := envBead e
  let f := tileFmt b (rTd o)
  vCheck e ⟨[], some (rTd o, vRow e.x o)⟩ (laneable f)
  vWrites e c o (putLanes (fmtBits f) 0 0 (List.replicate (fmtLanes f) (e.x.acc.toNat % 2 ^ fmtBits f))) (tdScale e o) 0

/-- The special functions (R42, R132). -/
def evalSpecial (e : Env) (c : Instr) (o : BitVec 22) (f : SpecialFn) : Ev Out := do
  let b := envBead e
  vCheck e (useOf e o false false) (tileFmt b (rTa o) == 0 && tileFmt b (rTd o) == 0)
  let l := (lanes 32 (vRead b (rTa o) (vRow e.x o) 0).data 0 16).map (fun v => specialEval f (rndOf e.x.fsw).sat (w32 v))
  vWrites e c o (BitVec.ofNat 512 (packLanes 32 (l.map (·.1.toNat)))) (tdScale e o) ((l.map (·.2)).foldl (· ||| ·) 0)

/-- The rows of bound in-endpoints that a V glyph takes (R246). -/
def takeRows (s : State) (i : Nat) (reads : List (Nat × Nat × Nat)) : State :=
  (vTakes (getBead s i) reads).foldl (fun s p => iterate (fun s => takeVin s i p.1) p.2 s) s

end Sys2Proof.Machine
end

