-- ==== Sys2Proof/Machine/Nib.lean ====
section
/-! DEFINITION. The nib (R44 to R55, R135 to R140) and the tile glyphs TZERO and TCFG. An NMAC's additions are made when
it issues (log 26); a drain's rows are captured then and written by NIB_DRAIN. -/

namespace Sys2Proof.Machine

/-- A number as a group. -/
def grp (n : Nat) : Fin 4 := ⟨n % 4, Nat.mod_lt _ (by decide)⟩

/-- Whether a hand may name a group at its level (R73). -/
def nibGranted (e : Env) (g : Nat) : Bool := envPl e ≥ 1 || (envBead e).regs.nibGrant.getLsbD (4 * g + e.h)

/-- The descriptor of a group (R135). -/
def nibDesc (b : Bead) (g : Nat) : W64 := mapGet (fun _ => 0) b.regs.ngd g
/-- The condition of a group. -/
def nibGroup (b : Bead) (g : Nat) : Group := mapGet (fun _ => {}) b.nibGroups g
/-- Cell (r, n) of a group (R136). -/
def nibCell (b : Bead) (g r n : Nat) : Cell := mapGet (fun _ => {}) b.nibCells (1024 * g + 32 * r + n)

/-- The reserved bits of BEAD_NGD_g (R135). -/
def ngdReserved : W64 := 0x8000FC0080008100

/-- NSET (R135). -/
def evalNset (e : Env) (o : BitVec 22) (c : Instr) : Ev Out :=
  if e.x.acc &&& ngdReserved ≠ 0 then raise 0x01 e.pc
  else if !nibGranted e (opdField o) then raise 0x02 e.pc
  else writes [actOf e c]

/-- NSET performed. -/
def actNset (s : State) (i : Nat) (o : BitVec 22) (acc : W64) : State :=
  modBead s i (fun b => { b with regs := { b.regs with ngd := mapPut b.regs.ngd (opdField o) acc } })

/-- NGET (R135). -/
def evalNget (e : Env) (o : BitVec 22) : Ev Out :=
  if !nibGranted e (opdField o) then raise 0x02 e.pc else writes [.acc (nibDesc (envBead e) (opdField o))]

/-- TZERO (R123, R132). -/
def evalTzero (e : Env) (o : BitVec 22) (c : Instr) : Ev Out :=
  let t := opdField o
  if !mayWriteTile (envBead e) e.h (envPl e) t then raiseTile t else writes [actOf e c]

/-- TCFG (R123, R124): held until every tile operation in flight that names the tile has completed. -/
def evalTcfg (e : Env) (o : BitVec 22) (c : Instr) : Ev Out :=
  let t := opdField o
  let v : W32 := e.x.acc.truncate 32 &&& 0xFFFF
  if !tileQuiet (envBead e) t then .error .held
  else if !shapeOk v || v &&& 0xF0E0 ≠ 0 then raise 0x01 e.pc
  else if !mayWriteTile (envBead e) e.h (envPl e) t then raiseTile t
  else writes [actOf e c]

/-- TZERO and TCFG performed. -/
def actTcfg (s : State) (i : Nat) (o : BitVec 22) (acc : W64) : State :=
  modBead s i (fun b => reshape b (opdField o) (acc.truncate 32 &&& 0xFFFF))
@[inherit_doc actTcfg] def actTzero (s : State) (i : Nat) (o : BitVec 22) : State :=
  modBead s i (fun b => zeroTile b (opdField o))

/-- Whether another hand's open line has a nib operation that has not taken effect, which later ones wait for (R51). -/
def nibWaits (e : Env) : Bool :=
  (List.range 4).any (fun k => match (handOf (envBead e) k).openLine with
    | some l => l.effs.any (fun f => match f with | .nib .. => true | _ => false)
    | none => false)

/-- Whether a drain's format code is one that R135 accepts. -/
def ofmtOk (d : W64) : Bool := ngOfmt d ≤ 0xB || ngOfmt d == 0xF

/-- The first address of a drain's destination that R70 refuses (R138): its rows, then its scale bytes. -/
def drainRefused (e : Env) (d : W64) : Option Nat :=
  let n := drainRowBytes (ngOfmt d)
  let ok (a n : Nat) : Bool := a + n ≤ 0x200000 && localOk (envBead e) e.x (envPl e) a n
  let rows := ((List.range (ngRows d)).map (fun r => (ngBase d + r * ngPitch d, n)))
    ++ (match drainScales d with | some p => (List.range (p.2 - p.1)).map (fun k => (p.1 + k, 1)) | none => [])
  (rows.find? (fun p => !ok p.1 p.2)).map (·.1)

/-- What a drain emits from cells (R52 to R55, R138): row bytes, scale bytes and summary. -/
def drainRows (free : Nat → Nat) (d : W64) (cell : Nat → Nat → W32 × W32) : List (List W8) × List W8 × W32 :=
  let code := ngOfmt d
  let row (r : Nat) : List W8 × W8 × W32 :=
    let cs := (List.range 32).map (cell r)
    if code = 0xF then
      let l := cs.map (emitPair (ngSat d))
      (toBytes 256 (packLanes 64 (l.map (·.1))), 0, flagsOf l)
    else if fmtMx code then
      let (els, x, g) := emitBlock code (ngSat d) (fun k => free (32 * r + k)) cs
      (toBytes (drainRowBytes code) (packLanes (fmtBits code) els), BitVec.ofNat 8 x, g)
    else
      let l := cs.map (emitPlain code (ngSat d))
      (toBytes (drainRowBytes code) (packLanes (fmtBits code) (l.map (·.1))), 0, flagsOf l)
  let rs := (List.range (ngRows d)).map row
  (rs.map (·.1), if fmtMx code then rs.map (·.2.1) else [], (rs.map (·.2.2)).foldl (· ||| ·) 0)

/-- The drain that a glyph issues, from the cells as its additions leave them. -/
def drainOf (e : Env) (g : Nat) (d : W64) (cell : Nat → Nat → W32 × W32) : NibDrain :=
  let (rows, scales, flags) := drainRows (freeElem e) d cell
  ⟨grp g, grp e.h, d, rows, scales, flags⟩

/-- NOPEN (R50). -/
def evalNopen (e : Env) (o : BitVec 22) : Ev Out :=
  let g := opdField o
  if nibWaits e then .error .held
  else if !nibGranted e g then raise 0x02 e.pc
  else writes [.nib (grp g) (some []) ⟨true, false⟩ none none]

/-- NDRN (R50, R138, R140): ACCSTATE on a group lost to a parity error. -/
def evalNdrn (e : Env) (o : BitVec 22) : Ev Out :=
  let b := envBead e
  let g := opdField o
  let d := nibDesc b g
  if nibWaits e || heldEntries b ≥ 8 then .error .held
  else if !ofmtOk d then raise 0x01 e.pc
  else if !nibGranted e g then raise 0x02 e.pc
  else match drainRefused e d with
    | some a => raise 0x05 (BitVec.ofNat 32 a)
    | none =>
      if (nibGroup b g).perr then raise 0x08 (BitVec.ofNat 32 g)
      else
        let cell (r n : Nat) : W32 × W32 := ((nibCell b g r n).s, (nibCell b g r n).e)
        writes [.nib (grp g) none ⟨false, false⟩ (some (drainOf e g d cell)) none]

/-- Fields of form G (R121). -/
def gTile (o : BitVec 22) : Nat := fld o.toNat 21 19
@[inherit_doc gTile] def gGroup (o : BitVec 22) : Nat := fld o.toNat 18 17
@[inherit_doc gTile] def gAcu (o : BitVec 22) : Bool := o.getLsbD 16
@[inherit_doc gTile] def gDrn (o : BitVec 22) : Bool := o.getLsbD 15
@[inherit_doc gTile] def gTw (o : BitVec 22) : Bool := o.getLsbD 14

/-- K: 512 over the wider of the activation and weight widths (R136). -/
def nmacK (fa fw : Nat) : Nat := 512 / max (fmtBits fa) (fmtBits fw)

/-- The ranges an NMAC reads: eight weight pieces, then the MX weight scales (R136). -/
def nmacRanges (fa fw : Nat) (x0 x1 : W32) : List (Nat × Nat) :=
  let k := nmacK fa fw
  (List.range 8).map (fun j => (x0.toNat + j * 0x10000, k * 32 * fmtBits fw / 8 / 8))
    ++ (if fmtMx fw then (List.range k).map (fun j => ((x1.toNat + j) % 2 ^ 32, 1)) else [])

/-- The first failing address of an NMAC's reads (R136): where a piece fails R70 or leaves its bank, the address at which
the piece starts (log 161). -/
def nmacRefused (e : Env) (fa fw : Nat) : Option Nat :=
  let x0 := e.x.x0.toNat
  let piece := nmacK fa fw * 32 * fmtBits fw / 64
  if x0 % 64 ≠ 0 ∨ x0 / 0x10000 > 24 ∨ x0 % 0x10000 + piece > 0x10000 then some x0
  else ((nmacRanges fa fw e.x.x0 e.x.x1).find? (fun p =>
    p.1 + p.2 > 0x200000 || !localOk (envBead e) e.x (envPl e) p.1 p.2)).map (·.1)

/-- The exact sum of products (R44, R45, R47). -/
def productSum (l : List (FVal × FVal)) : FVal :=
  l.foldl (fun acc p => (faddV 0 acc (fmulV p.1 p.2).1).1) (.fin false 0 0)

/-- One cell after the product groups of an NMAC, in ascending k (R45, R46, R48). -/
def cellProducts (c : Cell) (groups : List FVal) : Cell :=
  groups.foldl (fun c b =>
    let (h, l) := addendPair b
    let (s, e) := cellAdd c.s c.e h l
    ⟨s, e⟩) c

/-- The weights of an NMAC, by output and reduction index (R136). -/
def nmacWeight (pieces : List Nat) (scales : List W8) (fw k : Nat) (tw : Bool) (n j : Nat) : FVal :=
  let w := fmtBits fw
  let bits := if tw then (pieces[j % 8]?).getD 0 / 2 ^ (j / 8 * 32 * w + n * w) % 2 ^ w
    else (pieces[n / 4]?).getD 0 / 2 ^ ((n % 4 * k + j) * w) % 2 ^ w
  if fmtMx fw then mxVal fw bits ((scales[n * (k / 32) + j / 32]?).getD 0).toNat else plainVal fw bits

/-- The cells of a group after an NMAC, from the cells it starts with (R136): rows below the tile's row count. -/
def nmacCells (e : Env) (g fa fw : Nat) (o : BitVec 22) (old : Nat → Nat → Cell) : SMap Cell :=
  let b := envBead e
  let k := nmacK fa fw
  let rs := nmacRanges fa fw e.x.x0 e.x.x1
  let pieces := (rs.take 8).map (fun p => loadNat e.s (folioBase e.i + p.1) p.2)
  let scales := (rs.drop 8).flatMap (fun p => loadBytes e.s (folioBase e.i + p.1) 1)
  (List.range 32).flatMap (fun r =>
    let row := tileRow b (gTile o) r
    let adds := r < tileRows b (gTile o)
    let act := (List.range k).map (elemVal fa row)
    (List.range 32).map (fun n =>
      let groups := (List.range (k / 32)).map (fun q =>
        productSum ((List.range 32).map (fun j =>
          ((act[32 * q + j]?).getD (.fin false 0 0), nmacWeight pieces scales fw k (gTw o) n (32 * q + j)))))
      (1024 * g + 32 * r + n, if adds then cellProducts (old r n) groups else old r n)))

/-- The cells of a group lost to a parity error (R140): their contents are undefined, so each holds a free value. -/
def lostCells (e : Env) (g : Nat) : SMap Cell :=
  (List.range 1024).map (fun k =>
    let v := Config.freeValue (e.s.freeCtr + k)
    (1024 * g + k, ⟨v.truncate 32, (v >>> 32).truncate 32⟩))

/-- The parity error that an NMAC meets (R140), as the failing local address: of a weight piece or scale byte; an
activation row, which lies in the tile file, has none, and the address is a free value (log 62). -/
def nmacParity (e : Env) (t : Nat) (rs : List (Nat × Nat)) : Option W32 :=
  let b := envBead e
  if (List.range (tileRows b t)).any (fun r => b.rowBad.contains (32 * t + r)) then
    some ((Config.freeValue (e.s.freeCtr + 1024)).truncate 32)
  else (rs.findSome? (fun p => parityFind e.s.parity (folioBase e.i + p.1) p.2)).map
    (fun w => BitVec.ofNat 32 (w - folioBase e.i))

/-- NMAC (R136 to R140). The format of its tile is checked before its addresses; ACCSTATE comes before another TILE
(log 21). -/
def evalNmac (e : Env) (o : BitVec 22) : Ev Out :=
  let b := envBead e
  let g := gGroup o
  let t := gTile o
  let d := nibDesc b g
  let fa := tileFmt b t
  let fw := ngWfmt d
  let drain := gDrn o
  let cond := nibGroup b g
  if nibWaits e || (drain && heldEntries b ≥ 8) then .error .held
  else if fa != 0 && (nmacRanges fa fw e.x.x0 e.x.x1).any (fun p => rangeHeld b p.1 p.2) then .error .held
  else if fw = 0 ∨ fw > 0xB ∨ (gTw o ∧ fmtMx fw) ∨ (drain ∧ !ofmtOk d) then raise 0x01 e.pc
  else if !nibGranted e g then raise 0x02 e.pc
  else if fa = 0 then raiseTile t
  else match (nmacRefused e fa fw).orElse (fun _ => if drain then drainRefused e d else none) with
    | some a => raise 0x05 (BitVec.ofNat 32 a)
    | none =>
      if gAcu o && !cond.isOpen then raise 0x08 (BitVec.ofNat 32 g)
      else if !mayReadTile b e.h (envPl e) t || (boundIn b t).isSome || (boundOut b t).isSome then raiseTile t
      else match nmacParity e t (nmacRanges fa fw e.x.x0 e.x.x1) with
        | some a => writes [.nib (grp g) (some (lostCells e g)) ⟨false, true⟩ none (some a)]
        | none =>
          let old (r n : Nat) : Cell := if gAcu o then nibCell b g r n else {}
          let cells := nmacCells e g fa fw o old
          let cell (r n : Nat) : W32 × W32 :=
            let c := mapGet (fun _ => ({} : Cell)) cells (1024 * g + 32 * r + n)
            (c.s, c.e)
          writes [.nib (grp g) (some cells) ⟨!drain, false⟩ (if drain then some (drainOf e g d cell) else none) none]

/-- A nib operation's group effect: cells, condition and drain (R50). -/
def putNib (b : Bead) (g : Fin 4) (cells : Option (SMap Cell)) (cond : Group) (drain : Option NibDrain) : Bead :=
  { b with
    nibCells := match cells with
      | some l => l.foldl (fun m p => mapPut m p.1 p.2) (mapDropWhere b.nibCells (fun k => k / 1024 == g.val))
      | none => b.nibCells
    nibGroups := mapPut b.nibGroups g.val cond
    nibDrains := b.nibDrains ++ drain.toList }

/-- NIB_DRAIN (R138): the oldest drain's rows and scale bytes are written, the summary reaches the FSW of the hand that
issued it, and its range is released. -/
def drainLands (s : State) (i : Nat) : State :=
  match (getBead s i).nibDrains with
  | [] => s
  | d :: ds =>
    let s := modBead s i (fun b => { b with nibDrains := ds })
    let base := folioBase i
    let s := (d.rows.zipIdx).foldl (fun s p => storeBytes s (base + ngBase d.desc + p.2 * ngPitch d.desc) p.1) s
    let s := (d.scales.zipIdx).foldl (fun s p => storeBytes s (base + ngScaleBase d.desc + p.2) [p.1]) s
    modHand s i d.hand.val (fun x => { x with fsw := x.fsw ||| d.summary })

end Sys2Proof.Machine
end

