-- ==== Sys2Proof/Machine/Line.lean ====
section
/-! DEFINITION. A line (R60 to R62, R76 to R79, R94 to R98, R115 to R119): what each glyph evaluates to, what its further
effects do, when a line is held, withdrawn or faults, and how it completes. A glyph command hands the next glyph of its
hand's line to the bead; the glyph with the STOP bit, or the sixth, issues the line. -/

namespace Sys2Proof.Machine

/-- What VCVT reads: TB as well for a binary32 source and an MX destination, and TD (R125, R133). -/
def cvtUse (e : Env) (o : BitVec 22) : VUse :=
  useOf e o (tileFmt (envBead e) (rTa o) == 0 && fmtMx (tileFmt (envBead e) (rTd o))) true

/-- A glyph evaluated in the state its line found (R95). -/
def evalGlyph (e : Env) (c : Instr) : Ev Out :=
  match c with
  | .xld _ _ x o => evalXld e c x o
  | .xst _ _ x o => evalSt e c o (toBytes 4 (xOf e.x x).toNat)
  | .xaddi _ _ x o => writes [.xr x (xOf e.x x + imm32 o)]
  | .xlea _ _ x o => writes [.xr x (localEa e.x o)]
  | .xmuli _ _ x o => writes [.xr x (xOf e.x x * imm32 o)]
  | .xacc _ _ x _ => writes [.xr x (e.x.acc.truncate 32)]
  | .xandi _ _ x o => writes [.xr x (xOf e.x x &&& imm32 o)]
  | .fpaddi _ _ o => writes [.fp (e.x.fp + imm32 o)]
  | .fpld _ _ o => evalFpld e c o
  | .fpst _ _ o => evalSt e c o (toBytes 4 e.x.fp.toNat)
  | .fpacc _ _ _ => writes [.fp (e.x.acc.truncate 32)]
  | .fplea _ _ o => writes [.fp (localEa e.x o)]
  | .blcln _ _ o => evalMaint e c o
  | .blinv _ _ o => evalMaint e c o
  | .blci _ _ o => evalMaint e c o
  | .blswClean _ _ _ => evalBlsw e c 0
  | .blswInvalidate _ _ _ => evalBlsw e c 1
  | .blswCleanInvalidate _ _ _ => evalBlsw e c 2
  | .blswAll _ _ _ => evalBlsw e c 3
  | .pref _ _ _ => writes [actOf e c]
  | .ld _ _ o => evalLd e c o 8 false
  | .ldw _ _ o => evalLd e c o 4 true
  | .ldwu _ _ o => evalLd e c o 4 false
  | .ldh _ _ o => evalLd e c o 2 true
  | .ldhu _ _ o => evalLd e c o 2 false
  | .ldb _ _ o => evalLd e c o 1 true
  | .ldbu _ _ o => evalLd e c o 1 false
  | .st _ _ o => evalSt e c o (toBytes 8 e.x.acc.toNat)
  | .stw _ _ o => evalSt e c o (toBytes 4 e.x.acc.toNat)
  | .sth _ _ o => evalSt e c o (toBytes 2 e.x.acc.toNat)
  | .stb _ _ o => evalSt e c o (toBytes 1 e.x.acc.toNat)
  | .add _ _ o => evalAlu e c .add o
  | .sub _ _ o => evalAlu e c .sub o
  | .mul _ _ o => evalAlu e c .mul o
  | .mulhs _ _ o => evalAlu e c .mulhs o
  | .mulhu _ _ o => evalAlu e c .mulhu o
  | .div _ _ o => evalAlu e c .div o
  | .divu _ _ o => evalAlu e c .divu o
  | .rem _ _ o => evalAlu e c .rem o
  | .remu _ _ o => evalAlu e c .remu o
  | .and_ _ _ o => evalAlu e c .and o
  | .or_ _ _ o => evalAlu e c .or o
  | .xor_ _ _ o => evalAlu e c .xor o
  | .shl _ _ o => evalAlu e c .shl o
  | .shr _ _ o => evalAlu e c .shr o
  | .sar _ _ o => evalAlu e c .sar o
  | .cmp _ _ o => evalAlu e c .cmp o
  | .tst _ _ o => evalAlu e c .tst o
  | .min _ _ o => evalAlu e c .min o
  | .max _ _ o => evalAlu e c .max o
  | .minu _ _ o => evalAlu e c .minu o
  | .maxu _ _ o => evalAlu e c .maxu o
  | .shlori _ _ o => writes [.acc ((e.x.acc <<< 16) ||| BitVec.ofNat 64 (fld o.toNat 15 0))]
  | .neg _ _ _ => do
    let l ← aluWrites (negEval e.x.psw e.x.acc)
    writes l
  | .not_ _ _ _ => writes [.acc (~~~e.x.acc), .psw (mN ||| mZ) (nzOf (~~~e.x.acc))]
  | .abs _ _ _ => do
    let l ← aluWrites (absEval e.x.psw e.x.acc)
    writes l
  | .clz _ _ _ => writes [.acc (clz64 e.x.acc), .psw (mN ||| mZ) (nzOf (clz64 e.x.acc))]
  | .popc _ _ _ => writes [.acc (popc64 e.x.acc), .psw (mN ||| mZ) (nzOf (popc64 e.x.acc))]
  | .rget _ _ o => writes [.acc (rgetValue e (opdField o))]
  | .fswput _ _ _ => writes [.fswSet (fswPut e.x.fsw e.x.acc)]
  | .pswput _ _ _ => evalPswput e
  | .crd _ _ o => evalCrd e o c
  | .cwr _ _ o => evalCwr e o c
  | .aadd _ _ o => evalAtomic e c o
  | .aswp _ _ o => evalAtomic e c o
  | .acas _ _ o => evalAtomic e c o
  | .amin _ _ o => evalAtomic e c o
  | .amax _ _ o => evalAtomic e c o
  | .aor _ _ o => evalAtomic e c o
  | .aand _ _ o => evalAtomic e c o
  | .vadd _ _ o => evalLanes e c o .add true false false
  | .vsub _ _ o => evalLanes e c o .sub true false false
  | .vmul _ _ o => evalLanes e c o .mul true false false
  | .vfma _ _ o => evalLanes e c o .fma true true true
  | .vfnma _ _ o => evalLanes e c o .fnma true true true
  | .vmin _ _ o => evalLanes e c o .min true false false
  | .vmax _ _ o => evalLanes e c o .max true false false
  | .vabs _ _ o => evalLanes e c o .abs false false false
  | .vneg _ _ o => evalLanes e c o .neg false false false
  | .vcmp _ _ o => evalLanes e c o (.cmp (rSp o)) true false false
  | .vbsl _ _ o => evalBits e c o true (fun a b d => (d &&& a) ||| (~~~d &&& b))
  | .vand _ _ o => evalBits e c o false (fun a b _ => a &&& b)
  | .vor _ _ o => evalBits e c o false (fun a b _ => a ||| b)
  | .vxor _ _ o => evalBits e c o false (fun a b _ => a ^^^ b)
  | .vmov _ _ o => evalVmov e c o
  | .vcvt _ _ o => evalVcvt e c o
  | .vcadd _ _ o => evalVcadd e c o
  | .vcrnd _ _ o => evalVcrnd e c o
  | .vrsum _ _ o => evalVrsum e c o
  | .vgetl _ _ o => evalVgetl e c o
  | .vputl _ _ o => evalVputl e c o
  | .vbcast _ _ o => evalVbcast e c o
  | .vexp _ _ o => evalSpecial e c o .exp
  | .vlog2 _ _ o => evalSpecial e c o .log2
  | .vrcp _ _ o => evalSpecial e c o .rcp
  | .vrsq _ _ o => evalSpecial e c o .rsq
  | .vtanh _ _ o => evalSpecial e c o .tanh
  | .verf _ _ o => evalSpecial e c o .erf
  | .tld _ _ o => evalTransfer e c o false
  | .tstore _ _ o => evalTransfer e c o true
  | .tzero _ _ o => evalTzero e o c
  | .tcfg _ _ o => evalTcfg e o c
  | .nset _ _ o => evalNset e o c
  | .nget _ _ o => evalNget e o
  | .nopen _ _ o => evalNopen e o
  | .nmac _ _ o => evalNmac e o
  | .ndrn _ _ o => evalNdrn e o
  | .send _ _ o => evalSend e c o false true
  | .sendm _ _ o => evalSend e c o true false
  | .sendl _ _ o => evalSend e c o true true
  | .recv _ _ o => evalRecv e c o
  | .qpoll _ _ o => writes [.acc (BitVec.ofNat 64 (readable (sinWords (envBead e) (opdField o))))]
  | .qcred _ _ o => writes [.acc (qcredValue (envBead e) (opdField o))]
  | .toksend _ _ o => evalToksend e c o
  | .tokrecv _ _ o => evalTokrecv e c o
  | .twait _ _ o => evalTwait e c o
  | .tadd _ _ o => evalTadd e c o
  | .tinc _ _ o => evalTadd e c o
  | .tread _ _ o => evalTread e c o
  | .trpush _ _ o => evalTrpush e o c
  | .trpop _ _ o => evalTrpop e o c
  | .trsteal _ _ o => evalTrsteal e o c
  | .quill _ _ o => evalQuill e o
  | .quillst _ _ _ => writes [.acc (quillstValue (envBead e)), actOf e c]
  | .fence _ _ o => evalFence e o c
  | .cwld _ _ o => writes [.acc ((cwOf (envBead e) (opdField o)).zeroExtend 64)]
  | .cwst _ _ o => evalCw e o c false
  | .cwadd _ _ o => evalCw e o c true
  | .cwswp _ _ o => evalCw e o c true
  | .csend _ _ o => evalCsend e o c
  | .crecv _ _ o => evalCrecv e o c
  | .sleep _ _ _ => writes [actOf e c]
  | .nwait _ _ _ => evalNwait e
  | .npop _ _ o => evalNpop e o c
  | .nop _ _ _ => writes []
  | .br _ _ o => evalBr e o (branchTarget e.pc o)
  | .jr _ _ o => evalBr e o (word4 (e.x.acc.truncate 32))
  | .call _ _ o => evalCall e (branchTarget e.pc o)
  | .callr _ _ _ => evalCall e (word4 (e.x.acc.truncate 32))
  | .ret _ _ _ => evalRet e
  | .loop _ _ o => evalLoop e c o (e.x.acc.toNat % 2 ^ 24) (decide (2 ^ 24 ≤ e.x.acc.toNat))
  | .loopi _ _ o => evalLoop e c o (fld o.toNat 21 12) false
  | .lexit _ _ _ => evalLexit e c
  | .gate _ _ o => evalGate e c o
  | .gret _ _ _ => evalGret e
  | .rete _ _ _ => evalRete e
  | .brk _ _ o => raise 0x0D (BitVec.ofNat 32 (opdField o))
  | .hstart _ _ o => evalHandCtl e c .start o
  | .hstop _ _ o => evalHandCtl e c .stop o
  | .hresume _ _ o => evalHandCtl e c .resume o
  | .hkill _ _ o => evalHandCtl e c .kill o
  | _ => writes []

/-- A glyph's further effect. `old` and `x` are the state and hand as the line found them; `out` says that the line has
issued before and now retires. -/
def performAct (old s : State) (i h : Nat) (pc : W32) (len : Nat) (succ : W32) (x : Hand) (out : Bool) (c : Instr) (acc : W64)
    (x0 x1 : W32) : State :=
  let load (slot : Nat) (o : BitVec 22) (n : Nat) (dest : LoadDest) : State :=
    actDevLoad s i h pc len slot o acc n dest out
  let store (slot : Nat) (o : BitVec 22) (bs : List W8) : State := actDevStore s i h pc len slot o acc bs
  let l : Env := ⟨s, i, h, x, pc, len, succ⟩
  match c with
  | .xld _ _ r o => load 0 o 4 (.xr r)
  | .xst _ _ r o => store 0 o (toBytes 4 (xOf x r).toNat)
  | .fpld _ _ o => load 0 o 4 .fp
  | .fpst _ _ o => store 0 o (toBytes 4 x.fp.toNat)
  | .blcln _ _ o => actMaint s i x acc o true false
  | .blinv _ _ o => actMaint s i x acc o false true
  | .blci _ _ o => actMaint s i x acc o true true
  | .blswClean _ _ _ => actBlsw s i acc true false
  | .blswInvalidate _ _ _ => actBlsw s i acc false true
  | .blswCleanInvalidate _ _ _ => actBlsw s i acc true true
  | .blswAll _ _ _ => actBlswAll s i acc
  | .pref _ _ o => actPref s i acc o
  | .ld _ _ o => load 1 o 8 (.acc 8 false)
  | .ldw _ _ o => load 1 o 4 (.acc 4 true)
  | .ldwu _ _ o => load 1 o 4 (.acc 4 false)
  | .ldh _ _ o => load 1 o 2 (.acc 2 true)
  | .ldhu _ _ o => load 1 o 2 (.acc 2 false)
  | .ldb _ _ o => load 1 o 1 (.acc 1 true)
  | .ldbu _ _ o => load 1 o 1 (.acc 1 false)
  | .st _ _ o => store 1 o (toBytes 8 acc.toNat)
  | .stw _ _ o => store 1 o (toBytes 4 acc.toNat)
  | .sth _ _ o => store 1 o (toBytes 2 acc.toNat)
  | .stb _ _ o => store 1 o (toBytes 1 acc.toNat)
  | .add _ _ o => load 1 o 8 (.alu .add)
  | .sub _ _ o => load 1 o 8 (.alu .sub)
  | .mul _ _ o => load 1 o 8 (.alu .mul)
  | .mulhs _ _ o => load 1 o 8 (.alu .mulhs)
  | .mulhu _ _ o => load 1 o 8 (.alu .mulhu)
  | .div _ _ o => load 1 o 8 (.alu .div)
  | .divu _ _ o => load 1 o 8 (.alu .divu)
  | .rem _ _ o => load 1 o 8 (.alu .rem)
  | .remu _ _ o => load 1 o 8 (.alu .remu)
  | .and_ _ _ o => load 1 o 8 (.alu .and)
  | .or_ _ _ o => load 1 o 8 (.alu .or)
  | .xor_ _ _ o => load 1 o 8 (.alu .xor)
  | .shl _ _ o => load 1 o 8 (.alu .shl)
  | .shr _ _ o => load 1 o 8 (.alu .shr)
  | .sar _ _ o => load 1 o 8 (.alu .sar)
  | .cmp _ _ o => load 1 o 8 (.alu .cmp)
  | .tst _ _ o => load 1 o 8 (.alu .tst)
  | .min _ _ o => load 1 o 8 (.alu .min)
  | .max _ _ o => load 1 o 8 (.alu .max)
  | .minu _ _ o => load 1 o 8 (.alu .minu)
  | .maxu _ _ o => load 1 o 8 (.alu .maxu)
  | .crd _ _ _ => latchTick s i
  | .cwr _ _ o => writeBeadReg s i (opdField o) (acc.truncate 32) (.hand h)
  | .aadd _ _ o => actAtomic s i h pc len x o .add acc x0 x1
  | .aswp _ _ o => actAtomic s i h pc len x o .swap acc x0 x1
  | .acas _ _ o => actAtomic s i h pc len x o .cas acc x0 x1
  | .amin _ _ o => actAtomic s i h pc len x o .min acc x0 x1
  | .amax _ _ o => actAtomic s i h pc len x o .max acc x0 x1
  | .aor _ _ o => actAtomic s i h pc len x o .or acc x0 x1
  | .aand _ _ o => actAtomic s i h pc len x o .and acc x0 x1
  | .vadd _ _ o => takeRows s i (useOf l o true false).reads
  | .vsub _ _ o => takeRows s i (useOf l o true false).reads
  | .vmul _ _ o => takeRows s i (useOf l o true false).reads
  | .vfma _ _ o => takeRows s i (useOf l o true true).reads
  | .vfnma _ _ o => takeRows s i (useOf l o true true).reads
  | .vmin _ _ o => takeRows s i (useOf l o true false).reads
  | .vmax _ _ o => takeRows s i (useOf l o true false).reads
  | .vabs _ _ o => takeRows s i (useOf l o false false).reads
  | .vneg _ _ o => takeRows s i (useOf l o false false).reads
  | .vcmp _ _ o => takeRows s i (useOf l o true false).reads
  | .vbsl _ _ o => takeRows s i (useOf l o true true).reads
  | .vand _ _ o => takeRows s i (useOf l o true false).reads
  | .vor _ _ o => takeRows s i (useOf l o true false).reads
  | .vxor _ _ o => takeRows s i (useOf l o true false).reads
  | .vmov _ _ o => takeRows s i (useOf l o false false).reads
  | .vcvt _ _ o => takeRows s i (cvtUse l o).reads
  | .vcadd _ _ o => takeRows s i (useOf l o true false).reads
  | .vcrnd _ _ o => takeRows s i (crndUse (getBead s i) x o).reads
  | .vrsum _ _ o => takeRows s i [(rTa o, 0, 1)]
  | .vgetl _ _ o => takeRows s i [(rTa o, 0, 1)]
  | .vputl _ _ o => takeRows s i [(rTd o, 0, 1)]
  | .vbcast _ _ _ => s
  | .vexp _ _ o => takeRows s i (useOf l o false false).reads
  | .vlog2 _ _ o => takeRows s i (useOf l o false false).reads
  | .vrcp _ _ o => takeRows s i (useOf l o false false).reads
  | .vrsq _ _ o => takeRows s i (useOf l o false false).reads
  | .vtanh _ _ o => takeRows s i (useOf l o false false).reads
  | .verf _ _ o => takeRows s i (useOf l o false false).reads
  | .tld _ _ o => actTransfer s i x o false
  | .tstore _ _ o => actTransfer s i x o true
  | .tzero _ _ o => actTzero s i o
  | .tcfg _ _ o => actTcfg s i o acc
  | .nset _ _ o => actNset s i o acc
  | .send _ _ o => actSend s i o acc
  | .sendm _ _ o => actSendm s i h o acc false
  | .sendl _ _ o => actSendm s i h o acc true
  | .recv _ _ o => actRecv s i o
  | .toksend _ _ o => actToksend s i o acc
  | .tokrecv _ _ o => actTokrecv s i o
  | .twait _ _ _ => actLatch s i h
  | .tadd _ _ o => actTadd s i h x o (acc.truncate 48)
  | .tinc _ _ o => actTadd s i h x o 1
  | .tread _ _ _ => actLatch s i h
  | .trpush _ _ _ => actTail s i true
  | .trpop _ _ _ => actTail s i false
  | .trsteal _ _ o => actTrsteal s i h x o
  | .quillst _ _ _ => actQuillst s i
  | .fence _ _ _ => modBead s i startDrainAll
  | .cwst _ _ o => putCw s i (opdField o) (acc.truncate 32)
  | .cwadd _ _ o => putCw s i (opdField o) (cwOf (getBead old i) (opdField o) + acc.truncate 32)
  | .cwswp _ _ o => putCw s i (opdField o) (acc.truncate 32)
  | .csend _ _ o => modBead s i (fun b => putChan b (opdField o) (chanQ b (opdField o) ++ [acc]))
  | .crecv _ _ o => modBead s i (fun b => putChan b (opdField o) ((chanQ b (opdField o)).drop 1))
  | .sleep _ _ o => actSleep s i h o
  | .npop _ _ _ => actNpop s i
  | .loop _ _ o => actLoop s i h x pc len o (acc.toNat % 2 ^ 24)
  | .loopi _ _ o => actLoop s i h x pc len o (fld o.toNat 21 12)
  | .lexit _ _ _ => s
  | .gate _ _ o => modHand s i h (fun y => { y with save1 := gateSave x succ (opdField o) })
  | .hstart _ _ o => actHstart s i (opdField o) x0
  | .hstop _ _ o => actHstop s i (opdField o)
  | .hresume _ _ o => actHresume old s i (opdField o)
  | .hkill _ _ o => actHkill s i (opdField o)
  | _ => s

/-- The items written by a hand's requests in flight (R62, R104). -/
def pendingItems (x : Hand) : BitVec 5 :=
  let one (r : DevReq) : BitVec 5 :=
    if r.dead then 0 else match r.op with
      | .load _ (.xr k) => xbit k
      | .load _ .fp => 8
      | .load _ (.alu _) => 17
      | .load .. => 1
      | .atomic .. => 1
      | .store _ => 0
  (x.reqs.map one).foldl (· ||| ·) (if x.steal.isSome then 1 else 0)

/-- Whether a line is legal (R94). -/
def lineLegal (gs : List Glyph) : Bool :=
  let rec rising : List Nat → Bool
    | a :: b :: l => a < b && rising (b :: l)
    | _ => true
  let rec single (seen : BitVec 5) : List Glyph → Bool
    | [] => true
    | g :: l => g.writes &&& seen == 0 && single (seen ||| g.writes) l
  gs.any (·.stop) && gs.length ≤ 6 && rising (gs.map (·.slot)) && gs.all (·.slot ≤ 5) && single 0 gs
    && (gs.length == 1 || !gs.any (fun g => g.slot == 4 && g.op == 0x36))

/-- A glyph of a line, and the command that it is, where its slot lists its opcode (R93, R120). -/
abbrev LineGlyph := Glyph × Option Instr

/-- The tiles that a V glyph names and that are bound to a vector endpoint (R246). -/
def boundUses (b : Bead) (g : Glyph) : List Nat :=
  if g.slot = 2 then (formTiles g).filter (fun t => (boundIn b t).isSome || !(boundOuts b t).isEmpty) else []

/-- The bound tiles that V glyphs of the open lines of a bead's other hands name: their rows are sent or taken when those
lines retire (R129, R246; log 27). -/
def openUses (b : Bead) (h : Nat) : List Nat :=
  (List.range 4).flatMap (fun k => if k = h then [] else match (handOf b k).openLine with
    | some l => l.effs.flatMap (fun f => match f with
      | .act c _ _ _ => (match glyphOf c with | some g => boundUses b g | none => [])
      | _ => [])
    | none => [])

/-- Whether an interlock holds a line (R60, R62): an item that a request in flight has yet to write, or a bound tile that
another open line waits to use. -/
def interlocked (b : Bead) (x : Hand) (h : Nat) (gs : List Glyph) : Bool :=
  let p := pendingItems x
  let busy := openUses b h
  gs.any (fun g => p &&& (glyphReads g ||| g.writes) != 0 || (boundUses b g).any busy.contains)

/-- What the fetch of a line finds (R98): held by the scoreboard (R166), a fault with its SFA and word count, or
nothing. -/
inductive Fetched
  | ok | held
  | bad (cause : Nat) (sfa : W32) (words : Nat)
deriving DecidableEq, Repr

/-- The check of n words from an address up, word k being the first left. -/
def fetchWords (s : State) (i : Nat) (x : Hand) (pc : Nat) : Nat → Nat → Fetched
  | 0, _ => .ok
  | n + 1, k =>
    let a := pc + 4 * k
    let b := getBead s i
    if a + 4 > 0x200000 || !localOk b x (pswPl x.psw) a 4 then .bad 0x05 (BitVec.ofNat 32 a) (k + 1)
    else if rangeHeld b a 4 then .held
    else if (parityFind s.parity (folioBase i + a) 4).isSome then .bad 0x06 (BitVec.ofNat 32 a) (k + 1)
    else fetchWords s i x pc n (k + 1)

/-- Priority of a fault cause (R78). -/
def faultPrio (cause : Nat) : Nat :=
  if cause = 0x01 then 2 else if cause = 0x02 then 3 else if cause = 0x03 then 4 else if cause = 0x04 then 5
  else if cause = 0x05 then 6 else if cause = 0x06 then 7 else if cause = 0x07 then 8 else if cause ≤ 0x0A then 9
  else if cause ≤ 0x0C then 10 else 11

/-- Whether DE detects a fault, before a wait is tested (R96). -/
def deFault (f : GFault) : Bool := f.cause ≤ 3 || f.cause == 0x0A

/-- Whether a fault of a line, with its slot, is reported before another (R78): the lower priority number, then the
earlier slot. -/
def faultBefore (q p : Nat × GFault) : Bool :=
  faultPrio q.2.cause < faultPrio p.2.cause || (faultPrio q.2.cause == faultPrio p.2.cause && q.1 < p.1)

/-- The fault reported among those of a line, each with its slot (R78). -/
def worstFault : List (Nat × GFault) → Option (Nat × GFault)
  | [] => none
  | p :: l =>
    match worstFault l with
    | none => some p
    | some q => if faultBefore q p then some q else some p

/-- A glyph's fault taken by its hand, precise, with its slot and the line's length (R77, R78): a staged message is
aborted and an access to an absent or offline Slate logged where the fault says so. -/
def glyphFault (s : State) (i h : Nat) (pc : W32) (len slot : Nat) (f : GFault) : State :=
  let s := if f.abort then abortStaged s i h else s
  let s := match f.log with
    | some (c, t) =>
      let ctx := (beadCtx (getBead s i)).map (BitVec.ofNat 6)
      logRecord s { index := 0, cause := BitVec.ofNat 8 c, severity := 0, slate := BitVec.ofNat 4 t, detail := f.sfa, ctx := ctx }
    | none => s
  let (sfa, s) := match f.others with
    | [] => (f.sfa, s)
    | l =>
      let (v, s) := freeBits s
      (((f.sfa :: l)[v.toNat % (l.length + 1)]?).getD f.sfa, s)
  takeFault s i h pc { cause := BitVec.ofNat 8 f.cause, slot := BitVec.ofNat 3 slot, dev := f.dev,
                       len := BitVec.ofNat 3 len, sfa := sfa }

/-- An imprecise fault delivered by the state of its hand (R411). One found while the hand's line is open waits until
that line has retired (log 25). -/
def impreciseFault (s : State) (i h : Nat) (f : FaultRec) : State :=
  let x := getHand s i h
  let hold (s : State) : State := modHand s i h (fun x => { x with heldFaults := x.heldFaults ++ [f] })
  match x.st with
  | .running => if x.openLine.isSome then hold s else takeFault s i h x.pc f
  | .sleeping _ => takeFault (modHand (modBead (cancelWait s i h) i endSlumber) i h (fun x => { x with st := .running })) i h x.pc f
  | .stopped _ => hold s
  | .halted _ => hold s
  | .idle => s
  | .locked => s

/-- Whether an effect is an atomic on the own folio, which is performed after the line's stores (R107). -/
def isLocalAtomic (f : Eff) : Bool :=
  match f with
  | .act c _ _ _ => (match glyphOf c with
    | some g => g.slot == 1 && 0x38 ≤ g.op && opdMode g.opd != 5
    | none => false)
  | _ => false

/-- One effect of a line; `old` is the state as the line found it. -/
def applyEff (old : State) (i h : Nat) (pc : W32) (len : Nat) (succ : W32) (x : Hand) (out : Bool) (s : State) (f : Eff) :
    State :=
  match f with
  | .acc v => modHand s i h (fun y => { y with acc := v })
  | .xr .x0 v => modHand s i h (fun y => { y with x0 := v })
  | .xr .x1 v => modHand s i h (fun y => { y with x1 := v })
  | .fp v => modHand s i h (fun y => { y with fp := v })
  | .psw m v => modHand s i h (fun y => { y with psw := merge32 y.psw m v })
  | .fswSet v => modHand s i h (fun y => { y with fsw := v })
  | .fswOr v => modHand s i h (fun y => { y with fsw := y.fsw ||| v })
  | .store a bs => storeBytes s a bs
  | .row t r d sc => writeRow s i t r ⟨d, sc⟩
  | .jump _ _ => s
  | .nib g cells cond drain _ => modBead s i (fun b => putNib b g cells cond drain)
  | .quill d => actQuill s i h x d
  | .act c acc x0 x1 => performAct old s i h pc len succ x out c acc x0 x1

/-- Whether an effect is a device-address load, which reads before the line's writes (R95). -/
def isReadEff (f : Eff) : Bool :=
  match f with
  | .act c _ _ _ => isDevLoad c
  | _ => false

/-- The effects of a line (R95, R107): its reads of device addresses, its writes in slot order, local atomics last. -/
def applyEffs (s : State) (i h : Nat) (pc : W32) (len : Nat) (succ : W32) (x : Hand) (out : Bool) (l : List Eff) : State :=
  let go := applyEff s i h pc len succ x out
  let s1 := (l.filter isReadEff).foldl go s
  let s2 := (l.filter (fun f => !isReadEff f && !isLocalAtomic f)).foldl go s1
  (l.filter isLocalAtomic).foldl go s2

/-- The transfer of control that a line makes. -/
def jumpOf (l : List Eff) : Option (W32 × Bool) := l.findSome? (fun f => match f with | .jump t v => some (t, v) | _ => none)

/-- Whether a line holds LEXIT, which closes its level before the back-edge is tested (R115, R118; log 29). -/
def hasLexit (l : List Instr) : Bool := l.any (fun c => match c with | .lexit .. => true | _ => false)

/-- A hand that continues after a line of n words (R115 to R118): its loop registers and PC. -/
def continueAt (x : Hand) (pc : W32) (n : Nat) (lexit : Bool) (jump : Option (W32 × Bool)) : Hand :=
  let x := if lexit then closeLevel x else x
  match jump with
  | some (t, true) => { leaveLoop 8 x t with pc := t }
  | some (t, false) => { x with pc := t }
  | none =>
    let (x, a) := backEdge 8 x (pc + BitVec.ofNat 32 (4 * n))
    { x with pc := a }

/-- The successor of a line (R119). -/
def successor (x : Hand) (pc : W32) (n : Nat) (lexit : Bool) : W32 := (continueAt x pc n lexit none).pc

/-- The parity loss that a line's NMAC met, if any (R140). -/
def lostOf (l : List Eff) : Option W32 := l.findSome? (fun f => match f with | .nib _ _ _ _ v => v | _ => none)

/-- Whether a line's effects include LEXIT's. -/
def effLexit (l : List Eff) : Bool := l.any (fun f => match f with | .act (.lexit ..) _ _ _ => true | _ => false)

/-- A bead whose hand h issued last (R61). -/
def issuedBy (b : Bead) (h : Fin 4) : Bead := { b with core := { b.core with lastIssue := h } }

/-- A line completed: the hand continues, and the line's writes land. -/
def commitLine (s : State) (i h : Nat) (pc : W32) (len : Nat) (effs : List Eff) (out killed : Bool) : State :=
  let x := getHand s i h
  let lexit := effLexit effs
  let succ := successor x pc len lexit
  let y := if killed then x else continueAt x pc len lexit (jumpOf effs)
  let s := putHand s i h { y with line := if out then y.line else [], heldLine := [], openLine := none }
  let s := applyEffs s i h pc len succ x out effs
  match lostOf effs with
  | some a => impreciseFault s i h { cause := 0x06, slot := 3, imprecise := true, len := BitVec.ofNat 3 len, sfa := a }
  | none => s

/-- The oldest fault held for a hand that no longer has an open line: taken where the hand is Running, or asleep since that
line, whose wait ends (R411; log 25). -/
def takeImprecise (s : State) (i h : Nat) : State :=
  let x := getHand s i h
  match x.st, x.heldFaults with
  | .running, _ => deliverHeld s i h
  | .sleeping _, f :: fs =>
    let s := modBead (cancelWait s i h) i endSlumber
    takeFault (modHand s i h (fun x => { x with st := .running, heldFaults := fs })) i h x.pc f
  | _, _ => s

/-- What happens once a hand's open line has retired: an HSTOP that waited for it (R66), or a held fault (R411). -/
def afterLine (s : State) (i h : Nat) : State :=
  if (getHand s i h).stopAfter then actHstop (modHand s i h (fun x => { x with stopAfter := false })) i h
  else takeImprecise s i h

/-- A precise fault of an open line (R77, R130): a stop or halt that reached the hand acts on it as the fault leaves
it. A killed hand takes none. -/
def faultOpen (s : State) (i h : Nat) (slot : Nat) (f : GFault) : State :=
  let x := getHand s i h
  match x.openLine with
  | none => s
  | some l =>
    let s := match openTransfer x with
      | some t => modHand s i h (fun x => { x with tsr := BitVec.ofNat 32 t.next })
      | none => s
    let s := modHand s i h (fun x => { dropOperand x with openLine := none })
    if l.killed then s
    else match x.st with
      | .halted p =>
        let s := modHand s i h (fun x => { x with st := if p = .idle then .idle else .running })
        if p = .idle then s else haltHand (glyphFault s i h l.pc l.len slot f) i h
      | _ => afterLine (glyphFault s i h l.pc l.len slot f) i h

/-- The entries that the effects of a line take (R138, R151, R153, R166, R246): HBM lines that its loads miss, HBM lines that
its stores write, range-scoreboard entries, and rows to bound tiles. -/
structure LineNeeds where
  misses : List Nat := []
  stores : List Nat := []
  ranges : Nat := 0
  sends : List Nat := []

/-- The line of an effect's device address in HBM, translated for a load or a store. -/
def effLine (s : State) (i : Nat) (c : Instr) (acc : W64) (write : Bool) : Option Xlat :=
  match glyphOf c with
  | some g =>
    let va := (devEa acc g.opd).toNat
    if va ≥ 2 ^ 48 || inTallySpace va then none
    else (translate s (beadCtx (getBead s i)) va write).filter (fun x => inHbm x.pa)
  | none => none

/-- What one effect of a line takes. -/
def effNeeds (s : State) (i : Nat) (n : LineNeeds) (f : Eff) : LineNeeds :=
  let b := getBead s i
  let add (l : List Nat) (k : Nat) : List Nat := if l.contains k then l else l ++ [k]
  match f with
  | .act c acc _ _ =>
    if isDevLoad c then
      match effLine s i c acc false with
      | some x =>
        let line := x.pa / 64
        if looksUp b x && (blotFind b line).isNone && !(b.blot.fills.any (fun f => f.line == line)) then
          { n with misses := add n.misses line }
        else n
      | none => n
    else if isDevStore c then
      match effLine s i c acc true with
      | some x =>
        let line := x.pa / 64
        if b.blot.merge.any (fun m => m.line == line && !m.draining) then n else { n with stores := add n.stores line }
      | none => n
    else n
  | .quill d => { n with ranges := n.ranges + (qRanges d).length }
  | .nib _ _ _ (some _) _ => { n with ranges := n.ranges + 1 }
  | .row t _ _ _ => { n with sends := n.sends ++ boundOuts b t }
  | _ => n

/-- What holds a line whose glyphs each find room, but not all of them together (R151, R153, R166, R246). -/
def roomStop (s : State) (i : Nat) (effs : List Eff) : Option Stop :=
  let b := getBead s i
  let n := effs.foldl (effNeeds s i) {}
  if n.misses.length + b.blot.fills.length > 8 && !n.misses.isEmpty then some .held
  else if n.ranges + heldEntries b > 8 && n.ranges != 0 then some .held
  else if n.sends.any (fun v => n.sends.count v > voutCredits b v) then some .held
  else if n.stores.length + b.blot.merge.length > 8 && !n.stores.isEmpty then some .heldFull
  else none

/-- Whether a glyph's effect is worked out when its line retires, where that line stays open (R129; log 27): the Q-slot
glyphs that take from or add to what other hands share. -/
def isLate (c : Instr) : Bool :=
  match c with
  | .send .. => true | .sendm .. => true | .sendl .. => true | .recv .. => true
  | .toksend .. => true | .tokrecv .. => true | .trpush .. => true | .trpop .. => true
  | .quill .. => true | .quillst .. => true
  | .cwst .. => true | .cwadd .. => true | .cwswp .. => true
  | .csend .. => true | .crecv .. => true | .npop .. => true
  | _ => false

/-- The effects of an open line with those of its late glyph in their place. -/
def lateEffs (l : OpenLine) (o : Out) : List Eff :=
  l.effs.flatMap (fun f => match f with
    | .act c _ _ _ => if l.late = some c then o.effs else [f]
    | _ => [f])

/-- A line that nothing keeps open any more (R129): it retires, or faults for its late glyph (R77), or stays open while
what its glyphs need is not there. -/
def retireLine (s : State) (i h : Nat) (l : OpenLine) : State :=
  let e : Env := ⟨s, i, h, getHand s i h, l.pc, l.len, l.succ⟩
  let stay (s : State) : State := modHand s i h (fun x => { x with openLine := some { l with why := [.room] } })
  match (match l.late with | some c => evalGlyph e c | none => writes []) with
  | .error (.fault f) => faultOpen s i h 4 f
  | .error _ => stay s
  | .ok o =>
    match roomStop s i (lateEffs l o) with
    | some .heldFull => stay (modBead s i startDrainOldest)
    | some _ => stay s
    | none => afterLine (commitLine s i h l.pc l.len (lateEffs l o) true l.killed) i h

/-- One of the things an open line waits for has happened: the line retires when nothing is left (R129, R270). -/
def closePending (s : State) (i h : Nat) (done : Pending → Bool) (more : List Eff) : State :=
  match (getHand s i h).openLine with
  | none => s
  | some l =>
    let l := { l with why := l.why.filter (fun w => !done w), effs := l.effs ++ more }
    if l.why.isEmpty then retireLine s i h l else modHand s i h (fun x => { x with openLine := some l })

/-- Whether a line may use free values (log 1): conversions and drains to MX formats. -/
def drawsFree (c : Instr) : Bool :=
  match c with
  | .vcvt .. => true | .vcrnd .. => true | .nmac .. => true | .ndrn .. => true | _ => false

/-- A line that names one bound in-tile in its V and M glyphs raises TILE (R246). -/
def boundTwice (b : Bead) (gs : List Glyph) : Option Nat :=
  let at_ (k : Nat) : List Nat := (gs.filter (fun g => g.slot == k)).flatMap formTiles
  (at_ 2).find? (fun t => (at_ 3).contains t && (boundIn b t).isSome)

/-- The results of a line's glyphs, each with its slot. -/
def lineResults (e : Env) (l : List LineGlyph) : List (Nat × Ev Out) :=
  l.map (fun p => (p.1.slot, if glyphReserved p.1 then raise 0x01 e.pc else match p.2 with
    | some c => evalGlyph e c
    | none => writes []))

/-- A bead whose pointer names the hand that has issued (R61). -/
def pointTo (s : State) (i h : Nat) : State := modBead s i (fun b => issuedBy b ⟨h % 4, Nat.mod_lt _ (by decide)⟩)

/-- The effects of a line's glyphs, each with its slot: the late glyph of a line that stays open is left for its
retirement. -/
def lineEffs (x : Hand) (late : Option Instr) (outs : List (Nat × Out)) : List Eff :=
  outs.flatMap (fun p => match late with
    | some c => if p.1 = 4 then [.act c x.acc x.x0 x.x1] else p.2.effs
    | none => p.2.effs)

/-- A line that issues (R60, R61): it completes, or stays open. -/
def lineIssues (s : State) (i h : Nat) (pc : W32) (len : Nat) (succ : W32) (cs : List Instr) (outs : List (Nat × Out)) : State :=
  let x := getHand s i h
  let s := pointTo s i h
  let s := if cs.any drawsFree then { s with freeCtr := s.freeCtr + 2048 } else s
  let s := applyEffs s i h pc len succ x false (outs.flatMap (·.2.start))
  match outs.filterMap (·.2.opens) with
  | [] => commitLine s i h pc len (lineEffs x none outs) false false
  | why =>
    let late := cs.find? isLate
    let l : OpenLine := { pc := pc, len := len, succ := succ, why := why, effs := lineEffs x late outs, late := late }
    modHand s i h (fun y => { y with line := [], heldLine := [], openLine := some l })

/-- A line that a waiting glyph withdraws (R96): the hand sleeps, and the glyphs before the waiting line's last stay in
the fetch buffer (log 28). A channel wait remembers its channel (R71). -/
def withdraw (s : State) (i h : Nat) (w : WaitKind) (latch : Option TallyLatch) (cs : List Instr) : State :=
  let chan : W8 := (cs.findSome? (fun c => match c with
    | .csend _ _ o => some (BitVec.ofNat 8 (2 ^ opdField o))
    | .crecv _ _ o => some (BitVec.ofNat 8 (2 ^ opdField o))
    | _ => none)).getD 0
  modHand s i h (fun x => { x with st := .sleeping w, latch := latch.getD x.latch, sleepMask := chan, heldLine := [] })

/-- Whether a stop holds the line at issue. -/
def isHold (k : Stop) : Bool := match k with | .asleep .. => false | .fault _ => false | _ => true

/-- A fault that a line takes in DE (R77, R78), for which the line has issued (R60, R61). -/
def lineFault (s : State) (i h : Nat) (pc : W32) (len : Nat) (o : Option (Nat × GFault)) : State :=
  match o with
  | some (slot, f) => glyphFault (pointTo s i h) i h pc len slot f
  | none => s

/-- The complete line l of hand h judged and, where nothing stops it, issued; the Bool says that it has left the fetch
buffer for DE (R60). -/
def tryLine (s : State) (i h : Nat) (l : List LineGlyph) : Bool × State :=
  let x := getHand s i h
  let b := getBead s i
  let pc := x.pc
  let gs := l.map (·.1)
  let cs := l.filterMap (·.2)
  let len := l.length
  match fetchWords s i x pc.toNat len 0 with
  | .held => (false, s)
  | .bad cause sfa n =>
    (false, takeFault s i h pc { cause := BitVec.ofNat 8 cause, slot := 7, len := BitVec.ofNat 3 n, sfa := sfa })
  | .ok =>
    if gateHolds b x || (lineLegal gs && interlocked b x h gs) then (false, s)
    else if !lineLegal gs then
      (true, takeFault (pointTo s i h) i h pc { cause := 1, slot := 7, len := BitVec.ofNat 3 len, sfa := pc })
    else
      let succ := successor x pc len (hasLexit cs)
      let rs := lineResults ⟨s, i, h, x, pc, len, succ⟩ l
      let stops := rs.filterMap (fun r => match r.2 with | .error k => some (r.1, k) | .ok _ => none)
      let outs := rs.filterMap (fun r => match r.2 with | .ok o => some (r.1, o) | .error _ => none)
      let faults := stops.filterMap (fun p => match p.2 with | .fault f => some (p.1, f) | _ => none)
        ++ (match boundTwice b gs with
          | some t => [(2, { cause := 0x09, sfa := BitVec.ofNat 32 t })]
          | none => [])
      let room := if stops.isEmpty then (roomStop s i (outs.flatMap (fun p => p.2.start ++ p.2.effs))).toList else []
      match (stops.map (·.2) ++ room).find? isHold with
      | some .heldFull => (false, modBead s i startDrainOldest)
      | some (.heldSwitch size pf) => (false, modBead s i (fun b => startSwitch b size pf))
      | some (.ask l) => (false, modHand s i h (fun x => { x with latch := l }))
      | some _ => (false, modHand s i h (fun x => { x with heldLine := cs }))
      | none =>
        match stops.findSome? (fun p => match p.2 with | .asleep w l => some (w, l) | _ => none) with
        | some (w, k) =>
          if (faults.filter (fun p => deFault p.2)).isEmpty then (true, withdraw s i h w k cs)
          else (true, lineFault s i h pc len (worstFault faults))
        | none =>
          if faults.isEmpty then (true, lineIssues s i h pc len succ cs outs)
          else (true, lineFault s i h pc len (worstFault faults))

/-- The complete line cs of hand h, handed over glyph by glyph, judged and, where nothing stops it, issued. -/
def runLine (s : State) (i h : Nat) (cs : List Instr) : State :=
  (tryLine s i h (cs.filterMap (fun c => (glyphOf c).map (fun g => (g, some c))))).2

/-- Whether the beads of a Slate run: the device is in the Run state with its power on, and the Slate is present, not
failed and not in reset (R378, R384). -/
def slateRuns (s : State) (t : Nat) : Bool :=
  s.pins.rails && !s.pins.inReset && s.pwr.st == .run && slatePresent s t
    && !(getSlate s t).failed && !(getSlate s t).inReset

/-- A glyph handed to a hand's line: taken while the hand may issue, and the line run once it is complete. -/
def issue (hr : HandRef) (stop : Bool) (c : Instr) (s : State) : State :=
  let i := beadNo hr.br
  let h := hr.hand.val
  let x := getHand s i h
  if !slateRuns s hr.br.slate.val || !beadExists s i || (getBead s i).held || x.st ≠ .running || x.openLine.isSome then s
  else
    let cs := x.line ++ [c]
    if stop || cs.length ≥ 6 then runLine s i h cs else putHand s i h { x with line := cs }

end Sys2Proof.Machine
end

