-- ==== Sys2Proof/Machine/Registers.lean ====
section
/-! DEFINITION. Control space (R397 to R404): which register an offset names, what each register reads as, its access
class (R369), and whether an access is granted (R370, R375, R382). -/

namespace Sys2Proof.Machine

/-- What an offset of control space names (R400). `site` is the block of a physical site that holds no position.
`absent` belongs to an absent Slate; a is
the offset asked for. -/
inductive Loc
  | slate (t o : Nat)
  | brush (k o : Nat)
  | bead (i o : Nat)
  | site (t rod site o : Nat)
  | spine (o : Nat)
  | stroke (o : Nat)
  | port (p o : Nat)
  | ledger (o : Nat)
  | sec (o : Nat)
  | pwr (o : Nat)
  | dbgwin (o : Nat)
  | window (o : Nat)
  | nibCell (i n : Nat) (e : Bool)
  | brushCell (k n : Nat) (e : Bool)
  | tileWord (i t row w : Nat)
  | reserved
  | absent (t a : Nat)
deriving DecidableEq, Repr

/-- Whether an offset of the Slate controller block holds a register. -/
def slateRegAt (o : Nat) : Bool :=
  o < 0x10 || (0x20 ≤ o && o < 0x5C) || (0x60 ≤ o && o < 0xBC) || (0x200 ≤ o && o < 0x300)
/-- Whether an offset of a brush block holds a register. -/
def brushRegAt (o : Nat) : Bool := o < 0x68 || (0x80 ≤ o && o < 0x140)
/-- Whether an offset of a bead block holds a register. -/
def beadRegAt (o : Nat) : Bool :=
  match handOfOffset o with
  | some _ => o % 0x100 < 0xB0 && o % 0x100 != 0x5C
  | none => o < 0x100 || (0x500 ≤ o && o < 0x528) || (0x600 ≤ o && o < 0x6C0) || (0x700 ≤ o && o < 0x724)

/-- The register that offset o of Slate t's region names. -/
def slateLoc (s : State) (t o : Nat) : Loc :=
  let o := o / 4 * 4
  let beadLoc (rod pos : Nat) (r : Nat) : Loc :=
    if !beadRegAt r then .reserved
    else if (siteOf s t rod pos).isSome then .bead (256 * t + 16 * rod + pos) r else .reserved
  if !slatePresent s t then .absent t (t * 0x4000000 + o)
  else if o < 0x10000 then if slateRegAt o then .slate t o else .reserved
  else if o < 0x16000 then
    if brushRegAt (o % 0x1000) then .brush (6 * t + (o - 0x10000) / 0x1000) (o % 0x1000) else .reserved
  else if 0x100000 ≤ o ∧ o < 0x210000 then
    let n := (o - 0x100000) / 0x1000
    match posOf s t (n / 17) (n % 17) with
    | some p => beadLoc (n / 17) p (o % 0x1000)
    | none => if beadRegAt (o % 0x1000) then .site t (n / 17) (n % 17) (o % 0x1000) else .reserved
  else if 0x300000 ≤ o ∧ o < 0x400000 then
    let n := (o - 0x300000) / 0x1000
    beadLoc (n / 16) (n % 16) (o % 0x1000)
  else .reserved

/-- The register that an offset of control space names (R400, R402). -/
def locOf (s : State) (a : Nat) : Loc :=
  if a < 0x10000000 then slateLoc s (a / 0x4000000) (a % 0x4000000)
  else
    let o := (a - 0x10000000)
    let r := o % 0x10000 / 4 * 4
    if o < 0x10000 then .spine r
    else if o < 0x20000 then .stroke r
    else if o < 0x30000 then
      if r < 0xC00 ∧ r % 0x100 < 0x1C then
        if slatePresent s (r / 0x100 / 3) then .port (r / 0x100) (r % 0x100) else .absent (r / 0x100 / 3) a
      else .reserved
    else if o < 0x40000 then if r < 0x18 then .ledger r else .reserved
    else if o < 0x50000 then if r < 0x90 then .sec r else .reserved
    else if o < 0x60000 then if r < 0x1C then .pwr r else .reserved
    else if 0x100000 ≤ o ∧ o < 0x200000 then .dbgwin (o - 0x100000)
    else if 0x1000000 ≤ o ∧ o < 0x6100000 then .window o
    else .reserved

/-- Whether a rod or brush fault, or a failed stack, degrades a Slate (R17, R235, R357). -/
def slateDegraded (s : State) (t : Nat) : Bool :=
  (List.range 16).any (fun r => rodDegraded (rodFailed s t r) || rodDisabled (rodFailed s t r))
    || (getSlate s t).brushFailed != 0 || s.spine.stackFailed.getLsbD (2 * t) || s.spine.stackFailed.getLsbD (2 * t + 1)

/-- The code of SLATE_PAGE.PHASE. -/
def phaseCode : Phase → Nat
  | .idle => 0 | .running => 1 | .draining => 2 | .closing => 3 | .loading => 4 | .ready => 5 | .starting => 6
  | .aborting => 7

/-- Whether the stall count of a Slate holds its value (R255). -/
def stallHeld (s : State) (t : Nat) : Bool :=
  (3 ≤ phaseCode (getSlate s t).pg.phase && phaseCode (getSlate s t).pg.phase ≤ 6)
    || s.beads.any (fun p => p.1 / 256 == t && (List.range 4).any (fun h => isHalted (handOf p.2 h)))

/-- A register of the Slate controller. -/
def slateReg (s : State) (t o : Nat) : W32 :=
  let x := getSlate s t
  let w := x.watch
  if o = 0x00 then BitVec.ofNat 32 t
  else if o = 0x04 then
    pack [(b1 x.offline, 31), (b1 x.failed, 30), (b1 x.inReset, 29), (b1 (slateDegraded s t), 28), (b1 x.selfTest, 27)]
  else if o = 0x08 then x.tick.truncate 32
  else if o = 0x0C then x.tickHi
  else if 0x20 ≤ o ∧ o < 0x40 then mapGet (fun _ => 0) x.bgrp ((o - 0x20) / 4)
  else if o = 0x40 then pack [(b1 x.switching, 16), (x.freeMask.toNat, 0)]
  else if o = 0x44 then pack [(x.brushFailed.toNat, 8), (x.brushAvail.toNat, 0)]
  else if o = 0x48 then pack [(phaseCode x.pg.phase, 28), (x.pg.epoch.toNat, 16), (x.pg.page.toNat, 0)]
  else if o = 0x4C then
    pack [(b1 x.pg.shadow.isSome, 16), (x.pg.shadowFrame.val, 8), (b1 x.pg.active.isSome, 7),
      (match x.pg.active with | some f => f.val | none => 0, 0)]
  else if o = 0x50 then x.pg.stale
  else if o = 0x54 then x.pg.switchTicks.zeroExtend 32
  else if o = 0x58 then x.pg.paired.zeroExtend 32
  else if 0x60 ≤ o ∧ o < 0xA0 then
    let n := (o - 0x60) / 4
    let f := rodFailed s t n
    pack [(b1 (x.rodShifting.getLsbD n), 28), (b1 (rodDisabled f), 25), (b1 (failCount f == 2), 24), (f.toNat, 0)]
  else if o = 0xA0 then w.stallCfg
  else if o = 0xA4 then pack [(b1 w.fired, 31), (b1 (stallHeld s t), 30), (w.stallCount.toNat, 0)]
  else if o = 0xA8 then w.dumpBase.truncate 32
  else if o = 0xAC then (w.dumpBase >>> 32).truncate 32
  else if o = 0xB0 then pack [(b1 w.dumpBusy, 31), (b1 w.dumpDone, 30), (w.dumpSeq.toNat, 8), (w.dumpCause.toNat, 0)]
  else if o = 0xB4 then w.slumbers
  else if o = 0xB8 then
    BitVec.ofNat 32 (4096 - ((List.range 64).map (fun c => match tallyBlock s t c with | some (_, n) => n | none => 0)).sum)
  else if 0x200 ≤ o ∧ o < 0x300 then mapGet (fun _ => 0) x.tallies.map ((o - 0x200) / 4)
  else 0

/-- Whether group g of a brush is being drained: a drain emits its beats whole, so that one has begun and not ended
while its order has yet to complete. -/
def drainingGroup (b : Brush) (g : Nat) : Bool :=
  b.running.any (fun r => r.drains && r.formed && fld ((r.words[0]?).getD 0).toNat 3 2 == g)

/-- A register of a brush (R191). -/
def brushReg (s : State) (k o : Nat) : W32 :=
  let b := getBrush s k
  let p : InPort := mapGet (fun _ => {}) b.inPorts ((o - 0x20) / 16)
  let grp (g : Nat) : Group := mapGet (fun _ => {}) b.groups g
  if o = 0x00 then pack [(k / 6, 4), (k % 6, 0)]
  else if o = 0x04 then b.ctx
  else if o = 0x0C then
    pack ([(b1 b.failed, 31), (b1 b.failed, 30), (b1 b.oqovf, 29), (b1 (b.running.any (fun r => !r.formed)), 28), (b.queue.length, 0)]
      ++ (List.range 4).flatMap (fun g =>
        [(b1 (grp g).perr, 24 + g), (b1 (drainingGroup b g), 20 + g), (b1 (grp g).isOpen, 16 + g)]))
  else if o = 0x10 then b.gscale
  else if o = 0x14 then b.wdog
  else if o = 0x18 then b.errinfo
  else if o = 0x1C then b.drops
  else if 0x20 ≤ o ∧ o < 0x60 then
    if o % 16 = 0 then p.cfg else if o % 16 = 4 then p.base else if o % 16 = 8 then p.limit else p.ptr
  else if o = 0x60 then b.outBound.zeroExtend 32
  else if o = 0x64 then b.done
  else if 0x80 ≤ o ∧ o < 0x100 then
    let c : W64 := mapGet (fun _ => 0) b.crec ((o - 0x80) / 8)
    if o % 8 = 0 then c.truncate 32 else (c >>> 32).truncate 32
  else 0

/-- SPINE_SCRIBE_STAT's code of a Scribe. -/
def scribeCode : ScribeSt → Nat
  | .running => 0 | .rebooting => 1 | .failed => 2

/-- SPINE_HEALTH (R359). -/
def healthWord (s : State) : W32 :=
  let x := s.spine
  pack ([(b1 x.orphan, 31), (b1 (!x.orphan && (x.scribeA != .running || x.scribeB != .running)), 30),
    (b1 x.recovering, 29), (b1 x.exposed, 28), (x.slateFailed.toNat, 24), (x.stackFailed.toNat, 12), (x.portFailed.toNat, 0)]
    ++ (List.range 4).map (fun t => (b1 (slatePresent s t && slateDegraded s t), 20 + t)))

/-- A register of the spine control block. -/
def spineReg (s : State) (o : Nat) : W32 :=
  let x := s.spine
  if o = 0x00 then x.presence.zeroExtend 32
  else if o = 0x04 then x.part
  else if 0x10 ≤ o ∧ o < 0x20 then mapGet (fun _ => 0) x.groups ((o - 0x10) / 4)
  else if o = 0x20 then pack [(b1 x.diverge, 31), (b1 x.skipped, 30), (x.bcastPath.toNat, 8), (x.bcastWin.toNat, 0)]
  else if o = 0x24 then x.bcastAddr
  else if o = 0x30 then x.dbgBase.zeroExtend 32
  else if o = 0x200 then healthWord s
  else if o = 0x204 then
    pack [(b1 x.primaryB, 31), (scribeCode x.scribeB, 18), (scribeCode x.scribeA, 16), (x.failovers.toNat, 0)]
  else if o = 0x208 then x.scribeWd
  else if o = 0x20C then x.slateWd
  else if o = 0x210 then s.ledger.logIndex
  else if 0x220 ≤ o ∧ o < 0x240 then mapGet (fun _ => 0) x.corr ((o - 0x220) / 4)
  else if o = 0x304 then pack [(x.warms.toNat, 16), (x.resetKind.toNat, 0)]
  else 0

/-- The code of a stroke unit state (R277). -/
def strokeCode : StrokeSt → Nat
  | .off => 0 | .acquiring => 1 | .locked => 2 | .flywheel => 3 | .free => 4 | .held => 5 | .fenced => 6

/-- A word of a device page that may be read: bytes of memory at a device address. -/
def memWord (s : State) (a : Nat) : W32 := BitVec.ofNat 32 (loadNat s a 4)

/-- The header of the schedule image at a device address (R281); a page with SCHED = 0 has no schedule. -/
def schedAt (s : State) (a : Nat) : Sched :=
  let f := memWord s a
  let c := (memWord s (a + 8)).toNat
  if a = 0 then {}
  else
    { held := true, sync := f.getLsbD 8, ckpt := f.getLsbD 9, energy := memWord s (a + 4)
      ckBase := BitVec.ofNat 10 c, ckCount := fld c 26 16 }

/-- Whether a Slate is a SYNC Slate (R278): its running page's schedule has SYNC = 1. -/
def syncSlate (s : State) (t : Nat) : Bool :=
  (getSlate s t).pg.job.isSome && (getSlate s t).pg.sched.sync

/-- The schedule header of the page that waits in a Slate's switch, if one does. -/
def waitingSched (s : State) (t : Nat) : Option Sched :=
  (getSlate s t).pg.switch.map (fun w => schedAt s w.page.sched.toNat)

/-- The energy that a Slate declares (R306): of a SYNC Slate the larger of the running page's and the waiting page's; of
another, that of a SYNC page which it switches into (R307). -/
def slateEnergy (s : State) (t : Nat) : Nat :=
  let run := (getSlate s t).pg.sched.energy.toNat
  match waitingSched s t with
  | some w => if syncSlate s t then Nat.max run w.energy.toNat else if w.sync then w.energy.toNat else 0
  | none => if syncSlate s t then run else 0

/-- STROKE_EREQ (R306). -/
def strokeEreq (s : State) : Nat := ((presentSlates s).map (slateEnergy s)).sum
/-- STROKE_LREQ (R306); a budget of zero gives no finite length, and the register saturates (log 34). -/
def strokeLreq (s : State) : Nat :=
  if s.aux.pbudget = 0 then (if strokeEreq s = 0 then 0 else 2 ^ 24 - 1)
  else Nat.min (2 ^ 24 - 1) (ceilDiv (strokeEreq s * 1600) s.aux.pbudget.toNat)

/-- A register of the stroke unit (R308). -/
def strokeReg (s : State) (o : Nat) : W32 :=
  let x := s.stroke
  let a := s.aux
  let ck (t : Nat) : Option Ckpt := mapGet (fun _ => none) a.ckpts t
  if o = 0x00 then x.cfg
  else if o = 0x04 then flag x.recovering 8
  else if o = 0x08 then x.len.zeroExtend 32
  else if o = 0x0C then x.count.truncate 32
  else if o = 0x10 then x.countHi.zeroExtend 32
  else if o = 0x14 then x.phase.zeroExtend 32
  else if o = 0x18 then
    pack [(b1 x.slip, 31), (b1 x.loss, 30), (b1 x.miss, 29), (b1 x.late, 28), (b1 x.echoLate, 27), (b1 (decide (x.len.toNat < strokeLreq s)), 26),
      (b1 x.heldFlag, 25), (b1 x.replayx, 24), (strokeCode x.st, 0)]
  else if o = 0x1C then a.trim.zeroExtend 32
  else if o = 0x20 then a.pinAdj.zeroExtend 32
  else if o = 0x24 then a.pbudget.zeroExtend 32
  else if o = 0x28 then BitVec.ofNat 32 (strokeEreq s)
  else if o = 0x2C then BitVec.ofNat 32 (strokeLreq s)
  else if o = 0x30 then a.alloc
  else if o = 0x34 then pack [(a.consec.toNat, 16), (a.voidsTotal.toNat, 0)]
  else if o = 0x38 then a.vstroke.truncate 32
  else if o = 0x3C then (a.vstroke >>> 32).truncate 32
  else if o = 0x40 then x.missRec
  else if o = 0x44 then a.echoMax.zeroExtend 32
  else if o = 0x48 then a.devnum.zeroExtend 32
  else if 0x100 ≤ o ∧ o < 0x120 then
    let e : W64 := mapGet (fun _ => 0) a.edges ((o - 0x100) / 8)
    if o % 8 = 0 then e.truncate 32 else (e >>> 32).truncate 32
  else if 0x140 ≤ o ∧ o < 0x160 then
    match ck ((o - 0x140) / 8) with
    | some c => if o % 8 = 0 then pack [(1, 31), (c.page.toNat, 0)] else c.tick.zeroExtend 32
    | none => 0
  else if 0x160 ≤ o ∧ o < 0x180 then
    match ck ((o - 0x160) / 8) with
    | some c => if o % 8 = 0 then c.stroke.truncate 32 else (c.stroke >>> 32).truncate 32
    | none => 0
  else if 0x1000 ≤ o ∧ o < 0x2000 then
    ((mapGet (fun _ => []) a.entries ((o - 0x1000) / 16))[(o % 16) / 4]?).getD 0
  else 0

/-- DUCTUS_p_STAT. -/
def portStat (x : Port) : W32 :=
  pack [(b1 x.up, 31), (b1 x.aligned, 30), (b1 x.failed, 29), (x.laneFail.toNat, 16), (x.spared.toNat, 8)]
/-- DUCTUS_p_DELAY. -/
def portDelay (x : Port) : W32 := pack [(b1 x.delayValid, 31), (x.delay.toNat, 0)]

/-- A register of a Ductus port (R308). -/
def portReg (s : State) (p o : Nat) : W32 :=
  let x := getPort s p
  let win (w : Option (Fin 4 × Fin 64)) (bit lo : Nat) : List (Nat × Nat) :=
    match w with | some (_, k) => [(1, bit), (k.val, lo)] | none => []
  if o = 0x00 then x.cfg.zeroExtend 32
  else if o = 0x04 then portStat x
  else if o = 0x08 then portDelay x
  else if o = 0x0C then x.corr
  else if o = 0x10 then x.uncorr
  else if o = 0x14 then x.drop
  else if o = 0x18 then pack (win x.sendOpen 31 24 ++ win x.recvOpen 15 8 ++ [(x.fwdq.length, 0)])
  else 0

/-- Ledger entries that are not Retired (LEDGER_STAT.INFLIGHT). -/
def inFlight (s : State) : Nat := (s.ledger.entries.filter (fun e => e.state != .retired)).length

/-- A register of the ledger engine (R359). -/
def ledgerReg (s : State) (o : Nat) : W32 :=
  let x := s.ledger
  if o = 0x00 then x.epoch.zeroExtend 32
  else if o = 0x04 then pack [(b1 x.ready, 31), (b1 x.soft, 30), (b1 x.rollfwd, 29), (inFlight s, 0)]
  else if o = 0x08 then pack [(x.mirror.toNat, 4), (x.primary.toNat, 0)]
  else if o = 0x0C then x.cfg
  else if o = 0x10 then x.commits
  else x.restarts

/-- The code of a lifecycle state (R360). -/
def lifeCode : Lifecycle → Nat
  | .blank => 0 | .openLc => 1 | .sealed => 2 | .voided => 3

/-- The debug level (R369). -/
def debugLevel (s : State) : Nat := match s.sec.session with | some d => d.level.toNat | none => 0

/-- A register of the security block (R383). -/
def secReg (s : State) (o : Nat) : W32 :=
  let x := s.sec
  if o = 0x00 then
    pack ((match x.pendingLc with | some l => [(1, 7), (lifeCode l, 4)] | none => []) ++ [(lifeCode x.lifecycle, 0)])
  else if o = 0x08 then
    pack ((b1 x.scrub.isSome, 8) :: (match x.session with
      | some d => [(d.number.toNat, 16), (b1 d.jtag, 4), (d.level.toNat, 0)]
      | none => []))
  else if o = 0x0C then pack [(b1 x.blocked, 7), (x.fails.toNat, 0)]
  else if o = 0x10 then pack [(x.romVer.toNat, 16), (x.svn.toNat, 8), (b1 x.fallback, 1), (b1 x.imageB, 0)]
  else if o = 0x14 then x.minSvn.zeroExtend 32
  else if o = 0x18 then x.keyRev.zeroExtend 32
  else if o = 0x1C then x.denyCount
  else if 0x20 ≤ o ∧ o < 0x5C then mapGet (fun _ => 0) x.dbgKey ((o - 0x20) / 4)
  else if 0x60 ≤ o ∧ o < 0x80 then mapGet (fun _ => 0) x.ppDigest ((o - 0x60) / 4)
  else if o = 0x80 then x.fuseCfg
  else if o = 0x84 then x.serial.truncate 32
  else if o = 0x88 then (x.serial >>> 32).truncate 32
  else if o = 0x8C then pack [(x.opened.toNat, 16), (x.highest.toNat, 0)]
  else 0

/-- The code of a power state (R383). -/
def pwrCode : PwrSt → Nat
  | .run => 0 | .hold => 1 | .doze => 2 | .standby => 3

/-- A register of the power block. -/
def pwrReg (s : State) (o : Nat) : W32 :=
  let x := s.pwr
  if o = 0x00 then pack [(b1 x.moving, 8), (pwrCode x.target, 4), (pwrCode x.st, 0)]
  else if o = 0x04 then x.refuse.zeroExtend 32
  else if o = 0x08 then x.limit.zeroExtend 32
  else if o = 0x0C then x.reserve.zeroExtend 32
  else if o = 0x10 then x.measured.zeroExtend 32
  else if o = 0x14 then x.temp
  else pack [(b1 x.forced, 8), (x.therm.toNat, 0)]

/-- The control block of a site that holds no position reads as a bead in reset (log 35). -/
def siteReg (s : State) (t rod site o : Nat) : W32 :=
  if o = 0 then pack [(site, 12), (rod, 4), (t, 0)]
  else beadReg { s with beads := [], slates := [] } (256 * t + 16 * rod + 15) o

/-- The word that a register holds, windows apart; what a brush's cells hold once their group was lost to a parity error is
undefined (R50), and so a free value. -/
def locRead (s : State) : Loc → W32
  | .slate t o => slateReg s t o
  | .brush k o => brushReg s k o
  | .bead i o => beadReg s i o
  | .site t r p o => siteReg s t r p o
  | .spine o => spineReg s o
  | .stroke o => strokeReg s o
  | .port p o => portReg s p o
  | .ledger o => ledgerReg s o
  | .sec o => secReg s o
  | .pwr o => pwrReg s o
  | .nibCell i n e =>
    let c : Cell := mapGet (fun _ => {}) (getBead s i).nibCells n
    if e then c.e else c.s
  | .brushCell k n e =>
    let c : Cell := mapGet (fun _ => {}) (getBrush s k).cells n
    let g : Group := mapGet (fun _ => {}) (getBrush s k).groups (n / 65536)
    if g.perr then (Config.freeValue (s.freeCtr + 2 * n + b1 e)).truncate 32 else if e then c.e else c.s
  | .tileWord i t r w =>
    let x := tileRow (getBead s i) t r
    if w = 16 then x.scale else (x.data >>> (32 * w)).truncate 32
  | _ => 0

/-- The access classes of R369. -/
inductive AccClass
  | n | o | d
deriving DecidableEq, Repr

/-- The class of a register (R369, R408). -/
def accClass : Loc → AccClass
  | .spine o => if o = 0 ∨ o = 4 ∨ o = 0x200 then .n else .o
  | .sec o => if o = 0 ∨ o = 8 ∨ o = 0x84 ∨ o = 0x88 then .n else .o
  | .bead _ o =>
    match handOfOffset o with
    | some _ =>
      let r := o % 0x100
      if (0x08 ≤ r ∧ r < 0x40) ∨ r = 0x50 ∨ r = 0x54 ∨ r = 0xAC then .d else .o
    | none => if 0x40 ≤ o ∧ o < 0x60 then .d else .o
  | .brush _ o => if 0x100 ≤ o ∧ o < 0x140 then .d else .o
  | .dbgwin _ => .d
  | .nibCell .. | .brushCell .. | .tileWord .. => .d
  | _ => .o

/-- Whether a context consents to debug access (R375); nothing bound needs no consent. -/
def consents (s : State) : Option Nat → Bool
  | some c => (getCtx s c).dbgen
  | none => true

/-- The context that maps an HBM page, by device page number, as its page or as a mirror. -/
def pageOwner (s : State) (page : Nat) : Option Nat :=
  (s.ctxs.find? (fun c => c.2.pages.any (fun p =>
    p.2.kind == 0 && (p.2.dev == page || p.2.mirror == some page)))).map (·.1)

/-- The context whose consent an access needs (R375, R404). -/
def ownerOf (s : State) : Loc → Option Nat
  | .bead i _ => beadCtx (getBead s i)
  | .brush k _ => brushCtx (getBrush s k)
  | .nibCell i _ _ => beadCtx (getBead s i)
  | .brushCell k _ _ => brushCtx (getBrush s k)
  | .tileWord i _ _ _ => beadCtx (getBead s i)
  | .dbgwin o =>
    let a := s.spine.dbgBase.toNat * 2 ^ 20 + o
    match regionOf a with
    | .hbm .. => pageOwner s (a / 2 ^ 21)
    | .folio i _ => beadCtx (getBead s i)
    | .reservoir k _ => brushCtx (getBrush s k)
    | .ink k _ => brushCtx (getBrush s k)
    | _ => none
  | _ => none

/-- Whether a location lies in the spine blocks, which every power state but Off serves (R382). -/
def isSpineLoc : Loc → Bool
  | .spine _ => true | .stroke _ => true | .port .. => true | .ledger _ => true | .sec _ => true | .pwr _ => true
  | _ => false

/-- Whether the power state serves an access (R382). -/
def powerServes (s : State) (l : Loc) : Bool :=
  s.pwr.st == .run || isSpineLoc l || (s.pwr.st == .hold && match l with
    | .dbgwin o => (match regionOf (s.spine.dbgBase.toNat * 2 ^ 20 + o) with | .hbm .. => true | _ => false)
    | _ => false)

/-- Whether an access is granted (R370, R375, R382). The firmware is exempt. -/
def granted (s : State) (p : Path) (l : Loc) (write : Bool) : Bool :=
  p == .firmware || (powerServes s l && (match accClass l with
    | .n => !write
    | .o => if write then debugLevel s ≥ 2 else debugLevel s ≥ 1
    | .d => debugLevel s ≥ 2 && consents s (ownerOf s l)))

/-- SEC_DENY_COUNT raised by 1 (R370). -/
def deny (s : State) : State := { s with sec := { s.sec with denyCount := satInc s.sec.denyCount } }

/-- Whether the device serves accesses at all: its rails are up and it is out of reset. -/
def deviceUp (s : State) : Bool := s.pins.rails && !s.pins.inReset

/-- The answer to a read recorded for its path; over JTAG it leaves through TDO (R370). -/
def answerPath (s : State) (p : Path) (v : W32) : State :=
  match p with
  | .bar0 => { s with answers := { s.answers with bar0 := v } }
  | .jtag => { s with answers := { s.answers with jtag := v }, tap := { s.tap with tdo := v } }
  | .firmware => { s with answers := { s.answers with firmware := v } }

/-- The context of one access judged and performed: reserved and absent places first (R5, R397), then the grant. -/
def guardAccess (s : State) (p : Path) (l : Loc) (write : Bool) (go : State → State) (none_ : State → State) : State :=
  match l with
  | .reserved => none_ s
  | .absent t a => none_ (logSlate s 0x01 t (BitVec.ofNat 32 ((0x018000000000 + a) / 0x10000)))
  | _ => if granted s p l write then go s else none_ (deny s)

/-- A latching read's side effect (R67, R308, R400): the upper half of the counter is latched. -/
def latchRead (s : State) : Loc → State
  | .bead i 0x38 => latchTick s i
  | .slate t 0x08 => modSlate s t (fun x => { x with tickHi := (x.tick >>> 32).truncate 32 })
  | .stroke 0x0C => { s with stroke := { s.stroke with countHi := (s.stroke.count >>> 32).truncate 8 } }
  | _ => s

/-- A direct control-space read of one word (R401): windows are read by their own operation. -/
def spaceRead (s : State) (p : Path) (l : Loc) : State :=
  if deviceUp s then
    guardAccess s p l false (fun s => latchRead (answerPath s p (locRead s l)) l) (fun s => answerPath s p 0)
  else s

end Sys2Proof.Machine
end

