-- ==== Sys2Proof/Machine/BeadEvents.lean ====
section
/-! DEFINITION. Events within a bead: transfers and fences completing, nib drains, imprecise faults, waking, timers and
interrupts (R66, R67, R81, R129, R130, R138, R159, R270, R411). An event whose condition does not hold leaves the state
as it is (log 36). -/

namespace Sys2Proof.Machine

/-- A hand reference as bead number and hand. -/
def handNo (h : HandRef) : Nat × Nat := (beadNo h.br, h.hand.val)

/-- Whether bead i runs: its Slate runs, it stands on a site and is not held in reset. -/
def beadRuns (s : State) (i : Nat) : Bool := slateRuns s (i / 256) && beadExists s i && !(getBead s i).held

/-- The transfer that keeps a hand's line open replaced. -/
def putTransfer (s : State) (i h : Nat) (t : Transfer) : State :=
  modHand s i h (fun x => { x with openLine := x.openLine.map (fun l =>
    { l with why := l.why.map (fun w => match w with | .transfer _ => .transfer t | _ => w) }) })

/-- Whether a pending item is a transfer. -/
def isTransfer : Pending → Bool
  | .transfer _ => true
  | _ => false

/-- NIB_DRAIN (R138). -/
def execNibDrain (b : BeadRef) (s : State) : Host.Outcome State Fault Refusal :=
  .next (if beadRuns s (beadNo b) then drainLands s (beadNo b) else s)

/-- IMPRECISE_FAULT (R411): a remote parity error of a line that has retired. -/
def execImpreciseFault (h : HandRef) (slot : BitVec 3) (dev : Bool) (len : BitVec 3) (sfa : W32) (s : State) :
    Host.Outcome State Fault Refusal :=
  let (i, k) := handNo h
  .next (if beadRuns s i then
      impreciseFault s i k { cause := 0x06, slot := slot, imprecise := true, dev := dev, len := len, sfa := sfa }
    else s)

/-- Whether a sleeping hand's wake condition holds (R66), with its STATE.WAKE code. -/
def wakeCode (s : State) (i k : Nat) : Option (BitVec 3) :=
  let b := getBead s i
  let x := handOf b k
  let mine (p : Bead → Nat → Nat) (ok : Nat → Bool) : Bool :=
    (List.range 4).any (fun c => x.sleepMask.getLsbD c && chanEn b c && p b c == k && ok (chanQ b c).length)
  match x.st with
  | .sleeping .twait => if x.latch.valid && x.latch.sat then some 0 else none
  | .sleeping .crecv => if mine chanDst (0 < ·) then some 2 else none
  | .sleeping .csend => if mine chanSrc (· < 2) then some 2 else none
  | .sleeping .nwait => if b.core.notices.isEmpty then none else some 4
  | _ => none

/-- HAND_WAKE (R66, R411): a sleeping hand whose wake condition holds becomes Running; its line issues again. -/
def execHandWake (h : HandRef) (s : State) : Host.Outcome State Fault Refusal :=
  let (i, k) := handNo h
  .next (if beadRuns s i then
      match wakeCode s i k with
      | some c => deliverWoken s i (modHand s i k (fun x => wakeHand x c))
      | none => s
    else s)

/-- A timer that matches (R67, R68, R83): ARM clears, TFIRED sets, a sleeping hand wakes under WAKE, a notice is posted
under NOTIFY. A hand halted in SLEEP wakes when it is released (R377). -/
def timerMatch (s : State) (i k : Nat) : State :=
  let x := getHand s i k
  let wake := x.tctl.getLsbD 3
  let y := { x with tctl := (x.tctl &&& ~~~1) ||| 4 }
  let y := match y.st with
    | .sleeping _ => if wake then wakeHand y 1 else y
    | .halted .sleeping => if wake then { y with st := .halted .running, wake := 1 } else y
    | _ => y
  let s := deliverWoken s i (putHand s i k y)
  if x.tctl.getLsbD 1 && !x.tctl.getLsbD 2 then
    postNotice s i ⟨4 + k, noticeWord0 3 k 0 0, x.tcmp.truncate 32, 0, noticeTick s i⟩
  else s

/-- TIMER_MATCH (R67): acts while TCTL.ARM = 1 and the Slate tick counter is at least TCMP. -/
def execTimerMatch (h : HandRef) (s : State) : Host.Outcome State Fault Refusal :=
  let (i, k) := handNo h
  let x := getHand s i k
  .next (if beadRuns s i && x.tctl.getLsbD 0 && x.tcmp ≤ slateTick s i then timerMatch s i k else s)

/-- INTERRUPT_ASSERT (R81). -/
def execInterruptAssert (b : BeadRef) (src : Fin 8) (detail : W32) (s : State) : Host.Outcome State Fault Refusal :=
  .next (if beadRuns s (beadNo b) then setInterrupt s (beadNo b) src.val detail else s)

/-- Whether the condition of a FENCE holds for its hand or, for kind 3, for every hand of the bead (R270): nothing below
its number is in flight, the merging buffer's earlier entries have drained, and its quill slots are done. -/
def fenceHolds (b : Bead) (k : Nat) (kind : Nat) (seq : Nat) (qs : List (Fin 8)) : Bool :=
  let hs := if kind = 3 then List.range 4 else [k]
  let waits (r : DevReq) : Bool := r.seq < seq && (match r.op with
    | .load .. => 1 ≤ kind
    | .atomic .. => 1 ≤ kind || r.served.isNone
    | .store _ => true)
  hs.all (fun h => !(handOf b h).reqs.any waits)
    && !b.blot.merge.any (fun m => m.seq < seq)
    && !qs.any (fun q => (mapGet (fun _ => {}) b.quills q.val : QuillSlot).busy)

/-- FENCE_COMPLETE (R270). A slot that a later descriptor has taken since counts as still busy (log 37). -/
def execFenceComplete (h : HandRef) (s : State) : Host.Outcome State Fault Refusal :=
  let (i, k) := handNo h
  let done (w : Pending) : Bool := match w with
    | .fence kind seq qs => fenceHolds (getBead s i) k kind.val seq qs
    | _ => false
  .next (match (getHand s i k).openLine with
    | some l => if beadRuns s i && l.why.any done then closePending s i k done [] else s
    | none => s)

/-- BLSW_SCAN_END (R159): with the merging buffer empty, every line is invalid and the scanning lines retire. -/
def execBlswScanEnd (b : BeadRef) (s : State) : Host.Outcome State Fault Refusal :=
  let i := beadNo b
  let scans (x : Hand) : Bool := match x.openLine with | some l => l.why.contains .scan | none => false
  let hs := (List.range 4).filter (fun k => scans (getHand s i k))
  .next (if beadRuns s i && !hs.isEmpty && (getBead s i).blot.merge.isEmpty then
      let s := modBead s i (fun b => { b with blot := { b.blot with ways := [] } })
      hs.foldl (fun s k => closePending s i k (fun w => w == .scan) []) s
    else s)

end Sys2Proof.Machine
end

