-- ==== Sys2Proof/Machine/Fetch.lean ====
section
/-! DEFINITION. A hand's own fetch (R60, R61, R92 to R94, R98, R120): the glyph that a word of the folio spells, the line
at the PC, the hand that issues in a tick, and what the sentinel image does with a keeper fault (R86). -/

namespace Sys2Proof.Machine

/-- The A-slot glyph of an opcode (R106); BLSW is told apart by ACC[1:0] (R159). -/
def glyphA (h : HandRef) (st : Bool) (o : BitVec 22) (acc : W64) (op : Nat) : Option Instr :=
  match op with
  | 0x02 => some (.xld h st .x0 o)
  | 0x03 => some (.xld h st .x1 o)
  | 0x04 => some (.xst h st .x0 o)
  | 0x05 => some (.xst h st .x1 o)
  | 0x06 => some (.xaddi h st .x0 o)
  | 0x07 => some (.xaddi h st .x1 o)
  | 0x08 => some (.xlea h st .x0 o)
  | 0x09 => some (.xlea h st .x1 o)
  | 0x0A => some (.xmuli h st .x0 o)
  | 0x0B => some (.xmuli h st .x1 o)
  | 0x0C => some (.xacc h st .x0 o)
  | 0x0D => some (.xacc h st .x1 o)
  | 0x0E => some (.xandi h st .x0 o)
  | 0x0F => some (.xandi h st .x1 o)
  | 0x10 => some (.fpaddi h st o)
  | 0x11 => some (.fpld h st o)
  | 0x12 => some (.fpst h st o)
  | 0x13 => some (.fpacc h st o)
  | 0x14 => some (.fplea h st o)
  | 0x18 => some (.blcln h st o)
  | 0x19 => some (.blinv h st o)
  | 0x1A => some (.blci h st o)
  | 0x1B => match fld acc.toNat 1 0 with
    | 0 => some (.blswClean h st o)
    | 1 => some (.blswInvalidate h st o)
    | 2 => some (.blswCleanInvalidate h st o)
    | _ => some (.blswAll h st o)
  | 0x1C => some (.pref h st o)
  | _ => none

/-- The S-slot glyph of an opcode (R107). -/
def glyphS (h : HandRef) (st : Bool) (o : BitVec 22) (op : Nat) : Option Instr :=
  match op with
  | 0x01 => some (.ld h st o)
  | 0x02 => some (.ldw h st o)
  | 0x03 => some (.ldwu h st o)
  | 0x04 => some (.ldh h st o)
  | 0x05 => some (.ldhu h st o)
  | 0x06 => some (.ldb h st o)
  | 0x07 => some (.ldbu h st o)
  | 0x08 => some (.st h st o)
  | 0x09 => some (.stw h st o)
  | 0x0A => some (.sth h st o)
  | 0x0B => some (.stb h st o)
  | 0x10 => some (.add h st o)
  | 0x11 => some (.sub h st o)
  | 0x12 => some (.mul h st o)
  | 0x13 => some (.mulhs h st o)
  | 0x14 => some (.mulhu h st o)
  | 0x15 => some (.div h st o)
  | 0x16 => some (.divu h st o)
  | 0x17 => some (.rem h st o)
  | 0x18 => some (.remu h st o)
  | 0x19 => some (.and_ h st o)
  | 0x1A => some (.or_ h st o)
  | 0x1B => some (.xor_ h st o)
  | 0x1C => some (.shl h st o)
  | 0x1D => some (.shr h st o)
  | 0x1E => some (.sar h st o)
  | 0x1F => some (.cmp h st o)
  | 0x20 => some (.tst h st o)
  | 0x21 => some (.min h st o)
  | 0x22 => some (.max h st o)
  | 0x23 => some (.minu h st o)
  | 0x24 => some (.maxu h st o)
  | 0x28 => some (.shlori h st o)
  | 0x29 => some (.neg h st o)
  | 0x2A => some (.not_ h st o)
  | 0x2B => some (.abs h st o)
  | 0x2C => some (.clz h st o)
  | 0x2D => some (.popc h st o)
  | 0x2E => some (.rget h st o)
  | 0x2F => some (.fswput h st o)
  | 0x30 => some (.pswput h st o)
  | 0x31 => some (.crd h st o)
  | 0x32 => some (.cwr h st o)
  | 0x38 => some (.aadd h st o)
  | 0x39 => some (.aswp h st o)
  | 0x3A => some (.acas h st o)
  | 0x3B => some (.amin h st o)
  | 0x3C => some (.amax h st o)
  | 0x3D => some (.aor h st o)
  | 0x3E => some (.aand h st o)
  | _ => none

/-- The V-slot glyph of an opcode (R132). -/
def glyphV (h : HandRef) (st : Bool) (o : BitVec 22) (op : Nat) : Option Instr :=
  match op with
  | 0x01 => some (.vadd h st o)
  | 0x02 => some (.vsub h st o)
  | 0x03 => some (.vmul h st o)
  | 0x04 => some (.vfma h st o)
  | 0x05 => some (.vfnma h st o)
  | 0x06 => some (.vmin h st o)
  | 0x07 => some (.vmax h st o)
  | 0x08 => some (.vabs h st o)
  | 0x09 => some (.vneg h st o)
  | 0x0A => some (.vcmp h st o)
  | 0x0B => some (.vbsl h st o)
  | 0x0C => some (.vand h st o)
  | 0x0D => some (.vor h st o)
  | 0x0E => some (.vxor h st o)
  | 0x0F => some (.vmov h st o)
  | 0x10 => some (.vcvt h st o)
  | 0x11 => some (.vcadd h st o)
  | 0x12 => some (.vcrnd h st o)
  | 0x13 => some (.vrsum h st o)
  | 0x14 => some (.vgetl h st o)
  | 0x15 => some (.vputl h st o)
  | 0x16 => some (.vbcast h st o)
  | 0x18 => some (.vexp h st o)
  | 0x19 => some (.vlog2 h st o)
  | 0x1A => some (.vrcp h st o)
  | 0x1B => some (.vrsq h st o)
  | 0x1C => some (.vtanh h st o)
  | 0x1D => some (.verf h st o)
  | _ => none

/-- The M-slot glyph of an opcode (R140). -/
def glyphM (h : HandRef) (st : Bool) (o : BitVec 22) (op : Nat) : Option Instr :=
  match op with
  | 0x01 => some (.tld h st o)
  | 0x02 => some (.tstore h st o)
  | 0x03 => some (.tzero h st o)
  | 0x04 => some (.tcfg h st o)
  | 0x08 => some (.nset h st o)
  | 0x09 => some (.nget h st o)
  | 0x0A => some (.nopen h st o)
  | 0x10 => some (.nmac h st o)
  | 0x11 => some (.ndrn h st o)
  | _ => none

/-- The Q-slot glyph of an opcode (R111). -/
def glyphQ (h : HandRef) (st : Bool) (o : BitVec 22) (op : Nat) : Option Instr :=
  match op with
  | 0x01 => some (.send h st o)
  | 0x02 => some (.sendm h st o)
  | 0x03 => some (.sendl h st o)
  | 0x04 => some (.recv h st o)
  | 0x05 => some (.qpoll h st o)
  | 0x06 => some (.qcred h st o)
  | 0x08 => some (.toksend h st o)
  | 0x09 => some (.tokrecv h st o)
  | 0x10 => some (.twait h st o)
  | 0x11 => some (.tadd h st o)
  | 0x12 => some (.tinc h st o)
  | 0x13 => some (.tread h st o)
  | 0x18 => some (.trpush h st o)
  | 0x19 => some (.trpop h st o)
  | 0x1A => some (.trsteal h st o)
  | 0x20 => some (.quill h st o)
  | 0x21 => some (.quillst h st o)
  | 0x28 => some (.fence h st o)
  | 0x30 => some (.cwld h st o)
  | 0x31 => some (.cwst h st o)
  | 0x32 => some (.cwadd h st o)
  | 0x33 => some (.cwswp h st o)
  | 0x34 => some (.csend h st o)
  | 0x35 => some (.crecv h st o)
  | 0x36 => some (.sleep h st o)
  | 0x38 => some (.nwait h st o)
  | 0x39 => some (.npop h st o)
  | _ => none

/-- The B-slot glyph of an opcode (R109). -/
def glyphB (h : HandRef) (st : Bool) (o : BitVec 22) (op : Nat) : Option Instr :=
  match op with
  | 0x01 => some (.nop h st o)
  | 0x02 => some (.br h st o)
  | 0x03 => some (.jr h st o)
  | 0x04 => some (.call h st o)
  | 0x05 => some (.callr h st o)
  | 0x06 => some (.ret h st o)
  | 0x08 => some (.loop h st o)
  | 0x09 => some (.loopi h st o)
  | 0x0A => some (.lexit h st o)
  | 0x10 => some (.gate h st o)
  | 0x11 => some (.gret h st o)
  | 0x12 => some (.rete h st o)
  | 0x13 => some (.brk h st o)
  | 0x14 => some (.hstart h st o)
  | 0x15 => some (.hstop h st o)
  | 0x16 => some (.hresume h st o)
  | 0x17 => some (.hkill h st o)
  | _ => none

/-- The glyph that a word spells for a hand (R92), where its slot lists its opcode; `acc` tells the operations of BLSW
apart. -/
def decodeGlyph (h : HandRef) (acc : W64) (w : W32) : Option Instr :=
  let st := w.getLsbD 31
  let o : BitVec 22 := w.truncate 22
  let op := fld w.toNat 27 22
  match fld w.toNat 30 28 with
  | 0 => glyphA h st o acc op
  | 1 => glyphS h st o op
  | 2 => glyphV h st o op
  | 3 => glyphM h st o op
  | 4 => glyphQ h st o op
  | 5 => glyphB h st o op
  | _ => none

/-- A word of a line as the bead forms it (R92 to R94, R120): the glyph it spells, else one of a form that nothing
satisfies, which raises RSVD in its slot, or makes the line illegal where its slot code is 6 or 7. -/
def lineGlyph (h : HandRef) (acc : W64) (w : W32) : LineGlyph :=
  let c := decodeGlyph h acc w
  match c.bind glyphOf with
  | some g => (g, c)
  | none => ({ hand := h, stop := w.getLsbD 31, slot := fld w.toNat 30 28, op := fld w.toNat 27 22, opd := w.truncate 22
               form := .unlisted, writes := 0, reads := 0 }, none)

/-- The words of the line at an address of a folio: up to the first with the STOP bit, or six (R94). -/
def lineWords (s : State) (i pc : Nat) : Nat → List W32
  | 0 => []
  | n + 1 =>
    let w := BitVec.ofNat 32 (loadNat s (folioBase i + pc) 4)
    if w.getLsbD 31 then [w] else w :: lineWords s i (pc + 4) n

/-- A hand of a bead by number. -/
def handRef (i h : Nat) : HandRef :=
  ⟨⟨⟨i / 256 % 4, Nat.mod_lt _ (by decide)⟩, ⟨i % 256, Nat.mod_lt _ (by decide)⟩⟩, ⟨h % 4, Nat.mod_lt _ (by decide)⟩⟩

/-- Whether a hand stands in the sentinel image, whose words the spec does not give: at sentinel level on a word of the
sentinel region that nothing has been written to (log 159). -/
def inImage (s : State) (i : Nat) (x : Hand) : Bool :=
  pswPl x.psw ≥ 2 && x.pc.toNat < 0x8000 && loadNat s (folioBase i + x.pc.toNat) 4 == 0

/-- Whether a hand fetches for itself (R60; log 54): it is Running, has no line open, no glyph or line of it has been
handed over, and it does not stand in the sentinel image. -/
def fetches (s : State) (i : Nat) (x : Hand) : Bool :=
  x.st == .running && x.openLine.isNone && x.line.isEmpty && x.heldLine.isEmpty && !inImage s i x

/-- One hand's turn in a tick (R60): where it fetches, the line at its PC is tried. The Bool says that it has issued. -/
def handTurn (s : State) (i h : Nat) : Bool × State :=
  let x := getHand s i h
  if fetches s i x then
    let ws := lineWords s i x.pc.toNat 6
    let r := tryLine s i h (ws.map (lineGlyph (handRef i h) x.acc))
    (r.1, modHand r.2 i h (fun y => { y with heldLine := [] }))
  else (false, s)

/-- The hands of a bead examined in turn until one issues (R61). -/
def roundRobin (s : State) (i : Nat) : List Nat → State
  | [] => s
  | h :: hs =>
    let r := handTurn s i h
    if r.1 then r.2 else roundRobin r.2 i hs

/-- One tick of a bead's hands: keeper faults meet the sentinel image (R86; log 159), lines that waited for room retire
(R129), and the first ready hand after the pointer issues (R61). -/
def tickBead (s : State) (i : Nat) : State :=
  let b := getBead s i
  let s := [1, 2, 3].foldl (fun s h => if inImage s i (getHand s i h) then sentinelStops s i h else s) s
  let s := (List.range 4).foldl (fun s h => closePending s i h (fun w => w == .room) []) s
  roundRobin s i ((List.range 4).map (fun k => (b.core.lastIssue.val + 1 + k) % 4))

end Sys2Proof.Machine
end

