-- ==== Sys2Proof/Machine/Tallies.lean ====
section
/-! DEFINITION. The tally unit (R257 to R263): raises, waits, reads and wakes. -/

namespace Sys2Proof.Machine

/-- Whether a physical tally lies in the block of some context (R257). -/
def tallyHeld (s : State) (t p : Nat) : Bool :=
  (List.range 64).any (fun c => match tallyBlock s t c with
    | some (base, n) => base ≤ p && p < base + n
    | none => false)

/-- A wake put on its way to a waiter's hand (R261). -/
def sendWake (u : TallyUnit) (w : Waiter) : TallyUnit := { u with wakes := u.wakes ++ [⟨w.bead, w.hand, w.tally, w.target, none⟩] }

/-- A raise that takes effect (R258, R261): the value rises modulo 2^48, and every waiter that it satisfies leaves with a
wake. A raise of a tally that no context holds is discarded (R263). -/
def raiseTally (s : State) (t p : Nat) (amount : BitVec 48) : State :=
  if tallyHeld s t p then
    let v := tallyValue s t p + amount
    let hit (w : Waiter) : Bool := w.tally == p && tallyMeets v w.target
    modTally s t (fun u =>
      let u := { u with values := mapPut u.values p v }
      let u := (u.waiters.filter hit).foldl sendWake u
      { u with waiters := u.waiters.filter (fun w => !hit w) })
  else s

/-- TALLY_RAISE (R259): the n-th raise under way takes effect. -/
def execTallyRaise (sl : Fin 4) (n : Nat) (s : State) : Host.Outcome State Fault Refusal :=
  let t := sl.val
  .next (match (getSlate s t).tallies.raises[n]? with
    | some r =>
      if slateRuns s t then
        raiseTally (modTally s t (fun u => { u with raises := listDrop u.raises n })) t r.tally r.amount
      else s
    | none => s)

/-- Whether the first raise of a hand's queue is released (R262): the stores, atomics and merging-buffer entries before
it are done. -/
def raiseFree (b : Bead) (x : Hand) (r : RaiseReq) : Bool :=
  !x.reqs.any (fun q => q.seq < r.seq && (match q.op with
    | .load .. => false
    | .store _ => true
    | .atomic .. => q.served.isNone))
    && !b.blot.merge.any (fun m => m.seq < r.seq)

/-- RAISE_RELEASE (R262). -/
def execRaiseRelease (h : HandRef) (s : State) : Host.Outcome State Fault Refusal :=
  let (i, k) := handNo h
  let x := getHand s i k
  .next (match x.raises with
    | r :: rs =>
      if beadRuns s i && raiseFree (getBead s i) x r then
        queueRaise (putHand s i k { x with raises := rs }) (i / 256) r.tally r.amount
      else s
    | [] => s)

/-- A wait or read request tested at the tally unit (R259, R261), which keeps one waiter entry for each hand. A request
for a tally that no context holds any more ends at once, so that the hand issues its line again (R263). -/
def tallyAsk (s : State) (i k : Nat) (l : TallyLatch) : State :=
  let t := i / 256
  let p := l.tally.toNat
  let me : Waiter := ⟨⟨i % 256, Nat.mod_lt _ (by decide)⟩, ⟨k % 4, Nat.mod_lt _ (by decide)⟩, p, l.target⟩
  let s := modHand s i k (fun x => { x with latch := { x.latch with asked := false } })
  modTally s t (fun u =>
    let u := { u with waiters := u.waiters.filter (fun w => !(w.bead == me.bead && w.hand == me.hand)) }
    if l.read then { u with wakes := u.wakes ++ [⟨me.bead, me.hand, p, l.target, some (tallyValue s t p)⟩] }
    else if !tallyHeld s t p || tallyMeets (tallyValue s t p) l.target then sendWake u me
    else { u with waiters := u.waiters ++ [me] })

/-- TALLY_WAIT_REQUEST (R261). -/
def execTallyWaitRequest (h : HandRef) (s : State) : Host.Outcome State Fault Refusal :=
  let (i, k) := handNo h
  let l := (getHand s i k).latch
  .next (if beadRuns s i && l.valid && l.asked then tallyAsk s i k l else s)

/-- The latch of a hand as a wake leaves it (R261). -/
def latchWoken (l : TallyLatch) (v : Option (BitVec 48)) : TallyLatch :=
  { l with sat := true, target := v.getD l.target }

/-- Whether a wake answers the request that a latch holds (R261); the wake of an earlier request sets nothing. -/
def wakeMeant (l : TallyLatch) (w : TallyWakeMsg) : Bool :=
  l.valid && l.tally.toNat == w.tally && (if l.read then w.value.isSome else w.value.isNone && l.target == w.target)

/-- TALLY_WAKE (R261): the oldest wake on its way to the hand. -/
def execTallyWake (h : HandRef) (s : State) : Host.Outcome State Fault Refusal :=
  let (i, k) := handNo h
  let t := i / 256
  let mine (w : TallyWakeMsg) : Bool := w.bead.val == i % 256 && w.hand.val == k
  .next (match (getSlate s t).tallies.wakes.find? mine with
    | some w =>
      if beadRuns s i then
        let n := (getSlate s t).tallies.wakes.findIdx mine
        let s := modTally s t (fun u => { u with wakes := listDrop u.wakes n })
        deliverWoken s i <| modHand s i k (fun x =>
          if !wakeMeant x.latch w then x
          else
            let x := { x with latch := latchWoken x.latch w.value }
            if x.st = .sleeping .twait then wakeHand x 0 else x)
      else s
    | none => s)

end Sys2Proof.Machine
end

