-- ==== Sys2Proof/Machine/MemEvents.lean ====
section
/-! DEFINITION. Device-address requests at their homes and on their way back (R142, R144, R151, R154, R167, R170, R264,
R267, R345), the merging buffer's drains, and the end of a blotter switch (R146). The return of a load stands in
Recovery.lean, beside the restart that an uncured parity error causes. -/

namespace Sys2Proof.Machine

/-- Bytes that a request touches. -/
def reqBytes (r : DevReq) : Nat :=
  match r.op with
  | .load n _ => n | .store bs => bs.length | .atomic .. => 8

/-- The range of device addresses that a request touches. -/
def reqSpan (r : DevReq) : Nat × Nat := (r.pa, r.pa + reqBytes r)

/-- Whether a request may be performed at its home: no earlier request of its hand to the same address is outstanding
there (R268), and no earlier merging-buffer entry holds its line (R155, R157). -/
def reqTurn (b : Bead) (x : Hand) (r : DevReq) : Bool :=
  !x.reqs.any (fun q => q.seq < r.seq && q.served.isNone && !q.refused && overlaps (reqSpan q) (reqSpan r))
    && !(inHbm r.pa && b.blot.merge.any (fun m => m.line == r.pa / 64 && m.seq < r.seq))

/-- The request numbered seq of a hand changed. -/
def modReq (s : State) (i k seq : Nat) (f : DevReq → DevReq) : State :=
  modHand s i k (fun x => { x with reqs := x.reqs.map (fun q => if q.seq = seq then f q else q) })

/-- The request numbered seq of a hand removed. -/
def dropReq (s : State) (i k seq : Nat) : State :=
  modHand s i k (fun x => { x with reqs := x.reqs.filter (fun q => q.seq != seq) })

/-- A Slate that does not serve a device address, by error-log cause and number (R5, R21). -/
def homeRefuses (s : State) (i pa : Nat) : Option (Nat × Nat) :=
  match regionSlate (regionOf pa) with
  | some t => (slateRefuses s (some (i / 256)) t).map (fun c => (c, t))
  | none => none

/-- A request that its home's Slate refuses, with the record that the spine writes (R5, R21). -/
def refuseReq (s : State) (i k : Nat) (r : DevReq) (c t : Nat) : State :=
  modReq (logSlate s c t (BitVec.ofNat 32 (r.va.toNat / 65536))) i k r.seq (fun q => { q with refused := true })

/-- An operation performed on plain memory at a home (R267, R269): what is served, and the state. -/
def performPlain (s : State) (r : DevReq) : List W8 × State :=
  match r.op with
  | .load n _ => (loadBytes s r.pa n, s)
  | .store bs => ([], hbmWrite s r.pa r.mirror bs)
  | .atomic op a b =>
    let old := BitVec.ofNat 64 (loadNat s r.pa 8)
    (loadBytes s r.pa 8, hbmWrite s r.pa r.mirror (toBytes 8 (atomNew op old a b).toNat))

/-- A request performed at a home other than HBM (R142, R144, R170, R177, R264), or left as it is while it has to wait
there. Reservoir stores join the writes waiting at the brush; an access through another context than the brush is bound to
by now is refused (R188). -/
def serveAway (s : State) (i k : Nat) (r : DevReq) (bad : Bool) : State :=
  let seq := r.seq
  let b := getBead s i
  let refuse (s : State) : State := modReq s i k seq (fun q => { q with refused := true })
  let done (p : List W8 × State) : State := modReq p.2 i k seq (fun q => { q with served := some p.1 })
  let isStore := match r.op with | .store _ => true | _ => false
  let plain (_ : Unit) : State :=
    if !isStore && (bad || (parityFind s.parity r.pa (reqBytes r)).isSome) then
      modReq s i k seq (fun q => { q with served := some [], bad := true })
    else done (performPlain s r)
  let brush (kb : Nat) (res : Bool) : State :=
    if brushRefuses s kb || brushCtx (getBrush s kb) != r.ctx then refuse s
    else if (getBrush s kb).zeroing then s
    else match res, r.op with
      | true, .store bs => done ([], joinTap s kb { pa := r.pa, data := bs })
      | _, _ => if tapHolds s r.pa (reqBytes r) then s else plain ()
  match homeRefuses s i r.pa with
  | some (c, t) => refuseReq s i k r c t
  | none =>
    match regionOf r.pa with
    | .folio j off => if folioRefuses s j off (reqBytes r) then refuse s else plain ()
    | .reservoir kb _ => brush kb true
    | .ink kb _ => brush kb false
    | .tally .. =>
      match tallyWindow s (beadCtx b) r.va.toNat (reqBytes r), r.op with
      | some (t, p, up), .store bs =>
        done ([], if up then raiseTally s t p (BitVec.ofNat 48 (ofBytes bs)) else s)
      | some (t, p, up), _ => done (if up then toBytes 8 0 else toBytes 8 (tallyValue s t p).toNat, s)
      | none, _ => refuse s
    | .control _ => s
    | .hbm .. => s
    | .reserved => refuse s

/-- A request of a hand performed at its home, if it is its turn (R142, R267, R268). -/
def perform (s : State) (i k : Nat) (r : DevReq) (bad : Bool) : State :=
  let b := getBead s i
  if r.served.isSome || r.refused || !reqTurn b (handOf b k) r then s
  else if inHbm r.pa then
    match homeRefuses s i r.pa with
    | some (c, t) => refuseReq s i k r c t
    | none =>
    match r.op with
    | .store _ => modReq (performPlain s r).2 i k r.seq (fun q => { q with served := some [] })
    | _ =>
      match hbmRead s r.pa (reqBytes r) r.mirror bad with
      | (none, s) => modReq s i k r.seq (fun q => { q with served := some [], bad := true })
      | (some bs, s) =>
        let s := match r.op with
          | .atomic .. => (performPlain s r).2
          | _ => s
        modReq s i k r.seq (fun q => { q with served := some bs })
  else serveAway s i k r bad

/-- The n-th request of a hand, if its bead runs. -/
def reqAt (s : State) (i k n : Nat) : Option DevReq := if beadRuns s i then (getHand s i k).reqs[n]? else none

/-- The request numbered seq of a hand. -/
def reqBySeq (s : State) (i k seq : Nat) : Option DevReq := (getHand s i k).reqs.find? (fun q => q.seq == seq)

/-- The fault that a failed request gives its hand: precise where the line that waits for its operand is still open
(R77, R411), else imprecise. A dead request gives none (R84). -/
def reqFault (s : State) (i k : Nat) (r : DevReq) (cause : Nat) : State :=
  let sfa := BitVec.ofNat 32 (r.va.toNat / 65536)
  match r.op with
  | .load _ (.alu _) => faultOpen s i k 1 { cause := cause, sfa := sfa, dev := true }
  | _ =>
    if r.dead then s
    else impreciseFault s i k { cause := BitVec.ofNat 8 cause, slot := r.slot, imprecise := true, dev := true,
                                len := r.len, sfa := sfa }

/-- REMOTE_REQUEST_SERVE (R144): a home other than an HBM stack serves or refuses a request. -/
def execRemoteRequestServe (h : HandRef) (n : Nat) (s : State) : Host.Outcome State Fault Refusal :=
  let (i, k) := handNo h
  .next (match reqAt s i k n with
    | some r => if inHbm r.pa then s else perform s i k r false
    | none => s)

/-- Whether a store that its home has taken is still waiting at a brush (R170). -/
def storeWaits (s : State) (r : DevReq) : Bool :=
  tapHolds s r.pa (reqBytes r)

/-- STORE_ACKNOWLEDGE (R267): a store is performed if it has not been, and leaves once it is acknowledged; an atomic is
performed and stays until its old value has returned. -/
def execStoreAcknowledge (h : HandRef) (n : Nat) (s : State) : Host.Outcome State Fault Refusal :=
  let (i, k) := handNo h
  .next (match reqAt s i k n with
    | none => s
    | some r =>
      match r.op with
      | .load .. => s
      | .atomic .. =>
        let s := perform s i k r false
        if r.dead then
          match reqBySeq s i k r.seq with
          | some q => if q.served.isSome || q.refused then dropReq s i k r.seq else s
          | none => s
        else s
      | .store _ =>
        let s := perform s i k r false
        match reqBySeq s i k r.seq with
        | some q =>
          if q.refused then reqFault (dropReq s i k r.seq) i k q 0x05
          else if q.served.isSome && !storeWaits s q then dropReq s i k r.seq
          else s
        | none => s)

/-- The data of a load or the old value of an atomic written to where it goes (R102, R104, R107). A dead request writes
nothing; the line that waits for a dead operand retires without it (R84). -/
def deliver (s : State) (i k : Nat) (r : DevReq) (bs : List W8) : State :=
  let word : W32 := BitVec.ofNat 32 (ofBytes bs)
  match r.op with
  | .load _ (.alu op) =>
    let x := getHand s i k
    if r.dead then closePending s i k (fun w => w == .operand) []
    else match aluWrites (aluEval op x.psw x.acc (extend false bs)) with
      | .ok l => closePending s i k (fun w => w == .operand) l
      | .error (.fault f) => faultOpen s i k 1 f
      | .error _ => s
  | .load _ (.acc _ signed) => if r.dead then s else modHand s i k (fun x => { x with acc := extend signed bs })
  | .load _ (.xr .x0) => if r.dead then s else modHand s i k (fun x => { x with x0 := word })
  | .load _ (.xr .x1) => if r.dead then s else modHand s i k (fun x => { x with x1 := word })
  | .load _ .fp => if r.dead then s else modHand s i k (fun x => { x with fp := word })
  | .atomic .. => if r.dead then s else modHand s i k (fun x => { x with acc := extend false bs })
  | .store _ => s

/-- A request that its home has answered leaves the hand: its data is delivered, or its fault taken. Answers whether an
uncured parity error was found. -/
def returnReq (s : State) (i k : Nat) (r : DevReq) : State × Bool :=
  let s := dropReq s i k r.seq
  if r.refused then (reqFault s i k r 0x05, false)
  else match r.served with
    | none => (s, false)
    | some bs =>
      if r.bad then
        let s := match regionOf r.pa with
          | .folio j off => noteBank s j (off / 0x10000)
          | _ => s
        (reqFault s i k r 0x06, true)
      else (deliver s i k r bs, false)

/-- The return of a load or atomic (R142, R167): one on a line that the blotter is filling returns with the fill (R151).
`bad` says that the data arrived with a parity error which re-reading and re-sending did not cure. -/
def loadReturn (s : State) (i k n : Nat) (bad : Bool) : State × Bool :=
  match reqAt s i k n with
  | none => (s, false)
  | some r =>
    let filling := inHbm r.pa && (getBead s i).blot.fills.any (fun f => f.line == r.pa / 64)
    match r.op, filling with
    | .store _, _ => (s, false)
    | .load .., true => (s, false)
    | _, _ =>
      let s := perform s i k r bad
      match reqBySeq s i k r.seq with
      | none => (s, false)
      | some q =>
        if q.refused then returnReq s i k q
        else match q.served with
          | none => (s, false)
          | some _ => returnReq s i k (if bad && !inHbm q.pa then { q with bad := true } else q)

/-- The loads that wait for a fill of a line, each with its hand, and ready when every earlier store to the line has
drained (R155). -/
def fillWaiters (s : State) (i line : Nat) : List (Nat × DevReq) :=
  (List.range 4).flatMap (fun k => ((getHand s i k).reqs.filter (fun r =>
    match r.op with
    | .load .. => inHbm r.pa && r.pa / 64 == line
    | _ => false)).map (fun r => (k, r)))

/-- The waiting loads of a filled line answered: with its bytes, or with the parity error that was not cured. -/
def answerFill (s : State) (i line : Nat) (data : Option (List W8)) (l : List (Nat × DevReq)) : State :=
  l.foldl (fun s p =>
    let n := reqBytes p.2
    let r := match data with
      | some bs => { p.2 with served := some ((bs.drop (p.2.pa - 64 * line)).take n) }
      | none => { p.2 with served := some [], bad := true }
    (returnReq s i p.1 r).1) s

/-- The fill entry of a line freed (R151). -/
def dropFill (b : Bead) (line : Nat) : Bead :=
  { b with blot := { b.blot with fills := b.blot.fills.filter (fun g => g.line != line) } }

/-- A filled line placed in the blotter with the bead's own later stores to it, which the merging buffer still holds
(R149, R155). -/
def placeFill (b : Bead) (f : Fill) (data : List W8) : Bead :=
  let b := dropFill b f.line
  let merged := (b.blot.merge.filter (fun m => m.line == f.line)).foldl (fun (l : List W8) m =>
    (List.range 64).map (fun k => if m.mask.getLsbD k then (m.data[k]?).getD 0 else (l[k]?).getD 0)) data
  if b.blot.size = 0 || (blotFind b f.line).isSome then b else placeLine b f.line f.age merged

/-- BLOTTER_FILL (R151, R167): the line returns; the loads that wait for it take their data, and it enters the blotter.
While a load still waits for an earlier store of its own bead to drain, the fill stays open. A Slate that has gone offline
meanwhile refuses the fill, and its loads take FBOUND (R21). -/
def execBlotterFill (b : BeadRef) (line : Nat) (bad : Bool) (s : State) : Host.Outcome State Fault Refusal :=
  let i := beadNo b
  .next (match (getBead s i).blot.fills.find? (fun f => f.line == line) with
    | none => s
    | some f =>
      if !beadRuns s i then s
      else
        let all := fillWaiters s i line
        match homeRefuses s i (64 * line) with
        | some (c, t) =>
          let s := modBead s i (fun b => dropFill b line)
          if all.isEmpty then s
          else
            let s := logSlate s c t (BitVec.ofNat 32 (64 * line / 65536))
            all.foldl (fun s p => (returnReq s i p.1 { p.2 with refused := true }).1) s
        | none =>
        let ready := all.filter (fun p => reqTurn (getBead s i) (getHand s i p.1) p.2)
        let (data, s) := hbmRead s (64 * line) 64 (mirrorOf s (64 * line)) bad
        let s := answerFill s i line data ready
        match data with
        | none =>
          if ready.length = all.length then
            modBead s i (fun b => dropFill b line)
          else s
        | some bs => if ready.length = all.length then modBead s i (fun b => placeFill b f bs) else s)

/-- MERGE_ENTRY_TIMEOUT (R154). -/
def execMergeEntryTimeout (b : BeadRef) (line : Nat) (s : State) : Host.Outcome State Fault Refusal :=
  let i := beadNo b
  .next (if beadRuns s i then modBead s i (fun b => startDrain b line) else s)

/-- Whether an earlier load or atomic of the bead to an entry's line has yet to reach HBM (R268). -/
def drainWaits (b : Bead) (m : MergeEntry) : Bool :=
  (List.range 4).any (fun k => (handOf b k).reqs.any (fun r =>
    r.seq < m.seq && r.served.isNone && !r.refused && inHbm r.pa && r.pa / 64 == m.line))

/-- The merging buffer without the entry numbered seq. -/
def dropEntry (b : Bead) (seq : Nat) : Bead :=
  { b with blot := { b.blot with merge := b.blot.merge.filter (fun m => m.seq != seq) } }

/-- MERGE_DRAIN_ACK (R154, R167): the oldest draining entry of the line is written and freed. One that fails its parity
check at the controller is sent again once, and is then discarded, with the XPARITY interrupt and a log record. One for a
Slate that is offline by now is refused: its store's hand takes FBOUND (R21; log 163). -/
def execMergeDrainAck (b : BeadRef) (line : Nat) (bad : Bool) (s : State) : Host.Outcome State Fault Refusal :=
  let i := beadNo b
  .next (match (getBead s i).blot.merge.find? (fun m => m.line == line && m.draining) with
    | none => s
    | some m =>
      if !beadRuns s i || drainWaits (getBead s i) m then s
      else match homeRefuses s i (64 * m.line) with
      | some (c, t) =>
        let sfa := BitVec.ofNat 32 (m.va.toNat / 65536)
        let s := logSlate (modBead s i (fun b => dropEntry b m.seq)) c t sfa
        impreciseFault s i m.hand.val { cause := 0x05, slot := m.slot, imprecise := true, dev := true, len := m.len, sfa := sfa }
      | none =>
      if !bad then modBead (writeEntry s m) i (fun b => dropEntry b m.seq)
      else if !m.resent then
        modBead s i (fun b => { b with blot := { b.blot with
          merge := b.blot.merge.map (fun e => if e.seq = m.seq then { e with resent := true } else e) } })
      else
        let s := modBead s i (fun b => dropEntry b m.seq)
        let s := raiseInt s i intXparity
        logUnit s 0x05 (i / 256) 1 0 (BitVec.ofNat 32 (64 * line / 65536)))

/-- The local ranges of the banks that enter a blotter growing from size a to size b. -/
def enteringBanks (a b : Nat) : Nat × Nat := (blotterBank b * 0x10000, blotterBank a * 0x10000)

/-- A blotter switch ended (R146): lines invalidated, the banks that leave the blotter zeroed, SIZE and PF new. -/
def endSwitch (s : State) (i : Nat) (size : BitVec 3) (pf : Bool) : State :=
  let old := (getBead s i).blot.size.toNat
  let f := folioBase i
  let s := if size.toNat < old then
      zeroRange s (f + blotterBank old * 0x10000) (f + blotterBank size.toNat * 0x10000)
    else s
  modBead s i (fun b => { b with blot := { b.blot with ways := [], fills := [], size := size, pf := pf, switching := none } })

/-- Whether a blotter switch has finished its step 2 (R146): no fill and no merging-buffer entry is left, and no quill
descriptor or drain names a bank that enters the blotter. -/
def switchDrained (b : Bead) (size : BitVec 3) : Bool :=
  b.blot.fills.isEmpty && b.blot.merge.isEmpty
    && !(heldRanges b).any (fun r => overlaps r (enteringBanks b.blot.size.toNat size.toNat))

/-- BLOT_SWITCH_END (R146). -/
def execBlotSwitchEnd (b : BeadRef) (s : State) : Host.Outcome State Fault Refusal :=
  let i := beadNo b
  .next (match (getBead s i).blot.switching with
    | some (size, pf) => if beadRuns s i && switchDrained (getBead s i) size then endSwitch s i size pf else s
    | none => s)

end Sys2Proof.Machine
end

