-- ==== Sys2Proof/Machine/Quill.lean ====
section
/-! DEFINITION. The quill (R160 to R166): a descriptor's checks when it starts, its rows, and its completion. -/

namespace Sys2Proof.Machine

/-- A quill slot of a bead. -/
def quillAt (b : Bead) (k : Nat) : QuillSlot := mapGet (fun _ => {}) b.quills k

/-- The error codes of a descriptor's own fields (R161, R162): 0x01 for a reserved field or a value out of range, 0x04
for a rule of alignment or shape. A fill whose SRC or SPITCH is not zero may report either (log 39). -/
def quillFieldErrors (d : List W8) : List Nat :=
  let c := qCtrl d
  let zero (o n : Nat) : Bool := leAt d o n == 0
  let e := 2 ^ qEsz d
  let reserved := !zero 0x06 2 || !zero 0x0E 2 || !zero 0x1B 1 || !zero 0x1F 1 || c ≥ 64
    || fld (qCtally d) 30 10 != 0 || fld (qAtally d) 30 10 != 0 || !zero 0x2C 4 || !zero 0x38 8
    || qKind d == 3 || (qKind d != 1 && qEsz d != 0) || (qKind d == 1 && 2 ≤ qEsz d)
    || qRbytes d == 0 || qRows d == 0
  let shape := match qKind d with
    | 1 => qSrc d % 64 != 0 || (qSpitch d) % 64 != 0 || qRows d % 32 != 0 || qRbytes d % (32 * e) != 0
    | 2 => qSrc d != 0 || qSpitch d != 0 || qDst d % 8 != 0 || qRbytes d % 8 != 0
    | _ => false
  let notZero := qKind d == 2 && (qSrc d != 0 || qSpitch d != 0)
  (if reserved || notZero then [0x01] else []) ++ (if shape then [0x04] else [])

/-- Whether a local range of rows is one that the issuing hand's level may reach (R70, R162). -/
def quillRangeOk (b : Bead) (q : QuillSlot) (base : Nat) (pitch : Int) (rows n : Nat) : Bool :=
  let last : Int := base + pitch * (rows - 1 : Nat)
  let lo := min (base : Int) last
  let r := pitchRange base pitch rows n
  0 ≤ lo && r.2 ≤ 0x200000 && localOk b (handOf b q.hand.val) q.level.toNat r.1 (r.2 - r.1)

/-- The physical tally that a CTALLY or ATALLY word names on Slate t, if the word is valid; the outer none says that the
identifier has no translation (R164). -/
def quillTally (s : State) (i t : Nat) (w : Nat) : Option (Option Nat) :=
  if !bitAt w 31 then some none
  else match beadCtx (getBead s i) with
    | none => none
    | some c => (tallyOf s t c (w % 1024)).map some

/-- The Slate on which a descriptor's ATALLY counts: that of its destination (R257). -/
def quillDstSlate (s : State) (i : Nat) (d : List W8) : Nat :=
  if !qDdev d then i / 256
  else if inTallySpace (qDst d) then (regionSlate (regionOf (qDst d))).getD (i / 256)
  else match translate s (beadCtx (getBead s i)) (qDst d) true with
    | some x => (regionSlate (regionOf x.pa)).getD (i / 256)
    | none => i / 256

/-- The codes of the checks that a descriptor fails when it starts (R162, R164). The spec orders no checks: each that fails
gives its code (log 39). -/
def quillErrors (s : State) (i : Nat) (q : QuillSlot) : List Nat :=
  let d := q.desc
  let b := getBead s i
  let (rows, n) := qDstShape d
  let srcBad := !qSdev d && qKind d != 2 && !quillRangeOk b q (qSrc d) (qSpitch d) (qRows d) (qRbytes d)
  let dstBad := !qDdev d && !quillRangeOk b q (qDst d) (qDpitch d) rows n
  quillFieldErrors d ++ (if srcBad || dstBad then [0x02] else [])
    ++ (if (quillTally s i (i / 256) (qCtally d)).isNone || (quillTally s i (quillDstSlate s i d) (qAtally d)).isNone
        then [0x03] else [])

/-- Whether an earlier descriptor still in flight keeps one waiting (R165). -/
def quillBlocked (b : Bead) (q : QuillSlot) : Bool :=
  (busyQuills b).any (fun p => p.order < q.order &&
    ((qDstRange p.desc).any (fun w => (qRanges q.desc).any (overlaps w))
      || (qDstRange q.desc).any (fun w => (qSrcRange p.desc).any (overlaps w))))

/-- A descriptor completed (R164): status, completion tally, error bit and interrupt, slot free. -/
def finishQuill (s : State) (i k rows code : Nat) : State :=
  let q := quillAt (getBead s i) k
  let q' := { q with busy := false, started := false, fenced := false, err := code != 0, ecode := BitVec.ofNat 6 code
                     rows := BitVec.ofNat 24 rows, qerr := q.qerr || code != 0 }
  let s := modBead s i (fun b => { b with quills := mapPut b.quills k q' })
  let s := match quillTally s i (i / 256) (qCtally q.desc) with
    | some (some p) => queueRaise s (i / 256) p 1
    | _ => s
  if code ≠ 0 then raiseInt s i intQerr else s

/-- QUILL_DESCRIPTOR_START (R162, R165): the slot's descriptor starts once it may; a failing check completes it with
error. Where it fails several checks, the code reported is a free value (log 39). -/
def execQuillDescriptorStart (b : BeadRef) (slot : Fin 8) (s : State) : Host.Outcome State Fault Refusal :=
  let i := beadNo b
  let q := quillAt (getBead s i) slot.val
  .next (if !beadRuns s i || !q.busy || q.started || quillBlocked (getBead s i) q then s
    else match quillErrors s i q with
      | [] => modBead s i (fun b => { b with quills := mapPut b.quills slot.val { q with started := true, rows := 0 } })
      | [c] => finishQuill s i slot.val 0 c
      | l =>
        let (v, s) := freeBits s
        finishQuill s i slot.val 0 ((l[v.toNat % l.length]?).getD 0x01))

/-- What reading or writing one piece of a row meets: the data or the state, a wait, an error code, or a Slate that does not
serve it, by error-log cause and number (R5, R21). -/
inductive Piece (α : Type)
  | ok (v : α)
  | waits
  | err (code : Nat)
  | away (cause slate : Nat)
deriving DecidableEq, Repr

/-- A run of n bytes at a, cut into pieces that do not cross 64-byte boundaries. -/
def cutPieces : Nat → Nat → Nat → List (Nat × Nat)
  | 0, _, _ => []
  | fuel + 1, a, n =>
    if n = 0 then []
    else
      let m := min n (64 - a % 64)
      (a, m) :: cutPieces fuel (a + m) (n - m)

/-- The pieces of a row. -/
def piecesOf (a n : Nat) : List (Nat × Nat) := cutPieces (n / 64 + 2) a n

/-- A state with one more value, which what follows goes on with, or the error, wait or refusal that stops it: a Slate that
does not serve a piece is logged and counts as offline (R5, R21; log 40). -/
def Piece.andThen {α β : Type} (p : Piece α) (s : State) (va : Nat) (f : α → State × Piece β) : State × Piece β :=
  match p with
  | .ok v => f v
  | .waits => (s, .waits)
  | .err c => (s, .err c)
  | .away c t => (logSlate s c t (BitVec.ofNat 32 (va / 65536)), .err 0x06)

/-- Where a device-address piece of a descriptor goes (R21, R144, R162, R190), or what stops it. -/
def quillReach (s : State) (i va n : Nat) (write : Bool) : Piece Xlat :=
  match translate s (beadCtx (getBead s i)) va write with
  | none => .err 0x03
  | some x =>
    let r := regionOf x.pa
    let t := (regionSlate r).getD 0
    match slateRefuses s (some (i / 256)) t with
    | some c => .away c t
    | none =>
      match r with
      | .folio j off => if folioRefuses s j off n then .err 0x07 else .ok x
      | _ =>
        if brushFenced s x.pa then .err 0x07
        else if brushZeroing s x.pa || (!write && tapHolds s x.pa n) then .waits
        else .ok x

/-- A quill's piece in tally space, which passes untranslated (R257, R264, R314): the Slate, the physical tally and
whether it is the word that raises. A piece of another size than R264 gives has no translation (log 155). -/
def quillTallySpace (s : State) (i a n : Nat) : Piece (Nat × Nat × Bool) :=
  let t := (regionSlate (regionOf a)).getD 0
  match slateRefuses s (some (i / 256)) t with
  | some c => .away c t
  | none =>
    match tallyWindow s (beadCtx (getBead s i)) a n with
    | some w => .ok w
    | none => .err 0x03

/-- One piece read by a quill (R155, R162, R167, R170): a read from HBM waits for the bead's own merging-buffer entry. -/
def quillRead (s : State) (i : Nat) (dev : Bool) (a n : Nat) : State × Piece (List W8) :=
  let plain (pa : Nat) : State × Piece (List W8) :=
    (s, if (parityFind s.parity pa n).isSome then .err 0x05 else .ok (loadBytes s pa n))
  if !dev then plain (folioBase i + a)
  else if inTallySpace a then
    (quillTallySpace s i a n).andThen s a (fun w =>
      (s, .ok (toBytes 8 (if w.2.2 then 0 else (tallyValue s w.1 w.2.1).toNat))))
  else (quillReach s i a n false).andThen s a (fun x =>
    if !inHbm x.pa then plain x.pa
    else if mergeHas (getBead s i) (x.pa / 64) then (s, .waits)
    else match hbmRead s x.pa n x.mirror false with
      | (some bs, s) => (s, .ok bs)
      | (none, s) => (s, .err 0x05))

/-- Whether a write of n bytes by a quill has to wait (R155, R188, R268). -/
def quillWriteWaits (s : State) (i : Nat) (dev : Bool) (a n : Nat) : Bool :=
  dev && !inTallySpace a && (match quillReach s i a n true with
    | .ok x => inHbm x.pa
        && ((getBead s i).blot.merge.filter (fun m => m.line == x.pa / 64)).any (drainWaits (getBead s i))
    | .waits => true
    | _ => false)

/-- Whether a piece of a descriptor's destination lies in a reservoir, whose brush performs it later (R170). -/
def quillTapped (s : State) (i : Nat) (dev : Bool) (a n : Nat) : Bool :=
  dev && !inTallySpace a && (match quillReach s i a n true with
    | .ok x => (match regionOf x.pa with | .reservoir .. => true | _ => false)
    | _ => false)

/-- One piece written by the quill of slot k (R155, R162, R170): a write to HBM first drains the bead's own entries for the
line and then invalidates its blotter line; a write to a reservoir joins the writes waiting at the brush, with the raise that
is due once it is performed (R266). -/
def quillWrite (s : State) (i k : Nat) (dev : Bool) (a : Nat) (bs : List W8) (count : Option (Nat × Nat × BitVec 48)) :
    State × Piece Unit :=
  if !dev then (storeBytes s (folioBase i + a) bs, .ok ())
  else if inTallySpace a then
    (quillTallySpace s i a bs.length).andThen s a (fun w =>
      (if w.2.2 then raiseTally s w.1 w.2.1 (BitVec.ofNat 48 (ofBytes bs)) else s, .ok ()))
  else (quillReach s i a bs.length true).andThen s a (fun x =>
    match regionOf x.pa with
    | .hbm .. =>
      let line := x.pa / 64
      let s := ((getBead s i).blot.merge.filter (fun m => m.line == line)).foldl writeEntry s
      let s := modBead s i (fun b =>
        let b := { b with blot := { b.blot with merge := b.blot.merge.filter (fun m => m.line != line) } }
        match blotFind b line with
        | some w => dropWay b w
        | none => b)
      (hbmWrite s x.pa x.mirror bs, .ok ())
    | .reservoir kb _ => (joinTap s kb { pa := x.pa, data := bs, quill := some (i, k), count := count }, .ok ())
    | _ => (storeBytes s x.pa bs, .ok ()))

/-- A row read piece by piece. -/
def readPieces (i : Nat) (dev : Bool) : List (Nat × Nat) → List W8 → State → State × Piece (List W8)
  | [], acc, s => (s, .ok acc)
  | (a, n) :: l, acc, s =>
    match quillRead s i dev a n with
    | (s, .ok bs) => readPieces i dev l (acc ++ bs) s
    | r => r

/-- A row written piece by piece; what was written before a failing piece stays. The raise of a row with pieces in a
reservoir goes with the last of them. -/
def writePieces (i k : Nat) (dev : Bool) (count : Option (Nat × Nat × BitVec 48)) :
    List (Nat × Nat) → List W8 → State → State × Piece Unit
  | [], _, s => (s, .ok ())
  | (a, n) :: l, bs, s =>
    let mine := if l.any (fun p => quillTapped s i dev p.1 p.2) then none else count
    match quillWrite s i k dev a (bs.take n) mine with
    | (s, .ok ()) => writePieces i k dev count l (bs.drop n) s
    | r => r

/-- The address of row j at a pitch; a negative address reaches nothing. -/
def rowAt (base : Nat) (pitch : Int) (j : Nat) : Option Nat :=
  let a : Int := base + pitch * j
  if 0 ≤ a then some a.toNat else none

/-- The source bytes of destination row j of a copy or transpose (R161), with the address of each; none where an address
is negative. -/
def quillSources (d : List W8) (j : Nat) : Option (List (Nat × Nat)) :=
  if qKind d = 1 then
    let e := 2 ^ qEsz d
    (List.range (qRows d)).mapM (fun r => (rowAt (qSrc d) (qSpitch d) r).map (fun a => (a + j * e, e)))
  else (rowAt (qSrc d) (qSpitch d) j).map (fun a => piecesOf a (qRbytes d))

/-- Whether a source of a transpose lies in a folio (R161). -/
def transposeOk (s : State) (i : Nat) (d : List W8) (l : List (Nat × Nat)) : Bool :=
  !(qKind d = 1 && qSdev d) || l.all (fun p =>
    match translate s (beadCtx (getBead s i)) p.1 false with
    | some x => (match regionOf x.pa with | .folio .. => true | _ => false)
    | none => true)

/-- The bytes of a row whose sources lie in the descriptor's own destination range: how far the writes have come when
they are read is open, so each is a free value (log 41). A byte copied onto itself is not. -/
def selfOverlap (s : State) (d : List W8) (dst : Nat) (srcs : List (Nat × Nat)) (bs : List W8) : List W8 × State :=
  let (rows, n) := qDstShape d
  let w := pitchRange (qDst d) (qDpitch d) rows n
  let addrs := srcs.flatMap (fun p => (List.range p.2).map (p.1 + ·))
  if qSdev d = qDdev d && addrs.any (fun a => w.1 ≤ a && a < w.2) then
    let c := s.freeCtr
    ((List.range bs.length).map (fun k =>
      let a := (addrs[k]?).getD 0
      if w.1 ≤ a && a < w.2 && a != dst + k then (Config.freeValue (c + k)).truncate 8 else (bs[k]?).getD 0),
      { s with freeCtr := c + bs.length })
  else (bs, s)

/-- The raise that a destination row is due on the arrival tally (R164, R265): Slate, tally and amount. -/
def rowCount (s : State) (i : Nat) (d : List W8) : Option (Nat × Nat × BitVec 48) :=
  let t := quillDstSlate s i d
  match quillTally s i t (qAtally d) with
  | some (some p) => some (t, p, BitVec.ofNat 48 (qDstShape d).2)
  | _ => none

/-- A raise sent to the tally unit. -/
def sendCount (s : State) (count : Option (Nat × Nat × BitVec 48)) : State :=
  match count with
  | some (t, p, n) => queueRaise s t p n
  | none => s

/-- Whether the destination of a piece checks the parity of what it is sent, as a folio or HBM does (R167). -/
def checksParity (s : State) (i : Nat) (dev : Bool) (a : Nat) : Bool :=
  !dev || (match translate s (beadCtx (getBead s i)) a true with
    | some x => (match regionOf x.pa with | .folio .. => true | .hbm .. => true | _ => false)
    | none => false)

/-- The bytes of a destination row written and counted (R164, R266): a row of which a piece has to wait is not begun. A row
that its destination finds bad, and that sending it again did not cure, is not written (R167). -/
def landRow (s : State) (i k : Nat) (d : List W8) (dst : Nat) (bad : Bool) (bs : List W8) : State × Piece Unit :=
  let dev := qDdev d
  let l := piecesOf dst (qDstShape d).2
  if l.any (fun p => quillWriteWaits s i dev p.1 p.2) then (s, .waits)
  else if bad && checksParity s i dev dst then (s, .err 0x05)
  else
    let count := rowCount s i d
    let tapped := l.any (fun p => quillTapped s i dev p.1 p.2)
    match writePieces i k dev count l bs s with
    | (s, .ok ()) => (if tapped then s else sendCount s count, .ok ())
    | r => r

/-- Destination row j moved (R161, R162). -/
def quillRow (s : State) (i k : Nat) (d : List W8) (j : Nat) (bad : Bool) : State × Piece Unit :=
  let n := (qDstShape d).2
  match rowAt (qDst d) (qDpitch d) j with
  | none => (s, .err 0x03)
  | some dst =>
    if qKind d = 2 then landRow s i k d dst bad ((List.range n).map (fun j => ((qFill d)[j % 8]?).getD 0))
    else match quillSources d j with
      | none => (s, .err 0x03)
      | some srcs =>
        if !transposeOk s i d srcs then (s, .err 0x04)
        else match readPieces i (qSdev d) srcs [] s with
          | (s, .ok bs) =>
            let (bs, s) := selfOverlap s d dst srcs bs
            landRow s i k d dst bad bs
          | (s, .err c) => (s, .err c)
          | (s, _) => (s, .waits)

/-- Whether rows of slot k still wait at a brush (R170), so that not every row has been acknowledged. -/
def quillWaits (s : State) (i k : Nat) : Bool :=
  s.brushes.any (fun p => p.2.waiting.any (fun w => w.quill == some (i, k)))

/-- How many rows of a started descriptor have been written. -/
def setRows (s : State) (i k j : Nat) : State :=
  modBead s i (fun b => { b with quills := mapPut b.quills k { quillAt b k with rows := BitVec.ofNat 24 j } })

/-- The rows of slot k that still wait at a brush belong to no descriptor any more: they are performed all the same. -/
def orphanRows (s : State) (i k : Nat) : State :=
  { s with brushes := s.brushes.map (fun p => (p.1, { p.2 with
      waiting := p.2.waiting.map (fun w => if w.quill == some (i, k) then { w with quill := none } else w) })) }

/-- The rows of a started descriptor moved in ascending order from row j on, until one waits or fails. After the last, the
descriptor completes once none of its rows waits at a brush. -/
def quillRows (i k : Nat) (d : List W8) : Nat → Nat → Bool → State → State
  | 0, j, _, s => if quillWaits s i k then setRows s i k j else finishQuill s i k j 0
  | fuel + 1, j, bad, s =>
    match quillRow s i k d j bad with
    | (s, .ok ()) => quillRows i k d fuel (j + 1) false s
    | (s, .err c) => finishQuill (orphanRows s i k) i k j c
    | (s, _) => setRows s i k j

/-- QUILL_COMPLETE (R164): the remaining rows of a started descriptor move, and it completes after the last, or stops
with error; a row that has to wait leaves it in flight. A row that waited at a brush which has failed since was refused (R190). -/
def execQuillComplete (b : BeadRef) (slot : QuillEnd) (s : State) : Host.Outcome State Fault Refusal :=
  let i := beadNo b
  let q := quillAt (getBead s i) slot.slot.val
  .next (if beadRuns s i && q.busy && q.started then
      if q.fenced then finishQuill (orphanRows s i slot.slot.val) i slot.slot.val q.rows.toNat 0x07
      else quillRows i slot.slot.val q.desc ((qDstShape q.desc).1 - q.rows.toNat) q.rows.toNat slot.bad s
    else s)

end Sys2Proof.Machine
end

