-- ==== Sys2Proof/Machine/BeadReset.lean ====
section
/-! DEFINITION. The reset of a hand and of a bead (R84, R90, R131, R164, R384, R386). -/

namespace Sys2Proof.Machine

/-- A hand reset (R384, R386): the hand is Idle with its registers at their reset values, its transfer is abandoned, its
staged message is aborted, its waits end and the raises in its queue are discarded. Requests already sent for stores stay in
flight (R261, R262, R386). -/
def resetHand (s : State) (i h : Nat) : State :=
  let s := abandonTransfer s i h
  let s := closeGateIns s i h
  let s := abortStaged s i h
  let s := cancelWait s i h
  modHand s i h (fun x => { handReset h with reqs := sentOnly x.reqs })

/-- The writes that wait at a brush, those of slot k holding free values from number c on and counted no more, and the
next free number (R164; log 160). -/
def loseWrites (i k : Nat) : List TapWrite → Nat → List TapWrite × Nat
  | [], c => ([], c)
  | w :: l, c =>
    if w.quill == some (i, k) then
      let r := loseWrites i k l (c + w.data.length)
      ({ pa := w.pa, data := (List.range w.data.length).map (fun j => (Config.freeValue (c + j)).truncate 8) } :: r.1, r.2)
    else
      let r := loseWrites i k l c
      (w :: r.1, r.2)

/-- The rows of slot k that wait at a brush when its descriptor is abandoned: each is in flight. -/
def loseTapped (s : State) (i k : Nat) : State :=
  (s.brushes.map (·.1)).foldl (fun s kb =>
    let r := loseWrites i k (getBrush s kb).waiting s.freeCtr
    { modBrush s kb (fun br => { br with waiting := r.1 }) with freeCtr := r.2 }) s

/-- A descriptor that a bead reset abandons (R164): the rows in flight are undefined. How many of the remaining rows were in
flight is open (log 160); each holds free values as far as it can be written. -/
def abandonQuill (s : State) (i k : Nat) : State :=
  let q := quillAt (getBead s i) k
  if !(q.busy && q.started) then s
  else
    let s := loseTapped s i k
    let (rows, n) := qDstShape q.desc
    let (v, s) := freeBits s
    orphanRows ((List.range (v.toNat % (rows - q.rows.toNat + 1))).foldl (fun s j =>
      match rowAt (qDst q.desc) (qDpitch q.desc) (q.rows.toNat + j) with
      | none => s
      | some dst =>
        let (bs, s) := freeBytes s n
        (writePieces i k (qDdev q.desc) none (piecesOf dst n) bs s).1) s) i k

/-- A bead reset (R384, R386): the merging buffer drains, quill descriptors and transfers are abandoned, hands are reset,
endpoints close, the blotter is invalidated, tiles, nib groups and quill slots are cleared; BEAD_BLOT_CFG is kept, as are the
folio, stores already sent, and the routes of the Slate's active ruling. The Slate controller binds the context anew at
dispatch. -/
def resetBead (s : State) (i : Nat) : State :=
  let s := drainMerge s i
  let s := (List.range 8).foldl (fun s k => abandonQuill s i k) s
  let s := (List.range 4).foldl (fun s h => resetHand s i h) s
  let s := closeAll s i
  modBead s i (fun b => { beadReset i with
    core := { hands := b.core.hands, seq := b.core.seq }
    blot := { size := b.blot.size, pf := b.blot.pf }
    route := b.route })

end Sys2Proof.Machine
end

