-- ==== Sys2Proof/Machine/MeshEvents.lean ====
section
/-! DEFINITION. Units and credits on the bead mesh (R215 to R217, R233, R242 to R249), and steals (R239, R240). -/

namespace Sys2Proof.Machine

/-- The number that stands for a steer's branch as the source endpoint of a unit. -/
def branchCode (br : Bool) : Nat := if br then 65 else 64

/-- Where a unit entered the mesh or left a steer. -/
def unitOrigin (u : QUnit) : Origin :=
  if u.srcEp ≥ 64 then .steer u.src (u.srcEp = 65)
  else if u.net = .control ∧ u.srcEp ≥ 24 then .counter u.src (u.srcEp - 24)
  else .ep u.src u.srcEp

/-- Whether a unit is stale where it arrives (R233): its epoch is not the Slate's. -/
def unitStale (s : State) (u : QUnit) : Bool := u.epoch != (getSlate s (u.dst / 256)).pg.epoch

/-- A unit as it leaves the crossing on its way (R233): retagged with the receiving Slate's epoch where the active rulings of
both Slates still join its source to its sink; none where it is discarded there. -/
def crossUnit (s : State) (u : QUnit) : Option QUnit :=
  let sel := if u.dstEp = steerStop then fld ((steerWord (getBead s u.dst) u.net).getD 0) 3 0
    else switchSel (getBead s u.dst) u.net (5 + u.dstEp)
  if traceBack s u.net hopFuel u.dst sel = some (unitOrigin u) then
    some { u with epoch := (getSlate s (u.dst / 256)).pg.epoch }
  else none

/-- n stale units counted at a Slate (R231, R233). -/
def countStale (s : State) (t n : Nat) : State := modPage s t (fun p => { p with stale := satAdd p.stale n })

/-- Whether an in-endpoint or in slot is closed (R248). -/
def sinkClosed (b : Bead) (n : Net) (e : Nat) : Bool :=
  match n with
  | .scalar => b.ends.sinClosed.getLsbD e
  | .vector => b.ends.vinClosed.getLsbD e
  | .control => b.ends.tokClosed.getLsbD e || !tokIsIn b e

/-- A unit that reaches a closed sink (R249): discarded, counted, its credit returned with a closure mark. -/
def discardUnit (s : State) (u : QUnit) : State :=
  let s := modBead s u.dst (fun b => { b with ends := { b.ends with discard := satInc b.ends.discard } })
  returnCredits s u.net u.dst u.dstEp 1 true

/-- A unit taken by an open sink, and counted there (R216, R244). -/
def acceptUnit (s : State) (u : QUnit) : State :=
  let i := u.dst
  let e := u.dstEp
  match u.net with
  | .scalar => countUnit (modBead s i (fun b => { b with ends := { b.ends with
      sin := mapPut b.ends.sin e (sinWords b e ++ [(u.word, u.last)]) } })) i (0x01 + e)
  | .vector => countUnit (modBead s i (fun b => { b with ends := { b.ends with
      vin := mapPut b.ends.vin e (vinRows b e ++ [u.row]) } })) i (0x09 + e)
  | .control => countUnit (modBead s i (fun b => { b with ends := { b.ends with
      tin := mapPut b.ends.tin e (u.word.truncate 8) } })) i (0x20 + e)

/-- The branch that a steer takes for a unit now (R217): the one of the unit in progress, or the one that the waiting
predicate token selects. -/
def steerBranch (b : Bead) (n : Net) : Option Bool :=
  let dir := match n with | .scalar => b.ends.steerSDir | _ => b.ends.steerVDir
  match dir with
  | some d => some d
  | none => match steerWord b n with
    | some w => (mapFind b.ends.tin (fld w 7 4)).map (fun t => t.getLsbD 0)
    | none => none

/-- A steer that has passed one word or row (R217): at the end of a unit its count rises, and after PERM1 + 1 units the
predicate token is consumed and its credit returns. -/
def steerPassed (s : State) (i : Nat) (n : Net) (br last : Bool) : State :=
  let b := getBead s i
  let w := (steerWord b n).getD 0
  let count := (match n with | .scalar => b.ends.steerS | _ => b.ends.steerV) + 1
  let spent := last && count > fld w 15 8
  let put (b : Bead) (c : Nat) (d : Option Bool) : Bead := match n with
    | .scalar => { b with ends := { b.ends with steerS := c, steerSDir := d } }
    | _ => { b with ends := { b.ends with steerV := c, steerVDir := d } }
  if !last then modBead s i (fun b => put b (count - 1) (some br))
  else if !spent then modBead s i (fun b => put b count none)
  else
    let slot := fld w 7 4
    let s := modBead s i (fun b =>
      let b := put b 0 none
      { b with ends := { b.ends with tin := mapDrop b.ends.tin slot } })
    returnCredits s .control i slot 1 false

/-- A unit that reaches a steer is held while no predicate token waits, else sent on along the branch (R217). -/
def steerUnit (s : State) (u : QUnit) : Option State :=
  match steerBranch (getBead s u.dst) u.net with
  | none => none
  | some br =>
    let last := u.last || u.net != .scalar
    let s := launch s u.net (.steer u.dst br) u.dst (branchCode br) u.word u.row u.last
    some (steerPassed s u.dst u.net br last)

/-- What the arrival of a unit does; none while the unit is held: at a steer without a token, or at an in slot that
still holds a token (log 42). -/
def unitArrives (s : State) (u : QUnit) : Option State :=
  let b := getBead s u.dst
  if unitStale s u then some (countStale s (u.dst / 256) 1)
  else if u.dstEp = steerStop then steerUnit s u
  else if sinkClosed b u.net u.dstEp then some (discardUnit s u)
  else if u.net = .control ∧ (mapFind b.ends.tin u.dstEp).isSome then none
  else some (acceptUnit s u)

/-- Whether two units travel the same route (R243). -/
def sameRoute (u v : QUnit) : Bool :=
  u.net == v.net && u.src == v.src && u.srcEp == v.srcEp && u.dst == v.dst && u.dstEp == v.dstEp

/-- A unit put among those of its receiving Slate once it has crossed. -/
def putCrossed (s : State) (u : QUnit) : State := modSlate s (u.dst / 256) (fun x => { x with units := x.units ++ [u] })

/-- The units of Slate t on their way to another Slate pass their crossings (R233), in the tick after they were sent at the
latest (log 42). -/
def crossAll (s : State) (t : Nat) : State :=
  let away := (getSlate s t).units.filter (fun u => u.dst / 256 != t)
  if away.isEmpty then s
  else
    let s := modSlate s t (fun x => { x with units := x.units.filter (fun u => u.dst / 256 == t) })
    away.foldl (fun s u => match crossUnit s u with
      | some v => putCrossed s v
      | none => countStale s (u.dst / 256) 1) s

/-- The n-th unit of a Slate without it among those under way. -/
def takeUnit (s : State) (t n : Nat) : State := modSlate s t (fun x => { x with units := listDrop x.units n })

/-- UNIT_ARRIVAL (R233, R243): the n-th unit under way from a Slate passes its crossing, if it has yet to, and reaches its
stop, if no earlier unit of its route is under way. One that the stop cannot take is held there. -/
def execUnitArrival (sl : Fin 4) (n : Nat) (s : State) : Host.Outcome State Fault Refusal :=
  let us := (getSlate s sl.val).units
  .next (match us[n]? with
    | none => s
    | some u =>
      let t := u.dst / 256
      if !slateRuns s t || (us.take n).any (sameRoute u) then s
      else if t = sl.val then
        (unitArrives (takeUnit s t n) u).getD (modSlate s t (fun x => { x with units := listSet x.units n { u with held := true } }))
      else if (getSlate s t).units.any (sameRoute u) then s
      else
        let s := takeUnit s sl.val n
        match crossUnit s u with
        | none => countStale s t 1
        | some v => (unitArrives s v).getD (putCrossed s { v with held := true }))

/-- The sets of sinks that one unit of an origin can reach: each steer on the way sends it to one branch (R215, R217). -/
def routeSets (s : State) (n : Net) : Nat → Origin → List (List (Nat × Nat))
  | 0, _ => [[]]
  | fuel + 1, o => (nextStops s n o).foldl (fun acc st =>
      let here := if st.2 = steerStop then
          routeSets s n fuel (.steer st.1 false) ++ routeSets s n fuel (.steer st.1 true)
        else [[st]]
      acc.flatMap (fun a => here.map (a ++ ·))) [[]]

/-- One occurrence of an entry removed. -/
def removeOne (l : List (Nat × Nat)) (p : Nat × Nat) : List (Nat × Nat) := l.erase p

/-- The number of an out-endpoint, and of a sink, in the list of entries freed. -/
def srcKey (n : Net) (ep : Nat) : Nat := 64 * netNo n + ep
@[inherit_doc srcKey] def sinkKey (p : Nat × Nat) : Nat := 64 * p.1 + p.2

/-- One credit given to an out-endpoint (R242); an out slot's waiting token leaves with it. -/
def giveCredit (s : State) (n : Net) (i e : Nat) : State :=
  match n with
  | .scalar => modBead s i (fun b => { b with ends := { b.ends with
      soutCred := mapPut b.ends.soutCred e (min 8 (soutCredits b e + 1)) } })
  | .vector => modBead s i (fun b => { b with ends := { b.ends with
      voutCred := mapPut b.ends.voutCred e (min 4 (voutCredits b e + 1)) } })
  | .control => releaseToken (modBead s i (fun b => { b with ends := { b.ends with
      toutCred := b.ends.toutCred ||| BitVec.ofNat 16 (2 ^ e) } })) i e

/-- A closure mark that reaches an out-endpoint or out slot (R249). -/
def closeOut (s : State) (n : Net) (i e : Nat) : State :=
  modBead s i (fun b => { b with ends := match n with
    | .scalar => { b.ends with soutClosed := b.ends.soutClosed ||| BitVec.ofNat 8 (2 ^ e) }
    | .vector => { b.ends with voutClosed := b.ends.voutClosed ||| BitVec.ofNat 4 (2 ^ e) }
    | .control => { b.ends with tokClosed := b.ends.tokClosed ||| BitVec.ofNat 16 (2 ^ e) } })

/-- A sink's entry freed at the source of its route (R215, R242): the credit is there once every sink that one unit
reached has freed its entry. -/
def creditArrives (s : State) (c : Credit) : State :=
  let s := if c.closure then closeOut s c.net c.src c.srcEp else s
  let me := (c.sink, c.sinkEp)
  let key := srcKey c.net c.srcEp
  let freed := (getBead s c.src).ends.freed ++ [(key, sinkKey me)]
  let sets := (routeSets s c.net hopFuel (.ep c.src c.srcEp)).filter (fun l => l.contains me)
  let put (l : List (Nat × Nat)) : State := modBead s c.src (fun b => { b with ends := { b.ends with freed := l } })
  match sets.find? (fun l => l.all (fun p => freed.contains (key, sinkKey p))) with
  | some l => giveCredit (put (l.foldl (fun f p => removeOne f (key, sinkKey p)) freed)) c.net c.src c.srcEp
  | none => put freed

/-- CREDIT_RETURN (R242): the n-th credit on its way to a Slate's out-endpoints. -/
def execCreditReturn (sl : Fin 4) (n : Nat) (s : State) : Host.Outcome State Fault Refusal :=
  .next (match (getSlate s sl.val).credits[n]? with
    | some c =>
      if slateRuns s sl.val then
        creditArrives (modSlate s sl.val (fun x => { x with credits := listDrop x.credits n })) c
      else s
    | none => s)

/-- A steal probe served at its victim (R239): the head entry leaves its tray. An entry with an uncured parity error
stays, and sets XPARITY at its owner. -/
def serveProbe (s : State) (i k : Nat) (t : Steal) : State :=
  let answer (s : State) (a : Option (List W8)) : State :=
    modHand s i k (fun x => { x with steal := some { t with answer := some a } })
  let v := getBead s t.victim
  if !trayOn v || trayCount v = 0 then answer s none
  else
    let a := folioBase t.victim + trayEntry v v.regs.trayHead.toNat
    if (parityFind s.parity a 64).isSome then answer (raiseInt s t.victim intXparity) none
    else
      let bs := loadBytes s a 64
      answer (modBead s t.victim (fun b => { b with regs := { b.regs with trayHead := b.regs.trayHead + 1 } })) (some bs)

/-- STEAL_PROBE (R239). -/
def execStealProbe (h : HandRef) (s : State) : Host.Outcome State Fault Refusal :=
  let (i, k) := handNo h
  .next (match (getHand s i k).steal with
    | some t => if beadRuns s i && t.answer.isNone then serveProbe s i k t else s
    | none => s)

/-- STEAL_ANSWER (R240): the descriptor is written and ACC takes the victim's index, or the next victim is probed. -/
def execStealAnswer (h : HandRef) (s : State) : Host.Outcome State Fault Refusal :=
  let (i, k) := handNo h
  .next (match (getHand s i k).steal with
    | some t =>
      if !beadRuns s i then s
      else match t.answer with
        | none => s
        | some none => stealNext s i k t
        | some (some bs) =>
          let s := storeBytes s (folioBase i + t.ea) bs
          modHand s i k (fun x => { x with steal := none, acc := BitVec.ofNat 64 (t.victim % 256) })
    | none => s)

end Sys2Proof.Machine
end

