-- ==== Sys2Proof/Machine/BrushOps.lean ====
section
/-! DEFINITION. The brush (R168 to R191): the fields of an order, its checks on entry, its operands and products, the
bytes of a drain, completion and failure. Reads and additions of an order are made whole when it starts, and a drain's
beats are formed whole (log 43). -/

namespace Sys2Proof.Machine

/-- Word n of an order as a number. -/
def ow (ws : List W32) (n : Nat) : Nat := ((ws[n]?).getD 0).toNat

/-- CTRL fields of an order (R180). -/
def oMode (ws : List W32) : Nat := fld (ow ws 0) 1 0
@[inherit_doc oMode] def oGroup (ws : List W32) : Nat := fld (ow ws 0) 3 2
@[inherit_doc oMode] def oBatch (ws : List W32) : Nat := fld (ow ws 0) 5 4 + 1
@[inherit_doc oMode] def oAcu (ws : List W32) : Bool := bitAt (ow ws 0) 6
@[inherit_doc oMode] def oDrn (ws : List W32) : Bool := bitAt (ow ws 0) 7
@[inherit_doc oMode] def oSat (ws : List W32) : Bool := bitAt (ow ws 0) 8
@[inherit_doc oMode] def oAlay (ws : List W32) : Bool := bitAt (ow ws 0) 9
@[inherit_doc oMode] def oBlay (ws : List W32) : Bool := bitAt (ow ws 0) 10
@[inherit_doc oMode] def oOlay (ws : List W32) : Bool := bitAt (ow ws 0) 11
@[inherit_doc oMode] def oGs (ws : List W32) : Bool := bitAt (ow ws 0) 12
@[inherit_doc oMode] def oNoadd (ws : List W32) : Bool := bitAt (ow ws 0) 13

/-- The other fields of an order (R180). -/
def oWfmt (ws : List W32) : Nat := fld (ow ws 1) 3 0
@[inherit_doc oWfmt] def oAfmt (ws : List W32) : Nat := fld (ow ws 1) 7 4
@[inherit_doc oWfmt] def oBfmt (ws : List W32) : Nat := fld (ow ws 1) 11 8
@[inherit_doc oWfmt] def oOfmt (ws : List W32) : Nat := fld (ow ws 1) 15 12
@[inherit_doc oWfmt] def oTag (ws : List W32) : Nat := fld (ow ws 1) 31 16
@[inherit_doc oWfmt] def oRows (ws : List W32) : Nat := fld (ow ws 2) 23 0
@[inherit_doc oWfmt] def oCols (ws : List W32) : Nat := fld (ow ws 3) 23 0
@[inherit_doc oWfmt] def oRbase (ws : List W32) : Nat := fld (ow ws 4) 15 0
@[inherit_doc oWfmt] def oRsbase (ws : List W32) : Nat := fld (ow ws 4) 31 16
@[inherit_doc oWfmt] def oDoff (ws : List W32) : Nat := fld (ow ws 11) 19 0
@[inherit_doc oWfmt] def oPorts (ws : List W32) : Nat := fld (ow ws 11) 27 20
@[inherit_doc oWfmt] def oDink (ws : List W32) : Bool := bitAt (ow ws 11) 28
@[inherit_doc oWfmt] def oDpitch (ws : List W32) : Nat := fld (ow ws 12) 15 0 * 64
@[inherit_doc oWfmt] def oCtally (ws : List W32) : Option Nat :=
  if bitAt (ow ws 12) 31 then some (fld (ow ws 12) 25 16) else none
@[inherit_doc oWfmt] def oWtally (ws : List W32) : Option Nat :=
  if bitAt (ow ws 13) 31 then some (fld (ow ws 13) 9 0) else none
@[inherit_doc oWfmt] def oWtarget (ws : List W32) : BitVec 48 := BitVec.ofNat 48 (ow ws 14 + ow ws 15 * 2 ^ 32)

/-- An operand of an order in the ink buffer (R178). -/
structure Operand where
  fmt : Nat
  ink : Nat
  scales : Nat
  pitch : Nat
  spitch : Nat
  grouped : Bool
  elems : Nat
deriving DecidableEq, Repr

/-- Operand A, and operand B of an outer-product order. -/
def operandA (ws : List W32) : Operand :=
  ⟨oAfmt ws, fld (ow ws 5) 19 0, fld (ow ws 6) 19 0, fld (ow ws 7) 15 0 * 64, fld (ow ws 7) 31 16, oAlay ws,
    if oMode ws = 1 then oCols ws else oRows ws⟩
@[inherit_doc operandA] def operandB (ws : List W32) : Operand :=
  ⟨oBfmt ws, fld (ow ws 8) 19 0, fld (ow ws 9) 19 0, fld (ow ws 10) 15 0 * 64, fld (ow ws 10) 31 16, oBlay ws, oCols ws⟩

/-- The operands that an order reads. -/
def orderOperands (ws : List W32) : List Operand :=
  if oNoadd ws then [] else if oMode ws = 2 then [operandA ws, operandB ws] else [operandA ws]

/-- The bytes of one R32 run of a format. -/
def runBytes (fmt : Nat) : Nat := 64 + 64 * 32 * fmtBits fmt / 8

/-- The byte ranges of row r of an operand, in the ink buffer (R178). -/
def operandRanges (o : Operand) (r : Nat) : List (Nat × Nat) :=
  let a := o.ink + r * o.pitch
  if fmtMx o.fmt && o.grouped then [(a, a + o.elems / 2048 * runBytes o.fmt)]
  else
    let data := (a, a + ceilDiv (o.elems * fmtBits o.fmt) 8)
    let sc := o.scales + r * o.spitch
    if fmtMx o.fmt then [data, (sc, sc + ceilDiv o.elems 32)] else [data]

/-- Every ink range that an order reads. -/
def inkRanges (ws : List W32) : List (Nat × Nat) :=
  (orderOperands ws).flatMap (fun o => (List.range (oBatch ws)).flatMap (operandRanges o))

/-- CB: the bytes of a column in a bank (R169). -/
def columnBytes (ws : List W32) : Nat := roundUp 128 (oRows ws * fmtBits (oWfmt ws) / 8)
/-- Column slots of lane l (R169). -/
def laneSlots (ws : List W32) (l : Nat) : Nat := ceilDiv (oCols ws - l) 256

/-- The offsets within bank l that an order reads: weights, then scales (R169). -/
def bankRanges (ws : List W32) (l : Nat) : List (Nat × Nat) :=
  if oNoadd ws || oMode ws = 2 then []
  else
    let n := laneSlots ws l
    let w := (oRbase ws, oRbase ws + n * columnBytes ws)
    if fmtMx (oWfmt ws) then [w, (oRsbase ws, oRsbase ws + n * (oRows ws / 32))] else [w]

/-- The outputs of one emitted row, and the rows that a drain emits (R171, R184). -/
def rowOutputs (ws : List W32) : Nat := if oMode ws = 1 then oRows ws else oCols ws
@[inherit_doc rowOutputs] def emittedRows (ws : List W32) : Nat := if oMode ws = 2 then oRows ws else oBatch ws

/-- The bytes of one emitted row before padding (R184). -/
def drainRow (ws : List W32) : Nat :=
  let n := rowOutputs ws
  if oOfmt ws = 0xF then 8 * n
  else if fmtMx (oOfmt ws) && oOlay ws then n / 2048 * runBytes (oOfmt ws)
  else ceilDiv (n * fmtBits (oOfmt ws)) 8

/-- Whether a drain has a split scale array. -/
def splitScales (ws : List W32) : Bool := oOfmt ws != 0xF && fmtMx (oOfmt ws) && !oOlay ws

/-- The ink ranges that a drain with DINK writes (R185). -/
def dinkRanges (ws : List W32) : List (Nat × Nat) :=
  let rows := emittedRows ws
  let row (r : Nat) (n : Nat) : Nat × Nat := (oDoff ws + r * oDpitch ws, oDoff ws + r * oDpitch ws + roundUp 64 n)
  (List.range rows).map (fun r => row r (drainRow ws))
    ++ (if splitScales ws then [row rows (rows * (rowOutputs ws / 32))] else [])

/-- The fields that an order's mode does not use (R180). -/
def unusedFields (ws : List W32) : List Nat :=
  if oMode ws = 2 then [oWfmt ws, ow ws 4]
  else [oBfmt ws, ow ws 8, ow ws 9, ow ws 10, if oBlay ws then 1 else 0]

/-- Whether an operand's format code is one its field accepts (R122, R180); with NOADD also 0 (R181). -/
def fmtOk (ws : List W32) (f : Nat) : Bool := (1 ≤ f && f ≤ 0xB) || (oNoadd ws && f = 0)

/-- Check 0x01 of R181: reserved bits, reserved MODE, unused fields, format codes. -/
def orderFields (ws : List W32) : Bool :=
  fld (ow ws 0) 31 14 = 0 && fld (ow ws 2) 31 24 = 0 && fld (ow ws 3) 31 24 = 0 && fld (ow ws 5) 31 20 = 0
    && fld (ow ws 6) 31 20 = 0 && fld (ow ws 8) 31 20 = 0 && fld (ow ws 9) 31 20 = 0 && fld (ow ws 11) 31 29 = 0
    && fld (ow ws 12) 30 26 = 0 && fld (ow ws 13) 30 10 = 0 && fld (ow ws 15) 31 16 = 0
    && oMode ws != 3 && (unusedFields ws).all (· == 0) && fmtOk ws (oAfmt ws)
    && (if oMode ws = 2 then fmtOk ws (oBfmt ws) else fmtOk ws (oWfmt ws))
    && (oOfmt ws ≤ 0xB || oOfmt ws = 0xF)

/-- Whether an MX length fits its layout: whole blocks, and whole runs where grouped (R30, R32, R54). -/
def mxLength (fmt n : Nat) (grouped : Bool) : Bool := !fmtMx fmt || (n % 32 = 0 && (!grouped || n % 2048 = 0))

/-- Check 0x02 of R181: shapes (R30, R54, R171, R172), grouped runs, and the reading fields of a NOADD order. The
ROWS of a slice need not be a multiple of 32 (log 44). -/
def orderShape (ws : List W32) : Bool :=
  let k := oRows ws
  let n := oCols ws
  1 ≤ k && 1 ≤ n
    && (match oMode ws with
      | 0 => k % 32 = 0 && n ≤ 16384
      | 1 => k % 32 = 0 && k ≤ 16384
      | _ => k * n ≤ 65536)
    && (oNoadd ws || (if oMode ws = 2 then
          (!(fmtMx (oAfmt ws) && oAlay ws) || k % 2048 = 0) && mxLength (oBfmt ws) n (oBlay ws)
        else mxLength (oAfmt ws) (operandA ws).elems (oAlay ws)))
    && (!oDrn ws || oOfmt ws = 0xF || mxLength (oOfmt ws) (rowOutputs ws) (oOlay ws))
    && (!oNoadd ws || [4, 5, 6, 7, 8, 9, 10].all (fun i => ow ws i = 0))

/-- Check 0x03 of R181: alignment and ranges. -/
def orderRange (ws : List W32) : Bool :=
  (oNoadd ws || (oRbase ws % 128 = 0 && (operandA ws).ink % 64 = 0 && (operandB ws).ink % 64 = 0))
    && (inkRanges ws).all (fun p => p.2 ≤ 0x100000)
    && (bankRanges ws 0).all (fun p => p.2 ≤ 0x10000)
    && (!(oDrn ws && oDink ws) || (oDoff ws % 64 = 0 && (dinkRanges ws).all (fun p => p.2 ≤ 0x100000)))

/-- Check 0x07 of R181. -/
def orderPorts (b : Brush) (ws : List W32) : Bool :=
  !oDrn ws || oDink ws || (oPorts ws != 0 && oPorts ws &&& b.outBound.toNat = oPorts ws)

/-- The status that an order's checks on entry give: the lowest code of those that fail, or 0 (R181). -/
def entryStatus (b : Brush) (ws : List W32) : W8 :=
  if !orderFields ws then 0x01
  else if !orderShape ws then 0x02
  else if !orderRange ws then 0x03
  else if !orderPorts b ws then 0x07
  else 0

/-- An order entering the queue (R181, R182): one that finds it full is discarded and counted. Answers whether it was
discarded. -/
def enterOrder (s : State) (k : Nat) (ws : List W32) : State × Bool :=
  let b := getBrush s k
  if b.queue.length ≥ 16 then (putBrush s k { b with drops := satInc b.drops, oqovf := true }, true)
  else (putBrush s k { b with queue := b.queue ++ [⟨ws, entryStatus b ws⟩] }, false)

/-- The places of the parity errors among the words that an order reads (R189): a bank, or ink offset [19:12]; the flag
says that it is a bank. -/
def orderErrors (s : State) (k : Nat) (ws : List W32) : List (Bool × Nat) :=
  let banks := (List.range 256).filter (fun l => l < oCols ws && (bankRanges ws l).any (fun p =>
    (parityFind s.parity (reservoirBase k + l * 0x10000 + p.1) (p.2 - p.1)).isSome))
  let inks := (inkRanges ws).filterMap (fun p => parityFind s.parity (inkBase k + p.1) (p.2 - p.1))
  banks.map (fun l => (true, l)) ++ inks.map (fun a => (false, (a - inkBase k) / 4096))

/-- The parity error that an order reports: a free choice among those it reads (R189, log 45). -/
def orderParity (s : State) (k : Nat) (ws : List W32) : Option (Bool × Nat) :=
  let l := orderErrors s k ws
  l[(freeBits s).1.toNat % l.length]?

/-- Element j of packed elements of w bits at an address (R31). -/
def elemAt (s : State) (a w j : Nat) : Nat := loadNat s (a + j * w / 8) (ceilDiv w 8) / 2 ^ (j * w % 8) % 2 ^ w

/-- Element j of row r of an operand (R178). -/
def operandVal (s : State) (k : Nat) (o : Operand) (r j : Nat) : FVal :=
  let a := inkBase k + o.ink + r * o.pitch
  let w := fmtBits o.fmt
  if !fmtMx o.fmt then plainVal o.fmt (elemAt s a w j)
  else if o.grouped then
    let run := a + j / 2048 * runBytes o.fmt
    mxVal o.fmt (elemAt s (run + 64) w (j % 2048)) (memRead s.mem (run + j % 2048 / 32)).toNat
  else mxVal o.fmt (elemAt s a w j) (memRead s.mem (inkBase k + o.scales + r * o.spitch + j / 32)).toNat

/-- Weight (i, c): input i of column c (R169). -/
def weightVal (s : State) (k : Nat) (ws : List W32) (i c : Nat) : FVal :=
  let f := oWfmt ws
  let bank := reservoirBase k + c % 256 * 0x10000
  let bits := elemAt s (bank + oRbase ws + c / 256 * columnBytes ws) (fmtBits f) i
  if fmtMx f then mxVal f bits (memRead s.mem (bank + oRsbase ws + c / 256 * (oRows ws / 32) + i / 32)).toNat
  else plainVal f bits

/-- A value multiplied exactly by 2^n (R183). -/
def scaleBy (n : Int) : FVal → FVal
  | .fin neg m e => .fin neg m (e + n)
  | v => v

/-- GEXP of BRUSH_k_GSCALE (R183). -/
def gexp (b : Brush) : Int := (b.gscale.truncate 8 : W8).toInt

/-- The pieces of a range in steps of 32, as lists of indices. -/
def by32 (n : Nat) : List (List Nat) :=
  (List.range (ceilDiv n 32)).map (fun q => ((List.range 32).map (fun j => 32 * q + j)).filter (· < n))

/-- The product groups that enter one cell of an order, in their order (R173 to R175): output o of batch row b, or in an
outer-product the cell k × COLS + n. -/
def cellGroups (s : State) (k : Nat) (ws : List W32) (b o : Nat) : List FVal :=
  let a := operandA ws
  match oMode ws with
  | 0 => (by32 (oRows ws)).map (fun g => productSum (g.map (fun i => (operandVal s k a b i, weightVal s k ws i o))))
  | 1 =>
    let prod (c : Nat) : FVal × FVal := (operandVal s k a b c, weightVal s k ws o c)
    if fmtMx (oWfmt ws) then (List.range (oCols ws)).map (fun c => productSum [prod c])
    else (by32 (oCols ws)).map (fun g => productSum (g.map prod))
  | _ =>
    let d := operandB ws
    let prod (r : Nat) : FVal × FVal := (operandVal s k a r (o / oCols ws), operandVal s k d r (o % oCols ws))
    let rows := List.range (oBatch ws)
    if fmtMx a.fmt || fmtMx d.fmt then rows.map (fun r => productSum [prod r]) else [productSum (rows.map prod)]

/-- The cells of an order's group that it adds to, as pairs of batch row and output (R171). -/
def orderCells (ws : List W32) : List (Nat × Nat) :=
  if oMode ws = 2 then (List.range (oRows ws * oCols ws)).map (fun q => (0, q))
  else (List.range (oBatch ws)).flatMap (fun b => (List.range (rowOutputs ws)).map (fun o => (b, o)))

/-- The index of a cell: group, then batch row and output, or the position of an outer-product cell (R171). -/
def cellIndex (g b o : Nat) : Nat := 65536 * g + 16384 * b + o

/-- The cells of a brush without those of one group: each holds S = E = +0 (R50). -/
def openCells (m : SMap Cell) (g : Nat) : SMap Cell := mapDropWhere m (fun i => i / 65536 == g)

/-- The cells of a brush after an order's additions (R45 to R48, R183). -/
def addOrder (s : State) (k : Nat) (ws : List W32) : SMap Cell :=
  let b := getBrush s k
  let g := oGroup ws
  let start := if oAcu ws then b.cells else openCells b.cells g
  (orderCells ws).foldl (fun m p =>
    let i := cellIndex g p.1 p.2
    let groups := cellGroups s k ws p.1 p.2
    let groups := if oGs ws then groups.map (scaleBy (gexp b)) else groups
    mapPut m i (cellProducts (mapGet (fun _ => {}) m i) groups)) start

/-- The completion record of an order (R186). -/
def crecWord (ws : List W32) (summary : BitVec 5) (status : W8) (tick : W64) : W64 :=
  BitVec.ofNat 64 (tick.toNat % 2 ^ 32 * 2 ^ 32 + summary.toNat * 2 ^ 24 + status.toNat * 2 ^ 16 + oTag ws)

/-- The place that BRUSH_k_ERRINFO.WHERE names for an error that is no parity error is a free value (log 45). -/
def errPlace (s : State) (place : Option W8) : W8 × State :=
  match place with
  | some w => (w, s)
  | none =>
    let (v, s) := freeBits s
    (v.truncate 8, s)

/-- An order completed (R186): record, count, CTALLY unless the brush has failed, and ERRINFO on an error. -/
def completeOrder (s : State) (k : Nat) (ws : List W32) (summary : BitVec 5) (status : W8) (place : Option W8) : State :=
  let t := k / 6
  let c := brushCtx (getBrush s k)
  let rec_ := crecWord ws summary status (getSlate s t).tick
  let s := modBrush s k (fun b => { b with crec := mapPut b.crec (oTag ws % 16) rec_, done := b.done + 1 })
  let s := match oCtally ws, c with
    | some v, some c => if status = 0x09 then s else (match tallyOf s t c v with
        | some p => queueRaise s t p 1
        | none => s)
    | _, _ => s
  if status = 0 then s
  else
    let (w, s) := errPlace s place
    modBrush s k (fun b => { b with
      errinfo := BitVec.ofNat 32 (oTag ws * 2 ^ 16 + w.toNat * 2 ^ 8 + status.toNat) })

/-- A flush (R188): every order not yet started completes with status 0x08. -/
def flushBrush (s : State) (k : Nat) : State :=
  let q := (getBrush s k).queue
  let s := modBrush s k (fun b => { b with queue := [] })
  q.foldl (fun s o => completeOrder s k o.words 0 0x08 none) s

/-- A write performed at a brush, with the raise that it is due (R170, R266). -/
def performTap (s : State) (w : TapWrite) : State := sendCount (storeBytes s w.pa w.data) w.count

/-- Every write that waits at a brush performed, in the order in which they came (R170). -/
def performWaiting (s : State) (k : Nat) : State :=
  (getBrush s k).waiting.foldl performTap (modBrush s k (fun b => { b with waiting := [] }))

/-- The accesses whose writes wait at a brush that fails are refused (R190): a hand's store, and a quill's row. -/
def refuseTapped (s : State) (k : Nat) : State :=
  let mine (r : DevReq) : Bool := match regionOf r.pa, r.op with
    | .reservoir kb _, .store _ => kb == k && r.served.isSome && tapHolds s r.pa (reqBytes r)
    | _, _ => false
  let s := s.beads.foldl (fun s p => modBead s p.1 (fun b => { b with core := { b.core with
    hands := b.core.hands.map (fun q => (q.1, { q.2 with
      reqs := q.2.reqs.map (fun r => if mine r then { r with served := none, refused := true } else r) })) } })) s
  (getBrush s k).waiting.foldl (fun s w => match w.quill with
    | some (i, n) => modBead s i (fun b => { b with quills := mapPut b.quills n { quillAt b n with fenced := true } })
    | none => s) s

/-- A brush fenced (R190): its orders complete with 0x09, its drains stop, the writes that wait at it are refused, and the
Slate's masks tell. -/
def fenceBrush (s : State) (k : Nat) : State :=
  let b := getBrush s k
  let ends := b.running.map (·.words) ++ b.queue.map (·.words)
  let s := refuseTapped s k
  let s := modBrush s k (fun b => { b with running := [], queue := [], outQ := [], waiting := [], failed := true })
  let s := ends.foldl (fun s ws => completeOrder s k ws 0 0x09 none) s
  let bit : BitVec 6 := BitVec.ofNat 6 (2 ^ (k % 6))
  modSlate s (k / 6) (fun x => { x with brushAvail := x.brushAvail &&& ~~~bit, brushFailed := x.brushFailed ||| bit })

/-- The rows that a drain emits as padded bytes, its split scale bytes, and its summary flags in the places of FSW
(R52 to R55, R184). -/
def drainBytes (free : Nat → Nat) (b : Brush) (ws : List W32) : List (List W8) × List W8 × W32 :=
  let n := rowOutputs ws
  let f := oOfmt ws
  let w := fmtBits f
  let cell (r o : Nat) : W32 × W32 :=
    let i := if oMode ws = 2 then cellIndex (oGroup ws) 0 (r * oCols ws + o) else cellIndex (oGroup ws) r o
    let c := mapGet (fun _ => ({} : Cell)) b.cells i
    (c.s, c.e)
  let row (r : Nat) : List W8 × List W8 × W32 :=
    let cs := (List.range n).map (cell r)
    if f = 0xF then
      let l := cs.map (emitPair (oSat ws))
      (toBytes (8 * n) (packLanes 64 (l.map (·.1))), [], flagsOf l)
    else if fmtMx f then
      let bl := (by32 n).map (fun g => emitBlock f (oSat ws) (fun j => free (n * r + g.headD 0 + j)) (g.map (cell r)))
      let data := bl.map (fun x => toBytes (4 * w) (packLanes w x.1))
      let scales := bl.map (fun x => BitVec.ofNat 8 x.2.1)
      let flags := bl.foldl (fun g x => g ||| x.2.2) 0
      if oOlay ws then
        ((List.range (n / 2048)).flatMap (fun q => (scales.drop (64 * q)).take 64
          ++ ((data.drop (64 * q)).take 64).flatten), [], flags)
      else (data.flatten, scales, flags)
    else
      let l := cs.map (emitPlain f (oSat ws))
      (toBytes (ceilDiv (n * w) 8) (packLanes w (l.map (·.1))), [], flagsOf l)
  let rs := (List.range (emittedRows ws)).map row
  (rs.map (·.1), rs.flatMap (·.2.1), (rs.map (·.2.2)).foldl (· ||| ·) 0)

/-- The summary bits of a completion record, [28] NX, UF, SAT, INF, NAN [24], from flags in the places of FSW. -/
def summaryBits (g : W32) : BitVec 5 :=
  BitVec.ofNat 5 (b1 (g.getLsbD 0) + 2 * b1 (g.getLsbD 2) + 4 * b1 (g.getLsbD 5) + 8 * b1 (g.getLsbD 3)
    + 16 * b1 (g.getLsbD 4))

/-- Bytes as beats of 64, the last padded with zeros. -/
def beatsOf (bs : List W8) : List Row := (chunks 64 (ceilDiv bs.length 64) bs).map bytesRow

/-- Beats spread over the out ports named in a mask, beat i to the (i mod P)-th (R185). -/
def spreadBeats (q : SMap (List Row)) (mask : Nat) (beats : List Row) : SMap (List Row) :=
  let ports := (List.range 8).filter (fun p => bitAt mask p)
  beats.zipIdx.foldl (fun q x =>
    let p := (ports[x.2 % ports.length]?).getD 0
    mapPut q p (mapGet (fun _ => []) q p ++ [x.1])) q

/-- A drain emitted (R184, R185): to the out ports, or to the ink buffer. Its group becomes Closed and keeps its
contents (R50). -/
def emitDrain (s : State) (k : Nat) (ws : List W32) : State × BitVec 5 :=
  let free (j : Nat) : Nat := (Config.freeValue (s.freeCtr + j)).toNat
  let (rows, scales, flags) := drainBytes free (getBrush s k) ws
  let s := { s with freeCtr := s.freeCtr + emittedRows ws * rowOutputs ws }
  let all := rows ++ (if splitScales ws then [scales] else [])
  let s := modBrush s k (fun b => { b with groups := mapPut b.groups (oGroup ws) ⟨false, false⟩ })
  let s := if oDink ws then
      all.zipIdx.foldl (fun s p =>
        storeBytes s (inkBase k + oDoff ws + p.2 * oDpitch ws) ((beatsOf p.1).flatMap rowBytes)) s
    else modBrush s k (fun b => { b with outQ := spreadBeats b.outQ (oPorts ws) (all.flatMap beatsOf) })
  (s, summaryBits flags)

/-- Whether the tallies that an order names have translations (R181). -/
def orderTallies (s : State) (k : Nat) (ws : List W32) : Bool :=
  let ok (o : Option Nat) : Bool := match o with
    | none => true
    | some v => match brushCtx (getBrush s k) with
      | some c => (tallyOf s (k / 6) c v).isSome
      | none => false
  ok (oWtally ws) && ok (oCtally ws)

/-- Whether the order at the head may start (R183, R196), its tallies having translations. -/
def orderReady (s : State) (k : Nat) (ws : List W32) : Bool :=
  let b := getBrush s k
  let t := k / 6
  let wtally := match oWtally ws, brushCtx b with
    | some v, some c => (match tallyOf s t c v with
      | some p => tallyMeets (tallyValue s t p) (oWtarget ws)
      | none => false)
    | _, _ => true
  let meets (w : TapWrite) : Bool :=
    let o := w.pa - reservoirBase k
    o / 0x10000 < oCols ws && (bankRanges ws (o / 0x10000)).any (overlaps (o % 0x10000, o % 0x10000 + w.data.length))
  let busy (r : RunningOrder) : Bool := r.drains && !r.formed
    && (oGroup r.words = oGroup ws
      || (oDink r.words && (dinkRanges r.words).any (fun p => (inkRanges ws).any (overlaps p))))
  wtally && !b.zeroing && !b.waiting.any meets && !b.running.any busy

/-- What the head order's start finds (R181, R189): the status with which it completes without effect, if any. -/
def startStatus (s : State) (k : Nat) (ws : List W32) : W8 :=
  let g : Group := mapGet (fun _ => {}) (getBrush s k).groups (oGroup ws)
  if !oNoadd ws && oAcu ws && !g.isOpen then 0x04
  else if oNoadd ws && oAcu ws && oDrn ws && g.perr then 0x06
  else 0

/-- An order put among those that run. -/
def addRunning (s : State) (k : Nat) (r : RunningOrder) : State :=
  modBrush s k (fun b => { b with running := b.running ++ [r] })

/-- A group whose contents were lost to a parity error (R50, R189): Closed with PERR set. Its cells hold nothing defined:
nothing adds to or drains them, and the debug path reads a free value there. -/
def loseGroup (s : State) (k g : Nat) : State :=
  modBrush s k (fun b => { b with groups := mapPut b.groups g ⟨false, true⟩, cells := openCells b.cells g
                                  cellBad := b.cellBad.filter (fun i => i / 65536 != g) })

/-- Whether an order's update finds an accumulator cell that holds a parity error (R189). -/
def cellError (b : Brush) (ws : List W32) : Bool :=
  oAcu ws && (orderCells ws).any (fun p => b.cellBad.contains (cellIndex (oGroup ws) p.1 p.2))

/-- What an order that starts meets first among the errors of R189: a word of its operands, as orderParity, or a cell of its
group. -/
def startError (s : State) (k : Nat) (ws : List W32) : Option (Option Nat × Nat) :=
  match orderParity s k ws with
  | some (isBank, w) => some (if isBank then some w else none, w)
  | none => if cellError (getBrush s k) ws then some (none, oGroup ws) else none

/-- An order started (R183): its OPEN, reads and additions. An uncured parity error abandons its additions (R189); the
answer names the bank where it lies in the reservoir, or says that it lies in the ink buffer or in a cell. -/
def startOrder (s : State) (k : Nat) (ws : List W32) : State × Option (Option Nat) :=
  let g := oGroup ws
  let opened : State := if oAcu ws then s
    else modBrush s k (fun b => { b with groups := mapPut b.groups g ⟨true, false⟩, cells := openCells b.cells g
                                         cellBad := b.cellBad.filter (fun i => i / 65536 != g) })
  if oNoadd ws then (addRunning opened k { words := ws, drains := oDrn ws }, none)
  else match startError s k ws with
    | some (bank, w) =>
      let s := loseGroup (freeBits s).2 k g
      (addRunning s k { words := ws, status := 0x06, place := some (BitVec.ofNat 8 w) }, some bank)
    | none =>
      let cells := addOrder s k ws
      let s := modBrush opened k (fun b => { b with cells := cells })
      (addRunning s k { words := ws, drains := oDrn ws }, none)

/-- The head order leaves the queue. -/
def popOrder (s : State) (k : Nat) : State := modBrush s k (fun b => { b with queue := b.queue.drop 1 })

/-- The context bound to a brush changed (R188): the queue is flushed, the writes of the old context that still wait are
performed before the zeroing can reach them, the groups are Closed with S = E = +0, and the zeroing of ink buffer and
reservoir begins. -/
def bindBrush (s : State) (k c : Nat) : State :=
  if brushCtx (getBrush s k) = some c then s
  else
    let s := performWaiting (flushBrush s k) k
    modBrush s k (fun b => { b with ctx := ctxWord c, groups := [], cells := [], cellBad := [], zeroing := true })

/-- A beat that a brush's in port accepts (R179): Off discards it, Ink writes it at the pointer, Order appends an order.
Answers whether an order was discarded on a full queue. The spec is silent on a LIMIT at or below BASE, on a pointer past the
ink buffer and on the reserved MODE 3: the pointer advances modulo 2 MiB and returns to BASE only where it meets LIMIT, the
beat is stored at the pointer modulo 1 MiB, and MODE 3 discards like Off (log 164). -/
def portBeat (s : State) (k p : Nat) (beat : Row) : State × Bool :=
  let b := getBrush s k
  let ip : InPort := mapGet (fun _ => {}) b.inPorts p
  let mode := fld ip.cfg.toNat 1 0
  if b.failed then (s, false)
  else if mode = 1 then
    let s := storeBytes s (inkBase k + ip.ptr.toNat % 0x100000) (rowBytes beat)
    let nxt := (ip.ptr + 64) &&& 0x1FFFC0
    let nxt := if nxt = ip.limit then ip.base else nxt
    let s := modBrush s k (fun b => { b with inPorts := mapPut b.inPorts p { ip with ptr := nxt } })
    match ip.cfg.getLsbD 31, brushCtx b with
    | true, some c => (match tallyOf s (k / 6) c (fld ip.cfg.toNat 25 16) with
      | some q => (queueRaise s (k / 6) q 64, false)
      | none => (s, false))
    | _, _ => (s, false)
  else if mode = 2 then enterOrder s k (bytesWords 16 (rowBytes beat))
  else (s, false)

end Sys2Proof.Machine
end

