-- ==== Sys2Proof/Machine/Rulings.lean ====
section
/-! DEFINITION. Ruling images (R224) and the checks under which a frame is accepted: R225, and the queue graphs of
R251 to R254. -/

namespace Sys2Proof.Machine

/-- Word at an offset of an image, as a bit vector. -/
def imgW (img : List W8) (o : Nat) : W32 := wordAt img o

/-- Whether a word has no bit outside a mask. -/
def onlyBits (w mask : W32) : Bool := w &&& ~~~mask = 0

/-- Whether the bytes [lo, hi) of an image are zero. -/
def zeroSpan (img : List W8) (lo hi : Nat) : Bool := ((img.drop lo).take (hi - lo)).all (· == 0)

/-- Offset of the record of logical bead j (R224). -/
def recordAt (j : Nat) : Nat := 0x100 + 192 * j
/-- Offset of circuit entry c. -/
def circuitAt (c : Nat) : Nat := 0xC100 + 64 * c

/-- MODES and SHAPE of a ruling header (R224). -/
def imgFree (img : List W8) : W16 := (imgW img 8).truncate 16
@[inherit_doc imgFree] def imgBlot (img : List W8) : Option Nat :=
  if (imgW img 8).getLsbD 19 then some (fld (imgW img 8).toNat 18 16) else none
@[inherit_doc imgFree] def imgShort (img : List W8) : W16 := (imgW img 0xC).truncate 16
@[inherit_doc imgFree] def imgNobrush (img : List W8) : Option Nat :=
  if (imgW img 0xC).getLsbD 19 then some (fld (imgW img 0xC).toNat 18 16) else none
@[inherit_doc imgFree] def imgCircuits (img : List W8) : Nat := fld (imgW img 0x10).toNat 7 0

/-- Whether the record of logical bead j has USED = 1. -/
def imgUsed (img : List W8) (j : Nat) : Bool := (imgW img (recordAt j)).getLsbD 0

/-- The image with its CRC word taken as zero (R224). -/
def crcImage (img : List W8) (o : Nat) : List W8 := img.take o ++ [0, 0, 0, 0] ++ img.drop (o + 4)

/-- The header checks of an image (R224, R225). -/
def headerOk (img : List W8) : Bool :=
  let n := img.length
  imgW img 0 = 1 && (imgW img 4).toNat = n && 0x100 ≤ n && n ≤ 0x10000
    && crc32 (crcImage img 0x1C) = imgW img 0x1C
    && onlyBits (imgW img 8) 0x000FFFFF && onlyBits (imgW img 0xC) 0x000FFFFF
    && (match imgBlot img with | some k => k ≤ 4 | none => true)
    && (match imgNobrush img with | some k => k ≤ 5 | none => true)
    && imgW img 0x10 ≤ 128 && onlyBits (imgW img 0x14) 0xFFFF && onlyBits (imgW img 0x18) 0xFFFF
    && (imgW img 0x14).toNat + (imgW img 0x18).toNat ≤ n && (imgW img 0x18).toNat ≤ 7936
    && ((img.drop 0x20).take 6).all (fun b => b &&& 0xF0 = 0) && zeroSpan img 0x26 0x40
    && (List.range 24).all (fun k =>
      let o := 0x40 + 8 * k
      onlyBits (imgW img o) 0x83FF0003 && fld (imgW img o).toNat 1 0 != 3 && onlyBits (imgW img (o + 4)) 0x7FFF7FFF)

/-- The defined select codes of a network (R217's table). -/
def selectOk (n : Net) (c : Nat) : Bool :=
  match n with
  | .scalar => c ≤ 15
  | .vector => c ≤ 11
  | .control => c ≤ 5 || (8 ≤ c && c ≤ 31)

/-- The defined SRC codes of a counter (R216); counter k may count lower counters only. -/
def srcOk (k c : Nat) : Bool :=
  c ≤ 0x0C || (0x11 ≤ c && c ≤ 0x18) || (0x19 ≤ c && c ≤ 0x1C) || (0x20 ≤ c && c ≤ 0x2F)
    || (0x30 ≤ c && c < 0x30 + k)

/-- A bead record with USED = 1 checked for itself (R217, R224, R225). -/
def recordOk (img : List W8) (j : Nat) : Bool :=
  let o := recordAt j
  let dir := (imgW img (o + 4)).toNat
  let ssw := leAt img (o + 8) 8
  let vsw := leAt img (o + 0x10) 8
  let csw (k : Nat) : Nat := leAt img (o + 0x18 + k) 1
  let steer (n : Net) (a : Nat) : Bool :=
    let w := imgW img a
    onlyBits w 0x8000FFFF && fld w.toNat 3 0 != 6 && fld w.toNat 3 0 != 7 && selectOk n (fld w.toNat 3 0)
  imgW img o = 1 && dir < 2 ^ 16 && ssw < 2 ^ 52 && vsw < 2 ^ 36
    && (List.range 9).all (fun k => selectOk .vector (fld vsw (4 * k + 3) (4 * k)))
    && (List.range 21).all (fun k => selectOk .control (csw k) && (k < 5 || bitAt dir (k - 5) || csw k = 0))
    && zeroSpan img (o + 0x2D) (o + 0x30) && steer .scalar (o + 0x30) && steer .vector (o + 0x34)
    && zeroSpan img (o + 0x38) (o + 0x40)
    && (List.range 8).all (fun k =>
      let c := leAt img (o + 0x40 + 8 * k) 8
      fld c 62 35 = 0 && srcOk k (fld c 31 24) && fld c 34 32 ≤ 4 && (!bitAt c 63 || 1 ≤ fld c 23 0))
    && (List.range 4).all (fun h =>
      let a := o + 0x80 + 16 * h
      onlyBits (imgW img a) 0x801FFFFC && onlyBits (imgW img (a + 4)) 0x7FFF0FFF && onlyBits (imgW img (a + 8)) 0xFFFF
        && imgW img (a + 12) = 0)

/-- Every bead record (R225): unused ones, those of free-mode rods and position 15 of short rods are zero. -/
def recordsOk (img : List W8) : Bool :=
  (List.range 256).all (fun j =>
    let must0 := (imgFree img).getLsbD (j / 16) || ((imgShort img).getLsbD (j / 16) && j % 16 = 15) || !imgUsed img j
    if must0 then zeroSpan img (recordAt j) (recordAt j + 192) else recordOk img j)

/-- The unit at a stop of the slot fabric, within its Slate (R219's table). -/
inductive FabTap
  | gateway (rod : Nat)
  | brush (k : Nat)
  | hbm (n : Nat)
  | port (n : Nat)
  | controller
  | none
deriving DecidableEq, Repr

/-- The taps in stop order. -/
def taps : List FabTap :=
  [.gateway 0, .brush 0, .gateway 1, .gateway 2, .brush 1, .gateway 3, .port 0,
   .gateway 4, .brush 2, .gateway 5, .gateway 6, .hbm 0, .gateway 7, .controller,
   .gateway 8, .hbm 1, .gateway 9, .gateway 10, .brush 3, .gateway 11, .port 1,
   .gateway 12, .brush 4, .gateway 13, .gateway 14, .brush 5, .port 2, .gateway 15]

/-- The tap at a stop. -/
def tapAt (n : Nat) : FabTap := (taps[n]?).getD .none

/-- A circuit entry (R224). -/
structure CircuitEnt where
  valid : Bool
  frame : Nat
  slot : Nat
  src : Nat
  tx : Nat
  dst : Nat
  rx : Nat
  release : Option Nat
  arrival : Option Nat
  sbase : Nat
  dbase : Nat
  slen : Nat
  dlen : Nat
deriving DecidableEq, Repr

/-- Circuit entry c of an image. -/
def circuitOf (img : List W8) (c : Nat) : CircuitEnt :=
  let o := circuitAt c
  let ctrl := leAt img o 4
  let ends := leAt img (o + 4) 4
  let tal := leAt img (o + 8) 4
  ⟨bitAt ctrl 31, fld ctrl 15 0, fld ctrl 21 16, fld ends 4 0, fld ends 7 5, fld ends 12 8, fld ends 15 13,
    if bitAt tal 15 then some (fld tal 9 0) else none, if bitAt tal 31 then some (fld tal 25 16) else none,
    leAt img (o + 0x10) 8, leAt img (o + 0x18) 8, leAt img (o + 0x20) 4, leAt img (o + 0x24) 4⟩

/-- The valid circuits of an image. -/
def circuitsOf (img : List W8) : List (Nat × CircuitEnt) :=
  ((List.range (imgCircuits img)).map (fun c => (c, circuitOf img c))).filter (fun p => p.2.valid)

/-- The distance between the stops of a circuit. -/
def stopDist (c : CircuitEnt) : Nat := Nat.max c.src c.dst - Nat.min c.src c.dst

/-- The segments and frame positions that a circuit occupies in its slot (R219). -/
def occupied (c : CircuitEnt) : List (Nat × Nat) :=
  let lo := Nat.min c.src c.dst
  ((List.range 16).filter (bitAt c.frame)).flatMap (fun j => (List.range (stopDist c)).map (fun k =>
    let seg := if c.src ≤ c.dst then lo + k else c.src - 1 - k
    (seg, (j + 1 + k) % 16)))

/-- Whether a window of a gateway bead lies in its folio within one bank (R221). -/
def folioWindow (base len : Nat) : Bool :=
  base + len ≤ 0x200000 && 0 < len && base / 0x10000 = (base + len - 1) / 0x10000

/-- Whether a window lies in stack n of Slate t (R221). -/
def hbmWindow (t n base len : Nat) : Bool :=
  0 < len && base / 0x1000000000 = 2 * t + n && (base + len - 1) / 0x1000000000 = 2 * t + n

/-- One circuit entry checked (R221, R222, R225, R297). -/
def circuitOk (img : List W8) (t : Nat) (p : Nat × CircuitEnt) : Bool :=
  let o := circuitAt p.1
  let c := p.2
  onlyBits (imgW img o) 0x803FFFFF && onlyBits (imgW img (o + 4)) 0xFFFF && onlyBits (imgW img (o + 8)) 0x83FF83FF
    && zeroSpan img (o + 0x28) (o + 0x40) && c.slot ≤ 62 && c.sbase < 2 ^ 48 && c.dbase < 2 ^ 48
    && c.slen % 64 = 0 && c.dlen % 64 = 0
    && (match tapAt c.src with
      | .gateway _ => c.tx ≤ 3 && c.release.isSome && folioWindow c.sbase c.slen
      | .hbm n => c.release.isSome && hbmWindow t n c.sbase c.slen
      | .brush _ => c.sbase = 0 && c.slen = 0
      | .port _ => c.release.isNone && c.sbase = 0 && c.slen = 0
      | _ => false)
    && (match tapAt c.dst with
      | .gateway _ => c.rx ≤ 3 && folioWindow c.dbase c.dlen
      | .hbm n => hbmWindow t n c.dbase c.dlen
      | .brush k => c.rx ≤ 3 && c.arrival.isNone && c.dbase = 0 && c.dlen = 0
          && fld (imgW img (0x40 + 32 * k + 8 * c.rx)).toNat 1 0 != 0
      | .port _ => c.arrival.isNone && c.dbase = 0 && c.dlen = 0
      | _ => false)

/-- Where and when a circuit's beats leave or reach a gateway bead: stop, frame position and bank (R223). -/
def gatewaySends (c : CircuitEnt) : List (Nat × Nat × Nat) :=
  match tapAt c.src with
  | .gateway _ => ((List.range 16).filter (bitAt c.frame)).map (fun j => (c.src, j, c.sbase / 0x10000))
  | _ => []
@[inherit_doc gatewaySends] def gatewayTakes (c : CircuitEnt) : List (Nat × Nat × Nat) :=
  match tapAt c.dst with
  | .gateway _ => ((List.range 16).filter (bitAt c.frame)).map (fun j =>
      (c.dst, (j + 3 + stopDist c) % 16, c.dbase / 0x10000))
  | _ => []
@[inherit_doc gatewaySends] def gatewayUses (c : CircuitEnt) : List (Nat × Nat × Nat) := gatewaySends c ++ gatewayTakes c

/-- The banks in which the windows of a circuit at gateway beads lie (R221). -/
def gatewayBanks (c : CircuitEnt) : List Nat :=
  (match tapAt c.src with | .gateway _ => [c.sbase / 0x10000] | _ => [])
    ++ (match tapAt c.dst with | .gateway _ => [c.dbase / 0x10000] | _ => [])

/-- Whether two circuits meet: a slot, segment and position of both (R219), an endpoint (R221), or one bank of one
gateway bead in one position (R223). -/
def circuitsMeet (a b : CircuitEnt) : Bool :=
  (a.slot = b.slot && (occupied a).any (fun x => (occupied b).contains x))
    || (a.src = b.src && a.tx = b.tx) || (a.dst = b.dst && a.rx = b.rx)
    || (gatewayUses a).any (fun x => (gatewayUses b).contains x)

/-- The circuit checks of R225. -/
def circuitsOk (img : List W8) (t : Nat) : Bool :=
  let cs := circuitsOf img
  cs.all (circuitOk img t)
    && cs.all (fun a => cs.all (fun b => a.1 == b.1 || !circuitsMeet a.2 b.2))
    && cs.all (fun p => !(gatewaySends p.2).any (fun x => (gatewayTakes p.2).contains x))
    && (match imgBlot img with
      | some k => cs.all (fun p => (gatewayBanks p.2).all (fun n => n < blotterBank k))
      | none => true)

/-- The words of the record of logical bead j that are not zero, as BEAD_RULE_w holds them. -/
def imgRule (img : List W8) (j : Nat) : SMap W32 :=
  ((List.range 48).map (fun w => (w, imgW img (recordAt j + 4 * w)))).filter (fun p => p.2 != 0)

/-- The state as if an image were the only active ruling, with no crossing paired: its routes can be traced. -/
def ruleState (s : State) (t : Nat) (img : List W8) : State :=
  let bs := ((List.range 256).filter (imgUsed img)).map (fun j =>
    (256 * t + j, { beadReset (256 * t + j) with regs := { rule := imgRule img j }, route := imgRule img j }))
  modPage { s with beads := bs } t (fun p => { p with paired := 0 })

/-- An edge of a queue graph: source bead, sink bead, sink code (R241's codes). -/
structure GEdge where
  u : Nat
  v : Nat
  code : Nat
deriving DecidableEq, Repr

/-- The code of a sink in the declarations (R241). -/
def sinkCode (n : Net) (e : Nat) : Nat :=
  match n with
  | .scalar => e | .vector => 8 + e | .control => 16 + e

/-- The capacity of an edge: the depth of its sink. -/
def edgeCap (e : GEdge) : Nat := if e.code < 8 then 8 else if e.code < 12 then 4 else 1

/-- The bead that a route starts from, if its source is one that may send. -/
def originBead (s : State) (n : Net) : Option Origin → Option Nat
  | some (.ep b c) => if n = .control && tokIsIn (getBead s b) c then none else some b
  | some (.counter b _) => some b
  | _ => none

/-- The queue graph of an image's routes within its Slate. -/
def graphEdges (s : State) (t : Nat) (img : List W8) : List GEdge :=
  let st := ruleState s t img
  st.beads.flatMap (fun p => [Net.scalar, Net.vector, Net.control].flatMap (fun n =>
    ((List.range (sinkCount n)).filter (fun e => n != .control || tokIsIn p.2 e)).filterMap (fun e =>
      (originBead st n (sinkSource st n p.1 e)).map (fun b => ⟨b % 256, p.1 % 256, sinkCode n e⟩))))

/-- The nodes that can be reached from a list of nodes, themselves included. -/
def reachFrom (es : List GEdge) : Nat → List Nat → List Nat
  | 0, l => l
  | fuel + 1, l =>
    let next := (es.filter (fun e => l.contains e.u && !l.contains e.v)).map (·.v)
    if next.isEmpty then l else reachFrom es fuel (l ++ next.eraseDups)

/-- Whether node v can be reached from node u by at least no edge. -/
def reaches (es : List GEdge) (u v : Nat) : Bool := (reachFrom es 1100 [u]).contains v

/-- Whether a graph is acyclic (R251). -/
def graphAcyclic (es : List GEdge) : Bool := es.all (fun e => !reaches es e.v e.u)

/-- A hop entry of the declarations (R254), as sink bead and code; none where its reserved bits are set. -/
def hopOf (img : List W8) (o : Nat) : Option (Nat × Nat) :=
  let h := leAt img o 2
  let c := fld h 12 8
  if fld h 15 13 = 0 && (c ≤ 11 || 16 ≤ c) then some (fld h 7 0, c) else none

/-- A path of hops from a node: the edges it uses, if each is an edge of the graph. -/
def pathEdges (es : List GEdge) (u : Nat) : List (Option (Nat × Nat)) → Option (List GEdge)
  | [] => some []
  | none :: _ => none
  | some (v, c) :: l =>
    match es.find? (fun e => e.u == u && e.v == v && e.code == c) with
    | some e => (pathEdges es v l).map (e :: ·)
    | none => none

/-- A slack record (R252, R254) at an offset: its ends and the path it names, if it is sound. -/
def slackOf (img : List W8) (es : List GEdge) (o : Nat) : Option (Nat × Nat × List GEdge) :=
  let w := imgW img o
  let ns := fld w.toNat 19 16
  let u := fld w.toNat 7 0
  let v := fld w.toNat 15 8
  if !onlyBits w 0x000FFFFF || ns = 0 || ns > 8 || !onlyBits (imgW img (o + 4)) 0xFFFFFF
      || !zeroSpan img (o + 8 + 2 * ns) (o + 0x20) then none
  else match pathEdges es u ((List.range ns).map (fun i => hopOf img (o + 8 + 2 * i))) with
    | none => none
    | some p =>
      if (p.getLast?.map (·.v)) = some v && (imgW img (o + 4)).toNat ≤ (p.map edgeCap).sum then some (u, v, p) else none

/-- The paths of a graph from a node that pass no node twice, the nodes given among them; fuel bounds their edges. -/
def pathsFrom (es : List GEdge) : Nat → Nat → List Nat → List (List GEdge)
  | 0, _, _ => []
  | fuel + 1, u, seen =>
    (es.filter (fun e => e.u == u && !seen.contains e.v)).flatMap (fun e =>
      [e] :: (pathsFrom es fuel e.v (e.v :: seen)).map (e :: ·))

/-- The reconvergent pairs of a graph (R252; log 46): two paths between the same two nodes whose first edges differ. -/
def reconvergent (es : List GEdge) : List (List GEdge × List GEdge) :=
  (es.map (·.u)).eraseDups.flatMap (fun u =>
    let ps := (pathsFrom es 256 u [u]).zipIdx
    ps.flatMap (fun a => ps.filterMap (fun b =>
      if a.2 < b.2 && a.1.head? != b.1.head? && (a.1.getLast?.map (·.v)) == (b.1.getLast?.map (·.v)) then some (a.1, b.1)
      else none)))

/-- The branches of a reconvergent pair that a slack record may name as the shorter one (R252): either, where both have the
same number of hops. -/
def shorter (p : List GEdge × List GEdge) : List (List GEdge) :=
  if p.1.length < p.2.length then [p.1] else if p.2.length < p.1.length then [p.2] else [p.1, p.2]

/-- Whether each pair has a slack record of its own, among records that name these branches (R252). -/
def slackCovers : List (List GEdge × List GEdge) → List (List GEdge) → Bool
  | [], _ => true
  | p :: l, rs => (shorter p).any (fun b => rs.contains b && slackCovers l (rs.erase b))

/-- A component record (R253, R254): its edges, M and INJECT, and the offset after it. -/
def compOf (img : List W8) (o : Nat) : Option (List (Nat × Nat) × Nat × Nat) × Nat :=
  let ne := (imgW img o).toNat
  let next := o + roundUp 16 (16 + 2 * ne)
  let hops := (List.range ne).map (fun i => hopOf img (o + 16 + 2 * i))
  if 1 ≤ ne && ne ≤ 120 && onlyBits (imgW img (o + 4)) 0xFFFFFF && onlyBits (imgW img (o + 8)) 0xFFFFFF
      && imgW img (o + 12) = 0 && hops.all (·.isSome) && zeroSpan img (o + 16 + 2 * ne) next then
    (some (hops.filterMap id, (imgW img (o + 4)).toNat, (imgW img (o + 8)).toNat), next)
  else (none, next)

/-- n component records from an offset on, and where they end; none if one is malformed. -/
def compList (img : List W8) : Nat → Nat → Option (List (List (Nat × Nat) × Nat × Nat)) × Nat
  | 0, o => (some [], o)
  | n + 1, o =>
    match compOf img o with
    | (none, next) => (none, next)
    | (some c, next) =>
      let (l, e) := compList img n next
      (l.map (c :: ·), e)

/-- The edge sets that a capacity certificate has to list (R253): those of each strongly connected component of more
than one node, and each self-route. -/
def cyclicParts (es : List GEdge) : List (List GEdge) :=
  let comp (u : Nat) : List Nat := (reachFrom es 1100 [u]).filter (fun v => reaches es v u)
  let reps := (es.map (·.u)).eraseDups.filter (fun u => (comp u).all (fun v => u ≤ v) && 1 < (comp u).length)
  reps.map (fun u => es.filter (fun e => (comp u).contains e.u && (comp u).contains e.v))
    ++ (es.filter (fun e => e.u == e.v)).map (fun e => [e])

/-- Whether a component record matches a part of the graph (R253); a hop entry names an edge by its sink. -/
def compMatches (part : List GEdge) (c : List (Nat × Nat) × Nat × Nat) : Bool :=
  c.1.length = part.length && part.all (fun e => c.1.contains (e.v, e.code))
    && c.1.all (fun h => part.any (fun e => e.v = h.1 && e.code = h.2))
    && c.2.2 ≤ c.2.1 && c.2.1 < (part.map edgeCap).sum

/-- The queue graph of an image checked against its declarations (R251 to R254). What the page's orders and schedule
inject is not known when a frame is written (log 47). -/
def graphOk (s : State) (t : Nat) (img : List W8) (bringup : Bool) : Bool :=
  let es := graphEdges s t img
  let o := (imgW img 0x14).toNat
  let len := (imgW img 0x18).toNat
  let acyclic := graphAcyclic es
  if len = 0 then acyclic && (reconvergent es).isEmpty
  else
    let ns := (imgW img (o + 4)).toNat
    let nc := (imgW img (o + 8)).toNat
    let cyc := (imgW img o).getLsbD 8
    let slack := (List.range ns).map (fun i => slackOf img es (o + 16 + 32 * i))
    let (comps, ends) := compList img nc (o + 16 + 32 * ns)
    let parts := cyclicParts es
    onlyBits (imgW img o) 0x1FF && fld (imgW img o).toNat 7 0 = 1 && ns < 2 ^ 16 && nc < 2 ^ 16
      && imgW img (o + 12) = 0 && (cyc || nc = 0) && ends ≤ o + len && slack.all (·.isSome)
      && slackCovers (reconvergent es) (slack.filterMap (fun r => r.map (·.2.2)))
      && (match comps with
        | some l => l.length = parts.length && parts.all (fun part => l.any (compMatches part))
            && l.all (fun c => parts.any (fun part => compMatches part c))
        | none => false)
      && (acyclic || (bringup && cyc))

/-- Whether no route of an image enters a free-mode rod (R15, R215): no output towards one carries a source's units. -/
def routesOk (s : State) (t : Nat) (img : List W8) : Bool :=
  let st := ruleState s t img
  let free (r : Nat) : Bool := (imgFree img).getLsbD r
  st.beads.all (fun p =>
    let r := p.1 % 256 / 16
    [Net.scalar, Net.vector, Net.control].all (fun n =>
      let enters (o : Nat) : Bool := (traceBack st n hopFuel p.1 (switchSel p.2 n o)).isSome
      !(r < 15 && free (r + 1) && enters 2) && !(0 < r && free (r - 1) && enters 3)))

/-- The reason for which an image is refused, as BOOK_LOAD numbers them (R325), if it is. -/
def imageFault (s : State) (t : Nat) (img : List W8) (bringup : Bool) : Option Nat :=
  if !(headerOk img && recordsOk img && circuitsOk img t && routesOk s t img) then some 2
  else if !graphOk s t img bringup then some 3
  else none

/-- A frame written (R224): refused while it holds the active or shadow ruling, marked valid only if its checks pass. -/
def writeFrame (s : State) (t f : Nat) (bringup : Bool) (img : List W8) : State :=
  let p := (getSlate s t).pg
  if p.active.map (·.val) = some f ∨ p.shadow.map (·.val) = some f then s
  else
    let ok := (imageFault s t img bringup).isNone
    modPage s t (fun p => { p with frames := mapPut p.frames f { valid := ok, image := img, bringup := bringup } })

/-- FRAME_WRITE (R224). -/
def execFrameWrite (sl : Fin 4) (frame : Fin 64) (bringup : Bool) (image : List W8) (s : State) :
    Host.Outcome State Fault Refusal :=
  .next (if slateRuns s sl.val then writeFrame s sl.val frame.val bringup (image.take 0x10000) else s)

end Sys2Proof.Machine
end

