-- ==== Sys2Proof/Machine/Windows.lean ====
section
/-! DEFINITION. Missed deadlines (R301, R308) and slot windows (R297 to R300): their descriptors, opening and closing. -/

namespace Sys2Proof.Machine

/-- STROKE_MISS of one miss: KIND, Slate, port, window and flits short (R308). -/
def missWord (late : Bool) (t port win short : Nat) : W32 :=
  pack [(b1 late, 31), (t, 28), (port % 16, 24), (win % 64, 16), (short % 65536, 0)]

/-- A MISS or LATE raised (R301): its sticky bit, the flag of the stroke, and STROKE_MISS where it is the stroke's
first. -/
def raiseMiss (s : State) (late : Bool) (t port win short : Nat) : State :=
  let x := s.stroke
  let x := if late then { x with late := true, strokeLate := true } else { x with miss := true, strokeMiss := true }
  { s with stroke := if x.missTaken then x else { x with missRec := missWord late t port win short, missTaken := true } }

/-- A start or entry case raised as LATE (R301): PORT reads 0xF. -/
def raiseLate (s : State) (t : Nat) : State := raiseMiss s true t 0xF 0 0

/-- Window descriptor fields (R298). -/
def wField (w : Window) (n : Nat) : Nat := ((w.words[n]?).getD 0).toNat
@[inherit_doc wField] def wValid (w : Window) : Bool := bitAt (wField w 0) 31
@[inherit_doc wField] def wPort (w : Window) : Nat := fld (wField w 0) 3 0
@[inherit_doc wField] def wSend (w : Window) : Bool := bitAt (wField w 0) 4
@[inherit_doc wField] def wFwd (w : Window) : Bool := bitAt (wField w 0) 6
@[inherit_doc wField] def wDlv (w : Window) : Bool := bitAt (wField w 0) 7
@[inherit_doc wField] def wFwdPort (w : Window) : Nat := fld (wField w 0) 11 8
@[inherit_doc wField] def wStreams (w : Window) : Nat := fld (wField w 0) 13 12 + 1
@[inherit_doc wField] def wFlits (w : Window) : Nat := fld (wField w 1) 15 0
@[inherit_doc wField] def wLen (w : Window) : Nat := fld (wField w 2) 23 0
@[inherit_doc wField] def wStream (w : Window) (k : Nat) : Nat :=
  let j := k % wStreams w
  fld (wField w 3) (8 * j + 2) (8 * j)
@[inherit_doc wField] def wTally (w : Window) : Option (Nat × Bool) :=
  if bitAt (wField w 4) 15 then some (fld (wField w 4) 9 0, bitAt (wField w 4) 14) else none

/-- Window slot w of a Slate. -/
def getWindow (s : State) (t w : Nat) : Window := mapGet (fun _ => {}) (getSlate s t).pg.windows w
/-- The state with a window slot replaced. -/
def putWindow (s : State) (t w : Nat) (x : Window) : State :=
  modPage s t (fun p => { p with windows := mapPut p.windows w x })

/-- The streams of a window, each once. -/
def windowStreams (w : Window) : List Nat := ((List.range (wStreams w)).map (wStream w)).eraseDups

/-- A window closed (R299, R300, R304): one that falls short raises LATE or MISS unless it is closed quietly, and a send
window that falls short discards what its streams hold and what arrives for them. -/
def closeWindow (s : State) (t w : Nat) (quiet : Bool) : State :=
  let x := getWindow s t w
  if !x.isOpen then s
  else
    let p := wPort x
    let short := wFlits x - x.flits
    let s := putWindow s t w { x with isOpen := false }
    let s := if wSend x then
        modPort s p (fun q =>
          if short = 0 then { q with sendOpen := none }
          else { q with sendOpen := none, dropStreams := windowStreams x
                        sendBuf := mapDropWhere q.sendBuf (fun k => (windowStreams x).contains k) })
      else modPort s p (fun q => { q with recvOpen := none })
    if short = 0 || quiet then s else raiseMiss s (wSend x) t p w short

/-- Every window of a Slate closed. -/
def closeWindows (s : State) (t : Nat) (quiet : Bool) : State :=
  (List.range 64).foldl (fun s w => closeWindow s t w quiet) s

/-- The ports of a Slate (R295). -/
def slatePorts (t : Nat) : List Nat := [3 * t, 3 * t + 1, 3 * t + 2]

/-- A window opened for sending or receiving (R284, R299, R300): refused, as LATE or MISS, while its port and direction
are held by an open window. A descriptor that is not valid (R298), or names a port of another Slate (R295), opens nothing. -/
def openWindow (s : State) (t w : Nat) : State :=
  let x := getWindow s t w
  let p := wPort x
  let port := getPort s p
  let held := if wSend x then port.sendOpen.isSome else port.recvOpen.isSome
  if !wValid x || !(slatePorts t).contains p then s
  else if held then raiseMiss s (wSend x) t p w (wFlits x)
  else
    let id : Fin 4 × Fin 64 := (⟨t % 4, Nat.mod_lt _ (by decide)⟩, ⟨w % 64, Nat.mod_lt _ (by decide)⟩)
    let s := putWindow s t w { x with isOpen := true, flits := 0, closesAt := s.stroke.phase.toNat + wLen x }
    modPort s p (fun q => if wSend x then { q with sendOpen := some id, dropStreams := [] } else { q with recvOpen := some id })

end Sys2Proof.Machine
end

