-- ==== Sys2Proof/Machine/PageOps.lean ====
section
/-! DEFINITION. Pages and their switches (R226 to R236): books' page descriptors, the adapters of a job (R207 to R209),
aborting, closing, loading and applying, refetching a segment (R348), and the shift of a rod. -/

namespace Sys2Proof.Machine

/-- A ledger entry. -/
def findEntry (s : State) (fn seq : Nat) : Option LEntry :=
  s.ledger.entries.find? (fun e => e.fn.val == fn && e.seq.toNat == seq)

/-- A ledger entry changed (R341). -/
def modEntry (s : State) (fn seq : Nat) (f : LEntry → LEntry) : State :=
  { s with ledger := { s.ledger with
      entries := s.ledger.entries.map (fun e => if e.fn.val = fn ∧ e.seq.toNat = seq then f e else e) } }

/-- A word of a job entry (R326). -/
def entryWord (e : LEntry) (n : Nat) : Nat := ((e.words[n]?).getD 0).toNat
/-- Context, book, entry point and argument i of a job (R326). -/
def jobCtx (e : LEntry) : Nat := fld (entryWord e 2) 5 0
@[inherit_doc jobCtx] def jobBook (e : LEntry) : Nat := fld (entryWord e 3) 15 0
@[inherit_doc jobCtx] def jobEntry (e : LEntry) : Nat := fld (entryWord e 3) 31 16
@[inherit_doc jobCtx] def jobArg (e : LEntry) (i : Nat) : Nat := entryWord e (6 + 2 * i) + entryWord e (7 + 2 * i) * 2 ^ 32

/-- The device address of a context's HBM address, if it is mapped there (R314). -/
def hbmOf (s : State) (c va : Nat) : Option Nat :=
  match translate s (some c) va false with
  | some x => if inHbm x.pa then some x.pa else none
  | none => none

/-- Bytes written at a device address in HBM, and in the mirror of a Guarded page (R345). -/
def putHbm (s : State) (pa : Nat) (bs : List W8) : State := hbmWrite s pa (mirrorOf s pa) bs

/-- The mirror of a segment copy's page (R345). -/
def copyMirror (s : State) (pa : Nat) : Option Nat :=
  (s.books.findSome? (fun b => b.2.copies.findSome? (fun l => l.2.findSome? (fun p =>
    if p.1 = pa / 0x200000 then p.2.map (fun q => q * 0x200000 + pa % 0x200000) else none)))).orElse (fun _ => mirrorOf s pa)

/-- The offset of the page table, ruling list and entry table of a book image (R324). -/
def pageTable (img : List W8) : Nat := leAt img 0x10 4
@[inherit_doc pageTable] def rulingList (img : List W8) : Nat := leAt img 0x14 4
@[inherit_doc pageTable] def entryTable (img : List W8) : Nat := leAt img 0x18 4
/-- The counts of a book header (R324). -/
def bookPages (img : List W8) : Nat := leAt img 8 2
@[inherit_doc bookPages] def bookRulings (img : List W8) : Nat := fld (leAt img 8 4) 22 16
@[inherit_doc bookPages] def bookEntries (img : List W8) : Nat := leAt img 0xC 2

/-- Page n of a book as Slate t uses it: RULING is the frame that the loader wrote, addresses are translated (R325). -/
def pageOf (s : State) (bk : Nat) (t n : Nat) : Option PageDesc :=
  match mapFind s.books bk with
  | none => none
  | some b =>
    if n < bookPages b.image then
      let o := pageTable b.image + 128 * n
      let w (k : Nat) : Nat := leAt b.image (o + k) 4
      let frames := ((b.frames.find? (fun p => p.1 == t)).map (·.2)).getD []
      let dev (k : Nat) : BitVec 48 :=
        BitVec.ofNat 48 ((hbmOf s b.ctx.val (leAt b.image (o + k) 6)).getD 0)
      some {
        number := BitVec.ofNat 16 (w 0), last := bitAt (w 0) 16, evstart := bitAt (w 0) 17
        frame := ⟨((frames[fld (w 4) 5 0]?).getD 0) % 64, Nat.mod_lt _ (by decide)⟩
        variants := (List.range 6).map (fun k => BitVec.ofNat 16 (leAt b.image (o + 8 + 2 * k) 2))
        next := if bitAt (w 0x18) 31 then some (BitVec.ofNat 16 (w 0x18)) else none
        doneTally := if bitAt (w 0x1C) 31 then some (BitVec.ofNat 10 (w 0x1C)) else none
        doneTarget := BitVec.ofNat 48 (leAt b.image (o + 0x20) 6)
        segs := ((b.segs.find? (fun p => p.1 == t && p.2.1 == n)).map (·.2.2)).getD []
        orderCounts := (List.range 6).map (fun k => fld (w 0x34) (5 * k + 4) (5 * k))
        gscale := (List.range 6).map (fun k => BitVec.ofNat 8 (leAt b.image (o + 0x38 + k) 1))
        orders := dev 0x40, sched := dev 0x48, schedCount := fld (w 0x50) 8 0 }
    else none

/-- The ruling image of a page on Slate t. -/
def pageImage (s : State) (t : Nat) (p : PageDesc) : List W8 :=
  (mapGet (fun _ => ({} : Frame)) (getSlate s t).pg.frames p.frame.val).image

/-- Whether a ruling uses brushes at all: a circuit at one, or initial orders. -/
def usesBrush (img : List W8) (p : PageDesc) : Bool :=
  p.orderCounts.any (· != 0) || (circuitsOf img).any (fun c => (match tapAt c.2.src, tapAt c.2.dst with
    | .brush _, _ => true
    | _, .brush _ => true
    | _, _ => false))

/-- Whether a page moves data in a stack of its Slate: a circuit that ends there, or a segment copy that lies in it. -/
def usesStack (img : List W8) (t : Nat) (p : PageDesc) (n : Nat) : Bool :=
  (circuitsOf img).any (fun c => tapAt c.2.src == .hbm n || tapAt c.2.dst == .hbm n)
    || p.segs.any (fun g => g.src / 0x1000000000 == 2 * t + n)

/-- Whether a page can run on a Slate as it stands (R17, R191, R235, R357): its frame is valid, its shape covers degraded and
disabled rods and a failed brush, and it moves no data in a failed stack. -/
def pageRuns (s : State) (t : Nat) (p : PageDesc) : Bool :=
  let f : Frame := mapGet (fun _ => {}) (getSlate s t).pg.frames p.frame.val
  let img := f.image
  let names (r : Nat) : Bool := (imgFree img).getLsbD r || (List.range 16).any (fun k => imgUsed img (16 * r + k))
  f.valid
    && (List.range 16).all (fun r =>
      let x := rodFailed s t r
      (!rodDegraded x || (imgShort img).getLsbD r || (imgFree img).getLsbD r) && (!rodDisabled x || !names r))
    && (List.range 6).all (fun k => !(getSlate s t).brushFailed.getLsbD k || imgNobrush img = some k || !usesBrush img p)
    && [0, 1].all (fun n => !s.spine.stackFailed.getLsbD (2 * t + n) || !usesStack img t p n)

/-- The page that a Slate runs for page n of a book: itself, or the variant without a failed brush (R191, R228). -/
def choosePage (s : State) (bk t n : Nat) : Option PageDesc :=
  match pageOf s bk t n with
  | none => none
  | some p =>
    if pageRuns s t p then some p
    else ((List.range 6).filter (fun k => (getSlate s t).brushFailed.getLsbD k)).findSome? (fun (k : Nat) =>
      match (p.variants[k]? : Option W16) with
      | some v => if v = 0xFFFF then none
          else match pageOf s bk t v.toNat with
            | some q => if pageRuns s t q then some q else none
            | none => none
      | none => none)

/-- Whether the pages of a book from page n on can all run on a Slate. -/
def chainRuns (s : State) (bk t : Nat) : Nat → Nat → Bool
  | 0, _ => true
  | fuel + 1, n =>
    match choosePage s bk t n with
    | none => false
    | some p => p.last || (match p.next with | some m => chainRuns s bk t fuel m.toNat | none => true)

/-- The first page of a job's entry point (R324). -/
def firstPage (s : State) (e : LEntry) : Option Nat :=
  match mapFind s.books (jobBook e) with
  | some b => if jobEntry e < bookEntries b.image then some (leAt b.image (entryTable b.image + 32 * jobEntry e) 2) else none
  | none => none

/-- Whether a Slate can run a job's pages: it works, its book's mask allows it, and its chain of pages runs. -/
def slateCanRun (s : State) (e : LEntry) (t : Nat) : Bool :=
  slatePresent s t && !(getSlate s t).failed
    && (match mapFind s.books (jobBook e), firstPage s e with
      | some b, some n => b.mask.getLsbD t && chainRuns s (jobBook e) t (bookPages b.image + 1) n
      | _, _ => false)

/-- The masks of the argument words that name adapter descriptors (R324). -/
def updMask (s : State) (e : LEntry) : Nat :=
  match mapFind s.books (jobBook e) with
  | some b => fld (leAt b.image (entryTable b.image + 32 * jobEntry e + 8) 4) 4 0
  | none => 0

@[inherit_doc updMask] def readMask (s : State) (e : LEntry) : Nat :=
  match mapFind s.books (jobBook e) with
  | some b => fld (leAt b.image (entryTable b.image + 32 * jobEntry e + 12) 4) 4 0
  | none => 0

/-- The descriptors that the argument words of a mask name, by device address, each once (R206, R207). The spec is silent on
a marked word that is not mapped to HBM in the job's context: it names no descriptor, and the job runs (log 166). -/
def argTensors (s : State) (e : LEntry) (mask : Nat) : List Nat :=
  (((List.range 5).filter (bitAt mask)).filterMap (fun i => hbmOf s (jobCtx e) (jobArg e i))).eraseDups

/-- The descriptors of a job's update list (R207). -/
def updateList (s : State) (e : LEntry) : List Nat := argTensors s e (updMask s e)

/-- BUSY of an adapter descriptor (R199). -/
def tensorBusy (s : State) (a : Nat) : Bool := bitAt (loadNat s (a + 8) 4) 1
/-- BUSY written. -/
def setBusy (s : State) (a : Nat) (v : Bool) : State :=
  let w := loadNat s (a + 8) 4
  putHbm s (a + 8) (toBytes 4 (w / 4 * 4 + w % 2 + (if v then 2 else 0)))
/-- PEND of an adapter descriptor cleared (R207, R209). -/
def clearPend (s : State) (a : Nat) : State := putHbm s (a + 0x38) (toBytes 8 0)

/-- PEND cleared for the update list of the job that a Slate runs (R209). -/
def clearJobPend (s : State) (t : Nat) : State :=
  match (getSlate s t).pg.job with
  | none => s
  | some j => match findEntry s j.fn.val j.seq.toNat with
    | some e => (updateList s e).foldl clearPend s
    | none => s

/-- A running page aborted (R230): the brushes are flushed, hands 1 to 3 of the ruled rods are reset, and a switch in
progress is abandoned. The wait for orders and quills ends with PAGE_DRAINED. -/
def abortPage (s : State) (t : Nat) : State :=
  if (getSlate s t).pg.phase = .idle then s
  else
    let s := (slateBrushes t).foldl flushBrush s
    let s := (ruledBeads s t).foldl (fun s i => [1, 2, 3].foldl (fun s h => resetHand s i h) s) s
    modSlate s t (fun x => { x with switching := false, pg := { x.pg with phase := .aborting, switch := none } })

/-- Whether a rod has drained under R16: its trays are empty and its hands are asleep. The spec does not say whether a hand
that is Idle counts as asleep: it does here, for it does nothing until another hand or the debug path starts it (log 165). -/
def rodAsleep (s : State) (t rod : Nat) : Bool :=
  ((List.range 16).map (fun k => 256 * t + 16 * rod + k)).all (fun i => !beadExists s i ||
    (let b := getBead s i
     (!trayOn b || trayCount b = 0) && (List.range 4).all (fun h => isSleeping (handOf b h) || (handOf b h).st == .idle)))

/-- Whether every rod that a ruling moves from free to ruled mode has drained (R16). -/
def rodsFreed (s : State) (t : Nat) (p : PageDesc) : Bool :=
  let mask := imgFree (pageImage s t p)
  (List.range 16).all (fun r => !((getSlate s t).freeMask.getLsbD r && !mask.getLsbD r) || rodAsleep s t r)

/-- Whether every brush's order queue is empty and no drain is emitting (R188, R229). -/
def brushesDone (s : State) (t : Nat) : Bool :=
  (slateBrushes t).all (fun k => (getBrush s k).queue.isEmpty && (getBrush s k).outQ.all (fun p => p.2.isEmpty))

/-- Whether no quill descriptor is active on the ruled rods. -/
def quillsDone (s : State) (t : Nat) : Bool := (ruledBeads s t).all (fun i => (busyQuills (getBead s i)).isEmpty)

/-- Conditions 1 to 3 of R229 for the running page. -/
def pageDrained (s : State) (t : Nat) : Bool :=
  match (getSlate s t).pg.job with
  | none => false
  | some j =>
    let done := match j.page.doneTally with
      | none => true
      | some v => (match tallyOf s t j.ctx.val v.toNat with
        | some p => tallyMeets (tallyValue s t p) j.page.doneTarget
        | none => false)
    done && brushesDone s t && quillsDone s t && (ruledBeads s t).all (fun i =>
      let b := getBead s i
      [1, 2, 3].all (fun h => (handOf b h).st == .idle) && (handOf b 0).st == .sleeping .nwait && b.core.notices.isEmpty
        && (List.range 4).all (fun h => (handOf b h).staged.isNone) && b.blot.merge.isEmpty)

/-- What the ruled rods' endpoints, token slots and steers hold discarded (R231); answers how many units. -/
def discardBead (b : Bead) : Bead × Nat :=
  let e := b.ends
  let n := (e.sin.map (·.2.length)).sum + (e.vin.map (·.2.length)).sum + e.tin.length + e.tout.length
  ({ b with ends := { e with sin := [], vin := [], tin := [], tout := [], steerSDir := none, steerVDir := none } }, n)

/-- The units that wait in the steers and switches of a Slate discarded and counted (R231). -/
def discardHeld (s : State) (t : Nat) : State :=
  let n := ((getSlate s t).units.filter (fun u => u.held && u.dst / 256 == t)).length
  countStale (modSlate s t (fun x => { x with units := x.units.filter (fun u => !(u.held && u.dst / 256 == t)) })) t n

/-- Close begun (R231, R280): the epoch advances, endpoints, steers and switches discard, entries other than start-a-page
stop, windows close, and the ruling load begins where the shadow does not hold the page's ruling. -/
def beginClose (s : State) (t : Nat) : State :=
  let s := modSlate s t (fun x => { x with switching := false, pg := { x.pg with phase := .closing, epoch := x.pg.epoch + 1 } })
  let s := (ruledBeads s t).foldl (fun s i =>
    let (b, n) := discardBead (getBead s i)
    countStale (putBead s i b) t n) s
  let s := discardHeld s t
  let s := closeWindows s t false
  let s := { s with aux := { s.aux with stopped := s.aux.stopped ||| BitVec.ofNat 4 (2 ^ t) } }
  let tick := (getSlate s t).tick
  modPage s t (fun p => match p.switch with
    | none => p
    | some w => { p with
        switch := some { w with start := tick }
        load := if p.shadow = some w.page.frame then none else some (w.page.frame, false)
        shadow := if p.shadow = some w.page.frame then p.shadow else none })

/-- A switch asked for: at once while the Slate is idle, else after what goes on (R228, R232, R305). -/
def askSwitch (s : State) (t : Nat) (pg : PageDesc) (at_ : Option (BitVec 40)) : State :=
  let waits := !rodsFreed s t pg
  modSlate s t (fun x => { x with
    switching := waits
    pg := { x.pg with
      phase := if x.pg.phase = .idle then .draining else x.pg.phase
      switch := some { page := pg, replayAt := at_ } } })

/-- The beads that a page's BLOT_SIZE applies to (R146): those with USED = 1 in its ruling. -/
def blotBeads (s : State) (t : Nat) (img : List W8) : List Nat :=
  (slateBeads t).filter (fun i => imgUsed img (i % 256) && beadExists s i)

/-- A blotter size that a ruling asks of one bead (R146): at once, or behind a switch that the bead's own code began and
the writes held with it (log 140). -/
def askBlot (b : Bead) (n : Nat) : Bead :=
  let v (pf : Bool) : W32 := pack [(b1 pf, 8), (n, 0)]
  match b.blot.switching with
  | some (size, pf) =>
    if size.toNat = n && b.heldWrites.isEmpty then b else { b with heldWrites := b.heldWrites ++ [(0x68, v pf)] }
  | none =>
    if !b.heldWrites.isEmpty then { b with heldWrites := b.heldWrites ++ [(0x68, v b.blot.pf)] }
    else if b.blot.size.toNat = n then b
    else writeBlotCfg b (v b.blot.pf)

/-- Step 2 of a switch begun (R146, R232). -/
def beginBlot (s : State) (t : Nat) (img : List W8) : State :=
  match imgBlot img with
  | none => s
  | some n => (blotBeads s t img).foldl (fun s i => modBead s i (fun b => askBlot b n)) s

/-- Whether step 2 of a switch has ended. -/
def blotDone (s : State) (t : Nat) (img : List W8) : Bool :=
  (imgBlot img).isNone || (blotBeads s t img).all (fun i =>
    (getBead s i).blot.switching.isNone && !((getBead s i).heldWrites.any (fun p => p.1 == 0x68)))

/-- The device address that a segment is written to (R227). -/
def segTarget (t : Nat) (g : Seg) : Nat :=
  match g.kind with
  | 0 => folioBase (256 * t + g.target) + g.dst
  | 1 => reservoirBase (6 * t + g.target) + g.dst
  | _ => inkBase (6 * t + g.target) + g.dst

/-- Whether a segment may be written now: not while its brush is being zeroed (R188). -/
def segReady (s : State) (t : Nat) (g : Seg) : Bool := g.kind = 0 || !(getBrush s (6 * t + g.target)).zeroing

/-- Whether a folio segment names memory that its controller refuses (R144, R227). -/
def segRefused (s : State) (t : Nat) (g : Seg) : Bool :=
  g.kind = 0 && (folioRefuses s (256 * t + g.target) g.dst g.len || inBlotter (getBead s (256 * t + g.target)) g.dst)

/-- Bytes of a segment landed in its target: at a brush that is being zeroed they are held at the memory tap (R170, R188). -/
def landSeg (s : State) (t : Nat) (g : Seg) (o : Nat) (bs : List W8) : State :=
  let k := 6 * t + g.target
  let a := segTarget t g + o
  if g.kind = 1 && (getBrush s k).zeroing then joinTap s k { pa := a, data := bs } else storeBytes s a bs

/-- A span of a segment loaded, line by line: from its copy, or from the copy's mirror where the stack cannot correct
the read (R345). Answers false where neither is good. -/
def loadSpan (s : State) (t : Nat) (g : Seg) : Nat → Nat → State × Bool
  | 0, _ => (s, true)
  | fuel + 1, o =>
    if o ≥ g.len then (s, true)
    else match hbmRead s (g.src + o) 64 (copyMirror s (g.src + o)) false with
      | (none, s) => (s, false)
      | (some bs, s) => loadSpan (landSeg s t g o bs) t g fuel (o + 64)

/-- A whole segment loaded (R227). What was written to a reservoir before waits there no longer when the load's own writes are
performed (R170). -/
def loadSeg (s : State) (t : Nat) (g : Seg) : State × Bool :=
  if segRefused s t g then (s, true)
  else loadSpan (if g.kind = 1 && !(getBrush s (6 * t + g.target)).zeroing then performWaiting s (6 * t + g.target) else s) t g (g.len / 64 + 1) 0

/-- Every segment of a page loaded; answers whether all reads were good. -/
def loadSegs (s : State) (t : Nat) (l : List Seg) : State × Bool :=
  l.foldl (fun p g =>
    let (s, ok) := loadSeg p.1 t g
    (s, p.2 && ok)) (s, true)

/-- Rung 3 (R348): the lines of a folio or reservoir range that a segment of the running page covers are fetched again
from its copy; none where no segment covers them. -/
def refetch (s : State) (t kind target off n : Nat) : Option State :=
  match (getSlate s t).pg.job with
  | none => none
  | some j =>
    let hits := j.page.segs.filter (fun g => g.kind == kind && g.target == target && overlaps (g.dst, g.dst + g.len) (off, off + n))
    if hits.isEmpty then none
    else
      let (s, ok) := loadSegs s t hits
      if ok then some (logSlate s 0x04 t (if kind = 0 then 2 else 1)) else none

/-- Whether a route of an origin leaves its Slate by a crossing channel that is not paired (R214, R248). -/
def routeUnpaired (s : State) (t : Nat) (n : Net) (o : Origin) : Bool :=
  [0, 1].any (fun c =>
    let x := 256 * t + 16 * (7 + c)
    let sel := switchSel (getBead s x) n 4
    !(getSlate s t).pg.paired.getLsbD (2 * netNo n + c) && sel != 0
      && upSource s n 64 (traceBack s n hopFuel x sel) == some o)

/-- Whether out-endpoint e of a bead is closed for want of a route (R214, R248). -/
def outClosed (s : State) (n : Net) (i e : Nat) : Bool :=
  (routeSinks s n 64 (.ep i e)).isEmpty || routeUnpaired s (i / 256) n (.ep i e)

/-- A mask of the numbers below n that satisfy p. -/
def maskOf (n : Nat) (p : Nat → Bool) : Nat := ((List.range n).map (fun k => if p k then 2 ^ k else 0)).sum

/-- Whether a crossing channel is declared by both active rulings (R214). -/
def channelPaired (s : State) (t : Nat) (n : Net) (c : Nat) : Bool :=
  match xchPeer (activeImage s t) n c with
  | some (p, ch) => p != t && slatePresent s p && slatePresent s t && !slateOffline s p && !slateOffline s t
      && xchPeer (activeImage s p) n ch == some (t, c)
  | none => false

/-- SLATE_XCH_STAT of every Slate computed anew. -/
def pairChannels (s : State) : State :=
  let pairs (t : Nat) : BitVec 6 := BitVec.ofNat 6
    (([Net.scalar, Net.vector, Net.control].map (fun n => 4 ^ netNo n * maskOf 2 (channelPaired s t n))).sum)
  let all := (List.range 4).map pairs
  (List.range 4).foldl (fun s t => modPage s t (fun p => { p with paired := (all[t]?).getD 0 })) s

/-- Whether a bead is in reset or locked up, so that its endpoints stay closed (R248). -/
def beadShut (b : Bead) : Bool := b.held || b.core.lockup.getLsbD 0

/-- A bead with every endpoint closed, while `shut` holds (R248). -/
def shutEnds (b : Bead) (shut : Bool) : Bead :=
  if shut then { b with ends := { b.ends with
    sinClosed := BitVec.allOnes 8, soutClosed := BitVec.allOnes 8, vinClosed := BitVec.allOnes 4
    voutClosed := BitVec.allOnes 4, tokClosed := BitVec.allOnes 16 } }
  else b

/-- Out-endpoints of Slate t whose routes gained or lost their crossing since `old`: opened with full credits, or closed
(R214, R248). -/
def recross (old s : State) (t : Nat) : State :=
  if (getSlate old t).pg.paired = (getSlate s t).pg.paired then s
  else (ruledBeads s t).foldl (fun s i =>
    let was (n : Net) (e : Nat) : Bool := routeUnpaired old t n (.ep i e)
    let is_ (n : Net) (e : Nat) : Bool := routeUnpaired s t n (.ep i e)
    let opens (n : Net) (e : Nat) : Bool := was n e && !is_ n e
    let shuts (n : Net) (e : Nat) : Bool := !was n e && is_ n e
    let upd (w : Nat) (n : Net) (v : BitVec w) (k : Nat) : BitVec w :=
      (v &&& ~~~(BitVec.ofNat w (maskOf k (opens n)))) ||| BitVec.ofNat w (maskOf k (shuts n))
    modBead s i (fun b =>
      let out (k : Nat) : Bool := !tokIsIn b k
      let shut := beadShut b
      shutEnds { b with ends := { b.ends with
          soutClosed := upd 8 .scalar b.ends.soutClosed 8
          voutClosed := upd 4 .vector b.ends.voutClosed 4
          tokClosed := (b.ends.tokClosed &&& ~~~(BitVec.ofNat 16 (maskOf 16 (fun k => out k && opens .control k))))
            ||| BitVec.ofNat 16 (maskOf 16 (fun k => out k && shuts .control k))
          soutCred := ((List.range 8).filter (opens .scalar)).foldl (fun m k => mapPut m k 8) b.ends.soutCred
          voutCred := ((List.range 4).filter (opens .vector)).foldl (fun m k => mapPut m k 4) b.ends.voutCred
          toutCred := b.ends.toutCred ||| BitVec.ofNat 16 (maskOf 16 (fun k => out k && opens .control k)) } } shut)) s

/-- A bead as a ruling's record sets it at apply (R218, R232, R250): rule words, empty endpoints with full credits,
counters and steers at 0, fire gates loaded. -/
def ruleBead (b : Bead) (img : List W8) (j : Nat) : Bead :=
  let o := recordAt j
  let b := { b with
    regs := { b.regs with rule := imgRule img j }
    route := imgRule img j
    ends := { discard := b.ends.discard, vqBind := b.ends.vqBind
              soutCred := (List.range 8).map (fun k => (k, 8)), voutCred := (List.range 4).map (fun k => (k, 4))
              toutCred := BitVec.allOnes 16, sinClosed := 0, soutClosed := 0, vinClosed := 0, voutClosed := 0
              tokClosed := 0 } }
  (List.range 4).foldl (fun b h => setHand b h { handOf b h with
    firePc := imgW img (o + 0x80 + 16 * h), fireQ := imgW img (o + 0x84 + 16 * h), fireTok := imgW img (o + 0x88 + 16 * h) }) b

/-- The endpoints of a bead closed for want of a route, once every route is set, or because the bead is in reset or locked
up (R248). -/
def shutRoutes (s : State) (i : Nat) : State :=
  let b := getBead s i
  modBead s i (fun b' => shutEnds { b' with ends := { b'.ends with
    soutClosed := BitVec.ofNat 8 (maskOf 8 (outClosed s .scalar i))
    voutClosed := BitVec.ofNat 4 (maskOf 4 (outClosed s .vector i))
    tokClosed := BitVec.ofNat 16 (maskOf 16 (fun k => !tokIsIn b k && outClosed s .control i k)) } } (beadShut b))

/-- The units under way to a Slate when its ruling is applied discarded and counted: none outlives a close (R233). What it
sent to other Slates is judged at their crossings. -/
def dropUnits (s : State) (t : Nat) : State :=
  let mine (u : QUnit) : Bool := u.dst / 256 == t
  (List.range 4).foldl (fun s u =>
    let n := ((getSlate s u).units.filter mine).length
    if n = 0 then s else countStale (modSlate s u (fun x => { x with units := x.units.filter (fun q => !mine q) })) t n) s

/-- The error-log record of the units that a switch left over (R233, R359): written at apply where the count has come to be
more than zero (log 167). -/
def logStale (s : State) (t : Nat) : State :=
  let n := (getSlate s t).pg.stale
  if n = 0 then s else logSlate s 0x08 t n

/-- Step 4 of a switch (R14, R16, R214, R222, R232, R250): the ruling applied. The record of a bead in a free-mode rod is zero
(R225), so a rod that moves to free mode has its counters, steers and fire gates at 0 and no route. -/
def applyRuling (s : State) (t : Nat) (pg : PageDesc) : State :=
  let old := s
  let img := pageImage s t pg
  let c := (getSlate s t).pg.job.map (·.ctx.val)
  let was := (getSlate s t).freeMask
  let now := imgFree img
  let s := logStale (dropUnits s t) t
  let s := modSlate s t (fun x => { x with
    freeMask := now, switching := false, credits := []
    pg := { x.pg with active := some pg.frame, shadow := none, shadowFrame := pg.frame, circuitsOff := false } })
  let s := (slateBeads t).foldl (fun s i =>
    let rod := i % 256 / 16
    if !beadExists s i || (was.getLsbD rod && now.getLsbD rod) then s
    else if now.getLsbD rod then modBead (closeAll s i) i (fun b => shutEnds (ruleBead b img (i % 256)) true)
    else modBead s i (fun b => ruleBead b img (i % 256))) s
  let s := pairChannels s
  let s := (ruledBeads s t).foldl shutRoutes s
  let s := (List.range 4).foldl (fun s u => if u = t then s else recross old s u) s
  let origin (r : Option Nat) : BitVec 48 := match r, c with
    | some v, some c => ((tallyOf s t c v).map (tallyValue s t)).getD 0
    | _, _ => 0
  let circ := (circuitsOf img).map (fun p => (p.1, ({ origin := origin p.2.release } : Circuit)))
  modPage s t (fun p => { p with circuits := circ })

/-- Step 5 of a switch (R179, R188, R191): in-port configurations, bound out ports and GSCALE. -/
def applyPorts (s : State) (t : Nat) (pg : PageDesc) : State :=
  let img := pageImage s t pg
  let bound (k : Nat) : W8 := BitVec.ofNat 8 (maskOf 8 (fun p =>
    (circuitsOf img).any (fun c => c.2.tx == p && (match tapAt c.2.src with | .brush j => j == k | _ => false))))
  (List.range 6).foldl (fun s k => modBrush s (6 * t + k) (fun b =>
    let g := (pg.gscale[k]?).getD 0
    { b with
      outBound := bound k
      outQ := []
      inFlight := []
      gscale := if g = 0x80 then b.gscale else g.zeroExtend 32
      inPorts := (List.range 4).map (fun p =>
        let w := imgW img (0x40 + 32 * k + 8 * p)
        let v := (imgW img (0x44 + 32 * k + 8 * p)).toNat
        let base := BitVec.ofNat 32 (fld v 13 0 * 64)
        (p, { cfg := w, base := base, limit := BitVec.ofNat 32 (fld v 30 16 * 64), ptr := base })) })) s

/-- Step 6 of a switch (R182): the initial orders pushed. Answers whether one was discarded. -/
def pushOrders (s : State) (t : Nat) (pg : PageDesc) : State × Bool :=
  (List.range 6).foldl (fun p k =>
    (List.range ((pg.orderCounts[k]?).getD 0)).foldl (fun p n =>
      let ws := bytesWords 16 (loadBytes p.1 (pg.orders.toNat + 1024 * k + 64 * n) 64)
      let (s, lost) := enterOrder p.1 (6 * t + k) ws
      (s, p.2 || lost)) p) (s, false)

/-- The first entry of a Slate and how many it holds (R280). -/
def entryBase (s : State) (t : Nat) : Nat :=
  4 * ((List.range t).map (fun u => fld s.aux.alloc.toNat (8 * u + 7) (8 * u))).sum
@[inherit_doc entryBase] def entryCount (s : State) (t : Nat) : Nat := 4 * fld s.aux.alloc.toNat (8 * t + 7) (8 * t)

/-- Step 7 of a switch (R280, R281, R282): windows and entries written, the Slate's other entries made invalid, and the
base stroke set: the present one for an EVSTART page, else the one whose tick 0 follows. None of the new entries has fired
yet in the present stroke (R282). -/
def writeSched (s : State) (t : Nat) (pg : PageDesc) : State :=
  let a := pg.sched.toNat
  let has := a != 0
  let nwin := if has then fld (loadNat s (a + 12) 4) 6 0 else 0
  let wins := (List.range nwin).map (fun k =>
    (k, ({ words := bytesWords 8 (loadBytes s (a + 0x40 + 32 * k) 32) } : Window)))
  let base := entryBase s t
  let n := Nat.min pg.schedCount (entryCount s t)
  let ents := if has then (List.range n).map (fun k =>
      (base + k, bytesWords 4 (loadBytes s (a + 0x40 + 32 * nwin + 16 * k) 16))) else []
  let hdr : Sched := schedAt s a
  let sched := if pg.evstart then { hdr with base := s.stroke.count } else { hdr with waitsBase := true }
  let keep := mapDropWhere s.aux.entries (fun e => base ≤ e && e < base + entryCount s t)
  let s := modPage s t (fun p => { p with windows := wins, sched := sched })
  { s with aux := { s.aux with
      entries := ents.foldl (fun m e => mapPut m e.1 e.2) keep
      fired := s.aux.fired.filter (fun e => !(base ≤ e && e < base + entryCount s t))
      stopped := s.aux.stopped &&& ~~~(BitVec.ofNat 4 (2 ^ t))
      voided := s.aux.voided &&& ~~~(BitVec.ofNat 4 (2 ^ t)) } }

/-- Step 8 of a switch (R228, R232): PAGE set in the beads of the ruled rods, the page runs, and the next page's ruling
starts to load. -/
def pageRunning (s : State) (t : Nat) (pg : PageDesc) : State :=
  let s := (ruledBeads s t).foldl (fun s i =>
    let s := modBead s i (fun b => { b with regs := { b.regs with
      page := pack [((getSlate s t).pg.epoch.toNat, 16), (pg.number.toNat, 0)] } })
    raiseInt s i intPage) s
  let nextFrame : Option (Fin 64) := match (getSlate s t).pg.job, pg.last, pg.next with
    | some j, false, some n => (choosePage s j.book t n.toNat).map (·.frame)
    | _, _, _ => none
  let ticks : W16 := match (getSlate s t).pg.switch with
    | some w => ((getSlate s t).tick - w.start).truncate 16
    | none => 0
  let s := modPage s t (fun p => { p with
    phase := .running, page := pg.number, switch := none, switchTicks := ticks
    job := p.job.map (fun j => { j with page := pg })
    load := nextFrame.map (fun f => (f, false)) })
  match (getSlate s t).pg.job with
  | some j => modEntry s j.fn.val j.seq.toNat (fun e => { e with state := .running, page := pg.number })
  | none => s

/-- Steps 4 to 8 of a switch (R232). Answers whether an initial order was discarded. -/
def applyPage (s : State) (t : Nat) (pg : PageDesc) : State × Bool :=
  let s := applyPorts (applyRuling s t pg) t pg
  let (s, lost) := pushOrders s t pg
  (pageRunning (writeSched s t pg) t pg, lost)

/-- Whether steps 1 to 3 of a Slate's switch have finished (R232). -/
def stepsDone (s : State) (t : Nat) : Bool :=
  let p := (getSlate s t).pg
  match p.switch with
  | none => false
  | some w => w.closed && w.segsDone && p.shadow = some w.page.frame && blotDone s t (pageImage s t w.page)

/-- Whether the stroke in force is long enough for the page that waits in a Slate's switch (R307). -/
def strokeFits (s : State) (t : Nat) : Bool :=
  match (getSlate s t).pg.switch with
  | none => true
  | some w => !(schedAt s w.page.sched.toNat).sync || strokeLreq s ≤ s.stroke.len.toNat

/-- Whether local operation keeps a page with SYNC = 1 from running (R276). -/
def localBars (s : State) (pg : PageDesc) : Bool := s.stroke.cfg.getLsbD 28 && (schedAt s pg.sched.toNat).sync

/-- A bead's site shifted (R236): the beads from position f on move to the sites above, which keeps the contents of
their scratchpad banks; the moved beads take a bead reset, and the position that failed starts empty. -/
def beginShift (s : State) (t rod site : Nat) : State :=
  let failed := (posOf s t rod site)
  let s := modSlate s t (fun x => { x with
    rodFailed := mapPut x.rodFailed rod (mapGet (fun _ => 0) x.rodFailed rod ||| BitVec.ofNat 17 (2 ^ site))
    rodShifting := x.rodShifting ||| BitVec.ofNat 16 (2 ^ rod)
    pendingSite := none
    pg := { x.pg with load := x.pg.active.map (fun f => (f, false)) } })
  match failed with
  | some p => modBead s (256 * t + 16 * rod + p) (fun b => { b with held := true })
  | none => s

/-- The end of a shift (R236): every moved site takes a bead reset with its blotter banks invalidated; the folio of the
position that failed is lost, and reads as a folio does after power-on. -/
def endShift (s : State) (t rod : Nat) : State :=
  let moved := (List.range 16).filter (fun p => (getBead s (256 * t + 16 * rod + p)).held)
  match moved with
  | [] => modSlate s t (fun x => { x with rodShifting := x.rodShifting &&& ~~~(BitVec.ofNat 16 (2 ^ rod)) })
  | f :: _ =>
    let i := 256 * t + 16 * rod + f
    let s := zeroRange s (folioBase i) (folioBase i + 0x200000)
    let s := ((List.range 16).filter (fun p => f ≤ p)).foldl (fun s p =>
      resetBead (modBead s (256 * t + 16 * rod + p) (fun b => { b with blot := { b.blot with merge := if p = f then [] else b.blot.merge } }))
        (256 * t + 16 * rod + p)) s
    modSlate s t (fun x => { x with rodShifting := x.rodShifting &&& ~~~(BitVec.ofNat 16 (2 ^ rod)) })

end Sys2Proof.Machine
end

