-- ==== Sys2Proof/Machine/Watch.lean ====
section
/-! DEFINITION. What a Slate controller watches and reports: contexts that leave (R257, R263), slumber (R271), the stall
watchdog (R255, R256) and the sync-state dump (R272, R273). -/

namespace Sys2Proof.Machine

/-- The base, in units of 64 tallies, of the free block that a context of quota exponent q gets on Slate t (R257): the
lowest aligned one. -/
def freeBlock (s : State) (t q : Nat) : Option Nat :=
  let held := (List.range 64).filterMap (fun c => (tallyBlock s t c).map (fun p => (p.1 / 64, p.1 / 64 + p.2 / 64)))
  ((List.range 64).filter (fun b => b % 2 ^ q == 0 && b + 2 ^ q ≤ 64)).find? (fun b =>
    !held.any (overlaps (b, b + 2 ^ q)))

/-- A context leaves a Slate (R263): CTXLEAVE at its beads, its waiters woken without their tallies, its block zeroed and
unmapped. Raises on their way to the block are discarded. -/
def leaveContext (s : State) (t c : Nat) : State :=
  let s := ((slateBeads t).filter (fun i => beadCtx (getBead s i) == some c)).foldl (fun s i => raiseInt s i intCtxLeave) s
  match tallyBlock s t c with
  | none => s
  | some (base, n) =>
    let mine (p : Nat) : Bool := base ≤ p && p < base + n
    let ws := (getSlate s t).tallies.waiters.filter (fun w => mine w.tally)
    let s := modTally s t (fun u => { u with
      waiters := u.waiters.filter (fun w => !mine w.tally)
      raises := u.raises.filter (fun r => !mine r.tally)
      values := mapDropWhere u.values mine
      map := mapPut u.map c 0 })
    ws.foldl (fun s w =>
      let i := 256 * t + w.bead.val
      deliverWoken s i (modHand s i w.hand.val (fun x =>
        let x := { x with latch := {} }
        if x.st = .sleeping .twait then wakeHand x 0 else x))) s

/-- Whether a context has a Dispatched or Running job on a Slate. -/
def contextBusy (s : State) (t c : Nat) : Bool :=
  s.ledger.entries.any (fun e => (e.state == .dispatched || e.state == .running) && !e.ended && e.slate.val == t && jobCtx e == c)

/-- Whether another context needs a tally block on a Slate that has none free for it (R257, R263). -/
def blockNeeded (s : State) (t c : Nat) : Bool :=
  s.ledger.entries.any (fun e => e.state == .accepted && !e.ended && jobCtx e != c && (tallyBlock s t (jobCtx e)).isNone
    && (freeBlock s t (getCtx s (jobCtx e)).q.toNat).isNone && slateCanRun s e t)

/-- CONTEXT_LEAVE (R263), where another context needs the block. -/
def execContextLeave (sl : Fin 4) (c : Fin 64) (s : State) : Host.Outcome State Fault Refusal :=
  let t := sl.val
  .next (if slateRuns s t && (tallyBlock s t c.val).isSome && !contextBusy s t c.val && blockNeeded s t c.val then
      leaveContext s t c.val
    else s)

/-- The report of a bead that has slumbered for BEAD_SLUMBER.LIMIT ticks (R271), once for each slumber. -/
def reportSlumber (s : State) (i : Nat) : State :=
  let x := getBead s i
  if beadRuns s i && slumbering x && x.regs.slumberLimit != 0 && x.regs.slumberLimit.toNat ≤ x.regs.slumberTicks
      && !x.regs.slumberDone then
      let s := modBead s i (fun b => { b with regs := { b.regs with slumberEvent := true, slumberDone := true } })
      let s := modSlate s (i / 256) (fun x => { x with watch := { x.watch with slumbers := satInc x.watch.slumbers } })
      logUnit s 0x09 (i / 256) 1 0 (BitVec.ofNat 32 (i % 256))
    else s

/-- SLUMBER_EVENT (R271). -/
def execSlumberEvent (b : BeadRef) (s : State) : Host.Outcome State Fault Refusal := .next (reportSlumber s (beadNo b))

/-- One tick of a bead's slumber (R271): its ticks are counted, and it is reported when they reach the limit. -/
def tickSlumber (s : State) (i : Nat) : State :=
  let x := getBead s i
  if !beadRuns s i then s
  else if slumbering x then
    reportSlumber (modBead s i (fun b => { b with regs := { b.regs with slumberTicks := b.regs.slumberTicks + 1 } })) i
  else if x.regs.slumberTicks = 0 && !x.regs.slumberDone then s
  else modBead s i endSlumber

/-- Whether a glyph of a line held at issue waits for a credit, a send port, an out token slot or a bound vector
out-endpoint (R255). -/
def sendBlocked (b : Bead) (h : Nat) (c : Instr) : Bool :=
  let port (ep : Nat) : Bool := (List.range 4).any (fun k => k != h && match (handOf b k).staged with
    | some m => m.ep.val == ep
    | none => false)
  let send (o : BitVec 22) : Bool :=
    let ep := opdField o
    !soutClosed b ep && (port ep || soutCredits b ep == 0)
  match c with
  | .send _ _ o => send o
  | .sendm _ _ o => send o
  | .sendl _ _ o => send o
  | .toksend _ _ o => tokOutOpen b (opdField o) && (mapFind b.ends.tout (opdField o)).isSome
  | c => match glyphOf c with
    | some g => (writtenTiles g).any (fun t => (outClosedFault b t).isNone && !outReady b t)
    | none => false

/-- Whether a hand is held at its fire line by an out-endpoint or out slot (R255). -/
def gateBlocked (b : Bead) (x : Hand) : Bool :=
  let q := x.fireQ.toNat
  gateHolds b x
    && ((List.range 8).any (fun k => bitAt q (16 + k) && !soutClosed b k && soutCredits b k < fld q 30 28 + 1)
      || (List.range 4).any (fun k => bitAt q (24 + k) && !voutClosed b k && voutCredits b k == 0)
      || (List.range 16).any (fun k => x.fireTok.getLsbD k && !tokIsIn b k && !b.ends.tokClosed.getLsbD k
        && (mapFind b.ends.tout k).isSome))

/-- The glyphs of the line that a hand tries to issue: the line that it was handed, or the one that it fetches. -/
def triedLine (s : State) (i h : Nat) : List Instr :=
  let x := getHand s i h
  if !x.heldLine.isEmpty then x.heldLine
  else if fetches s i x then
    ((lineWords s i x.pc.toNat 6).map (lineGlyph (handRef i h) x.acc)).filterMap (·.2)
  else []

/-- Whether hand h of bead i is a blocked sender (R255). -/
def blockedSender (s : State) (i h : Nat) : Bool :=
  let b := getBead s i
  let x := handOf b h
  x.st == .running && x.openLine.isNone && (gateBlocked b x || (triedLine s i h).any (sendBlocked b h))

/-- Whether a Slate has a blocked sender in its ruled rods. -/
def stallBlocked (s : State) (t : Nat) : Bool :=
  s.beads.any (fun p => p.1 / 256 == t && ruledRod s t (p.1 % 256 / 16) && (List.range 4).any (blockedSender s p.1))

/-- The stall count after one tick (R255). -/
def tickStall (s : State) (t : Nat) : State :=
  let held := stallHeld s t
  let blocked := stallBlocked s t
  modSlate s t (fun x =>
    let w := x.watch
    let c := if held then w.stallCount
      else if blocked && !w.moved then (if w.stallCount = BitVec.allOnes 24 then w.stallCount else w.stallCount + 1) else 0
    { x with watch := { w with stallCount := c, moved := false } })

/-- A sync-state dump started (R272); none while one runs. -/
def startDump (s : State) (t : Nat) (cause : BitVec 3) : Option State :=
  if (getSlate s t).watch.dumpBusy then none
  else
    let s := (slateBeads t).foldl (fun s i => if beadExists s i then raiseInt s i intDump else s) s
    let n := s.stroke.count
    let p := s.stroke.phase
    some (modSlate s t (fun x => { x with watch := { x.watch with
      dumpBusy := true, dumpSeq := x.watch.dumpSeq + 1, dumpCause := cause, dumpTick := x.tick, dumpStroke := n
      dumpPhase := p } }))

/-- The stall watchdog of a Slate fires once its count has reached SLATE_STALL_CFG.LIMIT (R256). -/
def fireStall (s : State) (t : Nat) : State :=
  let w := (getSlate s t).watch
  if slateRuns s t && w.stallCfg.getLsbD 31 && !w.fired && (w.stallCfg.truncate 24 : BitVec 24) ≤ w.stallCount
      && w.stallCount != 0 then
      let s := modSlate s t (fun x => { x with watch := { x.watch with fired := true } })
      let s := (ruledBeads s t).foldl (fun s i => raiseInt s i intStall) s
      let (s, skipped) := if w.stallCfg.getLsbD 30 then (match startDump s t 2 with
          | some s => (s, false)
          | none => (s, true)) else (s, false)
      let s := logSlate s 0x0A t (flag skipped 0)
      postEvent s 0x03 0 t 0 []
    else s

/-- STALL_WATCHDOG_FIRE (R256). -/
def execStallWatchdogFire (sl : Fin 4) (s : State) : Host.Outcome State Fault Refusal := .next (fireStall s sl.val)

/-- Words as little-endian bytes, padded with zeros to n bytes. -/
def padBytes (n : Nat) (bs : List W8) : List W8 := (bs ++ List.replicate n 0).take n

/-- The header of a dump (R273). -/
def dumpHeader (s : State) (t : Nat) : List W8 :=
  let w := (getSlate s t).watch
  let regs (l : List Nat) : List W8 := wordsBytes (l.map (slateReg s t))
  padBytes 256 (toBytes 8 (pack [(w.dumpSeq.toNat, 16), (w.dumpCause.toNat, 10), (t, 8), (1, 0)]).toNat
    ++ toBytes 8 w.dumpStroke.toNat ++ toBytes 8 w.dumpPhase.toNat ++ toBytes 8 w.dumpTick.toNat
    ++ toBytes 8 (getSlate s t).tick.toNat ++ regs [0x48, 0x4C, 0x50, 0xA4] ++ regs [0x40, 0x44, 0xB4] ++ [0, 0, 0, 0]
    ++ regs ((List.range 16).map (fun r => 0x60 + 4 * r)))

/-- The record of physical tally p (R273). -/
def dumpTally (s : State) (t p : Nat) : List W8 :=
  let c := (List.range 64).find? (fun c => match tallyBlock s t c with
    | some (base, n) => base ≤ p && p < base + n
    | none => false)
  let waits := (getSlate s t).tallies.waiters.any (fun w => w.tally == p)
  toBytes 8 ((tallyValue s t p).toNat + c.getD 0 * 2 ^ 48 + b1 waits * 2 ^ 62 + b1 c.isSome * 2 ^ 63)

/-- The record of a bead that stands on a site (R273). -/
def dumpBead (s : State) (i : Nat) : List W8 :=
  let b := getBead s i
  let regs (l : List Nat) : List W8 := wordsBytes (l.map (beadReg s i))
  let hand (h : Nat) : List W8 :=
    regs ([0x58, 0x00, 0x94, 0xA8, 0xA0, 0xA4, 0x20].map (0x100 + 0x100 * h + ·)) ++ [0, 0, 0, 0]
  let slot (k : Nat) : W8 := ((mapFind b.ends.tin k).orElse (fun _ => mapFind b.ends.tout k)).getD 0
  padBytes 0x40 (regs [0x00, 0x04, 0x720, 0x510, 0x514, 0x500, 0x504, 0x508, 0x50C, 0x51C, 0xF4, 0xF8, 0x20, 0x34, 0xF0, 0x524])
    ++ (List.range 4).flatMap hand ++ padBytes 0x40 ((List.range 16).map slot)
    ++ (List.range 8).flatMap (fun e => padBytes 32 (wordsBytes ((sinWords b e).map (·.1))))

/-- The record of a site: zeros apart from BEAD_ID where no running bead stands on it (R273). -/
def dumpSite (s : State) (t rod site : Nat) : List W8 :=
  match posOf s t rod site with
  | some p =>
    let i := 256 * t + 16 * rod + p
    if (getBead s i).held then padBytes 512 (toBytes 4 (beadId s i).toNat) else dumpBead s i
  | none => padBytes 512 (toBytes 4 (siteReg s t rod site 0).toNat)

/-- The whole dump area (R273). -/
def dumpArea (s : State) (t : Nat) : List W8 :=
  padBytes 0x30000 (dumpHeader s t ++ wordsBytes ((List.range 64).map (fun c => slateReg s t (0x200 + 4 * c)))
    ++ (List.range 4096).flatMap (dumpTally s t)
    ++ (List.range 16).flatMap (fun r => (List.range 17).flatMap (dumpSite s t r)))

/-- DUMP_COMPLETE (R272): the area is written to SLATE_DUMP_BASE, BUSY clears and DONE sets. An area outside HBM takes
no write. -/
def execDumpComplete (sl : Fin 4) (s : State) : Host.Outcome State Fault Refusal :=
  let t := sl.val
  let w := (getSlate s t).watch
  .next (if slateRuns s t && w.dumpBusy then
      let a := w.dumpBase.toNat
      let s := if inHbm a then putHbm s a (dumpArea s t) else s
      modSlate s t (fun x => { x with watch := { x.watch with dumpBusy := false, dumpDone := true } })
    else s)

end Sys2Proof.Machine
end

