-- ==== Sys2Proof/Machine/Hbm.lean ====
section
/-! DEFINITION. The firmware's use of HBM (R314, R315, R323, R345, R346): allocation of pages, mirrors, and the loss of a
stack. Pages are numbered by device address / 2 MiB; a stack holds 32,768 of them (R398). -/

namespace Sys2Proof.Machine

/-- Pages of a stack. -/
def stackPages : Nat := 32768
/-- The stack of an HBM page. -/
def pageStack (p : Nat) : Nat := p / stackPages

/-- Whether a page belongs to the firmware region or to its mirror (R315, R341; log 48). -/
def firmwarePage (s : State) (p : Nat) : Bool :=
  let l := s.ledger
  let at_ (base : Nat) : Bool := base ≤ p && p < base + l.fwPages
  at_ l.fwBase || (l.mirror != 0xF && at_ (l.mirror.toNat * stackPages + l.fwBase % stackPages))

/-- Whether a page is free. -/
def pageFree (s : State) (p : Nat) : Bool := !s.hbmUsed.contains p && !firmwarePage s p

/-- Whether a stack works: its Slate is present and has not failed, and the stack has not (R346). -/
def stackWorks (s : State) (k : Nat) : Bool :=
  k < 8 && slatePresent s (k / 2) && !(getSlate s (k / 2)).failed && !s.spine.stackFailed.getLsbD k

/-- The lowest free page of a list of stacks. -/
def freePage (s : State) (ks : List Nat) : Option Nat :=
  (ks.filter (stackWorks s)).findSome? (fun k =>
    ((List.range stackPages).map (k * stackPages + ·)).find? (pageFree s))

/-- The free pages of a Slate's stacks. -/
def freePages (s : State) (t : Nat) : Nat :=
  (([2 * t, 2 * t + 1].filter (stackWorks s)).map (fun k =>
    ((List.range stackPages).filter (fun n => pageFree s (k * stackPages + n))).length)).sum

/-- A page taken and zeroed (R314, R323). -/
def takePage (s : State) (p : Nat) : State :=
  zeroRange { s with hbmUsed := p :: s.hbmUsed } (p * 0x200000) (p * 0x200000 + 0x200000)

/-- A page freed; it is zeroed before reuse (R323). -/
def dropPage (s : State) (p : Nat) : State :=
  zeroRange { s with hbmUsed := s.hbmUsed.filter (· != p) } (p * 0x200000) (p * 0x200000 + 0x200000)

/-- The Slates that may hold the mirror of a page of Slate t, in the order of R345. -/
def mirrorSlates (s : State) (t : Nat) : List Nat := ([1, 2, 3].map (fun k => (t + k) % 4)).filter (slatePresent s)

/-- The stacks that may hold the mirror of a page. -/
def mirrorStacks (s : State) (p : Nat) : List Nat :=
  (mirrorSlates s (pageStack p / 2)).flatMap (fun u => [2 * u, 2 * u + 1])

/-- The contents of one page copied to another. -/
def copyPage (s : State) (p q : Nat) : State :=
  let lo := p * 0x200000
  let cells := s.mem.filter (fun c => lo ≤ c.1 && c.1 < lo + 0x200000)
  let s := zeroRange s (q * 0x200000) (q * 0x200000 + 0x200000)
  { s with mem := cells.foldl (fun m c => memWrite m (q * 0x200000 + (c.1 - lo)) c.2) s.mem }

/-- A page's primary and mirror after the loss of stacks (R346): none where no copy is left. -/
def surviving (ks : List Nat) (p : Nat) (m : Option Nat) : Option (Nat × Option Nat) :=
  let lost (x : Nat) : Bool := ks.contains (pageStack x)
  match m with
  | none => if lost p then none else some (p, none)
  | some q => if lost p then (if lost q then none else some (q, none)) else some (p, if lost q then none else some q)

/-- A context's mappings after the loss of stacks, and whether it lost an Unguarded page (R346). -/
def ctxSurvives (ks : List Nat) (c : Ctx) : Ctx × Bool :=
  let keep := c.pages.filterMap (fun e =>
    if e.2.kind != 0 then some e
    else (surviving ks e.2.dev e.2.mirror).map (fun p => (e.1, { e.2 with dev := p.1, mirror := p.2 })))
  ({ c with pages := keep }, keep.length < c.pages.length)

/-- A book's segment copies after the loss of stacks: SRC follows the surviving copy (R345, R346). -/
def bookSurvives (ks : List Nat) (b : Book) : Book :=
  let moved := b.copies.flatMap (fun l => l.2.filterMap (fun p =>
    match surviving ks p.1 p.2 with
    | some (q, _) => if q = p.1 then none else some (p.1, q)
    | none => none))
  let fix (g : Seg) : Seg := match moved.find? (fun m => m.1 == g.src / 0x200000) with
    | some m => { g with src := m.2 * 0x200000 + g.src % 0x200000 }
    | none => g
  { b with
    segs := b.segs.map (fun x => (x.1, x.2.1, x.2.2.map fix))
    copies := b.copies.map (fun l => (l.1, l.2.map (fun p => (surviving ks p.1 p.2).getD (p.1, none)))) }

/-- Whether a Guarded page of a context, a segment copy or the ledger is single (R346). -/
def exposedNow (s : State) : Bool :=
  s.ledger.mirror == 0xF
    || s.ctxs.any (fun c => c.2.pages.any (fun p => p.2.kind == 0 && p.2.guard && p.2.mirror.isNone))
    || s.books.any (fun b => b.2.copies.any (fun l => l.2.any (fun p => p.2.isNone)))

/-- Stacks lost (R346): mappings, books and the ledger go on with the copies that are left. Answers the contexts that lost
an Unguarded page. -/
def loseStacks (s : State) (ks : List Nat) : State × List Nat :=
  let hurt := (s.ctxs.filter (fun c => (ctxSurvives ks c.2).2)).map (·.1)
  let l := s.ledger
  let led := surviving ks (l.primary.toNat * stackPages) (if l.mirror = 0xF then none else some (l.mirror.toNat * stackPages))
  let l := match led with
    | some (p, m) =>
      let k := pageStack p
      { l with primary := BitVec.ofNat 4 k
               mirror := match m with | some q => BitVec.ofNat 4 (pageStack q) | none => 0xF
               fwBase := k * stackPages + l.fwBase % stackPages }
    | none => l
  let s := { s with
    ctxs := s.ctxs.map (fun (c : Nat × Ctx) => (c.1, (ctxSurvives ks c.2).1))
    books := s.books.map (fun (b : Nat × Book) => (b.1, bookSurvives ks b.2)), ledger := l }
  let m := (ks.map (fun k => BitVec.ofNat 4 (2 ^ (k / 2)))).foldl (· ||| ·) (0 : BitVec 4)
  ({ s with spine := { s.spine with
      exposed := s.spine.exposed || exposedNow s, lostSlates := s.spine.lostSlates ||| m } }, hurt)

/-- The working stacks that may hold the mirror of a page (R345). -/
def goodMirrors (s : State) (p : Nat) : List Nat := (mirrorStacks s p).filter (stackWorks s)

/-- The stacks that may hold the new mirror of a page whose other copy was lost (R346): those of a third Slate, which is
neither the page's own nor one that lost the other copy. -/
def thirdStacks (s : State) (p : Nat) : List Nat :=
  (goodMirrors s p).filter (fun k => !s.spine.lostSlates.getLsbD (k / 2))

/-- A single page mirrored anew, if a page for it is free. -/
def remirror (s : State) (p : Nat) : State × Option Nat :=
  match freePage s (thirdStacks s p) with
  | some q => (copyPage { s with hbmUsed := q :: s.hbmUsed } p q, some q)
  | none => (s, none)

/-- A context's pages mirrored anew. -/
def remirrorCtx (s : State) (c : Nat) : State :=
  (getCtx s c).pages.foldl (fun s e =>
    if e.2.kind == 0 && e.2.guard && e.2.mirror.isNone then
      let (s, m) := remirror s e.2.dev
      putCtx s c { getCtx s c with pages := mapPut (getCtx s c).pages e.1 { e.2 with mirror := m } }
    else s) s

/-- A book's segment copies mirrored anew. -/
def remirrorBook (s : State) (k : Nat) (b : Book) : State :=
  let (s, l) := b.copies.foldl (fun (a : State × List (Nat × List (Nat × Option Nat))) x =>
    let (s, ps) := x.2.foldl (fun (a : State × List (Nat × Option Nat)) p =>
      match p.2 with
      | some _ => (a.1, a.2 ++ [p])
      | none =>
        let (s, m) := remirror a.1 p.1
        (s, a.2 ++ [(p.1, m)])) (a.1, [])
    (s, a.2 ++ [(x.1, ps)])) (s, [])
  { s with books := mapPut s.books k { b with copies := l } }

/-- Every single Guarded page mirrored anew where a third Slate has room (R346). -/
def remirrorAll (s : State) : State :=
  let s := s.ctxs.foldl (fun s c => remirrorCtx s c.1) s
  let s := s.books.foldl (fun s b => remirrorBook s b.1 b.2) s
  let k := (thirdStacks s (s.ledger.primary.toNat * stackPages)).headD 0xF
  let s := if s.ledger.mirror = 0xF then { s with ledger := { s.ledger with mirror := BitVec.ofNat 4 k } } else s
  let on := exposedNow s
  { s with spine := { s.spine with exposed := on, lostSlates := if on then s.spine.lostSlates else 0 } }

/-- REMIRROR_DONE (R346). -/
def execRemirrorDone (s : State) : Host.Outcome State Fault Refusal :=
  .next (if s.spine.exposed && s.pins.rails && !s.pins.inReset then remirrorAll s else s)

end Sys2Proof.Machine
end

