-- ==== Sys2Proof/Machine/Recovery.lean ====
section
/-! DEFINITION. Restarts and endings of jobs (R208, R209, R342, R344, R349, R358), Slate reset and failure (R352, R353,
R384, R386), the detection events of R350, bead replacement (R351), and the return of a device-address load (R142). -/

namespace Sys2Proof.Machine

/-- Whether the device runs with its firmware up: rails, reset and boot done. -/
def booted (s : State) : Bool := deviceUp s && s.pins.booted

/-- BUSY and PEND of the update list given up by a job that held them (R208, R209). -/
def freeTensors (s : State) (e : LEntry) : State :=
  if e.busyHeld then (updateList s e).foldl (fun s a => setBusy (clearPend s a) a false) s else s

/-- An error-log record about a job. -/
def logJob (s : State) (cause : Nat) (e : LEntry) (detail : W32) (ev : List W32) : State :=
  report s { index := 0, cause := BitVec.ofNat 8 cause, severity := 0, slate := BitVec.ofNat 4 e.slate.val,
             ctx := some (BitVec.ofNat 6 (jobCtx e)), fn := BitVec.ofNat 4 e.fn.val, seq := some e.seq,
             detail := detail } ev

/-- A sequence number as two words. -/
def seqWords (n : BitVec 48) : List W32 := [n.truncate 32, (n >>> 32).truncate 32]

/-- Whether a status is one of those of R358, which are logged. -/
def endsLogged (status : Nat) : Bool := status ∈ [0x03, 0x04, 0x06, 0x07, 0x08, 0x09]

/-- A job ended with a status (R332, R342): it waits with ENDED = 1 for its turn to commit. -/
def endEntry (s : State) (fn seq : Nat) (status : W8) (outcome : JobOutcome) : State :=
  match findEntry s fn seq with
  | none => s
  | some e =>
    let d : W32 := if 3 ≤ status ∧ status ≤ 9 then pack [(e.page.toNat, 16), (e.slate.val, 0)] else 0
    let s := modEntry s fn seq (fun e => { e with
      state := .running, ended := true, status := status, outcome := outcome, detail := d })
    if endsLogged status.toNat then
      logJob s 0x14 e (status.zeroExtend 32) (seqWords e.seq ++ [status.zeroExtend 32])
    else s

/-- A job back in Accepted after its Slate was reset or failed (R342, R344): RESTARTS rises by 1. -/
def returnEntry (s : State) (e : LEntry) : State :=
  modEntry (freeTensors s e) e.fn.val e.seq.toNat (fun e => { e with
    state := .accepted, busyHeld := false, restarts := if e.restarts = 0xF then 0xF else e.restarts + 1 })

/-- A job restarted under rung 4 (R349): back in Accepted, or ended with FAULT beyond RESTART_MAX. -/
def restartEntry (s : State) (fn seq : Nat) : State :=
  match findEntry s fn seq with
  | none => s
  | some e =>
    let s := (updateList s e).foldl clearPend s
    if fld s.ledger.cfg.toNat 3 0 < e.restarts.toNat + 1 then endEntry s fn seq 0x09 .none
    else
      let n : W32 := BitVec.ofNat 32 (e.restarts.toNat + 1)
      let s := returnEntry s e
      let s := { s with ledger := { s.ledger with restarts := satInc s.ledger.restarts } }
      logJob s 0x13 e n (seqWords e.seq ++ [n])

/-- A Slate's job no longer its own. -/
def detach (s : State) (t : Nat) : State := modPage s t (fun p => { p with job := none, sched := {} })

/-- A job taken off the Slate that runs it: its pages are aborted (R230). -/
def dropJob (s : State) (e : LEntry) : State :=
  let t := e.slate.val
  match (getSlate s t).pg.job with
  | some j =>
    if j.fn = e.fn ∧ j.seq = e.seq then detach (abortPage (clearJobPend s t) t) t else s
  | none => s

/-- The abort of rung 4 (R349): a SYNC Slate sets the miss that its echo reports. -/
def abortForReplay (s : State) (t : Nat) : State :=
  let s := clearJobPend s t
  let s := if syncSlate s t then raiseMiss s false t 0xF 0 0 else s
  abortPage s t

/-- The end of rung 4 (R349): a SYNC Slate waits for the replay; another job is restarted, as is a SYNC job whose page no
longer runs on this Slate. -/
def rung4End (s : State) (t : Nat) : State :=
  match (getSlate s t).pg.job with
  | none => s
  | some j =>
    if syncSlate s t && (choosePage s j.book t j.page.number.toNat).isSome then
      match findEntry s j.fn.val j.seq.toNat with
      | some e => logJob s 0x13 e (e.restarts.zeroExtend 32) (seqWords e.seq ++ [e.restarts.zeroExtend 32])
      | none => s
    else restartEntry (detach s t) j.fn.val j.seq.toNat

/-- Rung 4 of the replay ladder (R348, R349). -/
def rung4 (s : State) (t : Nat) : State := rung4End (abortForReplay s t) t

/-- Memory of a Slate other than its HBM zeroed (R386): folios, reservoirs and ink buffers. -/
def zeroSlate (s : State) (t : Nat) : State :=
  let s := zeroRange s (folioBase (256 * t)) (folioBase (256 * t) + 0x20000000)
  let s := zeroRange s (reservoirBase (6 * t)) (reservoirBase (6 * t) + 0x6000000)
  zeroRange s (inkBase (6 * t)) (inkBase (6 * t) + 0x6000000)

/-- A port that goes down to retrain and range again (R352, R386): its buffers empty, its counters and lanes are kept. -/
def retrainPort (x : Port) : Port :=
  { cfg := x.cfg, failed := x.failed, laneFail := x.laneFail, spared := x.spared, corr := x.corr, uncorr := x.uncorr,
    drop := x.drop, spareSeq := x.spareSeq }

/-- The stroke entries of a Slate made invalid. -/
def dropEntries (s : State) (t : Nat) : State :=
  let base := entryBase s t
  let n := entryCount s t
  { s with aux := { s.aux with entries := mapDropWhere s.aux.entries (fun e => base ≤ e && e < base + n) } }

/-- The jobs Dispatched or Running on a Slate. -/
def slateJobs (s : State) (t : Nat) : List LEntry :=
  s.ledger.entries.filter (fun e => (e.state == .dispatched || e.state == .running) && !e.ended && e.slate.val == t)

/-- A Slate reset (R384, R386): every part of the Slate at its reset values, its jobs back in Accepted, its crossings
closed until its next ruling load (R21). `retrain` says that its ports retrain. -/
def resetSlate (s : State) (t : Nat) (retrain : Bool) : State :=
  let old := s
  let s := (slateJobs s t).foldl returnEntry s
  let s := closeWindows s t false
  let s := dropEntries (zeroSlate s t) t
  let s := { s with
    beads := mapDropWhere s.beads (fun i => i / 256 == t)
    brushes := mapDropWhere s.brushes (fun k => k / 6 == t)
    aux := { s.aux with
      ckpts := mapDrop s.aux.ckpts t, stopped := s.aux.stopped &&& ~~~(BitVec.ofNat 4 (2 ^ t))
      voided := s.aux.voided &&& ~~~(BitVec.ofNat 4 (2 ^ t)) } }
  let s := modSlate s t (fun x => { rodFailed := x.rodFailed, failed := x.failed, offline := true })
  let s := if retrain then (slatePorts t).foldl (fun s p => modPort s p retrainPort) s else s
  let s := pairChannels s
  (List.range 4).foldl (fun s u => if u = t then s else recross old s u) s

/-- A recovery begun (R350): both RECOVERING bits and event 0x07. -/
def recoveryStarts (s : State) : State :=
  postWide { s with stroke := { s.stroke with recovering := true }, spine := { s.spine with recovering := true } } 0x07 []

/-- A recovery ended: the bits clear when no other goes on. -/
def recoveryEnds (s : State) : State :=
  let on := (List.range 4).any (fun t => (getSlate s t).recovering) || s.ports.any (fun p => p.2.recovering)
  postWide { s with stroke := { s.stroke with recovering := on }, spine := { s.spine with recovering := on } } 0x07 []

/-- The jobs of contexts that lost an Unguarded page ended with FAULT (R346, R358). -/
def endHurt (s : State) (hurt : List Nat) : State :=
  (s.ledger.entries.filter (fun e => hurt.contains (jobCtx e) && !e.ended
    && (e.state == .accepted || e.state == .dispatched || e.state == .running))).foldl (fun s e =>
      endEntry (dropJob s e) e.fn.val e.seq.toNat 0x09 .none) s

/-- Accepted jobs that no Slate can run any more ended with NOT_RUNNABLE (R352, R358). -/
def endUnrunnable (s : State) (l : List LEntry) : State :=
  l.foldl (fun s e => match findEntry s e.fn.val e.seq.toNat with
    | some e => if e.state == .accepted && !(List.range 4).any (slateCanRun s e) then
        endEntry s e.fn.val e.seq.toNat 0x06 .none else s
    | none => s) s

/-- A Slate failed (R352), for the reason that its error-log record gives. -/
def failSlate (s : State) (t : Nat) (reason : W32) : State :=
  let s := recoveryStarts s
  let jobs := slateJobs s t
  let s := modSlate s t (fun x => { x with failed := true })
  let s := resetSlate s t true
  let s := modSlate s t (fun x => { x with inReset := true })
  let (s, hurt) := loseStacks s [2 * t, 2 * t + 1]
  let s := endHurt s hurt
  let s := endUnrunnable s jobs
  let s := { s with spine := { s.spine with slateFailed := s.spine.slateFailed ||| BitVec.ofNat 4 (2 ^ t) } }
  recoveryEnds (logUnit s 0x0F t 6 0 reason)

/-- A Slate reset that SLATE_RESET or a warm reset asked for (R384): its self-test runs until SLATE_SELF_TEST_END. -/
def beginSlateReset (s : State) (t : Nat) (retrain : Bool) : State :=
  modSlate (resetSlate s t retrain) t (fun x => { x with inReset := true, selfTest := true })

/-- The Slate resets that wait for recoveries begun, once none goes on (R385). -/
def waitingResets (s : State) : State :=
  if s.spine.recovering then s
  else
    let w := s.spine.waits
    let r := s.spine.retrains
    let s := { s with spine := { s.spine with waits := 0, retrains := 0 } }
    ((List.range 4).filter (fun t => w.getLsbD t)).foldl (fun s t => beginSlateReset s t (r.getLsbD t)) s

/-- The end of a bead or brush recovery of a Slate (R350, R351): what rung 4 leaves to do, and the records of a
replaced site. -/
def finishRecovery (s : State) (t : Nat) : State :=
  let x := getSlate s t
  let s := modSlate s t (fun x => { x with recovering := false, siteWhy := none })
  let s := match x.siteWhy with
    | some (site, why) =>
      let code : W32 := match why with | .check => 0 | .lockup => 1 | .bank => 2
      report s { index := 0, cause := 0x0D, severity := 0, slate := BitVec.ofNat 4 t, site := BitVec.ofNat 5 site.val,
                 kind := 1, detail := code } [code]
    | none => s
  waitingResets (recoveryEnds (rung4End s t))

/-- A fault found in a Slate in which a bead or brush recovery runs fails the Slate (R353); the reason in its record is a
free value. -/
def failRecovering (s : State) (t : Nat) : State :=
  let (v, s) := freeBits s
  waitingResets (failSlate s t (BitVec.ofNat 32 (v.toNat % 4)))

/-- Whether a reason to replace the site of bead i holds (R351). -/
def siteFails (s : State) (i : Nat) : SiteReason → Bool
  | .check => true
  | .lockup =>
    let w := (getBead s i).core.lockup
    w.getLsbD 0 && fld w.toNat 15 8 = 0x06
  | .bank => (getBead s i).bankErrs.any (fun p => match p.2 with
    | a :: b :: _ => a - b ≤ 1048576
    | _ => false)

/-- BEAD_CHECK_WIRE (R351): the bead is held, and the Slate's page aborted; the site is shifted after the close, or at
once where the Slate is idle. -/
def execBeadCheckWire (sl : Fin 4) (rod : Fin 16) (site : Fin 17) (why : SiteReason) (s : State) :
    Host.Outcome State Fault Refusal :=
  let t := sl.val
  let pos := posOf s t rod.val site.val
  let bead := pos.map (fun p => 256 * t + 16 * rod.val + p)
  let holds := match bead with
    | some i => !(getBead s i).held && siteFails s i why
    | none => why == .check
  .next (if !slateRuns s t || (rodFailed s t rod.val).getLsbD site.val || !holds then s
    else if (getSlate s t).recovering then failRecovering s t
    else
      let s := match bead with
        | some i => modBead s i (fun b => { b with held := true })
        | none => s
      let s := recoveryStarts (modSlate s t (fun x => { x with recovering := true, siteWhy := some (site, why) }))
      if (getSlate s t).pg.phase = .idle then beginShift s t rod.val site.val
      else modSlate (abortForReplay s t) t (fun x => { x with pendingSite := some (rod, site) }))

/-- Whether a Slate can fail: it is present, has not failed, and the device runs. -/
def slateUp (s : State) (t : Nat) : Bool := booted s && slatePresent s t && !(getSlate s t).failed

/-- CLOCK_SLIP (R18, R352). -/
def execClockSlip (sl : Fin 4) (s : State) : Host.Outcome State Fault Refusal :=
  .next (if slateUp s sl.val then failSlate s sl.val 0 else s)

/-- SLATE_HEARTBEAT_MISSING (R350, R352). -/
def execSlateHeartbeatMissing (sl : Fin 4) (s : State) : Host.Outcome State Fault Refusal :=
  .next (if slateUp s sl.val then failSlate s sl.val 3 else s)

/-- SLATE_CHECKER_MISMATCH (R350, R352). -/
def execSlateCheckerMismatch (sl : Fin 4) (s : State) : Host.Outcome State Fault Refusal :=
  .next (if slateUp s sl.val then failSlate s sl.val 2 else s)

/-- STACK_FAILURE (R346). -/
def execStackFailure (stack : Fin 8) (s : State) : Host.Outcome State Fault Refusal :=
  let k := stack.val
  .next (if booted s && stackWorks s k then
      let s := recoveryStarts s
      let s := { s with spine := { s.spine with stackFailed := s.spine.stackFailed ||| BitVec.ofNat 8 (2 ^ k) } }
      let (s, hurt) := loseStacks s [k]
      let s := endHurt s hurt
      recoveryEnds (logUnit s 0x10 (k / 2) 3 k (BitVec.ofNat 32 k))
    else s)

/-- Rung 3 for a remote read of a folio or reservoir word with a parity error (R167, R348): the range is fetched again
from its segment copy, and the request is performed anew. -/
def cureRead (s : State) (i k : Nat) (r : DevReq) : State :=
  let isLoad := match r.op with | .store _ => false | _ => true
  let bad := r.bad || (r.served.isNone && (parityFind s.parity r.pa (reqBytes r)).isSome)
  let got := if !isLoad || !bad || r.refused then none
    else match regionOf r.pa with
      | .folio j off => refetch s (j / 256) 0 (j % 256) off (reqBytes r)
      | .reservoir kb off => refetch s (kb / 6) 1 (kb % 6) off (reqBytes r)
      | _ => none
  match got with
  | some s => modReq s i k r.seq (fun q => { q with served := none, bad := false })
  | none => s

/-- DEVICE_LOAD_RETURN (R142, R167). -/
def execDeviceLoadReturn (h : HandRef) (n : Nat) (bad : Bool) (s : State) : Host.Outcome State Fault Refusal :=
  let (i, k) := handNo h
  .next (match reqAt s i k n with
    | none => s
    | some r => (loadReturn (cureRead s i k r) i k n bad).1)

/-- Rung 3 for a piece of a row that TLD reads (R130, R348): a folio or reservoir range with a parity error is fetched again
from its segment copy. -/
def curePiece (s : State) (i : Nat) (t : Transfer) (p : Nat × Nat) : State :=
  let place (t : Nat) (kind target off : Nat) : State := (refetch s t kind target off p.2).getD s
  let bad (pa : Nat) : Bool := (parityFind s.parity pa p.2).isSome
  if !t.dev then (if bad (folioBase i + p.1) then place (i / 256) 0 (i % 256) p.1 else s)
  else match translate s (beadCtx (getBead s i)) p.1 false with
    | none => s
    | some x =>
      if !bad x.pa then s
      else match regionOf x.pa with
        | .folio j off => place (j / 256) 0 (j % 256) off
        | .reservoir kb off => place (kb / 6) 1 (kb % 6) off
        | _ => s

/-- The row of a transfer that comes next as the ladder's third rung leaves what it reads (R130, R348). -/
def cureRow (s : State) (i : Nat) (t : Transfer) : State :=
  if t.store then s else (askSpans t (tileFmt (getBead s i) t.tile.val) t.next).foldl (fun s p => curePiece s i t p) s

/-- The fault of a transfer's next row that is found at its request or in what it reads (R130). -/
def nextFault (s : State) (i k : Nat) (l : OpenLine) (t : Transfer) : Option GFault :=
  rowFault ⟨s, i, k, getHand s i k, l.pc, l.len, l.pc⟩ t t.next

/-- The rows of a transfer moved up to row `stop`, a row that a parity error stops being tried again after the ladder's third
rung where that cures it (R130, R348). -/
def movePast (l : OpenLine) (i k : Nat) : Nat → Nat → State → Transfer → State × Transfer
  | 0, _, s, t => (s, t)
  | n + 1, stop, s, t =>
    let (s, t) := moveRows l.pc l.len i k 32 stop s t
    if t.next ≥ stop || (nextFault s i k l t).all (fun f => f.cause != 6) then (s, t)
    else
      let c := cureRow s i t
      if (nextFault c i k l t).isNone then movePast l i k n stop c t else (c, t)

/-- TRANSFER_COMPLETE (R129): the remaining rows move; after the last the line retires and TSR.ROW returns to 0. Rows
that fail or cannot move yet leave the transfer open at that row, and one whose last stores still wait at a reservoir
stays open (R170). -/
def execTransferComplete (h : HandRef) (s : State) : Host.Outcome State Fault Refusal :=
  let (i, k) := handNo h
  let x := getHand s i k
  .next (match x.openLine, openTransfer x with
    | some l, some t =>
      if !beadRuns s i then s
      else
        let rows := tileRows (getBead s i) t.tile.val
        let (s, t) := movePast l i k 32 rows s t
        if t.next < rows || rowsWait s i t then putTransfer s i k t
        else closePending (modHand s i k (fun x => { x with tsr := 0 })) i k isTransfer []
    | _, _ => s)

/-- The fault of row j of a transfer: one found at the request (R130), or, for a TLD from a device address, a parity
error that the replay ladder did not cure. -/
def transferFault (s : State) (i k : Nat) (l : OpenLine) (t : Transfer) : Option GFault :=
  match nextFault s i k l t with
  | some f => some f
  | none =>
    match rowClosed (getBead s i) t with
    | some f => some f
    | none =>
      if t.dev && !t.store && t.snap.isEmpty then
        let fmt := tileFmt (getBead s i) t.tile.val
        some { cause := 0x06, dev := true, sfa := BitVec.ofNat 32 (((allSpans t fmt t.next).headD (0, 0)).1 / 65536) }
      else none

/-- What a device-address row that FPARITY fails leaves behind: the error of a folio's bank (R351) or of a stack (R359). -/
def noteRowFault (s : State) (i k : Nat) (l : OpenLine) (t : Transfer) : State :=
  let e : Env := ⟨s, i, k, getHand s i k, l.pc, l.len, l.pc⟩
  let ps := askSpans t (tileFmt (getBead s i) t.tile.val) t.next
  match ps.find? (fun p => t.dev && !t.store && (pieceBad e t p).isSome) with
  | none => s
  | some p =>
    match translate s (beadCtx (getBead s i)) p.1 false with
    | none => s
    | some x =>
      match regionOf x.pa with
      | .hbm .. => (hbmRead s x.pa p.2 x.mirror false).2
      | .folio j off => noteBank s j (off / 0x10000)
      | _ => s

/-- TRANSFER_ROW_FAULT (R130): the rows below the failing row complete, the row fails, and the line takes its fault
precisely in slot 3 with TSR.ROW at the failing row. -/
def execTransferRowFault (h : HandRef) (row : Fin 32) (s : State) : Host.Outcome State Fault Refusal :=
  let (i, k) := handNo h
  let x := getHand s i k
  .next (match x.openLine, openTransfer x with
    | some l, some t =>
      let rows := tileRows (getBead s i) t.tile.val
      if !beadRuns s i || row.val < t.next || rows ≤ row.val then s
      else
        let (s1, t1) := movePast l i k 32 row.val s t
        let s1 := putTransfer s1 i k t1
        if t1.next < row.val then s1
        else
        let s1 := if (nextFault s1 i k l t1).any (fun f => f.cause == 6) then cureRow s1 i t1 else s1
        match transferFault s1 i k l t1 with
          | some f => faultOpen (if f.cause = 6 then noteRowFault s1 i k l t1 else s1) i k 3 f
          | none => s1
    | _, _ => s)

end Sys2Proof.Machine
end

