-- ==== Sys2Proof/Machine/Pages.lean ====
section
/-! DEFINITION. The commands of pages and their switches (R226 to R236) and the beats of the slot fabric (R219 to R223,
R179, R297). -/

namespace Sys2Proof.Machine

/-- A Slate's job ended with a status before its last page drained: its pages are aborted (R358). -/
def endJob (s : State) (t : Nat) (status : W8) : State :=
  match (getSlate s t).pg.job with
  | some j => endEntry (detach (abortPage s t) t) j.fn.val j.seq.toNat status .none
  | none => s

/-- RULING_LOAD_DONE (R21, R226): the shadow holds the ruling and the Slate's crossings are open, or the load is repeated once;
a second mismatch fails the Slate. -/
def execRulingLoadDone (sl : Fin 4) (digestOk : Bool) (s : State) : Host.Outcome State Fault Refusal :=
  let t := sl.val
  .next (match (getSlate s t).pg.load with
    | none => s
    | some (f, again) =>
      if !slateRuns s t then s
      else if digestOk then modSlate s t (fun x => { x with
        offline := false, pg := { x.pg with shadow := some f, shadowFrame := f, load := none } })
      else if again then failSlate s t 1
      else modPage s t (fun p => { p with load := some (f, true) }))

/-- The next page of a drained page's job chosen, and its switch begun or left waiting for rods to drain (R16, R228,
R229). A page that cannot run on the Slate sends the job back to be dispatched elsewhere. -/
def pageEnds (s : State) (t : Nat) (j : SlateJob) (n : Nat) : State :=
  match choosePage s j.book t n with
  | none => restartEntry (detach (abortPage (clearJobPend s t) t) t) j.fn.val j.seq.toNat
  | some p =>
    if rodsFreed s t p then beginClose (modPage s t (fun x => { x with switch := some { page := p } })) t
    else modSlate s t (fun x => { x with switching := true })

/-- Whether the brushes of a Slate run no order. -/
def ordersDone (s : State) (t : Nat) : Bool := (slateBrushes t).all (fun k => (getBrush s k).running.isEmpty)

/-- Whether the rods that a switch frees for its page have drained (R16). -/
def switchFreed (s : State) (t : Nat) : Bool :=
  match (getSlate s t).pg.switch with
  | some w => rodsFreed s t w.page
  | none => true

/-- PAGE_DRAINED (R229, R230): the running page, an idle Slate that was asked to switch, or an aborted page has
drained, and close begins. -/
def execPageDrained (sl : Fin 4) (s : State) : Host.Outcome State Fault Refusal :=
  let t := sl.val
  let p := (getSlate s t).pg
  .next (if !slateRuns s t then s
    else match p.phase, p.job with
      | .running, some j =>
        (match j.page.last, j.page.next with
        | false, some n => if pageDrained s t then pageEnds s t j n.toNat else s
        | _, _ => s)
      | .draining, _ => if switchFreed s t && brushesDone s t && quillsDone s t then beginClose s t else s
      | .aborting, _ => if switchFreed s t && ordersDone s t && brushesDone s t && quillsDone s t then beginClose s t else s
      | _, _ => s)

/-- CLOSE_END (R231, R232, R351): steps 2 and 3 of the switch begin; a Slate without one is idle. A site that waits for
the close is shifted, and a recovery without a shift ends. -/
def execCloseEnd (sl : Fin 4) (s : State) : Host.Outcome State Fault Refusal :=
  let t := sl.val
  .next (if !slateRuns s t || (getSlate s t).pg.phase != .closing then s
    else
      let s := modPage s t (fun p => { p with circuitsOff := true })
      let s := match (getSlate s t).pg.switch with
        | none => modPage s t (fun p => { p with phase := .idle })
        | some w => beginBlot (modPage s t (fun p => { p with
            phase := .loading, switch := some { w with closed := true } })) t (pageImage s t w.page)
      match (getSlate s t).pendingSite with
      | some (rod, site) =>
        let load := (getSlate s t).pg.load
        let s := beginShift s t rod.val site.val
        if (getSlate s t).pg.switch.isSome then modPage s t (fun p => { p with load := load }) else s
      | none => if (getSlate s t).recovering && (getSlate s t).rodShifting = 0 then finishRecovery s t else s)

/-- Whether a Slate's switch is in its loading phase with no rod shifting. -/
def loading (s : State) (t : Nat) : Bool :=
  slateRuns s t && (getSlate s t).pg.phase == .loading && (getSlate s t).rodShifting == 0

/-- SEGMENT_LOAD_DONE (R227, R232 step 3): every segment has moved, after a blotter change. A segment that no copy gives
sends the job to rung 4 (R348). -/
def execSegmentLoadDone (sl : Fin 4) (s : State) : Host.Outcome State Fault Refusal :=
  let t := sl.val
  .next (match (getSlate s t).pg.switch with
    | none => s
    | some w =>
      if loading s t && w.closed && !w.segsDone && blotDone s t (pageImage s t w.page) && w.page.segs.all (segReady s t) then
        let (s, ok) := loadSegs s t w.page.segs
        if ok then modPage s t (fun p => { p with switch := p.switch.map (fun w => { w with segsDone := true }) })
        else rung4 s t
      else s)

/-- Steps 4 to 8 of a Slate's switch; an initial order that found its queue full ends the job (R182). -/
def startPage (s : State) (t : Nat) (pg : PageDesc) : State :=
  let (s, lost) := applyPage s t pg
  if lost then endJob s t 0x04 else s

/-- RULING_APPLY (R232): the page starts, or waits in phase ready for its start entry. A switch held for a stroke that is
too short raises LATE (R301, R307), and one into a SYNC page waits while the stroke unit is in local operation (R276). -/
def execRulingApply (sl : Fin 4) (s : State) : Host.Outcome State Fault Refusal :=
  let t := sl.val
  .next (match (getSlate s t).pg.switch with
    | none => s
    | some w =>
      if loading s t && stepsDone s t then
        if !strokeFits s t then raiseLate s t
        else if localBars s w.page then s
        else if w.page.evstart then modPage s t (fun p => { p with phase := .ready }) else startPage s t w.page
      else s)

/-- SHIFT_END (R236, R351): the moved sites are reset and the recovery ends. A rod that is disabled now is no longer in
free mode (R235). -/
def execShiftEnd (sl : Fin 4) (rod : Fin 16) (s : State) : Host.Outcome State Fault Refusal :=
  let t := sl.val
  .next (if slateRuns s t && (getSlate s t).rodShifting.getLsbD rod.val && (getSlate s t).pg.load.isNone then
      let s := endShift s t rod.val
      let s := if rodDisabled (rodFailed s t rod.val) then
          modSlate s t (fun x => { x with freeMask := x.freeMask &&& ~~~(BitVec.ofNat 16 (2 ^ rod.val)) })
        else s
      finishRecovery s t
    else s)

/-- The context of the job that a Slate runs. -/
def pageCtx (s : State) (t : Nat) : Option Nat :=
  (getSlate s t).pg.job.map (·.ctx.val)

/-- A virtual tally raised for a beat on a Slate (R222, R260, R300). -/
def raiseFor (s : State) (t : Nat) (v : Option Nat) (amount : Nat) : State :=
  match v, pageCtx s t with
  | some v, some c => (match tallyOf s t c v with
    | some p => queueRaise s t p (BitVec.ofNat 48 amount)
    | none => s)
  | _, _ => s

/-- The raise that a beat's window asks for, if it does (R300). -/
def raiseTag (s : State) (t : Nat) (tag : Option (Nat × Nat)) : State :=
  match tag with
  | some (v, n) => raiseFor s t (some v) n
  | none => s

/-- Whether ruled circuits are active on a Slate's fabric (R219). -/
def fabricOn (s : State) (t : Nat) : Bool := slateRuns s t && !(getSlate s t).pg.circuitsOff

/-- Whether the release tally of a circuit allows a beat (R222). -/
def released (s : State) (t : Nat) (c : CircuitEnt) (x : Circuit) : Bool :=
  match c.release, pageCtx s t with
  | some v, some k => (match tallyOf s t k v with
    | some p => x.sent + 64 ≤ (tallyValue s t p - x.origin).toNat
    | none => false)
  | _, _ => false

/-- A circuit's running state. -/
def getCircuit (s : State) (t c : Nat) : Circuit := mapGet (fun _ => {}) (getSlate s t).pg.circuits c
/-- The state with a circuit's running state replaced. -/
def putCircuit (s : State) (t c : Nat) (x : Circuit) : State :=
  modPage s t (fun p => { p with circuits := mapPut p.circuits c x })

/-- The circuit that a number names in the active ruling. -/
def activeCircuit (s : State) (t c : Nat) : Option CircuitEnt :=
  ((circuitsOf (activeImage s t)).find? (fun p => p.1 == c)).map (·.2)

/-- A beat that a circuit's transmit endpoint has put on the fabric. -/
def putBeat (s : State) (t c : Nat) (beat : Row) (tag : Option (Nat × Nat)) : State :=
  let x := getCircuit s t c
  putCircuit s t c { x with sent := x.sent + 64, flight := x.flight ++ [(beat, tag)] }

/-- The bead of a gateway tap: logical position 0 of its rod. -/
def gatewayBead (t rod : Nat) : Nat := 256 * t + 16 * rod

/-- A beat read from a gateway's folio; a parity error is cured from the segment copy, or leads to rung 4 (R348). -/
def sendFolio (s : State) (t c rod off : Nat) : State :=
  let i := gatewayBead t rod
  let a := folioBase i + off
  let go (s : State) : State := putBeat s t c (bytesRow (loadBytes s a 64)) none
  if (parityFind s.parity a 64).isNone then go s
  else match refetch s t 0 (16 * rod) off 64 with
    | some s => go s
    | none => rung4 s t

/-- The circuit as the book gives it, with virtual addresses, where the active ruling was loaded from one. -/
def sourceCircuit (s : State) (t c : Nat) : Option CircuitEnt :=
  match (getSlate s t).pg.active with
  | none => none
  | some f =>
    ((circuitsOf (mapGet (fun _ => ({} : Frame)) (getSlate s t).pg.frames f.val).source).find? (fun p => p.1 == c)).map (·.2)

/-- The device address, and the mirror's, of offset o of a circuit's window in HBM (R314): translated through the running
page's context; none where it has no valid translation (log 170). -/
def windowHbm (s : State) (t c : Nat) (e : CircuitEnt) (send : Bool) (o : Nat) : Option (Nat × Option Nat) :=
  let base (e : CircuitEnt) : Nat := if send then e.sbase else e.dbase
  match sourceCircuit s t c with
  | some v => match translate s (pageCtx s t) (base v + o) (!send) with
    | some x => if inHbm x.pa then some (x.pa, x.mirror) else none
    | none => none
  | none => some (base e + o, mirrorOf s (base e + o))

/-- BEAT_SEND (R219, R222): a transmit endpoint sends its next beat. -/
def execBeatSend (sl : Fin 4) (circuit : Fin 128) (s : State) : Host.Outcome State Fault Refusal :=
  let t := sl.val
  let c := circuit.val
  let x := getCircuit s t c
  .next (match activeCircuit s t c with
    | none => s
    | some e =>
      if !fabricOn s t then s
      else
        let off := e.sbase + x.sent % (Nat.max 64 e.slen)
        match tapAt e.src with
        | .gateway rod => if released s t e x then sendFolio s t c rod off else s
        | .hbm _ =>
          if released s t e x then
            match windowHbm s t c e true (off - e.sbase) with
            | none => s
            | some (pa, m) => match hbmRead s pa 64 m false with
              | (some bs, s) => putBeat s t c (bytesRow bs) none
              | (none, s) => rung4 s t
          else s
        | .brush j =>
          let b := getBrush s (6 * t + j)
          (match (mapGet (fun _ => []) b.outQ e.tx : List Row) with
          | r :: q => putBeat (putBrush s (6 * t + j) { b with outQ := mapPut b.outQ e.tx q }) t c r none
          | [] => s)
        | .port n =>
          let p := getPort s (3 * t + n)
          (match (mapGet (fun _ => []) p.delivBuf e.tx : List (Row × Option (Nat × Nat))) with
          | r :: q => putBeat (putPort s (3 * t + n) { p with delivBuf := mapPut p.delivBuf e.tx q }) t c r.1 r.2
          | [] => s)
        | _ => s)

/-- n units counted in a port's DROP. -/
def portDrop (s : State) (p n : Nat) : State := modPort s p (fun x => { x with drop := satAdd x.drop n })

/-- A beat that reaches a port's send stream (R297, R299). -/
def sendStream (s : State) (p stream : Nat) (beat : Row) : State :=
  let x := getPort s p
  let q : List Row := mapGet (fun _ => []) x.sendBuf stream
  if x.dropStreams.contains stream || 64 ≤ q.length then portDrop s p 1
  else putPort s p { x with sendBuf := mapPut x.sendBuf stream (q ++ [beat]) }

/-- A beat performed at a circuit's receive endpoint (R222, R297), before it is counted. -/
def receiveBeat (s : State) (t c : Nat) (e : CircuitEnt) (off : Nat) (beat : Row) (tag : Option (Nat × Nat)) : State :=
  match tapAt e.dst with
  | .gateway rod => raiseTag (storeBytes s (folioBase (gatewayBead t rod) + off) (rowBytes beat)) t tag
  | .hbm _ => match windowHbm s t c e false (off - e.dbase) with
    | some (pa, m) => raiseTag (hbmWrite s pa m (rowBytes beat)) t tag
    | none => s
  | .brush j => modBrush s (6 * t + j) (fun b => { b with
      inFlight := mapPut b.inFlight e.rx (mapGet (fun _ => []) b.inFlight e.rx ++ [(beat, tag)]) })
  | .port n => raiseTag (sendStream s (3 * t + n) e.rx beat) t tag
  | _ => s

/-- BEAT_DELIVER (R220, R222): the oldest beat of a circuit reaches its receive endpoint and its arrival tally. -/
def execBeatDeliver (sl : Fin 4) (circuit : Fin 128) (s : State) : Host.Outcome State Fault Refusal :=
  let t := sl.val
  let c := circuit.val
  let x := getCircuit s t c
  .next (match activeCircuit s t c, x.flight with
    | some e, (beat, tag) :: rest =>
      if !fabricOn s t then s
      else
        let off := e.dbase + x.received % (Nat.max 64 e.dlen)
        let s := putCircuit s t c { x with received := x.received + 64, flight := rest }
        raiseFor (receiveBeat s t c e off beat tag) t e.arrival 64
    | _, _ => s)

/-- IN_PORT_BEAT (R179, R182): the oldest beat that has reached an in port; an order that finds the queue full ends the
job. -/
def execInPortBeat (k : BrushRef) (port : Fin 4) (s : State) : Host.Outcome State Fault Refusal :=
  let kb := brushNo k
  let t := k.slate.val
  let b := getBrush s kb
  .next (match (mapGet (fun _ => []) b.inFlight port.val : List (Row × Option (Nat × Nat))) with
    | (beat, tag) :: rest =>
      if !slateRuns s t || b.zeroing then s
      else
        let s := putBrush s kb { b with inFlight := mapPut b.inFlight port.val rest }
        let (s, lost) := portBeat s kb port.val beat
        let s := raiseTag s t tag
        if lost then endJob s t 0x04 else s
    | [] => s)

end Sys2Proof.Machine
end

