-- ==== Sys2Proof/Machine/BrushEvents.lean ====
section
/-! DEFINITION. The commands of a brush (R170, R183 to R191): reservoir writes, starts, drains and completions of orders,
failure, and the end of zeroing. -/

namespace Sys2Proof.Machine

/-- Whether a brush runs: its Slate runs and it has not failed. -/
def brushRuns (s : State) (k : Nat) : Bool := slateRuns s (k / 6) && !(getBrush s k).failed

/-- A brush failed (R190, R191): it is fenced, and its Slate's page aborted for the variant without it. -/
def brushFails (s : State) (k : Nat) : State :=
  let t := k / 6
  let again := (getSlate s t).recovering
  let s := fenceBrush s k
  let s := logUnit s 0x0E t 2 (k % 6) (getBrush s k).errinfo
  if again then failRecovering s t
  else
    let s := recoveryStarts (modSlate s t (fun x => { x with recovering := true }))
    if (getSlate s t).pg.phase = .idle then finishRecovery s t else abortForReplay s t

/-- RESERVOIR_WRITE (R170): the oldest waiting write is performed. -/
def execReservoirWrite (k : BrushRef) (s : State) : Host.Outcome State Fault Refusal :=
  let kb := brushNo k
  .next (match (getBrush s kb).waiting with
    | w :: ws =>
      if brushRuns s kb && !(getBrush s kb).zeroing then
        performTap (modBrush s kb (fun b => { b with waiting := ws })) w
      else s
    | [] => s)

/-- What the Slate controller does about an uncured parity error of an order (R189, R190, R348): a bank is refetched from
its segment copies, and an error of a bank refetched before fails the brush; anything else leads to rung 4. -/
def orderError (s : State) (k : Nat) (bank : Option Nat) : State :=
  let t := k / 6
  match bank with
  | none => rung4 s t
  | some l =>
    if (getBrush s k).bankErrs.contains l then brushFails s k
    else match refetch s t 1 (k % 6) (l * 0x10000) 0x10000 with
      | some s => modBrush s k (fun b => { b with bankErrs := l :: b.bankErrs })
      | none => rung4 s t

/-- ORDER_START (R181, R183): the head order starts, or completes at once with the status its checks give. -/
def execOrderStart (k : BrushRef) (s : State) : Host.Outcome State Fault Refusal :=
  let kb := brushNo k
  .next (match (getBrush s kb).queue with
    | [] => s
    | o :: _ =>
      let ws := o.words
      let ends (st : W8) : State := completeOrder (popOrder s kb) kb ws 0 st none
      if !brushRuns s kb then s
      else if o.status != 0 then ends o.status
      else if !orderTallies s kb ws then ends 0x05
      else if !orderReady s kb ws then s
      else
        let st := startStatus s kb ws
        if st != 0 then ends st
        else match startOrder (popOrder s kb) kb ws with
          | (s, none) => s
          | (s, some bank) => orderError s kb bank)

/-- Whether two orders' drains share an out port (R185). -/
def sharesPort (a b : List W32) : Bool := !oDink a && !oDink b && oPorts a &&& oPorts b != 0

/-- Whether an order's drain finds an accumulator cell that holds a parity error (R189). -/
def drainError (b : Brush) (ws : List W32) : Bool :=
  (List.range (emittedRows ws)).any (fun r => (List.range (rowOutputs ws)).any (fun o =>
    b.cellBad.contains (if oMode ws = 2 then cellIndex (oGroup ws) 0 (r * oCols ws + o) else cellIndex (oGroup ws) r o)))

/-- BRUSH_DRAIN (R184, R185): the oldest order whose drain has not begun drains, once no earlier drain holds one of its
out ports. One that meets a cell with a parity error emits nothing and loses its group (R189). -/
def execBrushDrain (k : BrushRef) (s : State) : Host.Outcome State Fault Refusal :=
  let kb := brushNo k
  let l := (getBrush s kb).running
  .next (match l.findIdx? (fun r => r.drains && !r.formed) with
    | none => s
    | some n =>
      match l[n]? with
      | none => s
      | some r =>
        if !brushRuns s kb || (l.take n).any (fun q => q.formed && sharesPort q.words r.words) then s
        else
          let put (s : State) (q : RunningOrder) : State := modBrush s kb (fun b => { b with running := listSet b.running n q })
          if drainError (getBrush s kb) r.words then
            let g := oGroup r.words
            orderError (put (loseGroup s kb g) { r with drains := false, status := 0x06, place := some (BitVec.ofNat 8 g) }) kb none
          else
            let (s, sum) := emitDrain s kb r.words
            put s { r with formed := true, summary := sum })

/-- Whether the beats of an order's drain have left its out ports. -/
def beatsGone (b : Brush) (r : RunningOrder) : Bool :=
  !r.drains || (r.formed && (oDink r.words || (List.range 8).all (fun p =>
    !bitAt (oPorts r.words) p || (mapGet (fun _ => []) b.outQ p : List Row).isEmpty)))

/-- ORDER_COMPLETE (R186): the oldest running order whose drain, if it has one, has been emitted completes. -/
def execOrderComplete (k : BrushRef) (s : State) : Host.Outcome State Fault Refusal :=
  let kb := brushNo k
  let b := getBrush s kb
  .next (match b.running.find? (beatsGone b) with
    | some r =>
      if brushRuns s kb then
        completeOrder (modBrush s kb (fun b => { b with running := listDrop b.running (b.running.findIdx (beatsGone b)) }))
          kb r.words r.summary r.status r.place
      else s
    | none => s)

/-- BRUSH_WATCHDOG_EXPIRE (R190): an order has run for more than BRUSH_k_WDOG ticks, which the event states. -/
def execBrushWatchdogExpire (k : BrushRef) (s : State) : Host.Outcome State Fault Refusal :=
  let kb := brushNo k
  let b := getBrush s kb
  .next (if brushRuns s kb && !b.running.isEmpty && b.wdog != 0 then brushFails s kb else s)

/-- BRUSH_FAIL (R190). -/
def execBrushFail (k : BrushRef) (s : State) : Host.Outcome State Fault Refusal :=
  .next (if brushRuns s (brushNo k) then brushFails s (brushNo k) else s)

/-- BRUSH_ZEROING_END (R188): reservoir and ink buffer are zero, and what was held at the memory tap may be performed. -/
def execBrushZeroingEnd (k : BrushRef) (s : State) : Host.Outcome State Fault Refusal :=
  let kb := brushNo k
  .next (if slateRuns s k.slate.val && (getBrush s kb).zeroing then
      let s := zeroRange s (reservoirBase kb) (reservoirBase kb + 0x1000000)
      let s := zeroRange s (inkBase kb) (inkBase kb + 0x100000)
      modBrush s kb (fun b => { b with zeroing := false })
    else s)

end Sys2Proof.Machine
end

