-- ==== Sys2Proof/Machine/Jobs.lean ====
section
/-! DEFINITION. Jobs from dispatch to completion (R13, R17, R207, R208, R257, R326 to R332, R342, R343). -/

namespace Sys2Proof.Machine

/-- Whether the firmware serves: the device is booted and not Orphan (R356). -/
def serving (s : State) : Bool := booted s && !s.spine.orphan

/-- Whether a job names a context, a book and an entry point that its function owns (R327). -/
def entryOwned (s : State) (e : LEntry) : Bool :=
  (getCtx s (jobCtx e)).owner = some e.fn && (match mapFind s.books (jobBook e) with
    | some b => (getCtx s b.ctx.val).owner = some e.fn && jobEntry e < bookEntries b.image
    | none => false)

/-- Whether a ledger state is Committed or later. -/
def committed (st : LState) : Bool := st == .committed || st == .reported || st == .retired

/-- Whether every earlier job of a job's ring has committed (R329, R342). -/
def earlierDone (s : State) (e : LEntry) : Bool :=
  s.ledger.entries.all (fun x => !(x.fn == e.fn && x.seq < e.seq) || committed x.state)

/-- Whether a page from page n on of a book has SYNC = 1. -/
def chainSync (s : State) (bk t : Nat) : Nat → Nat → Bool
  | 0, _ => false
  | fuel + 1, n =>
    match choosePage s bk t n with
    | none => false
    | some p => (p.sched != 0 && (schedAt s p.sched.toNat).sync)
        || (!p.last && match p.next with | some m => chainSync s bk t fuel m.toNat | none => false)

/-- Whether some page of a job has SYNC = 1 (R276, R380, R395). -/
def jobSync (s : State) (e : LEntry) (t : Nat) : Bool :=
  match mapFind s.books (jobBook e), firstPage s e with
  | some b, some n => chainSync s (jobBook e) t (bookPages b.image + 1) n
  | _, _ => false

/-- Whether power or temperature keeps a job without a SYNC page from dispatch (R380, R395). -/
def powerHolds (s : State) : Bool := s.pwr.limit < s.pwr.measured || s.pwr.therm != 0

/-- Whether a job passes its BARRIER wait (R329) and the waits on its tensors, which are taken in the order of the ledger
tickets (R207). -/
def jobMayStart (s : State) (e : LEntry) : Bool :=
  let barrier (x : LEntry) : Bool := !bitAt (entryWord x 2) 9 || earlierDone s x
  let mine := updateList s e
  barrier e && mine.all (fun a => !tensorBusy s a)
    && !s.ledger.entries.any (fun x => x.state == .accepted && !x.ended && x.seq < e.seq && barrier x
      && (updateList s x).any mine.contains)

/-- Whether the beads of a Slate's free-mode rods that are bound to another context have drained. -/
def freeRodsDone (s : State) (t c : Nat) : Bool :=
  (List.range 16).all (fun r => !(getSlate s t).freeMask.getLsbD r || rodAsleep s t r
    || (List.range 16).all (fun p => beadCtx (getBead s (256 * t + 16 * r + p)) == some c))

/-- Whether a Slate is free to take a job of context c. -/
def slateIdle (s : State) (t c : Nat) : Bool :=
  let x := getSlate s t
  slateRuns s t && x.pg.phase == .idle && x.pg.job.isNone && x.pg.switch.isNone && x.rodShifting == 0 && !x.recovering
    && freeRodsDone s t c
    && (slateBrushes t).all (fun k => brushCtx (getBrush s k) == some c || (getBrush s k).running.isEmpty)

/-- The tally block that a context takes on a Slate at its first dispatch there (R257). -/
def takeBlock (s : State) (t c : Nat) : Option State :=
  if (tallyBlock s t c).isSome then some s
  else
    let q := (getCtx s c).q.toNat
    (freeBlock s t q).map (fun b => modTally s t (fun u => { u with map := mapPut u.map c (pack [(1, 31), (b, 16), (q, 0)]) }))

/-- A bead bound to a context: its blotter is cleaned and invalidated first where the context changes, with the fills that
are under way (R148). -/
def bindBead (s : State) (i c : Nat) : State :=
  if !beadExists s i || beadCtx (getBead s i) = some c then s
  else modBead (drainMerge s i) i (fun b => { b with
    blot := { b.blot with ways := [], fills := [] }, regs := { b.regs with ctx := ctxWord c } })

/-- The arguments of a job written at ARGOFF in the folio of every bead that its first page uses (R329). -/
def writeArgs (s : State) (e : LEntry) (t : Nat) (p : PageDesc) : State :=
  match mapFind s.books (jobBook e) with
  | none => s
  | some b =>
    let off := leAt b.image (entryTable b.image + 32 * jobEntry e + 4) 4 % 2 ^ 21 / 8 * 8
    let bytes := wordsBytes ((e.words.drop 6).take 10)
    let img := pageImage s t p
    ((slateBeads t).filter (fun i => beadExists s i && (imgUsed img (i % 256) || (imgFree img).getLsbD (i % 256 / 16)))).foldl
      (fun s i => storeBytes s (folioBase i + off) bytes) s

/-- The live working image of the tensor that argument word i of a job names, loaded line by line into the place on Slate t
that the job's pages read (R207; log 169): the place is loaded anew also where it holds that image already. -/
def loadWorking (s : State) (e : LEntry) (t i : Nat) : State :=
  match mapFind s.books (jobBook e), hbmOf s (jobCtx e) (jobArg e i) with
  | some b, some a =>
    let (kind, target, dst, len) := Config.workingPlace b.image (jobEntry e) i
    let va := loadNat s (a + 0x28 + 8 * (loadNat s (a + 8) 4 % 2)) 6
    let kind := kind % 2
    let target := if kind = 0 then target % 256 else target % 6
    (List.range (Nat.min len (2 ^ 20 - dst % 2 ^ 20) / 64)).foldl (fun s j => match hbmOf s (jobCtx e) (va + 64 * j) with
      | some pa => (loadSeg s t { kind := kind, target := target, dst := dst % 2 ^ 20 + 64 * j, src := pa, len := 64 }).1
      | none => s) s
  | _, _ => s

/-- The working images of a job loaded (R207, R329): of the tensors that UPDMASK marks, and of those that READMASK marks,
which the job reads at the generation live now. -/
def loadImages (s : State) (e : LEntry) (t : Nat) : State :=
  ((List.range 5).filter (bitAt (updMask s e ||| readMask s e))).foldl (fun s i => loadWorking s e t i) s

/-- A job placed on a Slate (R207, R228, R329, R342). -/
def placeJob (s : State) (e : LEntry) (t : Nat) (p : PageDesc) : State :=
  let c : Fin 64 := ⟨jobCtx e % 64, Nat.mod_lt _ (by decide)⟩
  let s := (slateBeads t).foldl (fun s i => bindBead s i c.val) s
  let s := (slateBrushes t).foldl (fun s k => if (getBrush s k).failed then s else bindBrush s k c.val) s
  let s := writeArgs (loadImages s e t) e t p
  let stamp := stampNow s
  let s := modEntry s e.fn.val e.seq.toNat (fun x => { x with
    state := .dispatched, slate := ⟨t % 4, Nat.mod_lt _ (by decide)⟩, page := p.number, dispatchStamp := stamp })
  let s := modPage s t (fun x => { x with job := some { fn := e.fn, ctx := c, seq := e.seq, book := jobBook e, page := p } })
  askSwitch s t p none

/-- The first page of a job as a Slate runs it. -/
def firstOn (s : State) (e : LEntry) (t : Nat) : Option PageDesc :=
  (firstPage s e).bind (fun n => choosePage s (jobBook e) t n)

/-- BUSY set and PEND cleared for the update list of a job (R207). -/
def holdTensors (s : State) (e : LEntry) : State :=
  let l := updateList s e
  let s := l.foldl (fun s a => clearPend (setBusy s a true) a) s
  modEntry s e.fn.val e.seq.toNat (fun x => { x with busyHeld := !l.isEmpty })

/-- JOB_DISPATCH (R17, R207, R276, R329): an accepted job whose waits are over is taken by a Slate; one that names what its
function does not own, or that no allowed Slate can run, ends. -/
def execJobDispatch (fn : Fin 16) (seq : BitVec 48) (sl : Fin 4) (s : State) : Host.Outcome State Fault Refusal :=
  let t := sl.val
  .next (match findEntry s fn.val seq.toNat with
    | none => s
    | some e =>
      if !serving s || s.pwr.st != .run || s.pwr.moving || e.state != .accepted || e.ended then s
      else if !entryOwned s e then endEntry s fn.val seq.toNat 0x02 .none
      else if !(List.range 4).any (slateCanRun s e) then endEntry s fn.val seq.toNat 0x06 .none
      else if !slateCanRun s e t || !slateIdle s t (jobCtx e) || !jobMayStart s e || (powerHolds s && !jobSync s e t)
          || (s.stroke.cfg.getLsbD 28 && jobSync s e t) then s
      else match takeBlock s t (jobCtx e), firstOn s e t with
        | some s, some p => placeJob (holdTensors s e) e t p
        | _, _ => s)

/-- JOB_STEAL (R13): an accepted job waits in another Slate's queue, or a dispatched job moves to another Slate. -/
def execJobSteal (fn : Fin 16) (seq : BitVec 48) (sl : Fin 4) (s : State) : Host.Outcome State Fault Refusal :=
  let t := sl.val
  .next (match findEntry s fn.val seq.toNat with
    | none => s
    | some e =>
      if !serving s || e.ended || e.slate == sl || !slateCanRun s e t then s
      else if e.state == .accepted then modEntry s fn.val seq.toNat (fun x => { x with slate := sl })
      else if e.state == .dispatched && slateIdle s t (jobCtx e) then
        match takeBlock s t (jobCtx e), firstOn s e t with
        | some s, some p => placeJob (dropJob s e) e t p
        | _, _ => s
      else s)

/-- PEND.BLOCKS, PEND.SKIP and PBLOCKS of an adapter descriptor (R199). -/
def pendBlocks (s : State) (a : Nat) : Nat := loadNat s (a + 0x38) 4
@[inherit_doc pendBlocks] def pendSkip (s : State) (a : Nat) : Bool := bitAt (loadNat s (a + 0x38) 8) 63
@[inherit_doc pendBlocks] def pBlocks (s : State) (a : Nat) : Nat := loadNat s (a + 4) 4 % 2 ^ 24

/-- The outcome staged for a job's update list, and the status the job ends with (R208). -/
def stageOutcome (s : State) (e : LEntry) : JobOutcome × W8 :=
  let l := updateList s e
  if l.isEmpty then (.none, 0)
  else if !l.all (fun a => pendBlocks s a == pBlocks s a) then (.none, 0x05)
  else if l.any (pendSkip s) then (.skip, 0)
  else (.flip, 0)

/-- The beads of a Slate that satisfy p, reset. -/
def resetBeads (s : State) (t : Nat) (p : Bead → Bool) : State :=
  ((slateBeads t).filter (fun i => beadExists s i && p (getBead s i))).foldl resetBead s

/-- Whether a bead has locked up for a cause that is no hardware fault (R351). -/
def lockedUp (b : Bead) : Bool := b.core.lockup.getLsbD 0 && fld b.core.lockup.toNat 15 8 != 0x06

/-- Whether hand 0 of a bead stands in the sentinel after a keeper fault (R86). -/
def keeperFault (b : Bead) : Bool := pswPl (handOf b 0).psw = 2 && (handOf b 0).save2.scause != 0

/-- JOB_END (R86, R208, R256, R351, R358): the last page has drained and the outcome is staged, or the job ends with the
status of a keeper fault, a stall, or a lockup. -/
def execJobEnd (fn : Fin 16) (seq : BitVec 48) (status : W8) (s : State) : Host.Outcome State Fault Refusal :=
  .next (match findEntry s fn.val seq.toNat with
    | none => s
    | some e =>
      let t := e.slate.val
      let x := getSlate s t
      match x.pg.job with
      | none => s
      | some j =>
        if !(serving s && slateRuns s t && j.fn == fn && j.seq == seq && !e.ended) then s
        else if status = 0 then
          if x.pg.phase == .running && (j.page.last || j.page.next.isNone) && pageDrained s t then
            let (o, st) := stageOutcome s e
            let s := endEntry s fn.val seq.toNat st o
            let s := { s with aux := { s.aux with stopped := s.aux.stopped ||| BitVec.ofNat 4 (2 ^ t) } }
            modPage (detach s t) t (fun p => { p with phase := .idle })
          else s
        else if status = 0x03 then
          if (slateBeads t).any (fun i => keeperFault (getBead s i)) then resetBeads (endJob s t 0x03) t keeperFault else s
        else if status = 0x08 then (if x.watch.fired && !x.watch.dumpBusy then endJob s t 0x08 else s)
        else if status = 0x09 then
          if (slateBeads t).any (fun i => lockedUp (getBead s i)) then resetBeads (endJob s t 0x09) t lockedUp else s
        else s)

/-- The staged outcome applied to one tensor, and BUSY cleared (R208, R343). -/
def applyOutcome (s : State) (o : JobOutcome) (a : Nat) : State :=
  let s := match o with
    | .none => s
    | .flip =>
      let st := loadNat s (a + 8) 4
      let s := putHbm s (a + 8) (toBytes 4 (if st % 2 = 0 then st + 1 else st - 1))
      putHbm s (a + 0x10) (toBytes 6 (loadNat s (a + 0x10) 6 + 1))
    | .skip => putHbm s (a + 0x0C) (toBytes 4 (loadNat s (a + 0x0C) 4 + 1))
  setBusy s a false

/-- A job committed (R343): the three steps in one. -/
def commitEntry (s : State) (e : LEntry) : State :=
  let l := updateList s e
  let gens := l.map (fun a => BitVec.ofNat 32 (loadNat s (a + 0x10) 4))
  let s := if e.busyHeld then l.foldl (fun s a => applyOutcome s e.outcome a) s else s
  let stamp := stampNow s
  let s := modEntry s e.fn.val e.seq.toNat (fun x => { x with
    state := .committed, commitStamp := stamp, gens := gens, intent := false, busyHeld := false })
  let s := modFn s e.fn.val (fun f => { f with ring := { f.ring with committed := e.seq } })
  { s with ledger := { s.ledger with commits := satInc s.ledger.commits } }

/-- JOB_COMMIT (R343): an ended job commits once every earlier job of its ring has. -/
def execJobCommit (fn : Fin 16) (seq : BitVec 48) (s : State) : Host.Outcome State Fault Refusal :=
  .next (match findEntry s fn.val seq.toNat with
    | none => s
    | some e => if serving s && e.ended && e.state == .running && earlierDone s e then commitEntry s e else s)

/-- The code of a ledger state (R331). -/
def lstateCode : LState → Nat
  | .accepted => 0 | .dispatched => 1 | .running => 2 | .committed => 3 | .reported => 4 | .retired => 5

/-- A completion record without its PHASE (R331): kind 0 is a completion, 1 a DUP. -/
def recordWords (seq : BitVec 48) (status : W8) (kind : Nat) (user : List W32) (epoch : W16) (st : Nat) (ctx : Nat)
    (detail : W32) (stamp : W64) : List W32 :=
  [seq.truncate 32, pack [(kind, 24), (status.toNat, 16), (seq.toNat / 2 ^ 32, 0)]] ++ user
    ++ [pack [(ctx, 24), (st, 16), (epoch.toNat, 0)], detail, stamp.truncate 32, (stamp >>> 32).truncate 32]

/-- Whether a completion ring has room. -/
def cqRoom (x : Fn) (b : Binding) : Bool := (x.cqTail - x.cqHead).toNat < 2 ^ b.cqLog

/-- A record written at the tail of the completion ring (R331). -/
def writeCompletion (x : Fn) (b : Binding) (ws : List W32) : Fn :=
  let k := x.cqTail.toNat
  let ws := listSet ws 1 ((ws[1]?).getD 0 ||| flag (phaseBit k b.cqLog) 31)
  { x with
    out := x.out ++ [⟨b.cqBus + BitVec.ofNat 64 (32 * (k % 2 ^ b.cqLog)), ws⟩]
    cqTail := x.cqTail + 1 }

/-- The vector that a job entry names: values below 2 select vector 2 (R312). -/
def entryVector (e : LEntry) : Fin 128 :=
  let v := fld (entryWord e 2) 22 16
  ⟨(if v < 2 then 2 else v) % 128, Nat.mod_lt _ (by decide)⟩

/-- A committed job reported (R331, R342). -/
def reportEntry (s : State) (b : Binding) (e : LEntry) : State :=
  let ws := recordWords e.seq e.status 0 ((e.words.drop 4).take 2) s.ledger.epoch 0 (jobCtx e) e.detail e.commitStamp
  let at_ := (getFn s e.fn.val).cqTail
  let s := modFn s e.fn.val (fun x =>
    let x := writeCompletion x b ws
    let x := if bitAt (entryWord e 2) 8 then raiseVector x (entryVector e) else x
    { x with ring := { x.ring with reported := e.seq } })
  modEntry s e.fn.val e.seq.toNat (fun x => { x with state := .reported, record := some at_ })

/-- COMPLETION_WRITE (R331): a DUP record that waits, or else the record of the ring's next committed job, is written. -/
def execCompletionWrite (fn : Fin 16) (s : State) : Host.Outcome State Fault Refusal :=
  let f := fn.val
  let x := getFn s f
  .next (match x.bind with
    | none => s
    | some b =>
      if !serving s || !cqRoom x b then s
      else match x.dupOut with
        | d :: ds => putFn s f { writeCompletion x b d with dupOut := ds }
        | [] => match findEntry s f (x.ring.reported.toNat + 1) with
          | some e => if e.state == .committed then reportEntry s b e else s
          | none => s)

end Sys2Proof.Machine
end

