-- ==== Sys2Proof/Machine/Scribe.lean ====
section
/-! DEFINITION. The Scribes and the ledger engine (R341, R350, R354 to R356, R390). -/

namespace Sys2Proof.Machine

/-- ALERT_N, asserted while one of its causes holds (R388 to R390, R395). -/
def setAlert (s : State) : State :=
  { s with pins := { s.pins with
      alertN := !(s.spine.orphan || s.pins.spineFailed || s.pins.bootFailed || s.pwr.therm = 2) } }

/-- The state of a Scribe: false names Scribe A. -/
def scribeOf (s : State) (b : Bool) : ScribeSt := if b then s.spine.scribeB else s.spine.scribeA
/-- The state with a Scribe's state changed. -/
def setScribe (s : State) (b : Bool) (x : ScribeSt) : State :=
  { s with spine := if b then { s.spine with scribeB := x } else { s.spine with scribeA := x } }
/-- LOCKUP_N's part of a Scribe (R90, R390). -/
def setLockup (s : State) (b on : Bool) : State :=
  { s with pins := if b then { s.pins with lockupB := on } else { s.pins with lockupA := on } }

/-- The device without a running Scribe (R356): every Slate aborts its pages. -/
def goOrphan (s : State) : State :=
  let s := (presentSlates s).foldl abortPage { s with spine := { s.spine with orphan := true } }
  setAlert s

/-- SCRIBE_WATCHDOG_EXPIRE (R354 to R356): the Scribe is held in reset; the other takes over or goes on alone and reboots
it, or the device is Orphan. Whether it had locked up, and so asserts LOCKUP_N, is a free value. -/
def execScribeWatchdogExpire (b : Bool) (s : State) : Host.Outcome State Fault Refusal :=
  .next (if !booted s || scribeOf s b != .running then s
    else
      let (v, s) := freeBits s
      let s := setLockup s b (v.getLsbD 0)
      let w : W32 := flag b 0
      let s := report s { index := 0, cause := 0x12, severity := 0, kind := 5, number := BitVec.ofNat 4 (b1 b),
                          detail := w } [w, 2]
      if scribeOf s (!b) != .running then goOrphan (setScribe s b .failed)
      else
        let s := recoveryStarts s
        let x := s.spine
        let takes := x.primaryB == b
        let s := { s with spine := { x with
          primaryB := if takes then !b else x.primaryB
          failovers := if takes && x.failovers != BitVec.allOnes 16 then x.failovers + 1 else x.failovers } }
        waitingResets (recoveryEnds (setScribe s b .rebooting)))

/-- SCRIBE_REBOOT_DONE (R354, R355): a Scribe that passes rejoins as the standby. -/
def execScribeRebootDone (b : Bool) (pass : Bool) (s : State) : Host.Outcome State Fault Refusal :=
  .next (if !serving s || scribeOf s b != .rebooting then s
    else if pass then postWide (setLockup (setScribe s b .running) b false) 0x0D [flag b 0, 1]
    else setScribe s b .failed)

/-- LEDGER_ENGINE_FAILURE (R350): the primary Scribe performs ledger operations from now on. -/
def execLedgerEngineFailure (s : State) : Host.Outcome State Fault Refusal :=
  .next (if booted s && !s.ledger.soft then
      let s := recoveryStarts s
      let s := { s with ledger := { s.ledger with soft := true } }
      waitingResets (recoveryEnds (logUnit s 0x16 0xF 7 0 0))
    else s)

end Sys2Proof.Machine
end

