-- ==== Sys2Proof/Machine/Stroke.lean ====
section
/-! DEFINITION. The stroke unit (R274 to R290, R301 to R307): markers, strokes, voids, holds, replays and fences, and the
event entries. An event command stands for its effect at its time; one whose time or condition does not hold leaves the
state as it is (log 36). -/

namespace Sys2Proof.Machine

/-- STROKE_CFG fields. -/
def cfgEn (s : State) : Bool := s.stroke.cfg.getLsbD 31
@[inherit_doc cfgEn] def cfgLocal (s : State) : Bool := s.stroke.cfg.getLsbD 28
@[inherit_doc cfgEn] def cfgLport (s : State) : Nat := fld s.stroke.cfg.toNat 27 24
@[inherit_doc cfgEn] def cfgSrc (s : State) : Nat := fld s.stroke.cfg.toNat 21 20
@[inherit_doc cfgEn] def cfgFlymax (s : State) : Nat := fld s.stroke.cfg.toNat 19 16
@[inherit_doc cfgEn] def cfgWindow (s : State) : Nat := Nat.max 1 (fld s.stroke.cfg.toNat 15 8)
@[inherit_doc cfgEn] def cfgVmax (s : State) : Nat := fld s.stroke.cfg.toNat 7 4

/-- The stroke unit's registers changed. -/
def modStroke (s : State) (f : Stroke → Stroke) : State := { s with stroke := f s.stroke }
/-- The rest of the stroke unit changed. -/
def modAux (s : State) (f : StrokeAux → StrokeAux) : State := { s with aux := f s.aux }

/-- The phase stepped to an edge that lies e sixteenths of a tick after the predicted one (R277). STROKE_EDGE_s follows, so
that a tick counter value t lies at phase t − EDGE_s of the stroke after the step too (R279; log 171). -/
def stepPhase (s : State) (e : Int) : State :=
  let ticks := (e + 8) / 16
  let s := modStroke s (fun x => { x with phase := BitVec.ofNat 24 ((x.phase.toNat : Int) - ticks).toNat })
  modAux s (fun a => { a with
    edges := (presentSlates s).foldl (fun m t => mapPut m t ((getSlate s t).tick - s.stroke.phase.zeroExtend 64)) a.edges })

/-- The trim as a signed number of 0.01 ppm. -/
def trimOf (s : State) : Int := s.aux.trim.toInt

/-- The trim steered (R277): by at most 0.5 ppm in the direction that reduces e, and within 200 ppm. The size of the step is
a free value; an edge later than predicted means that ACLK runs too fast. -/
def steer (s : State) (e : Int) : State :=
  if e = 0 then s
  else
    let (v, s) := freeBits s
    let d : Int := (v.toNat % 51 : Nat)
    let n := trimOf s + (if 0 < e then -d else d)
    modAux s (fun a => { a with trim := BitVec.ofInt 16 (max (-20000) (min 20000 n)) })

/-- A slip (R277): the count is taken from the block and the phase stepped. -/
def slip (s : State) (e : Int) (count : BitVec 40) : State :=
  let s := stepPhase s e
  modStroke s (fun x => { x with
    count := count, slip := true, slipNow := true, st := if x.st = .flywheel then .locked else x.st })

/-- Whether an error in sixteenths of a tick lies within WINDOW (R275, R277). -/
def inWindow (s : State) (e : Int) : Bool := e.natAbs ≤ 16 * cfgWindow s

/-- A marker measured (R277): e is its error in sixteenths of a tick, and count the stroke that it opens. -/
def marker (s : State) (e : Int) (count : BitVec 40) : State :=
  let near := inWindow s e && count == s.stroke.count
  let s := modStroke s (fun x => { x with marked := true })
  match s.stroke.st with
  | .off => s
  | .free => modStroke s (fun x => { x with st := .acquiring, run := 0, fly := 0 })
  | .acquiring =>
    let s := modStroke (stepPhase s e) (fun x => { x with count := count })
    let run := if near then s.stroke.run + 1 else 0
    modStroke s (fun x => { x with run := run, fly := 0, st := if 16 ≤ run then .locked else .acquiring })
  | .locked | .flywheel =>
    if near then modStroke (steer s e) (fun x => { x with st := .locked, fly := 0 })
    else modStroke (slip s e count) (fun x => { x with fly := 0 })
  | .held | .fenced => modStroke (if near then steer s e else slip s e count) (fun x => { x with fly := 0 })

/-- The marker of the present stroke measured, once its edge and its block are there (R275, R276). In local operation the pin
edge is enough and the unit counts for itself. With SRC = 2 the link edge is used where the pin gave none within WINDOW and the
link did; before the pin's WINDOW has passed, which `last` or the phase says, an edge may still come. -/
def judgeMarker (s : State) (last : Bool) : State :=
  let x := s.stroke
  if x.marked then s
  else if cfgLocal s then (match x.pinErr with | some e => marker s e x.count | none => s)
  else match x.block, x.pinErr with
    | none, _ => s
    | some (link, n), pin =>
      if cfgSrc s = 1 then marker s link n
      else
        let good := pin.any (inWindow s)
        if cfgSrc s = 2 && !good && inWindow s link && (last || pin.isSome || cfgWindow s < x.phase.toNat) then marker s link n
        else match pin with
          | some e => marker s e n
          | none => s

/-- STROKE_PIN_EDGE (R275, R277): an edge of STROKE_P/N, delayed by PIN_ADJ; ignored while the source is the link. An edge
within WINDOW stands in for one outside it that came before. -/
def execStrokePinEdge (err : Int) (s : State) : Host.Outcome State Fault Refusal :=
  let e := err + 16 * (s.aux.pinAdj.toNat : Int)
  let better := match s.stroke.pinErr with | some d => inWindow s e && !inWindow s d | none => true
  .next (if booted s && cfgEn s && (cfgLocal s || cfgSrc s != 1) && !s.stroke.marked && better then
      judgeMarker (modStroke s (fun x => { x with pinErr := some e })) false
    else s)

/-- A Slate's SYNC job ended because it cannot be replayed (R304, R305, R358). -/
def replayExhausted (s : State) (t : Nat) : State :=
  endJob (modStroke s (fun x => { x with replayx := true })) t 0x07

/-- The checkpointed tallies of a Slate restored (R304). -/
def restoreTallies (s : State) (t : Nat) : State :=
  modTally s t (fun u => { u with values := u.ckpt.foldl (fun m p => mapPut m p.1 p.2) u.values })

/-- One SYNC Slate voided (R304): its entries stop, its windows close quietly, its ports' queues empty, and its page is
aborted with PEND cleared and tallies restored. -/
def voidSlate (s : State) (t : Nat) : State :=
  let s := closeWindows s t true
  let s := modAux s (fun a => { a with voided := a.voided ||| BitVec.ofNat 4 (2 ^ t) })
  let s := (slatePorts t).foldl (fun s p => modPort s p (fun q => { q with sendBuf := [], delivBuf := [], fwdq := [] })) s
  let s := modPage s t (fun p => { p with circuits := p.circuits.map (fun c => (c.1, { c.2 with flight := [] })) })
  restoreTallies (abortPage (clearJobPend s t) t) t

/-- The SYNC Slates. -/
def syncSlates (s : State) : List Nat := (presentSlates s).filter (syncSlate s)

/-- The checkpoint that a Slate holds. -/
def ckptOf (s : State) (t : Nat) : Option Ckpt := mapGet (fun _ => none) s.aux.ckpts t

/-- Whether a Slate can be replayed after a void: it holds a checkpoint no later than the voided stroke, and VMAX allows
another replay (R304, R305). -/
def canReplay (s : State) (t : Nat) (v : Option (BitVec 40)) : Bool :=
  match ckptOf s t with
  | none => false
  | some c => (match v with | some v => c.stroke ≤ v | none => true) && s.aux.consec.toNat + 1 ≤ cfgVmax s

/-- Every SYNC Slate voided (R304); one that cannot roll back so far ends its job. -/
def voidAll (s : State) (v : Option (BitVec 40)) : State :=
  (syncSlates s).foldl (fun s t =>
    if canReplay s t v then voidSlate s t else replayExhausted (voidSlate s t) t) s

/-- A void or hold acted on (R304). -/
def actVoid (s : State) (v : Option (BitVec 40)) (hold : Bool) : State :=
  let s := voidAll s v
  let s := modAux s (fun a => { a with
    voidsTotal := a.voidsTotal + 1
    vacted := v.orElse (fun _ => a.vacted), vstroke := v.getD a.vstroke })
  modStroke s (fun x => { x with heldFlag := true, st := if hold then .held else x.st })

/-- A Slate switched to its checkpoint page for a replay in stroke r (R305). -/
def replaySlate (s : State) (r : BitVec 40) (t : Nat) : State :=
  match (getSlate s t).pg.job, ckptOf s t with
  | some j, some c =>
    (match (getSlate s t).pg.switch with
    | some w => if w.replayAt.isSome then modPage s t (fun p => { p with switch := some { w with replayAt := some r } })
        else askSwitch s t w.page (some r)
    | none => match choosePage s j.book t c.page.toNat with
      | some p => askSwitch s t p (some r)
      | none => restartEntry (detach s t) j.fn.val j.seq.toNat)
  | _, _ => s

/-- A replay acted on (R305): every voided Slate switches to its checkpoint page, and a Held unit is Locked again. -/
def actReplay (s : State) (r : BitVec 40) : State :=
  let ts := (List.range 4).filter (fun t => s.aux.voided.getLsbD t)
  let s := ts.foldl (fun s t => replaySlate s r t) s
  let s := modAux s (fun a => { a with
    racted := some r, replayMissed := a.replayMissed &&& ~~~a.voided
    consec := if ts.isEmpty || a.consec = BitVec.allOnes 16 then a.consec else a.consec + 1 })
  modStroke s (fun x => { x with heldFlag := false, st := if x.st = .held then .locked else x.st })

/-- The void, hold and replay fields of a marker block acted on, once for each VSTROKE and RSTROKE (R288, R304, R305). -/
def actFields (s : State) (m : Marker) : State :=
  let isNew := m.void && s.aux.vacted != some m.vstroke
  let holds := m.hold && (s.stroke.st = .locked || s.stroke.st = .flywheel)
  let s := if isNew then actVoid s (some m.vstroke) holds else if holds then actVoid s none true else s
  if m.replay && !m.hold && s.aux.racted != some m.rstroke then actReplay s m.rstroke else s

/-- The flags of an echo (R286, R288). -/
def echoFlags (s : State) : W8 :=
  let x := s.stroke
  BitVec.ofNat 8 (b1 x.prevMiss + 2 * b1 x.prevLate + 4 * b1 x.slipNow + 8 * b1 x.flyNow + 16 * b1 x.recovering
    + 32 * b1 (decide (x.len.toNat < strokeLreq s)) + 64 * b1 (x.st == .fenced) + 128 * b1 x.heldFlag)

/-- A control block put among those that a port has to send: ahead of the ranging requests, since answers, acknowledgements,
credits and echoes leave in the next control units (R287, R288). -/
def queueCtl (l : List CtlBlock) (c : CtlBlock) : List CtlBlock :=
  let request (b : CtlBlock) : Bool := match b with | .rangeReq .. => true | _ => false
  l.takeWhile (fun b => !request b) ++ c :: l.dropWhile (fun b => !request b)

/-- A control block given to every enabled port that satisfies p. -/
def sendCtl (s : State) (p : Nat → Port → Bool) (c : Nat → CtlBlock) : State :=
  (List.range 12).foldl (fun s i =>
    if (getPort s i).cfg.getLsbD 0 && p i (getPort s i) then modPort s i (fun x => { x with ctl := queueCtl x.ctl (c i) })
    else s) s

/-- The echo to a marker block (R288): MISS, LATE, SLIP and FLY as they stand, the rest as it leaves. None answers the block of
a synthetic stroke (R278). -/
def echo (s : State) (n : BitVec 40) : State :=
  let x := s.stroke
  if x.synth then s
  else
    let e : Echo := { devnum := s.aux.devnum, stroke := n, flags := echoFlags s, lreq := BitVec.ofNat 24 (strokeLreq s),
                      lat := 0, mrec := x.prevRec }
    modStroke (sendCtl s (fun _ p => p.cfg.getLsbD 3) (fun _ => .ownEcho e)) (fun x => { x with flyNow := false })

/-- A marker block relayed on every port with RELAY = 1 (R276, R288): DUCTUS_LPORT_DELAY is added to AGE now, and the residence
as it leaves. -/
def relay (s : State) (m : Marker) : State :=
  let age := m.age + (getPort s (cfgLport s)).delay.zeroExtend 24
  sendCtl s (fun _ p => p.cfg.getLsbD 2)
    (fun i => .marker { m with hops := m.hops + 1, age := age } (getSlate s (i / 3)).tick)

/-- MARKER_BLOCK (R275, R276, R288): the link edge is the arrival less AGE and DUCTUS_LPORT_DELAY. A block later than phase
LEN − 64 of its own stroke is discarded. -/
def execMarkerBlock (port : Fin 12) (crcOk : Bool) (err : Int) (m : Marker) (s : State) :
    Host.Outcome State Fault Refusal :=
  let lport := port.val = cfgLport s
  let late := m.stroke == s.stroke.count && m.len.toNat < s.stroke.phase.toNat + 64
  let e := err - 16 * ((m.age.toNat + (getPort s port.val).delay.toNat : Nat) : Int)
  .next (if !booted s || !(getPort s port.val).cfg.getLsbD 0 || !crcOk then s
    else if !lport then relay s m
    else if !cfgEn s || cfgLocal s || late then s
    else
      let s := judgeMarker (modStroke s (fun x => { x with block := some (e, m.stroke) })) false
      let s := modStroke s (fun x => { x with len := m.len })
      echo (relay (actFields s m) m) m.stroke)

/-- Whether event entries fire (R282, R378). -/
def entriesFire (s : State) : Bool :=
  booted s && s.pwr.st == .run && (s.stroke.st == .locked || s.stroke.st == .flywheel)

/-- The end of a stroke (R274, R279, R282, R284): windows still open close, the count rises, and edges and flags are
latched. -/
def endStroke (s : State) : State :=
  let s := (presentSlates s).foldl (fun s t => closeWindows s t false) s
  let x := s.stroke
  let n := x.count + 1
  let s := modAux s (fun a => { a with
    edges := (presentSlates s).foldl (fun m t => mapPut m t (getSlate s t).tick) a.edges, fired := [] })
  let s := modStroke s (fun x => { x with
    count := n, phase := 0, len := x.lenNext.getD x.len, lenNext := none
    prevMiss := x.strokeMiss, prevLate := x.strokeLate, strokeMiss := false, strokeLate := false
    prevRec := if x.missTaken then x.missRec else 0, missTaken := false
    slipNow := false, marked := false, pinErr := none, block := none, synth := false })
  (presentSlates s).foldl (fun s t => modPage s t (fun p =>
    if p.sched.waitsBase then { p with sched := { p.sched with base := n, waitsBase := false } } else p)) s

/-- STROKE_END (R274): the tick after phase LEN − 1. -/
def execStrokeEnd (s : State) : Host.Outcome State Fault Refusal :=
  .next (if deviceUp s && s.stroke.len.toNat ≤ s.stroke.phase.toNat + 1 then endStroke s else s)

/-- Free entered (R278): every window closes and every SYNC Slate aborts as on a void. -/
def enterFree (s : State) : State :=
  let s := voidAll s none
  let s := (presentSlates s).foldl (fun s t => closeWindows s t false) s
  postWide (modStroke s (fun x => { x with st := .free, loss := true, fly := 0 })) 0x06 [0]

/-- SYNTHETIC_STROKE (R276 to R278): the stroke has no marker: no edge, or no block. With SRC = 2 a link edge within WINDOW is
its marker now. -/
def execSyntheticStroke (s : State) : Host.Outcome State Fault Refusal :=
  let u := if booted s && cfgEn s then judgeMarker s true else s
  .next (if !booted s || !cfgEn s || u.stroke.marked then u
    else
      let x := s.stroke
      let s := modStroke s (fun x => { x with marked := true, synth := true, flyNow := true })
      match x.st with
      | .acquiring => modStroke s (fun x => { x with run := 0 })
      | .locked | .flywheel =>
        if cfgFlymax s < x.fly + 1 then enterFree s
        else modStroke s (fun x => { x with st := .flywheel, fly := x.fly + 1 })
      | .held => if cfgFlymax s < x.fly + 1 then enterFree s else modStroke s (fun x => { x with fly := x.fly + 1 })
      | _ => s)

/-- FENCE acted on (R289). -/
def fenceUnit (s : State) : State :=
  if s.stroke.st = .fenced then s
  else
    let s := voidAll s none
    let s := (presentSlates s).foldl (fun s t => closeWindows s t false) s
    postWide (modStroke s (fun x => { x with st := .fenced, fly := 0 })) 0x06 [1]

/-- UNFENCE acted on (R289). -/
def unfenceUnit (s : State) : State :=
  if s.stroke.st = .fenced then postWide (modStroke s (fun x => { x with st := .acquiring, run := 0 })) 0x06 [2] else s

/-- STROKE_CFG written (R275): a reserved SRC leaves SRC as it was; EN starts or stops the unit. -/
def writeStrokeCfg (s : State) (v : W32) : State :=
  let v := v &&& 0x9F3FFFF0
  let v := if fld v.toNat 21 20 = 3 then merge32 v 0x00300000 s.stroke.cfg else v
  modStroke s (fun x => { x with
    cfg := v
    st := if !v.getLsbD 31 then .off else if x.st = .off then .acquiring else x.st
    run := if v.getLsbD 31 && x.st != .off then x.run else 0 })

/-- STROKE_ALLOC written (R280): discarded where it grants more than 64, or changes while a Slate has a schedule, be it one
without entries or windows. -/
def writeStrokeAlloc (s : State) (v : W32) : State :=
  let total := ((List.range 4).map (fun t => fld v.toNat (8 * t + 7) (8 * t))).sum
  let used := !s.aux.entries.isEmpty || (List.range 4).any (fun t => !(getSlate s t).pg.windows.isEmpty || (getSlate s t).pg.sched.held)
  if 64 < total || (used && v != s.aux.alloc) then s else modAux s (fun a => { a with alloc := v })

/-- Word w of event entry e. -/
def evWord (s : State) (e w : Nat) : Nat := (((mapGet (fun _ => []) s.aux.entries e : List W32)[w]?).getD 0).toNat

/-- The Slate that owns an entry (R280). -/
def entryOwner (s : State) (e : Nat) : Option Nat :=
  (List.range 4).find? (fun t => entryBase s t ≤ e && e < entryBase s t + entryCount s t)

/-- Whether the WHEN field of an entry allows a stroke for a base stroke (R282). -/
def whenAllows (w : Nat) (base n : Nat) : Bool :=
  let f := base + fld w 15 0
  match fld w 17 16 with
  | 0 => n = f
  | 1 => f ≤ n
  | 2 => f ≤ n && (n - f) % (Nat.max 1 (fld w 31 20)) = 0
  | _ => false

/-- Whether entry e of Slate t, of a kind, fires in the present stroke (R280, R282). -/
def entryFires (s : State) (e kind t : Nat) : Bool :=
  entriesFire s && slateRuns s t && (mapFind s.aux.entries e).isSome && fld (evWord s e 2) 3 0 = kind
    && !s.aux.fired.contains e && !s.aux.voided.getLsbD t && (kind = 1 || !s.aux.stopped.getLsbD t)
    && !(getSlate s t).pg.sched.waitsBase
    && whenAllows (evWord s e 1) (getSlate s t).pg.sched.base.toNat s.stroke.count.toNat

/-- An entry that fires: LATE where its effect lies beyond the stroke, else its effect at its phase (R282). -/
def fire (s : State) (e kind : Nat) (act : State → Nat → State) : State :=
  match entryOwner s e with
  | none => s
  | some t =>
    let at_ := fld (evWord s e 0) 23 0 + 8
    if !entryFires s e kind t then s
    else
      let done := modAux s (fun a => { a with fired := e :: a.fired })
      if s.stroke.len.toNat ≤ at_ then raiseLate done t
      else if at_ ≤ s.stroke.phase.toNat then act done t
      else s

/-- A page of a Slate in phase ready started (R232, R282, R302), by an entry at TICK tick. -/
def startReady (s : State) (t : Nat) (pg : PageDesc) (tick : BitVec 24) (replay : Bool) : State :=
  let s := startPage s t pg
  let n := s.stroke.count
  let h := (getSlate s t).pg.sched
  let vals (c : Nat) : List (Nat × BitVec 48) := (List.range h.ckCount).filterMap (fun k =>
    (tallyOf s t c (h.ckBase.toNat + k)).map (fun p => (p, tallyValue s t p)))
  let s := if h.ckpt then
      let l := match pageCtx s t with | some c => vals c | none => []
      let s := modTally s t (fun u => { u with ckpt := l })
      modAux s (fun a => { a with
        ckpts := mapPut a.ckpts t (some ⟨pg.number, tick, n⟩), consec := if replay then a.consec else 0 })
    else s
  let base := entryBase s t
  let missed := ((List.range (entryCount s t)).map (base + ·)).filter (fun e =>
    (mapFind s.aux.entries e).isSome && whenAllows (evWord s e 1) n.toNat n.toNat
      && fld (evWord s e 0) 23 0 + 8 < s.stroke.phase.toNat)
  if missed.isEmpty then s else raiseLate (modAux s (fun a => { a with fired := missed ++ a.fired })) t

/-- The page of a number in phase ready started, or LATE (R283, R284); in local operation no SYNC page starts (R276). -/
def startEntry (s : State) (t number : Nat) (tick : BitVec 24) : State :=
  let p := (getSlate s t).pg
  match p.phase, p.switch with
  | .ready, some w => if w.page.number.toNat = number && w.replayAt.isNone && !localBars s w.page then startReady s t w.page tick false else raiseLate s t
  | _, _ => raiseLate s t

/-- The start of a replayed page in its stroke (R305): at phase T + 8, where T is the checkpoint's TICK. A Slate that is not
ready then raises LATE once, and its page waits for the master's next replay. -/
def startReplay (s : State) (t : Nat) (w : Switch) (r : BitVec 40) : State :=
  let tick : BitVec 24 := match ckptOf s t with | some c => c.tick | none => 0
  if !(entriesFire s && s.stroke.count == r && tick.toNat + 8 ≤ s.stroke.phase.toNat) || s.aux.replayMissed.getLsbD t then s
  else if (getSlate s t).pg.phase == .ready && !localBars s w.page then startReady s t w.page tick true
  else raiseLate (modAux s (fun a => { a with replayMissed := a.replayMissed ||| BitVec.ofNat 4 (2 ^ t) })) t

/-- START_A_PAGE (R283, R302, R305). While a replay is asked of the entry's Slate, the start is the replay's. -/
def execStartAPage (e : Fin 256) (s : State) : Host.Outcome State Fault Refusal :=
  let replay := (entryOwner s e.val).bind (fun t => (getSlate s t).pg.switch.bind (fun w => w.replayAt.map (fun r => (t, w, r))))
  .next (match replay with
    | some (t, w, r) => startReplay s t w r
    | none => fire s e.val 1 (fun s t => startEntry s t (fld (evWord s e.val 3) 15 0) (BitVec.ofNat 24 (evWord s e.val 0))))

/-- RELEASE_A_TALLY (R283, R284). -/
def execReleaseATally (e : Fin 256) (s : State) : Host.Outcome State Fault Refusal :=
  let v := fld (evWord s e.val 2) 25 16
  .next (fire s e.val 2 (fun s t =>
    match (pageCtx s t).bind (fun c => tallyOf s t c v) with
    | some p => raiseTally s t p (BitVec.ofNat 48 (evWord s e.val 3))
    | none => logSlate s 0x0B t (BitVec.ofNat 32 v)))

/-- OPEN_A_SLOT_WINDOW (R283, R300). -/
def execOpenASlotWindow (e : Fin 256) (s : State) : Host.Outcome State Fault Refusal :=
  .next (fire s e.val 3 (fun s t => openWindow s t (fld (evWord s e.val 2) 15 8)))

/-- SEND_A_DUCTUS_TRANSFER (R283, R299). -/
def execSendADuctusTransfer (e : Fin 256) (s : State) : Host.Outcome State Fault Refusal :=
  .next (fire s e.val 4 (fun s t => openWindow s t (fld (evWord s e.val 2) 15 8)))

/-- RAISE_AN_INTERRUPT (R283, R284): lost where the bead is in reset, locked up or absent. -/
def execRaiseAnInterrupt (e : Fin 256) (s : State) : Host.Outcome State Fault Refusal :=
  let b := fld (evWord s e.val 3) 7 0
  .next (fire s e.val 5 (fun s t =>
    let i := 256 * t + b
    if beadExists s i && !(getBead s i).held && !(getBead s i).core.lockup.getLsbD 0 then raiseInt s i intEvent
    else logSlate s 0x0B t (BitVec.ofNat 32 b)))

end Sys2Proof.Machine
end

