-- ==== Sys2Proof/Machine/Ductus.lean ====
section
/-! DEFINITION. The Ductus ports (R286 to R300, R336): slot windows and flits, ranging, lane sparing, and management
packets. -/

namespace Sys2Proof.Machine

/-- Whether a port is fitted and its Slate has not failed (R295, R396). -/
def portHere (s : State) (p : Nat) : Bool := booted s && slatePresent s (p / 3) && !(getSlate s (p / 3)).failed

/-- Whether a port carries flits: it is up, and the power state keeps it so (R378). -/
def portUp (s : State) (p : Nat) : Bool :=
  let x := getPort s p
  portHere s p && x.up && (s.pwr.st == .run || s.pwr.st == .hold || p = cfgLport s || x.cfg.getLsbD 3 || x.cfg.getLsbD 2)

/-- Whether an open receive window forwards to a port (R292). -/
def forwardsTo (s : State) (p : Nat) : Bool :=
  (List.range 12).any (fun q => match (getPort s q).recvOpen with
    | some (t, w) => wFwd (getWindow s t.val w.val) && wFwdPort (getWindow s t.val w.val) == p
    | none => false)

/-- Whether a window that sends on a port, or a receive window that forwards to it, opens within 3 ticks (R292). -/
def opensSoon (s : State) (p : Nat) : Bool :=
  s.aux.entries.any (fun e => match entryOwner s e.1 with
    | none => false
    | some t =>
      let w := getWindow s t (fld (evWord s e.1 2) 15 8)
      let at_ := fld (evWord s e.1 0) 23 0 + 8
      s.stroke.phase.toNat < at_ && at_ ≤ s.stroke.phase.toNat + 3 && at_ < s.stroke.len.toNat
        && ((entryFires s e.1 4 t && wPort w == p) || (entryFires s e.1 3 t && wFwd w && wFwdPort w == p)))

/-- Whether a management flit may begin on a port now (R287, R292). -/
def mgmtMay (s : State) (p : Nat) : Bool :=
  let x := getPort s p
  portUp s p && 0 < x.credits && x.sendOpen.isNone && !forwardsTo s p && !opensSoon s p

/-- Waiting management packets sent while credits last (R287, R292). -/
def pumpMgmt (s : State) (p : Nat) : State :=
  iterate (fun s => if mgmtMay s p then
      modPort s p (fun x => match x.mgmtQ with
        | m :: ms => { x with mgmtQ := ms, credits := x.credits - 1, mgmtTx := x.mgmtTx ++ [m] }
        | [] => x)
    else s) 16 s

/-- WINDOW_CLOSE (R299, R300): a window closes LEN ticks after it opened. -/
def execWindowClose (sl : Fin 4) (win : Fin 64) (s : State) : Host.Outcome State Fault Refusal :=
  let w := getWindow s sl.val win.val
  .next (if deviceUp s && w.isOpen && w.closesAt ≤ s.stroke.phase.toNat then
      (List.range 12).foldl pumpMgmt (closeWindow s sl.val win.val false)
    else s)

/-- FLIT_SEND (R299, R300): a forwarded flit that waits, or the open send window's next flit, leaves. -/
def execFlitSend (port : Fin 12) (s : State) : Host.Outcome State Fault Refusal :=
  let p := port.val
  let x := getPort s p
  .next (if !portUp s p then s
    else match x.fwdq, x.sendOpen with
      | f :: fs, _ => putPort s p { x with fwdq := fs, tx := x.tx ++ [f] }
      | [], some (t, w) =>
        let win := getWindow s t.val w.val
        let st := wStream win win.flits
        let q : List Row := mapGet (fun _ => []) x.sendBuf st
        if wFlits win ≤ win.flits || q.length < 4 then s
        else
          let s := putPort s p { x with sendBuf := mapPut x.sendBuf st (q.drop 4), tx := x.tx ++ [q.take 4] }
          putWindow s t.val w.val { win with flits := win.flits + 1 }
      | [], none => s)

/-- A flit delivered to a delivery stream (R297, R300): its last beat carries what the window counts on its tally. -/
def deliverFlit (s : State) (p : Nat) (w : Window) (data : List Row) : State :=
  let x := getPort s p
  let st := wStream w w.flits
  let q : List (Row × Option (Nat × Nat)) := mapGet (fun _ => []) x.delivBuf st
  if 32 < q.length + 4 then portDrop s p 1
  else
    let tag := (wTally w).map (fun v => (v.1, if v.2 then 1 else 256))
    let beats := (List.range 4).map (fun k => ((data[k]?).getD 0, if k = 3 then tag else none))
    putPort s p { x with delivBuf := mapPut x.delivBuf st (q ++ beats) }

/-- A flit forwarded (R299, R300): a ninth that would wait is discarded and counted. -/
def forwardFlit (s : State) (p : Nat) (data : List Row) : State :=
  let x := getPort s p
  if 8 ≤ x.fwdq.length then portDrop s p 1
  else putPort s p { x with fwdq := x.fwdq ++ [(List.range 4).map (fun k => (data[k]?).getD 0)] }

/-- FLIT_RECEIVE (R300, R308): delivered, forwarded and counted by the open receive window, or discarded; a codeword that the
decoder corrected or could not correct is counted. -/
def execFlitReceive (port : Fin 12) (word : Codeword) (data : List Row) (s : State) :
    Host.Outcome State Fault Refusal :=
  let p := port.val
  let x := getPort s p
  .next (if !portUp s p then s
    else if word == .uncorrectable then portDrop (putPort s p { x with uncorr := satInc x.uncorr }) p 1
    else
      let s := if word == .corrected then putPort s p { x with corr := satInc x.corr } else s
      match x.recvOpen with
      | none => portDrop s p 1
      | some (t, w) =>
        let win := getWindow s t.val w.val
        if wFlits win ≤ win.flits then portDrop s p 1
        else
          let s := putWindow s t.val w.val { win with flits := win.flits + 1 }
          let s := if wDlv win then deliverFlit s p win data else s
          if wFwd win then forwardFlit s (wFwdPort win) data else s)

/-- The tick counter of a port's Slate. -/
def portTick (s : State) (p : Nat) : W64 := (getSlate s (p / 3)).tick

/-- Ranging begun (R287, R293): sixteen requests, SEQ 0 to 15, each outstanding once it has left. -/
def startRanging (s : State) (p : Nat) : State :=
  modPort s p (fun x => { x with
    up := false, delayValid := false, measures := [], ranging := []
    ctl := x.ctl.filter (fun b => match b with | .rangeReq .. => false | _ => true)
      ++ (List.range 16).map (fun k => CtlBlock.rangeReq (BitVec.ofNat 4 k) 0) })

/-- The first 60 bytes of a control block (R286, R287). -/
def ctlBody : CtlBlock → List W8
  | .marker m _ => toBytes 4 (pack [(m.hops.toNat, 8), (1, 0)]).toNat ++ toBytes 4 m.age.toNat ++ toBytes 8 m.stroke.toNat
      ++ toBytes 4 m.len.toNat ++ toBytes 4 (b1 m.void + 2 * b1 m.hold + 4 * b1 m.replay) ++ toBytes 8 m.vstroke.toNat
      ++ toBytes 8 m.rstroke.toNat
  | .echo e | .ownEcho e => toBytes 4 2 ++ toBytes 4 e.devnum.toNat ++ toBytes 8 e.stroke.toNat ++ toBytes 4 e.flags.toNat
      ++ toBytes 4 e.lreq.toNat ++ toBytes 4 e.lat.toNat ++ toBytes 4 e.mrec.toNat
  | .rangeReq q t1 => toBytes 4 3 ++ toBytes 4 q.toNat ++ toBytes 8 t1.toNat
  | .rangeAns q t1 t2 t3 => toBytes 4 4 ++ toBytes 4 q.toNat ++ toBytes 8 t1.toNat ++ toBytes 8 t2.toNat ++ toBytes 8 t3.toNat
  | .sparing l c q => toBytes 4 5 ++ toBytes 4 (pack [(b1 c, 4), (l.val, 0)]).toNat ++ toBytes 4 q.toNat
  | .sparingAck l q => toBytes 4 6 ++ toBytes 4 l.val ++ toBytes 4 q.toNat
  | .credit n l => toBytes 4 7 ++ toBytes 4 n.toNat ++ toBytes 4 l.length
      ++ l.flatMap (fun a => toBytes 4 (pack [(a.seq.toNat, 12), (a.source.toNat, 0)]).toNat)

/-- A control block as it stands in a control unit: 60 bytes and their CRC-32 (R286). -/
def ctlImage (b : CtlBlock) : List W8 :=
  let m := (ctlBody b ++ List.replicate 60 0).take 60
  m ++ toBytes 4 (crc32 m).toNat

/-- A control block with what it takes in the tick in which it leaves port p (R287, R288): T1 and T3, the residence of a
relayed marker, and LAT, LREQ and the state flags of an own echo. A LAT past 16 bits reads as all ones (log 173). -/
def stampCtl (s : State) (p : Nat) : CtlBlock → CtlBlock
  | .rangeReq q _ => .rangeReq q (portTick s p)
  | .rangeAns q t1 t2 _ => .rangeAns q t1 t2 (portTick s p)
  | .marker m since => .marker { m with age := m.age + (portTick s p - since).truncate 24 } since
  | .ownEcho e => .ownEcho { e with
      lat := BitVec.ofNat 16 (Nat.min 0xFFFF s.stroke.phase.toNat), lreq := BitVec.ofNat 24 (strokeLreq s)
      flags := (e.flags &&& 0x0F) ||| (echoFlags s &&& 0xF0) }
  | b => b

/-- A control block that has left a port: a ranging request is outstanding from then on, and an own echo counts in
STROKE_ECHO_MAX and ECHOLATE (R287, R288). -/
def sentCtl (s : State) (p : Nat) (b : CtlBlock) : State :=
  let s := modPort s p (fun x => { x with ctlTx := x.ctlTx ++ [ctlImage b] })
  match b with
  | .rangeReq q t1 => modPort s p (fun x => { x with ranging := mapPut x.ranging q.toNat t1 })
  | .ownEcho e =>
    let s := modAux s (fun a => { a with echoMax := if a.echoMax < e.lat then e.lat else a.echoMax })
    modStroke s (fun x => { x with echoLate := x.echoLate || 192 < x.phase.toNat })
  | _ => s

/-- The control block of a port's control unit (R286, R287): while a sparing request awaits its acknowledgement, that request
in every unit; else the first block that waits. -/
def ctlNext (x : Port) : Option (CtlBlock × List CtlBlock) :=
  match x.sparing, x.ctl with
  | some (l, c, q), bs => some (.sparing l c q, bs)
  | none, b :: bs => some (b, bs)
  | none, [] => none

/-- A control unit of a port sent. -/
def sendUnit (s : State) (p : Nat) : State :=
  match ctlNext (getPort s p) with
  | none => s
  | some (b, bs) => sentCtl (modPort s p (fun x => { x with ctl := bs, ctlWait := 0 })) p (stampCtl s p b)

/-- One tick of a port with a block to send (R286): a control unit comes at least once in 132 ticks, in ticks that the spec
leaves to the alignment of the link (log 174). -/
def tickPort (s : State) (p : Nat) : State :=
  let x := getPort s p
  if !portHere s p || !x.aligned || (ctlNext x).isNone then s
  else
    let (v, s) := freeBits s
    if v.getLsbD 0 || 131 ≤ x.ctlWait then sendUnit s p else modPort s p (fun x => { x with ctlWait := x.ctlWait + 1 })

/-- LINK_ALIGNMENT (R286, R287, R293): the lanes align, each end holds 16 credits, and ranging begins. -/
def execLinkAlignment (port : Fin 12) (s : State) : Host.Outcome State Fault Refusal :=
  let p := port.val
  let x := getPort s p
  .next (if portHere s p && x.cfg.getLsbD 0 && !x.failed && !x.aligned then
      startRanging (putPort s p { x with aligned := true, credits := 16 }) p
    else s)

/-- RANGING_REQUEST (R287): answered in the port's next control unit. -/
def execRangingRequest (at_ : BlockAt) (seq : BitVec 4) (t1 : W64) (s : State) : Host.Outcome State Fault Refusal :=
  let p := at_.port.val
  .next (if at_.crcOk && portHere s p && (getPort s p).aligned then
      modPort s p (fun x => { x with ctl := queueCtl x.ctl (.rangeAns seq t1 (portTick s p) 0) })
    else s)

/-- A number halved to the nearest; a half rounds as a free bit says (R293). -/
def halve (s : State) (n : Nat) : Nat × State :=
  if n % 2 = 0 then (n / 2, s)
  else
    let (v, s) := freeBits s
    (n / 2 + b1 (v.getLsbD 0), s)

/-- The median of sixteen measurements (R293): the mean of the two in the middle, to the nearest tick. -/
def median (s : State) (l : List Nat) : Nat × State :=
  let o := l.mergeSort (fun a b => a ≤ b)
  halve s ((o[7]?).getD 0 + (o[8]?).getD 0)

/-- The sparing of a port's lane over, be it that ranging has run again or that the port is down (R290, R350). -/
def sparingEnds (s : State) (p : Nat) : State :=
  if (getPort s p).recovering then waitingResets (recoveryEnds (modPort s p (fun x => { x with recovering := false }))) else s
/-- The sparing of a port's lane begun (R290, R350). -/
def sparingStarts (s : State) (p : Nat) : State :=
  if (getPort s p).recovering then s else recoveryStarts (modPort s p (fun x => { x with recovering := true }))

/-- RANGING_ANSWER (R287, R293, R294): one measurement; the sixteenth sets DELAY, and the port carries flits. -/
def execRangingAnswer (at_ : BlockAt) (seq : BitVec 4) (t1 t2 t3 t4 : W64) (s : State) :
    Host.Outcome State Fault Refusal :=
  let p := at_.port.val
  let x := getPort s p
  .next (if !at_.crcOk || !portHere s p || !x.aligned || (mapFind x.ranging seq.toNat).isNone then s
    else
      let (d, s) := halve s ((t4 - t1) - (t3 - t2)).toNat
      let l := d :: x.measures
      let s := putPort s p { x with ranging := mapDrop x.ranging seq.toNat, measures := l }
      if l.length < 16 then s
      else
        let (m, s) := median s l
        sparingEnds (modPort s p (fun x => { x with
          delay := BitVec.ofNat 16 m, delayValid := true, up := !x.failed && x.sparing.isNone })) p)

/-- RANGING_TIMEOUT (R287): the request is sent again with the same SEQ, and takes its T1 as it leaves. -/
def execRangingTimeout (port : Fin 12) (seq : BitVec 4) (s : State) : Host.Outcome State Fault Refusal :=
  let p := port.val
  let x := getPort s p
  .next (if portHere s p && x.aligned && (mapFind x.ranging seq.toNat).isSome then
      putPort s p { x with ctl := x.ctl ++ [.rangeReq seq 0] }
    else s)

/-- A lane spared or a port down recorded (R294, R359). -/
def logPort (s : State) (p lane : Nat) (down : Bool) : State :=
  logUnit s 0x11 (p / 3) 4 p (pack [(b1 down, 8), (lane, 4), (p, 0)])

/-- A port down for a second failed lane or a failed spare (R294, R350). -/
def failPort (s : State) (p lane : Nat) : State :=
  let s := sparingStarts s p
  let s := modPort s p (fun x => { x with
    laneFail := x.laneFail ||| BitVec.ofNat 5 (2 ^ lane), up := false, failed := true, aligned := false, sparing := none })
  let s := { s with spine := { s.spine with portFailed := s.spine.portFailed ||| BitVec.ofNat 12 (2 ^ p) } }
  sparingEnds (logPort s p lane true) p

/-- Whether a failed lane is a second one, or the spare (R294). -/
def secondLane (x : Port) (lane : Fin 5) : Bool := lane.val = 4 || x.laneFail &&& ~~~(BitVec.ofNat 5 (2 ^ lane.val)) != 0

/-- LANE_FAILURE (R287, R294): the first failed lane is reported to the partner for sparing, in every control unit until it
acknowledges; a second one, or a failed spare, takes the port down. -/
def execLaneFailure (port : Fin 12) (lane : Fin 5) (errorCount : Bool) (s : State) : Host.Outcome State Fault Refusal :=
  let p := port.val
  let x := getPort s p
  .next (if !portHere s p || !x.aligned || x.failed || x.laneFail.getLsbD lane.val then s
    else if secondLane x lane then failPort s p lane.val
    else modPort (sparingStarts s p) p (fun x => { x with
      laneFail := x.laneFail ||| BitVec.ofNat 5 (2 ^ lane.val), up := false, spareSeq := x.spareSeq + 1
      sparing := some (lane, errorCount, x.spareSeq + 1) }))

/-- A lane's logical lane moved to physical lane 4 (R294), after which ranging runs again. -/
def spareLane (s : State) (p : Nat) (lane : Fin 5) : State :=
  let s := modPort s p (fun x => { x with
    spared := BitVec.ofNat 3 lane.val, laneFail := x.laneFail ||| BitVec.ofNat 5 (2 ^ lane.val), sparing := none })
  logPort (startRanging s p) p lane.val false

/-- SPARING_BLOCK (R287, R294): acknowledged once, and the lane switched at this end too; a second lane, or the spare, takes
the port down. -/
def execSparingBlock (at_ : BlockAt) (lane : Fin 5) (errorCount : Bool) (seq : W16) (s : State) :
    Host.Outcome State Fault Refusal :=
  let p := at_.port.val
  let x := getPort s p
  let _ := errorCount
  .next (if !at_.crcOk || !portHere s p || !x.aligned || x.ackedSpare.map (·.2) = some seq then s
    else if secondLane x lane then failPort s p lane.val
    else
      let s := sparingStarts s p
      spareLane (modPort s p (fun x => { x with
        ackedSpare := some (lane, seq), ctl := queueCtl x.ctl (.sparingAck lane seq) })) p lane)

/-- SPARING_ACK (R287, R294). -/
def execSparingAck (at_ : BlockAt) (lane : Fin 5) (seq : W16) (s : State) : Host.Outcome State Fault Refusal :=
  let p := at_.port.val
  .next (if at_.crcOk && portHere s p && (getPort s p).sparing.any (fun x => x.1 == lane && x.2.2 == seq) then spareLane s p lane
    else s)

/-- ECHO_RELAY (R288): an echo that arrives on a relay port leaves on the ECHO port. -/
def execEchoRelay (at_ : BlockAt) (echo : Echo) (s : State) : Host.Outcome State Fault Refusal :=
  let x := getPort s at_.port.val
  .next (if at_.crcOk && booted s && x.cfg.getLsbD 0 && x.cfg.getLsbD 2 then
      sendCtl s (fun _ q => q.cfg.getLsbD 3) (fun _ => .echo echo)
    else s)

/-- A management packet discarded and logged (R336). -/
def dropPacket (s : State) (pkt : MgmtPacket) : State := logSpine s 0x0C (pkt.source.zeroExtend 32)

/-- The port that LINK_ROUTE names for a device number (R322). -/
def routePort (s : State) (dev : BitVec 12) : Option Nat :=
  let b := ((s.aux.routes[dev.toNat / 2]?).getD 0xFF).toNat
  let n := if dev.toNat % 2 = 0 then b % 16 else b / 16
  if n < 12 then some n else none

/-- A packet for this device or another acted on (R289, R336). -/
def takePacket (s : State) (pkt : MgmtPacket) : State :=
  if pkt.dest = s.aux.devnum then
    if pkt.type = 0 then { s with spine := { s.spine with mctpIn := s.spine.mctpIn ++ [pkt.content.take 240] } }
    else if pkt.type = 1 ∧ pkt.source = s.aux.masterDev then fenceUnit s
    else dropPacket s pkt
  else match routePort s pkt.dest with
    | none => dropPacket s pkt
    | some q =>
      if pkt.ttl = 0 then dropPacket s pkt
      else
        let m := { pkt with ttl := pkt.ttl - 1 }
        pumpMgmt (modPort s q (fun x => { x with mgmtQ := x.mgmtQ ++ [m], sent := x.sent ++ [⟨m, 0⟩] })) q

/-- MANAGEMENT_PACKET (R287, R336): acknowledged when it arrives intact; one acknowledged within the last 100 ms is
acknowledged again and discarded. -/
def execManagementPacket (port : Fin 12) (pkt : MgmtPacket) (s : State) : Host.Outcome State Fault Refusal :=
  let p := port.val
  let ack : MgmtAck := ⟨pkt.source, pkt.seq⟩
  let now := portTick s p
  let recent (e : MgmtAck × W64) : Bool := (now - e.2).toNat < 160000000
  .next (if !serving s || !portUp s p then s
    else if !pkt.crcOk then
      dropPacket (modPort s p (fun x => { x with ctl := queueCtl x.ctl (.credit 1 []) })) pkt
    else
      let known := (getPort s p).seen.any (fun e => e.1 == ack && recent e)
      let s := modPort s p (fun x => { x with
        ctl := queueCtl x.ctl (.credit 1 [ack])
        seen := x.seen.filter (fun e => recent e && (known || e.1 != ack)) ++ (if known then [] else [(ack, now)]) })
      if known then s else takePacket s pkt)

/-- MANAGEMENT_RESEND_TIMEOUT (R292, R336): an unacknowledged packet is sent again, at most three times. -/
def execManagementResendTimeout (port : Fin 12) (seq : W16) (s : State) : Host.Outcome State Fault Refusal :=
  let p := port.val
  let x := getPort s p
  .next (match x.sent.find? (fun m => m.pkt.seq == seq) with
    | none => s
    | some m =>
      if !serving s then s
      else if m.resends < 3 then
        pumpMgmt (putPort s p { x with
          sent := x.sent.map (fun k => if k = m then { k with resends := k.resends + 1 } else k)
          mgmtQ := x.mgmtQ ++ [m.pkt] }) p
      else putPort s p { x with sent := x.sent.filter (fun k => k != m) })

/-- MANAGEMENT_CREDIT_BLOCK (R287). -/
def execManagementCreditBlock (at_ : BlockAt) (credits : BitVec 5) (acks : List MgmtAck) (s : State) :
    Host.Outcome State Fault Refusal :=
  let p := at_.port.val
  .next (if at_.crcOk && portHere s p && (getPort s p).aligned then
      pumpMgmt (modPort s p (fun x => { x with
        credits := Nat.min 16 (x.credits + credits.toNat)
        sent := x.sent.filter (fun m => !(acks.take 8).any (fun a => a.source = m.pkt.source && a.seq = m.pkt.seq)) })) p
    else s)

end Sys2Proof.Machine
end

