-- ==== Sys2Proof/Machine/Resets.lean ====
section
/-! DEFINITION. Debug sessions opened and closed (R374, R376), the resets from a function to the module (R384 to R386),
power-on and power-off (R340, R387, R392), the boot (R365, R366, R387, R388) and the end of a Slate's self-test. -/

namespace Sys2Proof.Machine

/-- Every hand that the debugger halted in a bead that satisfies p, released (R376, R377). -/
def releaseHalted (s : State) (p : Bead → Bool) : State :=
  (s.beads.filter (fun b => p b.2)).foldl (fun s b => (List.range 4).foldl (fun s h => releaseHand s b.1 h) s) s

/-- The open session closed, if there is one (R374, R377). -/
def closeSession (s : State) : State :=
  match s.sec.session with
  | none => s
  | some _ =>
    let s := releaseHalted s (fun _ => true)
    postWide { s with sec := { s.sec with session := none } } 0x08 []

/-- The standing Control session of Blank and Open (R374). -/
def standing (x : Lifecycle) : Option Session :=
  match x with
  | .blank | .openLc => some ⟨0, 2, false⟩
  | _ => none

/-- A session granted (R374): it takes the next number. -/
def openSession (s : State) (level : BitVec 2) (jtag : Bool) : State :=
  let x := s.sec
  postWide { s with sec := { x with
    session := some ⟨x.nextSession, level, jtag⟩
    nextSession := x.nextSession + 1
    opened := if x.opened = BitVec.allOnes 16 then x.opened else x.opened + 1
    highest := if x.highest < level then level else x.highest } } 0x08 []

/-- A function's wells and PCI Express state after a function-level reset (R334, R386): its ring's counts live in the
ledger head, its contexts and its aperture context remain, and so does the AER status (log 178). -/
def resetFn (x : Fn) : Fn :=
  { ring := x.ring, aperture := x.aperture, raised := x.raised, out := x.out, read := x.read, aer := x.aer }

/-- A command of a function abandoned without a response (R334). -/
def abandonCmd (s : State) (f : Nat) : State :=
  { s with
    pwr := { s.pwr with waiter := match s.pwr.waiter with
      | some (.well g, _) => if g.val = f then none else s.pwr.waiter
      | w => w }
    spine := { s.spine with journal := s.spine.journal.filter (fun j => j.1.val != f) } }

/-- A function-level reset (R334, R383, R384). -/
def resetFunction (s : State) (f : Nat) : State :=
  let s := match s.sec.session with
    | some d => if f = 0 && !d.jtag && d.number != 0 then closeSession s else s
    | none => s
  modFn (abandonCmd s f) f resetFn

/-- A power transition abandoned: the device ends the reset in Run (R385). -/
def toRun (p : Pwr) : Pwr := { p with st := .run, target := .run, moving := false, waiter := none }

/-- A device warm reset (R383 to R385). A failed Slate stays in the Slate reset that holds it (R352). -/
def warmReset (s : State) (kind : BitVec 3) : State :=
  let s := closeSession s
  let x := s.spine
  let s := { s with
    fns := s.fns.map (fun f => (f.1, resetFn f.2)), vfOn := false, pwr := toRun s.pwr
    heldAcc := []
    spine := { x with
      warms := if x.warms = BitVec.allOnes 16 then x.warms else x.warms + 1, resetKind := kind, journal := [] } }
  let ts := (presentSlates s).filter (fun t => !(getSlate s t).failed)
  if s.spine.recovering then
    let m := (ts.map (fun t => BitVec.ofNat 4 (2 ^ t))).foldl (· ||| ·) (0 : BitVec 4)
    { s with spine := { s.spine with waits := s.spine.waits ||| m } }
  else ts.foldl (fun s t => beginSlateReset s t false) s

/-- The customer's fields as SEAL burnt them, where it has (R361). -/
def takeBurnt (x : Sec) : Sec :=
  match x.burnt with
  | some (k, d, c) => { x with dbgKey := k, ppDigest := d, fuseCfg := c, burnt := none }
  | none => x

/-- The security block after a module reset (R360, R383, R386). -/
def secReset (x : Sec) : Sec :=
  let x := takeBurnt x
  { x with
    lifecycle := x.pendingLc.getD x.lifecycle, pendingLc := none, session := none, scrub := none, fails := 0
    blocked := false, denyCount := 0, nonceWells := none, nonceJtag := none, cdi1 := [], aliasKey := [], aliasCert := [] }

/-- A module reset (R384 to R386, R390): everything but HBM, the ledger, contexts, books, fuses and flash returns to its
reset value or is zeroed. -/
def moduleReset (s : State) (kind : BitVec 3) : State :=
  let s := (List.range 4).foldl (fun s t => zeroSlate ((slateJobs s t).foldl returnEntry s) t) s
  let x := s.spine
  { s with
    beads := [], brushes := [], slates := [], ports := [], fns := s.fns.map (fun f => (f.1, resetFn f.2)), vfOn := false
    stroke := {}, aux := {}, heldAcc := []
    spine := { presence := x.presence, part := x.part, failovers := x.failovers, orphan := x.orphan,
               resetKind := kind, lostSlates := x.lostSlates }
    ledger := { s.ledger with ready := false, soft := false, rollfwd := false, cfg := 3 }
    sec := secReset s.sec, pwr := {}, spdm := []
    pins := { rails := s.pins.rails, pwrgd := s.pins.pwrgd, thermTripN := s.pins.thermTripN } }

/-- Every rail switched off (R378, R392). -/
def railsOff (s : State) : State :=
  { s with
    heldAcc := []
    sec := { s.sec with session := none, scrub := none, nonceWells := none, nonceJtag := none }, tap := {}
    pins := { s.pins with rails := false, pwrgd := false, inReset := true, booted := false, bootFailed := false, alertN := true
                          lockupA := false, lockupB := false } }

/-- The security block after power-on: fuses and flash are kept (R360, R386). -/
def secPowerOn (x : Sec) : Sec :=
  let x := takeBurnt x
  { lifecycle := x.pendingLc.getD x.lifecycle, romVer := x.romVer, minSvn := x.minSvn, keyRev := x.keyRev
    dbgKey := x.dbgKey, ppDigest := x.ppDigest, fuseCfg := x.fuseCfg, serial := x.serial, slotA := x.slotA
    slotB := x.slotB, selectB := x.selectB, staged := x.staged, uds := x.uds, deviceCert := x.deviceCert }

/-- POWER_ON (R340, R386, R387): the rails come up, HBM is lost, the ledger is empty and the epoch rises. While a
thermal trip is latched the rails stay off (R390). -/
def execPowerOn (s : State) : Host.Outcome State Fault Refusal :=
  .next (if s.pins.rails || !s.pins.thermTripN then s
    else { State.reset with
      ledger := { epoch := s.ledger.epoch + 1 }, sec := secPowerOn s.sec
      spine := { presence := s.spine.presence, part := s.spine.part }, answers := s.answers, freeCtr := s.freeCtr
      pending := s.pending })

/-- POWER_OFF (R390 to R392): PWR_EN low; THERMTRIP_N is released. -/
def execPowerOff (s : State) : Host.Outcome State Fault Refusal :=
  let s := railsOff s
  .next { s with pins := { s.pins with thermTripN := true } }

/-- THERMAL_TRIP (R395). -/
def execThermalTrip (s : State) : Host.Outcome State Fault Refusal :=
  let t := railsOff s
  .next (if s.pins.rails then { t with pins := { t.pins with thermTripN := false } } else s)

/-- MODULE_RESET (R384): PERST_N or RESET_N low. -/
def execModuleReset (resetN : Bool) (s : State) : Host.Outcome State Fault Refusal :=
  .next (if s.pins.rails then moduleReset s (if resetN then 2 else 1) else s)

/-- HOT_RESET (R384). -/
def execHotReset (s : State) : Host.Outcome State Fault Refusal :=
  .next (if deviceUp s then warmReset s 3 else s)

/-- LINK_DOWN (R384). -/
def execLinkDown (s : State) : Host.Outcome State Fault Refusal :=
  .next (if deviceUp s then warmReset s 4 else s)

/-- FUNCTION_LEVEL_RESET (R334, R384). -/
def execFunctionLevelReset (fn : Fin 16) (s : State) : Host.Outcome State Fault Refusal :=
  .next (if deviceUp s then resetFunction s fn.val else s)

/-- VF_ENABLE_CLEAR (R334). -/
def execVfEnableClear (s : State) : Host.Outcome State Fault Refusal :=
  .next (if deviceUp s then
      { (List.range 15).foldl (fun s k => resetFunction s (k + 1)) s with vfOn := false }
    else s)

/-- The fields of a firmware image header (R365). -/
def fwCtrl (img : List W8) : Nat := leAt img 4 4
@[inherit_doc fwCtrl] def fwKey (img : List W8) : Nat := fld (fwCtrl img) 9 8
@[inherit_doc fwCtrl] def fwSvn (img : List W8) : Nat := fld (fwCtrl img) 23 16
@[inherit_doc fwCtrl] def fwRevoke (img : List W8) : Nat := fld (fwCtrl img) 27 24
@[inherit_doc fwCtrl] def fwBump (img : List W8) : Bool := bitAt (fwCtrl img) 28

/-- The first item of R365 that an image fails, 1 to 6 in the order of the list. -/
def fwFault (x : Sec) (f : FwSlot) : Option Nat :=
  if leAt f.image 0 4 != 0x4D524946 || fld (fwCtrl f.image) 7 0 != 1 then some 1
  else if 16776960 < leAt f.image 8 4 then some 2
  else if !f.digestOk then some 3
  else if x.keyRev.getLsbD (fwKey f.image) then some 4
  else if fwSvn f.image < x.minSvn.toNat then some 5
  else if !f.sigOk then some 6
  else none

/-- The image slots: false is A. -/
def fwSlot (x : Sec) (b : Bool) : FwSlot := if b then x.slotB else x.slotA

/-- The slot that the boot ROM boots (R366). -/
def bootSlot (x : Sec) : Option Bool :=
  if (fwFault x (fwSlot x x.selectB)).isNone then some x.selectB
  else if (fwFault x (fwSlot x (!x.selectB))).isNone then some (!x.selectB)
  else none

/-- The ruling store of a Slate rewritten from firmware's copies of the loaded books (R378, R387). -/
def rewriteStore (s : State) (t : Nat) : State :=
  s.books.foldl (fun s b =>
    let l : SMap Frame := (mapFind b.2.rulings t).getD []
    modPage s t (fun p => { p with frames := l.foldl (fun m f => mapPut m f.1 f.2) p.frames })) s

/-- The places where the stacks of the ledger are chosen (R341): the first stacks of the first two present Slates. -/
def placeLedger (s : State) : State :=
  let l := s.ledger
  if l.primary != l.mirror then s
  else match presentSlates s with
    | t :: u :: _ => { s with ledger := { l with
        primary := BitVec.ofNat 4 (2 * t), mirror := BitVec.ofNat 4 (2 * u), fwBase := 2 * t * stackPages } }
    | t :: _ => { s with ledger := { l with
        primary := BitVec.ofNat 4 (2 * t), mirror := 0xF, fwBase := 2 * t * stackPages } }
    | [] => s

/-- n bytes of the SHAKE256 output of a message (R363). -/
def shake256 (m : List W8) (n : Nat) : List W8 := (List.range n).map (Config.shake256Byte m)

/-- The identity that the boot ROM derives for an image's header, SVN, KEYIDX and the lifecycle state as one byte each, and
locks the fuse port behind (R363; log 180). After Factory entry
the erased secrets stay erased until power-on (R364). -/
def deriveIdentity (x : Sec) (img : List W8) : Sec :=
  let x := { x with fuseLock := true }
  if x.keysErased then x
  else
    let deviceId := shake256 ([0x64, 0x65, 0x76, 0x69, 0x64] ++ x.uds) 57
    let cdi := shake256 ([0x63, 0x64, 0x69] ++ x.uds ++ (img.drop 0x10).take 64
      ++ [BitVec.ofNat 8 (fwSvn img), BitVec.ofNat 8 (fwKey img), BitVec.ofNat 8 (lifeCode x.lifecycle)]) 64
    let key := shake256 ([0x61, 0x6C, 0x69, 0x61, 0x73] ++ cdi) 57
    { x with cdi1 := cdi, aliasKey := key, aliasCert := Config.certificate deviceId key }

/-- The vendor's provisioning flow of the boot ROM in Blank (R360): it burns a UDS and a serial of free bytes, and the coming
state is Open. Whether the vendor runs it at a boot is a free value (log 181). -/
def provision (s : State) : State :=
  if s.sec.lifecycle != .blank || s.sec.pendingLc.isSome then s
  else
    let (v, s) := freeBits s
    let (uds, s) := freeBytes s 64
    let (serial, s) := freeBits s
    if v.getLsbD 0 then { s with sec := { s.sec with uds := uds, serial := serial, pendingLc := some .openLc } } else s

/-- The boot from an image slot (R366, R387): the firmware starts, stacks are trained, Slates pass their self-test, the
ledger is recovered and the ruling stores are rewritten. -/
def bootFrom (s : State) (b : Bool) : State :=
  let s := provision s
  let x := deriveIdentity s.sec (fwSlot s.sec b).image
  let img := (fwSlot x b).image
  let was := s.spine.orphan
  let s := placeLedger { s with
    sec := { x with imageB := b, fallback := b != x.selectB, svn := BitVec.ofNat 6 (fwSvn img)
                    version := BitVec.ofNat 32 (leAt img 0xC 4), keyIdx := BitVec.ofNat 2 (fwKey img) }
    spine := { s.spine with orphan := false }
    pins := { s.pins with inReset := false, booted := true } }
  let s := { s with
    ledger := { s.ledger with ready := true }, spine := { s.spine with exposed := exposedNow s } }
  let s := (presentSlates s).foldl rewriteStore s
  setAlert (if was then logSpine s 0x15 0 else s)

/-- RESET_RELEASE (R381, R383, R387, R388): the boot ROM boots an image, or waits for one. -/
def execResetRelease (s : State) : Host.Outcome State Fault Refusal :=
  .next (if !s.pins.rails || !s.pins.pwrgd || !s.pins.inReset then s
    else
      let s := { s with sec := { s.sec with session := standing s.sec.lifecycle } }
      match bootSlot s.sec with
      | some b => bootFrom s b
      | none => setAlert { s with pins := { s.pins with inReset := false, bootFailed := true } })

/-- SLATE_SELF_TEST_END (R352, R384, R386): a Slate that passes works again; one that fails is failed, for a reason that
is a free value. -/
def execSlateSelfTestEnd (sl : Fin 4) (pass : Bool) (s : State) : Host.Outcome State Fault Refusal :=
  let t := sl.val
  .next (if !booted s || !(getSlate s t).selfTest then s
    else if pass then
      let s := modSlate s t (fun x => { x with inReset := false, selfTest := false, failed := false })
      rewriteStore { s with spine := { s.spine with
        slateFailed := s.spine.slateFailed &&& ~~~(BitVec.ofNat 4 (2 ^ t)) } } t
    else
      let (v, s) := freeBits s
      waitingResets (failSlate s t (BitVec.ofNat 32 (v.toNat % 4))))

end Sys2Proof.Machine
end

