-- ==== Sys2Proof/Machine/Well.lean ====
section
/-! DEFINITION. How a command is served (R317 to R321, R335, R370): the well's doorbell, the checks of a request, and the
response posted to whoever sent it. -/

namespace Sys2Proof.Machine

/-- A response before its header (R319): status, DETAIL and the payload's words from offset 0x10 on. -/
structure Rsp where
  status : Nat := 0
  detail : W32 := 0
  payload : List W32 := []
deriving DecidableEq, Repr

/-- The status codes of R320 that commands answer with. -/
def stBadOpcode : Nat := 1
@[inherit_doc stBadOpcode] def stBadArg : Nat := 2
@[inherit_doc stBadOpcode] def stDenied : Nat := 3
@[inherit_doc stBadOpcode] def stNoResource : Nat := 4
@[inherit_doc stBadOpcode] def stBusy : Nat := 5
@[inherit_doc stBadOpcode] def stNotFound : Nat := 6
@[inherit_doc stBadOpcode] def stRejected : Nat := 7
@[inherit_doc stBadOpcode] def stState : Nat := 8
@[inherit_doc stBadOpcode] def stAuthFail : Nat := 9
@[inherit_doc stBadOpcode] def stBlocked : Nat := 10

/-- The words of a response message (R319). -/
def rspWords (op : Nat) (tag : W32) (r : Rsp) : List W32 :=
  [pack [(r.status, 16), (op, 0)], tag, BitVec.ofNat 32 (4 * r.payload.length), r.detail] ++ r.payload

/-- A response posted (R318, R335, R370): in a well it sets DONE, clears BUSY and raises vector 0. -/
def postRsp (s : State) (via : Via) (op : Nat) (tag : W32) (r : Rsp) : State :=
  let ws := rspWords op tag r
  match via with
  | .well f => modFn s f.val (fun x =>
      raiseVector { x with rsp := ws.zipIdx.map (fun p => (p.2, p.1)), busy := false, done := true } 0)
  | .mctp t =>
    let k := match t with | .i3c => 0 | .vdm => 1 | .doe => 2
    { s with answers := { s.answers with mctp := mapPut s.answers.mctp k ws } }
  | .mbox => { s with tap := { s.tap with rsp := ws } }

/-- What a command's meaning makes of the state, and the response, if it is posted now. -/
abbrev Cmd := State → State × Option Rsp

/-- An answer of OK. -/
def answer (s : State) (payload : List W32) : State × Option Rsp := (s, some { payload := payload })
/-- An answer with a status other than OK. -/
def refuse (s : State) (status : Nat) : State × Option Rsp := (s, some { status := status })

/-- The checks of a command: each a failure, its status and its DETAIL. Where several fail with different answers, which
one is given is a free choice; with none the command goes on. -/
def checks (l : List (Bool × Nat × Nat)) (go : Cmd) : Cmd := fun s =>
  match ((l.filter (·.1)).map (·.2)).eraseDups with
  | [] => go s
  | [e] => (s, some { status := e.1, detail := BitVec.ofNat 32 e.2 })
  | es =>
    let (v, s) := freeBits s
    let e := (es[v.toNat % es.length]?).getD (2, 0)
    (s, some { status := e.1, detail := BitVec.ofNat 32 e.2 })

/-- Argument word n of a request (offset 0x10 + 4 n). -/
def arg (q : CmdReq) (n : Nat) : Nat := ((q.args[n]?).getD 0).toNat
/-- The 48-bit argument at argument word n. -/
def arg48 (q : CmdReq) (n : Nat) : Nat := arg q n + fld (arg q (n + 1)) 15 0 * 2 ^ 32
/-- The 64-bit argument at argument word n. -/
def arg64 (q : CmdReq) (n : Nat) : Nat := arg q n + arg q (n + 1) * 2 ^ 32

/-- The argument bytes that a request's header gives (R319). -/
def reqUsed (q : CmdReq) : W32 := q.hdr.used.getD (BitVec.ofNat 32 (4 * q.args.length))

/-- Whether a request's header, or a byte beyond its argument bytes, is not as R319 asks. -/
def hdrBad (q : CmdReq) : Bool :=
  let n := (reqUsed q).toNat
  q.hdr.high != 0 || q.hdr.spare != 0 || 240 < n
    || q.args.zipIdx.any (fun p => (List.range 4).any (fun k => n ≤ 4 * p.2 + k && fld p.1.toNat (8 * k + 7) (8 * k) != 0))

/-- Whether a request has a bit outside what its command defines: one mask for each argument word, the rest zero (R319,
R320). -/
def argsBad (q : CmdReq) (masks : List Nat) : Bool :=
  hdrBad q || q.args.zipIdx.any (fun p => p.1 &&& ~~~(BitVec.ofNat 32 ((masks[p.2]?).getD 0)) != 0)

/-- The mask of a 48-bit argument's second word. -/
def hi48 : Nat := 0xFFFF
/-- The mask of a whole word. -/
def whole : Nat := 0xFFFFFFFF

/-- A command run for a requester (R320): an unknown VERSION answers BAD_OPCODE. -/
def runCmd (via : Via) (op : Nat) (q : CmdReq) (go : Cmd) (s : State) : State :=
  let (s, r) := if q.version != 1 then refuse s stBadOpcode else go s
  match r with
  | some r => postRsp s via op q.tag r
  | none => s

/-- The request of a command as its words (R319). -/
def reqWords (op : Nat) (q : CmdReq) : List W32 :=
  [pack [(q.hdr.high.toNat, 24), (q.version.toNat, 16), (op, 0)], q.tag, reqUsed q, q.hdr.spare] ++ q.args

/-- Whether commands of a well are ignored (R334, R388): the device is off, in reset, Orphan or without firmware. -/
def wellDeaf (s : State) : Bool := !deviceUp s || s.spine.orphan || s.pins.bootFailed

/-- A command of a function's command well (R318): the request is written and its doorbell rung. While BUSY both are
discarded and OVERRUN is set. -/
def serveWell (op : Nat) (q : CmdReq) (go : Cmd) (s : State) : State :=
  let f := q.fn.val
  if wellDeaf s then s
  else if (getFn s f).busy then modFn s f (fun x => { x with overrun := true })
  else
    let s := modFn s f (fun x => { x with req := (reqWords op q).zipIdx.map (fun p => (p.2, p.1)), busy := true })
    runCmd (.well q.fn) op q go s

/-- Whether a requester has PF authority (R322, R335, R370). -/
def viaPf : Via → Bool
  | .well f => f.val == 0
  | _ => true

/-- The function that a requester acts for. -/
def viaFn : Via → Fin 16
  | .well f => f
  | _ => 0

/-- The debug commands of the JTAG mailbox (R370) are served while the firmware is and TRST_N is high. -/
def serveMbox (op : Nat) (q : CmdReq) (go : Cmd) (s : State) : State :=
  if !serving s || s.tap.held then s else runCmd .mbox op q go s

/-- The checks of a command that only the PF may issue. -/
def pfOnly (via : Via) : Bool × Nat × Nat := (!viaPf via, stDenied, 0)
/-- The check of a request's reserved fields and values. -/
def argCheck (q : CmdReq) (masks : List Nat) (bad : Bool) : Bool × Nat × Nat := (argsBad q masks || bad, stBadArg, 0)

/-- The checks of a command that names a context (R313, R322). -/
def ctxCheck (s : State) (via : Via) (c : Nat) : Bool × Nat × Nat :=
  match (getCtx s c).owner with
  | none => (true, stNotFound, 0)
  | some f => (f != viaFn via, stDenied, 0)

end Sys2Proof.Machine
end

