-- ==== Sys2Proof/Machine/Power.lean ====
section
/-! DEFINITION. Power states and temperature (R378 to R382, R395), and the command POWER. -/

namespace Sys2Proof.Machine

/-- STROKE_PBUDGET as firmware keeps it (R380, R395). -/
def setBudget (s : State) : State :=
  let d := s.pwr.limit.toNat - s.pwr.reserve.toNat
  modAux s (fun a => { a with pbudget := BitVec.ofNat 16 (if s.pwr.therm = 0 then d else d * 3 / 4) })

/-- Event 0x09 (R333). -/
def powerEvent (s : State) : State :=
  postWide s 0x09 [BitVec.ofNat 32 (pwrCode s.pwr.st), s.pwr.therm.zeroExtend 32]

/-- What Doze loses, found lost on the return to Run (R378, R386). -/
def leaveDoze (s : State) : State :=
  (presentSlates s).foldl (fun s t =>
    let s := zeroRange s (inkBase (6 * t)) (inkBase (6 * t) + 0x6000000)
    let s := (slateBrushes t).foldl (fun s k => modBrush s k (fun b => { b with
      groups := [], cells := [], cellBad := [], queue := [], running := [], outQ := [], inFlight := [] })) s
    ((slateBeads t).filter (beadExists s)).foldl (fun s i =>
      resetBead (modBead s i (fun b => { b with blot := { b.blot with merge := [] } })) i) s) s

/-- The device back in Run (R378, R382): after Standby the standing session reopens. -/
def leavePower (s : State) : State :=
  let old := s.pwr.st
  let s := if old = .doze then leaveDoze s else s
  let s := { s with pwr := { s.pwr with st := .run } }
  let s := if old = .standby && s.sec.session.isNone && (standing s.sec.lifecycle).isSome then
      postWide { s with sec := { s.sec with session := standing s.sec.lifecycle } } 0x08 []
    else s
  if old = .run then s else powerEvent s

/-- A state other than Run entered (R378, R382): Standby closes Control and Factory sessions. -/
def enterPower (s : State) (p : PwrSt) : State :=
  if p = .run then s
  else
    let s := if p = .standby && 2 ≤ debugLevel s then closeSession s else s
    powerEvent { s with pwr := { s.pwr with st := p } }

/-- Whether any hand is Halted by the debugger. -/
def anyHalted (s : State) : Bool := s.beads.any (fun b => (List.range 4).any (fun h => isHalted (handOf b.2 h)))

/-- The reason for which a move to a power state is refused, 0 for none (R379): the first that holds in the order of
the rule. -/
def powerRefusal (s : State) (p : PwrSt) : Nat :=
  let deep := (p = .doze || p = .standby) && s.pwr.st != p
  if s.pwr.moving then 6
  else if s.spine.recovering then 4
  else if debugLevel s = 3 && p != .run then 7
  else if p = .hold && s.pwr.st != .hold && (presentSlates s).any (syncSlate s) then 1
  else if deep && anyHalted s then 3
  else if deep && s.ledger.entries.any (fun e => !e.ended && (e.state == .dispatched || e.state == .running)) then 2
  else if deep && (presentSlates s).any (fun t => (getSlate s t).watch.dumpBusy) then 5
  else 0

/-- The power state of a code (R322). -/
def pwrOf (n : Nat) : Option PwrSt :=
  if n = 0 then some .run else if n = 1 then some .hold else if n = 2 then some .doze else if n = 3 then some .standby else none

/-- The journal of commands in the ledger head without a command that has ended (R321). -/
def unjournal (s : State) (op : W16) : State :=
  { s with spine := { s.spine with journal := s.spine.journal.filter (fun j => j.2 != op) } }

/-- A move begun (R321, R379, R384): it is journaled, and from Standby every present Slate takes a Slate reset. The
response follows at its end. -/
def startMove (s : State) (via : Via) (tag : W32) (p : PwrSt) : State :=
  let s := { s with
    pwr := { s.pwr with moving := true, target := p, waiter := some (via, tag) }
    spine := { s.spine with journal := (viaFn via, 0x70) :: s.spine.journal } }
  if s.pwr.st = .standby then
    ((presentSlates s).filter (fun t => !(getSlate s t).failed)).foldl (fun s t => beginSlateReset s t false) s
  else s

/-- POWER (R322, R379). -/
def cmdPower (via : Via) (q : CmdReq) : Cmd := fun s =>
  checks [pfOnly via, argCheck q [7] (pwrOf (arg q 0)).isNone] (fun s =>
    match pwrOf (arg q 0) with
    | none => refuse s stBadArg
    | some p =>
      let r := powerRefusal s p
      if r != 0 then
        ({ s with pwr := { s.pwr with refuse := BitVec.ofNat 8 r } },
          some { status := stState, detail := BitVec.ofNat 32 r })
      else if s.pwr.st = p then answer s [BitVec.ofNat 32 (pwrCode p)]
      else (startMove s via q.tag p, none)) s

/-- POWER from a command well. -/
def execPower (q : CmdReq) (s : State) : Host.Outcome State Fault Refusal :=
  .next (serveWell 0x70 q (cmdPower (.well q.fn) q) s)

/-- POWER_TRANSITION_DONE (R379): the transition that goes on ends, and its command is answered. -/
def execPowerTransitionDone (s : State) : Host.Outcome State Fault Refusal :=
  .next (if !booted s || !s.pwr.moving || (presentSlates s).any (fun t => (getSlate s t).selfTest) then s
    else
      let p := s.pwr.target
      let w := s.pwr.waiter
      let s := enterPower (leavePower s) p
      let s := unjournal { s with pwr := { s.pwr with moving := false, waiter := none } } 0x70
      match w with
      | some (via, tag) => postRsp s via 0x70 tag { payload := [BitVec.ofNat 32 (pwrCode s.pwr.st)] }
      | none => s)

/-- THERMAL_WARN (R395). -/
def execThermalWarn (s : State) : Host.Outcome State Fault Refusal :=
  .next (if serving s && s.pwr.therm = 0 then powerEvent (setBudget { s with pwr := { s.pwr with therm := 1 } }) else s)

/-- THERMAL_CRITICAL (R395): ALERT_N, the budget of Warn, Hold at once, and every SYNC Slate voided. A device that is not
in Run stays in its state; a move from Run under way ends in Hold, and its command is answered so. -/
def execThermalCritical (s : State) : Host.Outcome State Fault Refusal :=
  .next (if !serving s || s.pwr.therm = 2 then s
    else
      let held := s.pwr.st == .run
      let w := if held && s.pwr.moving then s.pwr.waiter else none
      let s := if (syncSlates s).isEmpty then s else modStroke (voidAll s none) (fun x => { x with heldFlag := true })
      let s := if w.isSome then unjournal s 0x70 else s
      let s := { s with pwr := { s.pwr with
        therm := 2, forced := held, st := if held then .hold else s.pwr.st
        target := if held then .hold else s.pwr.target, moving := s.pwr.moving && !held
        waiter := if w.isSome then none else s.pwr.waiter } }
      let s := match w with
        | some (via, tag) => postRsp s via 0x70 tag { payload := [BitVec.ofNat 32 (pwrCode .hold)] }
        | none => s
      powerEvent (setAlert (setBudget s)))

/-- THERMAL_RECOVER (R395): the level falls by one; a Hold that Critical forced ends. -/
def execThermalRecover (s : State) : Host.Outcome State Fault Refusal :=
  .next (if !serving s || s.pwr.therm = 0 then s
    else
      let back := s.pwr.forced && s.pwr.st == .hold && !s.pwr.moving
      let s := { s with pwr := { s.pwr with
        therm := if s.pwr.therm = 2 then 1 else 0, forced := false
        st := if back then .run else s.pwr.st, target := if back then .run else s.pwr.target } }
      powerEvent (setAlert (setBudget s)))

end Sys2Proof.Machine
end

