-- ==== Sys2Proof/Machine/Contexts.lean ====
section
/-! DEFINITION. The commands about contexts, mappings and jobs: CTX_CREATE, CTX_DESTROY, CTX_ATTR, MAP, UNMAP, CANCEL and
BOOK_UNLOAD (R313 to R316, R322, R323, R330, R375, R376, R384). -/

namespace Sys2Proof.Machine

/-- CTX_CREATE (R313, R322): the lowest free context. -/
def cmdCtxCreate (via : Via) (q : CmdReq) : Cmd := fun s =>
  let a := arg q 0
  checks [argCheck q [0x1F] (4 < fld a 4 2)] (fun s =>
    match (List.range 64).find? (fun c => (getCtx s c).owner.isNone) with
    | none => refuse s stNoResource
    | some c =>
      let s := putCtx s c { owner := some (viaFn via), q := BitVec.ofNat 3 (fld a 4 2), dbgen := bitAt a 1 }
      let s := if bitAt a 0 then
          modFn s (viaFn via).val (fun x => { x with aperture := some ⟨c % 64, Nat.mod_lt _ (by decide)⟩ })
        else s
      answer s [BitVec.ofNat 32 c]) s

/-- CTX_CREATE from a function's command well. -/
def execCtxCreate (q : CmdReq) (s : State) : Host.Outcome State Fault Refusal :=
  .next (serveWell 0x10 q (cmdCtxCreate (.well q.fn) q) s)

/-- The jobs of a context that are not Retired. -/
def ctxJobs (s : State) (c : Nat) : List LEntry :=
  s.ledger.entries.filter (fun e => jobCtx e == c && e.state != .retired)

/-- How a cancelled job counts in the response of CANCEL (R330). -/
inductive Cancelled
  | before | running | committed
deriving DecidableEq, Repr

/-- A job cancelled (R330, R342): one that is Committed or later is unchanged. -/
def cancelJob (s : State) (e : LEntry) : State × Cancelled :=
  let f := e.fn.val
  let n := e.seq.toNat
  if committed e.state then (s, .committed)
  else if e.ended then
    (modEntry s f n (fun x => { x with status := 0x01, outcome := .none, detail := 0 }), .running)
  else
    let s := if e.state == .accepted then s else dropJob s e
    (endEntry s f n 0x01 .none, if e.state == .running then .running else .before)

/-- Jobs cancelled one after another, with how each counts. -/
def cancelJobs (s : State) (l : List LEntry) : State × List Cancelled :=
  l.foldl (fun p e =>
    let (s, k) := cancelJob p.1 e
    (s, p.2 ++ [k])) (s, [])

/-- A mapping removed: HBM pages are zeroed and freed, with their mirrors (R323). -/
def dropEnt (s : State) (e : PageEnt) : State :=
  if e.kind != 0 then s
  else
    let s := dropPage s e.dev
    match e.mirror with
    | some m => dropPage s m
    | none => s

/-- A book unloaded: its segment copies are freed, and its frames with it. -/
def dropBook (s : State) (k : Nat) (b : Book) : State :=
  let s := b.copies.foldl (fun s l => l.2.foldl (fun s p =>
    let s := dropPage s p.1
    match p.2 with | some m => dropPage s m | none => s) s) s
  { s with books := mapDrop s.books k }

/-- Steps 1 and 2 of a context reset at the beads and brushes bound to the context (R384, R386). -/
def unbindCtx (s : State) (c : Nat) : State :=
  let bs := (s.beads.filter (fun b => beadCtx b.2 == some c)).map (·.1)
  let ks := (s.brushes.filter (fun k => brushCtx k.2 == some c)).map (·.1)
  let s := bs.foldl (fun s i =>
    let s := drainMerge s i
    let s := zeroRange s (folioBase i) (folioBase i + 0x200000)
    modBead s i (fun b => { b with
      tiles := [], rowBad := [], nibCells := [], nibGroups := [], nibDrains := []
      blot := { b.blot with ways := [], fills := [] }
      regs := { b.regs with ctx := 0 } })) s
  ks.foldl (fun s k =>
    let s := zeroRange s (reservoirBase k) (reservoirBase k + 0x1000000)
    let s := zeroRange s (inkBase k) (inkBase k + 0x100000)
    modBrush s k (fun b => { b with ctx := 0, groups := [], cells := [], cellBad := [], queue := [], waiting := [] })) s

/-- A context reset (R263, R376, R384): its beads and brushes are unbound and zeroed, its tally blocks leave their
Slates, its pages are freed. -/
def resetCtx (s : State) (c : Nat) : State :=
  let s := releaseHalted s (fun b => beadCtx b == some c)
  let s := (List.range 4).foldl (fun s t => leaveContext s t c) s
  let s := unbindCtx s c
  let s := (s.books.filter (fun b => b.2.ctx.val == c)).foldl (fun s b => dropBook s b.1 b.2) s
  let s := (getCtx s c).pages.foldl (fun s e => dropEnt s e.2) s
  let s := { s with ctxs := mapDrop s.ctxs c }
  { s with fns := s.fns.map (fun f => (f.1, { f.2 with
      aperture := if f.2.aperture.map (·.val) = some c then none else f.2.aperture })) }

/-- CTX_DESTROY (R313, R322, R384). -/
def cmdCtxDestroy (via : Via) (q : CmdReq) : Cmd := fun s =>
  let a := arg q 0
  let c := fld a 5 0
  let force := bitAt a 8
  let (bad, st, d) := ctxCheck s via c
  checks [argCheck q [0x13F] false, (bad && !(st = stDenied && viaPf via && force), st, d),
      (!force && !(ctxJobs s c).isEmpty, stBusy, 0)] (fun s =>
    let (s, _) := cancelJobs s (ctxJobs s c)
    answer (resetCtx s c) []) s

/-- CTX_DESTROY from a function's command well. -/
def execCtxDestroy (q : CmdReq) (s : State) : Host.Outcome State Fault Refusal :=
  .next (serveWell 0x11 q (cmdCtxDestroy (.well q.fn) q) s)

/-- CTX_ATTR (R316, R322, R375, R376). -/
def cmdCtxAttr (via : Via) (q : CmdReq) : Cmd := fun s =>
  let a := arg q 0
  let c := fld a 5 0
  checks [argCheck q [0x33F] false, ctxCheck s via c] (fun s =>
    let s := if (getCtx s c).dbgen && !bitAt a 9 then releaseHalted s (fun b => beadCtx b == some c) else s
    let s := putCtx s c { getCtx s c with dbgen := bitAt a 9 }
    let s := modFn s (viaFn via).val (fun x => { x with
      aperture := if bitAt a 8 then some ⟨c % 64, Nat.mod_lt _ (by decide)⟩
        else if x.aperture.map (·.val) = some c then none else x.aperture })
    answer s []) s

/-- CTX_ATTR from a function's command well. -/
def execCtxAttr (q : CmdReq) (s : State) : Host.Outcome State Fault Refusal :=
  .next (serveWell 0x12 q (cmdCtxAttr (.well q.fn) q) s)

/-- Whether a device page may be mapped under a KIND other than 0: a page of a folio, or of a reservoir or ink buffer, of
a present Slate (R314, R323). -/
def targetOk (s : State) (kind page : Nat) : Bool :=
  match regionOf (page * 0x200000) with
  | .folio i _ => kind == 1 && slatePresent s (i / 256)
  | .reservoir k _ => kind == 2 && slatePresent s (k / 6)
  | .ink k _ => kind == 2 && slatePresent s (k / 6)
  | _ => false

/-- Whether a device address names the start of a folio, reservoir or ink buffer of a present Slate (R323). -/
def targetStart (s : State) (kind a : Nat) : Bool :=
  match regionOf a with
  | .folio i o => kind == 1 && o == 0 && slatePresent s (i / 256)
  | .reservoir k o => kind == 2 && o == 0 && slatePresent s (k / 6)
  | .ink k o => kind == 2 && o == 0 && slatePresent s (k / 6)
  | _ => false

/-- The stack for a Guarded page's mirror (R345): of the first present Slate after the primary's that works. -/
def mirrorPage (s : State) (p : Nat) : Option Nat :=
  let l := goodMirrors s p
  freePage s (l.filter (fun k => k / 2 = l.headD 0 / 2))

/-- An HBM page for a mapping, with its mirror where it is Guarded: from the preferred Slates first (R323, R345), and from the
first stack that has a page whose mirror finds room. -/
def allocPage (s : State) (pref : Nat) (guard : Bool) : Option (Nat × Option Nat × State) :=
  let order := (List.range 4).filter (bitAt pref) ++ (List.range 4).filter (fun t => !bitAt pref t)
  (order.flatMap (fun t => [2 * t, 2 * t + 1])).findSome? (fun k =>
    match freePage s [k] with
    | none => none
    | some p =>
      if !guard then some (p, none, takePage s p)
      else (mirrorPage s p).map (fun m => (p, some m, takePage (takePage s p) m)))

/-- n pages of KIND 0 mapped from virtual page vp on; none where one cannot be had (R323). -/
def mapHbm (e : PageEnt) (c pref : Nat) : Nat → Nat → State → Option State
  | 0, _, s => some s
  | n + 1, vp, s =>
    match allocPage s pref e.guard with
    | none => none
    | some (p, m, s) =>
      let x := getCtx s c
      mapHbm e c pref n (vp + 1) (putCtx s c { x with pages := mapPut x.pages vp { e with dev := p, mirror := m } })

/-- n device pages mapped as they lie (R314). -/
def mapDevice (e : PageEnt) (c : Nat) (n vp : Nat) (s : State) : State :=
  (List.range n).foldl (fun s k =>
    let x := getCtx s c
    putCtx s c { x with pages := mapPut x.pages (vp + k) { e with dev := e.dev + k } }) s

/-- MAP (R314, R322, R323, R334). -/
def cmdMap (via : Via) (q : CmdReq) : Cmd := fun s =>
  let a := arg q 0
  let c := fld a 5 0
  let kind := fld a 10 8
  let vp := arg48 q 2 / 0x200000
  let n := arg q 4
  let dev := arg48 q 6
  let guard := bitAt a 19
  let badArg := 2 < kind || (guard && kind != 0) || arg48 q 2 % 0x200000 != 0 || n = 0 || 65536 < n || 2 ^ 27 < vp + n
    || (getCtx s c).pages.any (fun p => vp ≤ p.1 && p.1 < vp + n)
    || (if kind = 0 then dev != 0 else !targetStart s kind dev
      || !(List.range n).all (fun k => targetOk s kind (dev / 0x200000 + k)))
  checks [argCheck q [0x0F0F073F, 0, whole, hi48, whole, 0, whole, hi48] badArg, ctxCheck s via c,
      (kind = 0 && s.pwr.st != .run, stState, 0)] (fun s =>
    let e : PageEnt := { r := bitAt a 16, w := bitAt a 17, cache := bitAt a 18, guard := guard
                         kind := ⟨kind % 3, Nat.mod_lt _ (by decide)⟩, dev := dev / 0x200000 }
    if kind = 0 then
      match mapHbm e c (fld a 27 24) n vp s with
      | some s => answer s [BitVec.ofNat 32 n]
      | none => refuse s stNoResource
    else answer (mapDevice e c n vp s) [BitVec.ofNat 32 n]) s

/-- MAP from a command well. -/
def execMapPages (q : CmdReq) (s : State) : Host.Outcome State Fault Refusal :=
  .next (serveWell 0x20 q (cmdMap (.well q.fn) q) s)

/-- The virtual ranges that a loaded book refers to (R322, R324): the segment tables, initial orders and schedules of its
pages, and the HBM windows of its rulings' circuits. -/
def bookRanges (b : Book) : List (Nat × Nat) :=
  ((List.range (bookPages b.image)).flatMap (fun n =>
    let o := pageTable b.image + 128 * n
    let at_ (k len : Nat) : List (Nat × Nat) :=
      let v := leAt b.image (o + k) 6
      if len = 0 || v = 0 then [] else [(v, v + len)]
    let orders := leAt b.image (o + 0x34) 4
    at_ 0x28 (16 * leAt b.image (o + 0x30) 2)
      ++ (List.range 6).flatMap (fun k =>
        let m := fld orders (5 * k + 4) (5 * k)
        if m = 0 then [] else
          let v := leAt b.image (o + 0x40) 6 + 1024 * k
          [(v, v + 64 * m)])
      ++ at_ 0x48 (0x40 + 32 * 64 + 16 * fld (leAt b.image (o + 0x50) 4) 8 0)))
    ++ (List.range (bookRulings b.image)).flatMap (fun n =>
      let o := rulingList b.image + 8 * n
      (circuitsOf ((b.image.drop (leAt b.image o 4)).take (leAt b.image (o + 4) 4))).flatMap (fun p =>
        (match tapAt p.2.src with | .hbm _ => [(p.2.sbase, p.2.sbase + p.2.slen)] | _ => [])
          ++ (match tapAt p.2.dst with | .hbm _ => [(p.2.dbase, p.2.dbase + p.2.dlen)] | _ => [])))

/-- UNMAP (R315, R322, R323). -/
def cmdUnmap (via : Via) (q : CmdReq) : Cmd := fun s =>
  let c := fld (arg q 0) 5 0
  let va := arg48 q 2
  let vp := va / 0x200000
  let n := arg q 4
  let range := (va, va + n * 0x200000)
  let busy := s.ledger.entries.any (fun e => jobCtx e == c && (e.state == .dispatched || e.state == .running))
    || s.books.any (fun b => b.2.ctx.val == c && (bookRanges b.2).any (overlaps range))
  checks [argCheck q [0x3F, 0, whole, hi48, whole] (va % 0x200000 != 0 || n = 0 || 2 ^ 27 < vp + n), ctxCheck s via c,
      (busy, stBusy, 0)] (fun s =>
    let x := getCtx s c
    let gone := x.pages.filter (fun p => vp ≤ p.1 && p.1 < vp + n)
    let s := gone.foldl (fun s e => dropEnt s e.2) s
    answer (putCtx s c { x with pages := mapDropWhere x.pages (fun p => vp ≤ p && p < vp + n) }) []) s

/-- UNMAP from a command well. -/
def execUnmapPages (q : CmdReq) (s : State) : Host.Outcome State Fault Refusal :=
  .next (serveWell 0x21 q (cmdUnmap (.well q.fn) q) s)

/-- The checks of a command that names a book (R322). -/
def bookCheck (s : State) (via : Via) (k : Nat) : Bool × Nat × Nat :=
  match mapFind s.books k with
  | none => (true, stNotFound, 0)
  | some b => ((getCtx s b.ctx.val).owner != some (viaFn via), stDenied, 0)

/-- BOOK_UNLOAD (R322). -/
def cmdBookUnload (via : Via) (q : CmdReq) : Cmd := fun s =>
  let k := fld (arg q 0) 15 0
  let busy := s.ledger.entries.any (fun e => jobBook e == k && e.state != .retired)
  checks [argCheck q [hi48] false, bookCheck s via k, (busy, stBusy, 0)] (fun s =>
    match mapFind s.books k with
    | some b => answer (dropBook s k b) []
    | none => refuse s stNotFound) s

/-- BOOK_UNLOAD from a function's command well. -/
def execBookUnload (q : CmdReq) (s : State) : Host.Outcome State Fault Refusal :=
  .next (serveWell 0x31 q (cmdBookUnload (.well q.fn) q) s)

/-- CANCEL (R322, R330). -/
def cmdCancel (via : Via) (q : CmdReq) : Cmd := fun s =>
  let lo := arg48 q 0
  let hi := arg48 q 2
  checks [argCheck q [whole, hi48, whole, hi48] false] (fun s =>
    let l := s.ledger.entries.filter (fun e => e.fn == viaFn via && lo ≤ e.seq.toNat && e.seq.toNat ≤ hi)
    let (s, ks) := cancelJobs s l
    let n (k : Cancelled) : W32 := BitVec.ofNat 32 (ks.filter (· == k)).length
    answer s [n .before, n .running, n .committed]) s

/-- CANCEL from a function's command well. -/
def execCancel (q : CmdReq) (s : State) : Host.Outcome State Fault Refusal :=
  .next (serveWell 0x50 q (cmdCancel (.well q.fn) q) s)

end Sys2Proof.Machine
end

