-- ==== Sys2Proof/Machine/Rings.lean ====
section
/-! DEFINITION. The commands about rings and the ledger (R326, R341, R342), and those that only report: IDENTIFY,
CAPABILITY, LEDGER_QUERY and ERRLOG_READ (R322, R359). -/

namespace Sys2Proof.Machine

/-- A sequence number as two payload words. -/
def seq2 (n : BitVec 48) : List W32 := seqWords n

/-- Whether every page of a range of virtual addresses is mapped in a context. -/
def rangeMapped (s : State) (c va n : Nat) : Bool :=
  (List.range (ceilDiv (va % 0x200000 + n) 0x200000)).all (fun k =>
    (mapFind (getCtx s c).pages (va / 0x200000 + k)).isSome)

/-- A function's rings bound (R326): counts at 0, phases at 1. What the event well lost stays counted, and WELL_SQ_ACC shows the
last sequence that the ring has accepted (log 175). -/
def bindRings (x : Fn) (b : Binding) : Fn :=
  { x with bind := some b, sqTail := 0, sqHead := 0, halt := false, waiting := false, reason := 0, cqHead := 0, cqTail := 0
           eqHead := 0, eqTail := 0, dupOut := [], accShown := x.ring.accepted }

/-- RING_BIND (R322, R326). -/
def cmdRingBind (via : Via) (q : CmdReq) : Cmd := fun s =>
  let a := arg q 0
  let c := fld a 5 0
  let size (hi lo : Nat) : Nat := fld a hi lo
  let sizeBad (n : Nat) : Bool := n < 4 || 12 < n
  let bus (n : Nat) : W64 := BitVec.ofNat 64 (arg64 q n)
  let bad := sizeBad (size 11 8) || sizeBad (size 15 12) || sizeBad (size 19 16) || arg48 q 2 % 4096 != 0
    || [4, 6, 8].any (fun n => arg64 q n % 64 != 0)
  checks [argCheck q [0xFFF3F, 0, whole, hi48, whole, whole, whole, whole, whole, whole] bad, ctxCheck s via c,
      (!rangeMapped s c (arg48 q 2) (64 * 2 ^ size 11 8), stBusy, 0)] (fun s =>
    let f := viaFn via
    let b : Binding := { ctx := ⟨c % 64, Nat.mod_lt _ (by decide)⟩, sqLog := size 11 8, cqLog := size 15 12
                         eqLog := size 19 16, sqVa := BitVec.ofNat 48 (arg48 q 2), cqBus := bus 4, eqBus := bus 6
                         rsbBus := bus 8 }
    let s := modFn s f.val (fun x => bindRings x b)
    let s := { s with ledger := { s.ledger with
      entries := s.ledger.entries.map (fun e => if e.fn = f then { e with record := none } else e) } }
    let r := (getFn s f.val).ring
    answer s ([s.ledger.epoch.zeroExtend 32, 0] ++ seq2 r.next ++ seq2 r.reported)) s

/-- RING_BIND from a function's command well. -/
def execRingBind (q : CmdReq) (s : State) : Host.Outcome State Fault Refusal :=
  .next (serveWell 0x40 q (cmdRingBind (.well q.fn) q) s)

/-- RING_UNBIND (R322, R326). -/
def cmdRingUnbind (via : Via) (q : CmdReq) : Cmd := fun s =>
  let f := (viaFn via).val
  checks [argCheck q [] false, ((getFn s f).bind.isNone, stNotFound, 0)] (fun s =>
    let s := modFn s f (fun x => { x with bind := none, halt := false, waiting := false, reason := 0, dupOut := [] })
    answer s (seq2 (getFn s f).ring.accepted)) s

/-- RING_UNBIND from a function's command well. -/
def execRingUnbind (q : CmdReq) (s : State) : Host.Outcome State Fault Refusal :=
  .next (serveWell 0x41 q (cmdRingUnbind (.well q.fn) q) s)

/-- The ticket of a job (R328). -/
def ticketOf (s : State) (seq : BitVec 48) : List W32 :=
  [seq.truncate 32, pack [(s.ledger.epoch.toNat, 16), (seq.toNat / 2 ^ 32, 0)]]

/-- LEDGER_QUERY (R322). -/
def cmdLedgerQuery (via : Via) (q : CmdReq) : Cmd := fun s =>
  let f := (viaFn via).val
  let e := findEntry s f (arg48 q 0)
  checks [argCheck q [whole, hi48] false, (e.isNone, stNotFound, 0)] (fun s =>
    match e with
    | some e =>
      let r := (getFn s f).ring
      answer s ([pack [(e.status.toNat, 8), (lstateCode e.state, 0)], 0] ++ ticketOf s e.seq ++ seq2 r.accepted
        ++ seq2 r.committed ++ seq2 r.reported)
    | none => refuse s stNotFound) s

/-- LEDGER_QUERY from a function's command well. -/
def execLedgerQuery (q : CmdReq) (s : State) : Host.Outcome State Fault Refusal :=
  .next (serveWell 0x51 q (cmdLedgerQuery (.well q.fn) q) s)

/-- The part number as ASCII, zero-padded to 16 bytes (R322): IHL-40-M, IHL-30-M or IHL-20-M. -/
def partName (s : State) : List W8 :=
  padBytes 16 [0x49, 0x48, 0x4C, 0x2D, BitVec.ofNat 8 (0x30 + fld s.spine.part.toNat 7 4), 0x30, 0x2D, 0x4D]

/-- IDENTIFY (R4, R315, R322). -/
def cmdIdentify (via : Via) (q : CmdReq) : Cmd := fun s =>
  checks [argCheck q [] false] (fun s =>
    let l := s.ledger
    let base := l.fwBase * 0x200000
    answer s (bytesWords 4 (partName s) ++ [
      pack [(debugLevel s, 20), (lifeCode s.sec.lifecycle, 16), ((viaFn via).val, 8), (s.spine.presence.toNat, 0)],
      l.epoch.zeroExtend 32, flag s.sec.imageB 0, s.sec.version, BitVec.ofNat 32 base, BitVec.ofNat 32 (base / 2 ^ 32),
      BitVec.ofNat 32 l.fwPages])) s

/-- IDENTIFY from a function's command well. -/
def execIdentify (q : CmdReq) (s : State) : Host.Outcome State Fault Refusal :=
  .next (serveWell 0x01 q (cmdIdentify (.well q.fn) q) s)

/-- The frames of a Slate that loaded books hold. -/
def usedFrames (s : State) (t : Nat) : List Nat :=
  s.books.flatMap (fun b => ((b.2.frames.find? (fun p => p.1 == t)).map (·.2)).getD [])

/-- The free ruling frames of a Slate, ascending; none of an absent Slate. -/
def freeFrames (s : State) (t : Nat) : List Nat :=
  if slatePresent s t then (List.range 64).filter (fun f => !(usedFrames s t).contains f) else []

/-- CAPABILITY (R322). -/
def cmdCapability (via : Via) (q : CmdReq) : Cmd := fun s =>
  checks [argCheck q [] false] (fun s =>
    let free := ((List.range 64).filter (fun c => (getCtx s c).owner.isNone)).length
    let own := ((List.range 64).filter (fun c => (getCtx s c).owner = some (viaFn via))).length
    answer s ([pack [(own, 16), (free, 0)], pack ((List.range 4).map (fun t => ((freeFrames s t).length, 8 * t)))]
      ++ (List.range 4).map (fun t => BitVec.ofNat 32 (freePages s t))
      ++ [128, 4096, BitVec.ofNat 32 (getFn s (viaFn via).val).bar2Log])) s

/-- CAPABILITY from a function's command well. -/
def execCapability (q : CmdReq) (s : State) : Host.Outcome State Fault Refusal :=
  .next (serveWell 0x02 q (cmdCapability (.well q.fn) q) s)

/-- An error-log record as its eight words (R359). -/
def logWords (r : LogRec) : List W32 :=
  [r.index,
    pack [(r.number.toNat, 28), (r.kind.toNat, 25), (r.site.toNat, 20), (r.rod.toNat, 16), (r.slate.toNat, 12),
      (r.severity.toNat, 8), (r.cause.toNat, 0)],
    r.stamp.truncate 32, (r.stamp >>> 32).truncate 32,
    pack ([(b1 r.seq.isSome, 15), (r.fn.toNat, 8), (b1 r.ctx.isSome, 7), ((r.ctx.getD 0).toNat, 0)]),
    r.detail] ++ seqWords (r.seq.getD 0)

/-- Whether a function may read a record (R322): the PF every one, a VF those that name its contexts or its ring. -/
def mayReadLog (s : State) (via : Via) (r : LogRec) : Bool :=
  viaPf via || (match r.ctx with | some c => (getCtx s c.toNat).owner == some (viaFn via) | none => false)
    || (r.seq.isSome && r.fn.toNat == (viaFn via).val)

/-- ERRLOG_READ (R322, R359): up to as many records from INDEX on as were asked for. -/
def cmdErrlogRead (via : Via) (q : CmdReq) : Cmd := fun s =>
  let first : W32 := BitVec.ofNat 32 (arg q 0)
  let want := arg q 1
  checks [argCheck q [whole, whole] (want = 0 || 7 < want)] (fun s =>
    let next := s.ledger.logIndex
    let span := (next - first).toNat
    let l := if 2 ^ 31 ≤ span then [] else
      (s.ledger.log.filter (fun r => (r.index - first).toNat < span && mayReadLog s via r)).take want
    let after := match l.getLast? with
      | some r => if l.length = want then r.index + 1 else next
      | none => next
    answer s ([after, BitVec.ofNat 32 l.length, 0, 0] ++ l.flatMap logWords)) s

/-- ERRLOG_READ from a function's command well. -/
def execErrlogRead (q : CmdReq) (s : State) : Host.Outcome State Fault Refusal :=
  .next (serveWell 0xC0 q (cmdErrlogRead (.well q.fn) q) s)

end Sys2Proof.Machine
end

