-- ==== Sys2Proof/Machine/Books.lean ====
section
/-! DEFINITION. Books (R324, R325): the checks of a book image, and BOOK_LOAD. -/

namespace Sys2Proof.Machine

/-- Bytes of a context's memory, read at their device addresses page by page; none where a page is not mapped to HBM. -/
def ctxBytes (s : State) (c va n : Nat) : Option (List W8) :=
  let first := va / 0x200000
  let pages := List.range (ceilDiv (va % 0x200000 + n) 0x200000)
  (pages.mapM (fun k =>
    let lo := Nat.max va ((first + k) * 0x200000)
    let hi := Nat.min (va + n) ((first + k + 1) * 0x200000)
    (hbmOf s c lo).map (fun pa => loadBytes s pa (hi - lo)))).map List.flatten

/-- The device address of a range of virtual addresses that lies in HBM without a gap, if it does (R325). -/
def vaRange (s : State) (c va n : Nat) : Option Nat :=
  match hbmOf s c va with
  | none => none
  | some pa =>
    let first := va / 0x200000
    let pages := ceilDiv (va % 0x200000 + n) 0x200000
    if (List.range pages).all (fun k => k = 0 || hbmOf s c ((first + k) * 0x200000) = some (pa / 0x200000 * 0x200000 + k * 0x200000))
    then some pa else none

/-- The device address of the first byte of a circuit's window in HBM whose pages the context may all read, or write, and
that all lie in one stack (R221, R314). -/
def vaWindow (s : State) (c va n : Nat) (write : Bool) : Option Nat :=
  let hbm (a : Nat) : Option Nat := match translate s (some c) a write with
    | some x => if inHbm x.pa then some x.pa else none
    | none => none
  match hbm va with
  | none => none
  | some pa =>
    let pages := ceilDiv (va % 0x200000 + n) 0x200000
    if (List.range pages).all (fun k => k = 0 || (match hbm ((va / 0x200000 + k) * 0x200000) with
      | some q => q / 0x1000000000 == pa / 0x1000000000
      | none => false)) then some pa else none

/-- A fault of a book image: its reason (R325) and the image offset of the structure it lies in. -/
abbrev BookFault := Nat × Nat

/-- A check: the fault where it fails. -/
def need (ok : Bool) (reason at_ : Nat) : Option BookFault := if ok then none else some (reason, at_)

/-- The first fault of a list of checks. -/
def firstFault (l : List (Option BookFault)) : Option BookFault := l.findSome? id

/-- The ruling image n of a book, by its entry of the ruling list: offset and length. -/
def rulingAt (img : List W8) (n : Nat) : Nat × Nat :=
  (leAt img (rulingList img + 8 * n) 4, leAt img (rulingList img + 8 * n + 4) 4)

/-- Header checks (R324, reason 1). -/
def bookHeader (img : List W8) : Option BookFault :=
  let n := img.length
  let r := bookRulings img
  firstFault [
    need (64 ≤ n && leAt img 0 4 = 0x4B4F4F42) 1 0,
    need (leAt img 4 4 = 1) 1 4,
    need (fld (leAt img 8 4) 31 23 = 0 && 1 ≤ r && r ≤ 64) 1 8,
    need (leAt img 0xE 2 = 0) 1 0xC,
    need (pageTable img + 128 * bookPages img ≤ n) 1 0x10,
    need (rulingList img + 8 * r ≤ n && (List.range r).all (fun k => (rulingAt img k).1 + (rulingAt img k).2 ≤ n)) 1 0x14,
    need (entryTable img + 32 * bookEntries img ≤ n) 1 0x18,
    need (leAt img 0x1C 4 = n) 1 0x1C,
    need (crc32 (crcImage img 0x20) = wordAt img 0x20) 1 0x20,
    need (zeroSpan img 0x24 0x40) 1 0x24]

/-- The checks of entry record k (R324; reasons 1 and 9). -/
def bookEntry (img : List W8) (k : Nat) : Option BookFault :=
  let o := entryTable img + 32 * k
  firstFault [
    need (leAt img (o + 2) 2 = 0 && leAt img (o + 4) 4 &&& 0xFFE00007 = 0 && leAt img (o + 8) 4 < 32
      && leAt img (o + 12) 4 < 32 && zeroSpan img (o + 0x10) (o + 0x20)) 1 o,
    need (leAt img o 2 < bookPages img) 9 o]

/-- The checks of page descriptor n on its own (*Page descriptor*; reasons 1 and 9). -/
def bookPage (img : List W8) (n : Nat) : Option BookFault :=
  let o := pageTable img + 128 * n
  let w (k : Nat) : Nat := leAt img (o + k) 4
  let variant (k : Nat) : Nat := leAt img (o + 8 + 2 * k) 2
  firstFault [
    need (fld (w 0) 15 0 = n && fld (w 0) 31 18 = 0 && w 4 < bookRulings img && variant 6 = 0xFFFF && variant 7 = 0xFFFF
      && fld (w 0x18) 30 16 = 0 && fld (w 0x1C) 30 10 = 0 && leAt img (o + 0x26) 2 = 0 && leAt img (o + 0x2E) 2 = 0
      && leAt img (o + 0x32) 2 = 0 && leAt img (o + 0x3E) 2 = 0 && fld (w 0x34) 31 30 = 0
      && (List.range 6).all (fun k => fld (w 0x34) (5 * k + 4) (5 * k) ≤ 16)
      && leAt img (o + 0x46) 2 = 0 && leAt img (o + 0x4E) 2 = 0 && fld (w 0x50) 31 9 = 0
      && zeroSpan img (o + 0x54) (o + 0x80)) 1 o,
    need ((List.range 6).all (fun k => variant k = 0xFFFF || variant k < bookPages img)
      && (!bitAt (w 0x18) 31 || fld (w 0x18) 15 0 < bookPages img)) 9 o]

/-- The segment entries of page n, with SRC as a virtual address (R227); none where the table is not mapped. -/
def bookSegs (s : State) (c : Nat) (img : List W8) (n : Nat) : Option (List Seg) :=
  let o := pageTable img + 128 * n
  let k := leAt img (o + 0x30) 2
  (ctxBytes s c (leAt img (o + 0x28) 6) (16 * k)).map (fun bs => (List.range k).map (fun i =>
    let hi := leAt bs (16 * i + 6) 2
    { src := leAt bs (16 * i) 6, kind := hi % 4, target := leAt bs (16 * i + 11) 1, dst := leAt bs (16 * i + 8) 3
      len := 64 * leAt bs (16 * i + 12) 3 }))

/-- The size of a segment's target. -/
def segRoom (g : Seg) : Nat := match g.kind with | 0 => 0x200000 | 1 => 0x1000000 | _ => 0x100000

/-- The checks of page n's segments (R227; reasons 1 and 8). -/
def segFault (s : State) (c : Nat) (img : List W8) (n : Nat) : Option BookFault :=
  let o := pageTable img + 128 * n
  if leAt img (o + 0x30) 2 = 0 then none
  else match bookSegs s c img n with
    | none => some (8, o + 0x28)
    | some l => firstFault [
      need (l.all (fun g => g.kind ≤ 2 && (g.kind = 0 || g.target ≤ 5) && g.src % 64 = 0 && g.dst % 64 = 0
        && g.dst + g.len ≤ segRoom g && (g.kind != 0 || 0x8000 ≤ g.dst)) && (l.map (·.len)).sum ≤ 0x1000000) 1 (o + 0x28),
      need (l.all (fun g => (ctxBytes s c g.src g.len).isSome)) 8 (o + 0x28)]

/-- An initial order of a book: its page, its brush, its index among the brush's orders of the page, and its words. -/
structure BookOrder where
  page : Nat
  brush : Nat
  index : Nat
  ws : List W32
deriving DecidableEq, Repr

/-- The initial orders of page n (R182, R325), by brush; none where they are not mapped without a gap. -/
def bookOrders (s : State) (c : Nat) (img : List W8) (n : Nat) : Option (List BookOrder) :=
  let o := pageTable img + 128 * n
  let cnt (k : Nat) : Nat := fld (leAt img (o + 0x34) 4) (5 * k + 4) (5 * k)
  match (List.range 6).filter (fun k => cnt k != 0) with
  | [] => some []
  | ks =>
    let last := ks.foldl Nat.max 0
    (vaRange s c (leAt img (o + 0x40) 6) (1024 * last + 64 * cnt last)).map (fun pa =>
      ks.flatMap (fun k => (List.range (cnt k)).map (fun j => ⟨n, k, j, bytesWords 16 (loadBytes s (pa + 1024 * k + 64 * j) 64)⟩)))

/-- Whether an order's operand shapes keep R30, R54 and, for an outer-product order, R194. -/
def orderLoads (ws : List W32) : Bool :=
  (oNoadd ws || (if oMode ws = 2 then mxLength (oBfmt ws) (oCols ws) false
      else mxLength (oAfmt ws) (operandA ws).elems false && mxLength (oWfmt ws) (oRows ws) false))
    && (!oDrn ws || oOfmt ws = 0xF || (mxLength (oOfmt ws) (rowOutputs ws) false && oMode ws != 2))

/-- Whether two WHEN words can name one stroke (R282). -/
def whenMeet (a b : Nat) : Bool :=
  let f (w : Nat) : Nat := fld w 15 0
  let p (w : Nat) : Nat := match fld w 17 16 with | 0 => 0 | 1 => 1 | _ => Nat.max 1 (fld w 31 20)
  let one (x y : Nat) : Bool := f y ≤ f x && (f x - f y) % p y = 0
  if p a = 0 && p b = 0 then f a = f b
  else if p a = 0 then one a b
  else if p b = 0 then one b a
  else ((f a : Int) - f b) % (Nat.gcd (p a) (p b) : Nat) = 0

/-- Whether an event entry keeps R281 and R283, and names a window as R285 asks. -/
def entryLoads (wins : List Window) (e : List Nat) : Bool :=
  let w (k : Nat) : Nat := (e[k]?).getD 0
  let kind := fld (w 2) 3 0
  let per := fld (w 1) 31 20
  let rep := fld (w 1) 17 16
  let win := fld (w 2) 15 8
  fld (w 0) 31 24 = 0 && fld (w 1) 19 18 = 0 && rep != 3 && (if rep = 2 then 1 ≤ per else per = 0)
    && 1 ≤ kind && kind ≤ 5 && fld (w 2) 7 4 = 0 && fld (w 2) 31 26 = 0
    && (match kind with
      | 1 => fld (w 3) 31 16 = 0
      | 3 | 4 => w 3 = 0 && (match wins[win]? with | some x => wValid x && wSend x == (kind == 4) | none => false)
      | 5 => fld (w 3) 31 8 = 0
      | _ => true)

/-- Whether a window descriptor keeps R285 and R298 on Slate t; one that is not valid only has its reserved fields zero. -/
def windowLoads (t : Nat) (x : Window) : Bool :=
  let w (k : Nat) : Nat := wField x k
  fld (w 0) 5 5 = 0 && fld (w 0) 30 14 = 0 && fld (w 1) 31 16 = 0 && fld (w 2) 31 24 = 0
    && (List.range 4).all (fun j =>
      let v := fld (w 3) (8 * j + 7) (8 * j)
      if j < wStreams x then v ≤ 7 else v = 0)
    && fld (w 4) 13 10 = 0 && fld (w 4) 31 16 = 0 && w 5 = 0 && w 6 = 0 && w 7 = 0
    && (!wValid x || (1 ≤ wFlits x && (wSend x || wFwd x || wDlv x) && wPort x / 3 = t))

/-- Whether two entries open windows of one port and direction in overlapping ticks of one stroke (R285). -/
def opensMeet (wins : List Window) (a b : List Nat) : Bool :=
  let w (e : List Nat) (k : Nat) : Nat := (e[k]?).getD 0
  let opens (e : List Nat) : Option Window :=
    if fld (w e 2) 3 0 = 3 || fld (w e 2) 3 0 = 4 then wins[fld (w e 2) 15 8]? else none
  match opens a, opens b with
  | some x, some y =>
    wPort x = wPort y && wSend x == wSend y && overlaps (w a 0, w a 0 + wLen x) (w b 0, w b 0 + wLen y)
      && whenMeet (w a 1) (w b 1)
  | _, _ => false

/-- The checks of page n's stroke schedule on Slate t (R285; reasons 4 and 8). -/
def schedFault (s : State) (c t : Nat) (img : List W8) (n : Nat) : Option BookFault :=
  let o := pageTable img + 128 * n
  let va := leAt img (o + 0x48) 6
  let count := fld (leAt img (o + 0x50) 4) 8 0
  if va = 0 then need (count = 0) 4 (o + 0x48)
  else match ctxBytes s c va 64 with
    | none => some (8, o + 0x48)
    | some h =>
      let nwin := leAt h 12 4
      if 64 < nwin then some (4, o + 0x48)
      else match vaRange s c va (64 + 32 * nwin + 16 * count), ctxBytes s c va (64 + 32 * nwin + 16 * count) with
        | some _, some bs =>
          let wins := (List.range nwin).map (fun k => ({ words := bytesWords 8 (bs.drop (64 + 32 * k)) } : Window))
          let ents := (List.range count).map (fun k =>
            (List.range 4).map (fun j => leAt bs (64 + 32 * nwin + 16 * k + 4 * j) 4))
          let fmt := leAt h 0 4
          let ck := leAt h 8 4
          need (fld fmt 7 0 = 1 && fld fmt 31 10 = 0 && fld ck 15 10 = 0 && fld ck 31 27 = 0 && fld ck 26 16 ≤ 1024
            && zeroSpan h 0x10 0x40 && count ≤ entryCount s t && (!bitAt fmt 9 || bitAt (leAt img o 4) 17)
            && ents.all (entryLoads wins) && wins.all (windowLoads t)
            && ents.zipIdx.all (fun a => ents.zipIdx.all (fun b => b.2 ≤ a.2 || !opensMeet wins a.1 b.1))) 4 (o + 0x48)
        | _, _ => some (8, o + 0x48)

/-- The checks of page n's initial orders (reasons 5 and 8). -/
def orderFault (s : State) (c : Nat) (img : List W8) (n : Nat) : Option BookFault :=
  let o := pageTable img + 128 * n
  match bookOrders s c img n with
  | none => some (8, o + 0x40)
  | some l => need (l.all (fun x => orderLoads x.ws)) 5 (o + 0x40)

/-- The initial orders of every page of a book, page by page. -/
def allOrders (s : State) (c : Nat) (img : List W8) : List BookOrder :=
  (List.range (bookPages img)).flatMap (fun n => (bookOrders s c img n).getD [])

/-- Whether two orders name the same reservoir copy of one matrix in the modes that read it forward and backward (R192):
one weight range of one brush, which the pages of both hold alike. -/
def sameMatrix (s : State) (c : Nat) (img : List W8) (a b : BookOrder) : Bool :=
  let res (n : Nat) : List Seg := ((bookSegs s c img n).getD []).filter (fun g => g.kind == 1 && g.target == a.brush)
  a.brush == b.brush && !oNoadd a.ws && !oNoadd b.ws && oMode a.ws == 0 && oMode b.ws == 1
    && oRbase a.ws == oRbase b.ws && oRsbase a.ws == oRsbase b.ws && oWfmt a.ws == oWfmt b.ws
    && oRows a.ws == oRows b.ws && oCols a.ws == oCols b.ws && (a.page == b.page || res a.page == res b.page)

/-- The format and layout in which an order's group is drained, by itself or by the first later order of its page that drains
the group; none at full width, or where no order of the page does. -/
def drainedAs (l : List BookOrder) (a : BookOrder) : Option (Nat × Bool) :=
  match l.find? (fun x => x.page == a.page && x.brush == a.brush && a.index ≤ x.index && oGroup x.ws == oGroup a.ws && oDrn x.ws) with
  | some x => if oOfmt x.ws = 0xF then none else some (oOfmt x.ws, oOlay x.ws)
  | none => none

/-- Whether the gradient formats of two orders on one matrix keep R194: what each drains is held in the format of the other's
operand A, dX in its layout too. Which of the two is the forward product makes no difference (log 126). -/
def gradientFormats (l : List BookOrder) (a b : BookOrder) : Bool :=
  let fits (x y : BookOrder) : Bool := match drainedAs l x with
    | some (f, lay) => f == oAfmt y.ws && lay == oAlay y.ws
    | none => true
  fits a b && fits b a

/-- R194 over the orders of a book (reason 5), at the page of the order that breaks it. -/
def gradientFault (s : State) (c : Nat) (img : List W8) : Option BookFault :=
  let l := allOrders s c img
  (l.find? (fun b => l.any (fun a => sameMatrix s c img a b && !gradientFormats l a b))).map
    (fun b => (5, pageTable img + 128 * b.page + 0x40))

/-- Whether an HBM range of a context lies whole in Guarded memory. -/
def guardedRange (s : State) (c va n : Nat) : Bool :=
  (List.range (ceilDiv (va % 0x200000 + n) 0x200000)).all (fun k =>
    match mapFind (getCtx s c).pages (va / 0x200000 + k) with
    | some p => p.kind == 0 && p.guard
    | none => false)

/-- The bytes of a copy of an adapter tensor (R201). -/
def copyBytes (s : State) (a : Nat) : Nat :=
  0x40 + (32 + 32 * fld (loadNat s a 4) 23 20) * (loadNat s (a + 4) 4 % 2 ^ 24)

/-- Whether an adapter descriptor, its copies and its working images are placed as R199 asks. The length of a working image
is the page's own, so its first byte stands for it. -/
def tensorPlaced (s : State) (c va : Nat) : Bool :=
  va % 128 = 0 && guardedRange s c va 128 && (match hbmOf s c va with
    | none => false
    | some a =>
      let ptr (o : Nat) : Nat := leAt (loadBytes s (a + o) 8) 0 6
      [0x18, 0x20].all (fun o => ptr o % 64 = 0 && guardedRange s c (ptr o) (copyBytes s a))
        && [0x28, 0x30].all (fun o => guardedRange s c (ptr o) 1))

/-- The pages of a book that an entry point runs, from page n on (R228). -/
def entryPages (img : List W8) : Nat → Nat → List Nat
  | 0, _ => []
  | fuel + 1, n =>
    let o := pageTable img + 128 * n
    n :: (if bitAt (leAt img o 4) 16 || !bitAt (leAt img (o + 0x18) 4) 31 then [] else entryPages img fuel (leAt img (o + 0x18) 2))

/-- The gradient that an order forms, as tensor and slice, and the use that it belongs to (log 168); none for an order that is
no outer product. -/
def gradientKey (img : List W8) (x : BookOrder) : Option ((Nat × Nat) × Nat) :=
  if oNoadd x.ws || oMode x.ws != 2 then none
  else
    let g := Config.gradientOf img x.page x.brush x.index
    some ((g.1, g.2.1), g.2.2)

/-- R199 and R206 (reason 6): where an entry point names adapter tensors, those of the book are placed rightly, and no slice of
a tensor is drained twice by the pages of one entry point. -/
def adapterFault (s : State) (c : Nat) (img : List W8) : Option BookFault :=
  let at_ (k : Nat) : Nat := entryTable img + 32 * k
  let l := allOrders s c img
  (List.range (bookEntries img)).findSome? (fun k =>
    if leAt img (at_ k + 8) 4 = 0 && leAt img (at_ k + 12) 4 = 0 then none
    else
      let ps := entryPages img (bookPages img + 1) (leAt img (at_ k) 2)
      let ends := (l.filter (fun x => ps.contains x.page && oDrn x.ws)).filterMap (fun x => (gradientKey img x).map (·.1))
      need ((Config.bookTensors img).all (tensorPlaced s c) && ends.all (fun g => ends.count g ≤ 1)) 6 (at_ k))

/-- Whether the orders that form one slice of a tied tensor may stand as they do (R210): in one page, on one brush, into one
group; the first opens it, the others add to it, only the last drains it, and no order between names the group. -/
def tieOk (l uses : List BookOrder) : Bool :=
  match uses with
  | [] => true
  | a :: rest =>
    let z := (rest.getLast?).getD a
    uses.all (fun x => x.page == a.page && x.brush == a.brush && oGroup x.ws == oGroup a.ws)
      && !oAcu a.ws && rest.all (fun x => oAcu x.ws)
      && uses.all (fun x => oDrn x.ws == (x.index == z.index))
      && l.all (fun x => !(x.page == a.page && x.brush == a.brush && a.index < x.index && x.index < z.index
          && oGroup x.ws == oGroup a.ws) || uses.contains x)

/-- R210 and R211 (reason 7): the uses of each tied tensor. -/
def tieFault (s : State) (c : Nat) (img : List W8) : Option BookFault :=
  let l := allOrders s c img
  let of_ (g : Nat × Nat) : List BookOrder := l.filter (fun x => (gradientKey img x).map (·.1) == some g)
  (l.find? (fun x => match gradientKey img x with
    | none => false
    | some (g, u) => (of_ g).any (fun y => (gradientKey img y).map (·.2) != some u) && !tieOk l (of_ g))).map
    (fun x => (7, pageTable img + 128 * x.page + 0x40))

/-- A ruling image with the windows of its HBM circuits translated to device addresses and its CRC renewed (R221,
R325), which is what the Slate checks; none where a window is not mapped in one stack with the permission it needs. -/
def translateRuling (s : State) (c : Nat) (img : List W8) : Option (List W8) :=
  let fix (m : List W8) (o len : Nat) (write : Bool) : Option (List W8) :=
    (vaWindow s c (leAt m o 8) len write).map (fun pa => m.take o ++ toBytes 8 pa ++ m.drop (o + 8))
  let step (m : Option (List W8)) (p : Nat × CircuitEnt) : Option (List W8) :=
    let o := circuitAt p.1
    let m := match tapAt p.2.src with
      | .hbm _ => m.bind (fun m => fix m (o + 0x10) p.2.slen false)
      | _ => m
    match tapAt p.2.dst with
    | .hbm _ => m.bind (fun m => fix m (o + 0x18) p.2.dlen true)
    | _ => m
  ((circuitsOf img).foldl step (some img)).map (fun m => m.take 0x1C ++ toBytes 4 (crc32 (crcImage m 0x1C)).toNat ++ m.drop 0x20)

/-- Ruling n of a book image. -/
def bookRuling (img : List W8) (n : Nat) : List W8 := (img.drop (rulingAt img n).1).take (rulingAt img n).2

/-- The checks of ruling n on Slate t (reasons 2, 3 and 8). -/
def rulingFault (s : State) (c t : Nat) (img : List W8) (bringup : Bool) (n : Nat) : Option BookFault :=
  let r := bookRuling img n
  let o := (rulingAt img n).1
  if !headerOk r then some (2, o)
  else match translateRuling s c r with
    | none => some (8, o)
    | some r => (imageFault s t r bringup).map (fun k => (k, o))

/-- The first fault of a book image on Slate t, in the order of R325's table. -/
def bookFault (s : State) (c t : Nat) (img : List W8) (bringup : Bool) : Option BookFault :=
  match bookHeader img with
  | some f => some f
  | none =>
    let ps := List.range (bookPages img)
    let l := ((List.range (bookEntries img)).map (bookEntry img) ++ ps.map (bookPage img)
      ++ (List.range (bookRulings img)).map (rulingFault s c t img bringup) ++ ps.map (schedFault s c t img)
      ++ ps.map (orderFault s c img) ++ [gradientFault s c img, adapterFault s c img, tieFault s c img]
      ++ ps.map (segFault s c img)).filterMap id
    l.foldl (fun (b : Option BookFault) f => match b with
      | some g => if f.1 < g.1 then some f else b
      | none => some f) none

/-- The state with two rulings active on two Slates and nothing else, their crossing channels paired where each declares the
other's (R214). -/
def unionState (s : State) (t u : Nat) (a b : List W8) : State :=
  let bs (t : Nat) (img : List W8) : SMap Bead := ((List.range 256).filter (imgUsed img)).map (fun j =>
    (256 * t + j, { beadReset (256 * t + j) with regs := { rule := imgRule img j }, route := imgRule img j }))
  let pg (img : List W8) : Slate := { pg := { active := some 0, frames := [(0, { valid := true, image := img })] } }
  pairChannels { s with beads := bs t a ++ bs u b, slates := [(t, pg a), (u, pg b)] }

/-- The queue graph of every route of a state, each node a bead of the device and each paired channel part of an edge (R251). -/
def unionEdges (st : State) : List GEdge :=
  st.beads.flatMap (fun p => [Net.scalar, Net.vector, Net.control].flatMap (fun n =>
    ((List.range (sinkCount n)).filter (fun e => n != .control || tokIsIn p.2 e)).filterMap (fun e =>
      (originBead st n (sinkSource st n p.1 e)).map (fun b => ⟨b, p.1, sinkCode n e⟩))))

/-- The check of R251 at book load, for the Slates of the mask: no two rulings that pair crossing channels may close a cycle.
The bring-up class, whose rulings may be cyclic (R253), is not held to it. -/
def unionFault (s : State) (ts : List Nat) (img : List W8) (bringup : Bool) : Option (Nat × BookFault) :=
  let rs := List.range (bookRulings img)
  if bringup then none
  else ts.findSome? (fun t => (ts.filter (t < ·)).findSome? (fun u => rs.findSome? (fun a => rs.findSome? (fun b =>
    let st := unionState s t u (bookRuling img a) (bookRuling img b)
    if (getSlate st t).pg.paired = 0 || graphAcyclic (unionEdges st) then none else some (t, (3, (rulingAt img a).1))))))

/-- n free pages of a Slate's stacks taken, each with a mirror (R325, R345); none where they cannot be had. -/
def takePages (s : State) (ks : List Nat) : Nat → Option (List (Nat × Option Nat) × State)
  | 0 => some ([], s)
  | n + 1 =>
    match ks.findSome? (fun k => (freePage s [k]).bind (fun p => (mirrorPage s p).map (fun m => (p, m)))) with
    | none => none
    | some (p, m) => (takePages (takePage (takePage s p) m) ks n).map (fun x => ((p, some m) :: x.1, x.2))

/-- A segment cut at the ends of pages and laid from byte a of a list of pages on: each piece with its source as a virtual
address, and with its copy's device address. -/
def layOut (ps : List Nat) : Nat → Nat → Seg → List (Seg × Seg)
  | 0, _, _ => []
  | fuel + 1, a, g =>
    if g.len = 0 then []
    else
      let n := Nat.min g.len (0x200000 - a % 0x200000)
      let at_ := (ps[a / 0x200000]?).getD 0 * 0x200000 + a % 0x200000
      ({ g with len := n }, { g with src := at_, len := n })
        :: layOut ps fuel (a + n) { g with src := g.src + n, dst := g.dst + n, len := g.len - n }

/-- Segments laid one after another in a list of pages. -/
def packSegs (ps : List Nat) : Nat → List Seg → List (Seg × Seg)
  | _, [] => []
  | a, g :: l => layOut ps 16 a g ++ packSegs ps (a + g.len) l

/-- The segments of page n copied to the stacks of Slate t (R325, R345): the segments with SRC rewritten and the pages
taken; none where pages are lacking. -/
def copySegs (s : State) (c t : Nat) (img : List W8) (n : Nat) : Option (List Seg × List (Nat × Option Nat) × State) :=
  let l := if leAt img (pageTable img + 128 * n + 0x30) 2 = 0 then [] else (bookSegs s c img n).getD []
  let total := (l.map (·.len)).sum
  if total = 0 then some ([], [], s)
  else (takePages s [2 * t, 2 * t + 1] (ceilDiv total 0x200000)).map (fun x =>
    let moved := packSegs (x.1.map (·.1)) 0 l
    let put (s : State) (m : Seg × Seg) : State :=
      hbmWrite s m.2.src none ((ctxBytes s c m.1.src m.1.len).getD [])
    let s := moved.foldl put x.2
    let s := x.1.foldl (fun s q => match q.2 with | some m => copyPage s q.1 m | none => s) s
    (moved.map (·.2), x.1, s))

/-- What BOOK_LOAD has made so far: frames, images, segments, copies. -/
structure Loaded where
  frames : List (Nat × List Nat) := []
  rulings : SMap (SMap Frame) := []
  segs : List (Nat × Nat × List Seg) := []
  copies : List (Nat × List (Nat × Option Nat)) := []
deriving DecidableEq, Repr

/-- The segments of every page copied for Slate t. -/
def loadCopies (s : State) (c t : Nat) (img : List W8) (x : Loaded) : Option (Loaded × State) :=
  ((List.range (bookPages img)).foldl (fun (a : Option (List (Nat × Nat × List Seg) × List (Nat × Option Nat) × State)) n =>
    match a with
    | none => none
    | some (segs, pages, s) => (copySegs s c t img n).map (fun y => (segs ++ [(t, n, y.1)], pages ++ y.2.1, y.2.2)))
    (some ([], [], s))).map (fun y => ({ x with segs := x.segs ++ y.1, copies := x.copies ++ [(t, y.2.1)] }, y.2.2))

/-- The rulings of a book written into the first free frames of Slate t (R224, R325). -/
def loadRulings (s : State) (c t : Nat) (img : List W8) (bringup : Bool) (x : Loaded) : Option (Loaded × State) :=
  let n := bookRulings img
  let fs := (freeFrames s t).take n
  if fs.length < n then none
  else
    let l := fs.zipIdx.map (fun f => (f.1, ({ valid := true, image := (translateRuling s c (bookRuling img f.2)).getD []
                                              bringup := bringup, source := bookRuling img f.2 } : Frame)))
    let s := modPage s t (fun p => { p with frames := l.foldl (fun m f => mapPut m f.1 f.2) p.frames })
    some ({ x with frames := x.frames ++ [(t, fs)], rulings := mapPut x.rulings t l }, s)

/-- Steps 2 and 3 of R325 for a list of Slates; the Slate that lacks a frame or a page where one does. -/
def loadSlates (c : Nat) (img : List W8) (bringup : Bool) : List Nat → Loaded → State → Except Nat (Loaded × State)
  | [], x, s => .ok (x, s)
  | t :: ts, x, s =>
    match (loadRulings s c t img bringup x).bind (fun y => loadCopies y.2 c t img y.1) with
    | none => .error t
    | some (x, s) => loadSlates c img bringup ts x s

/-- The lowest free book number. -/
def freeBook (s : State) : Nat := ((List.range 65536).find? (fun k => (mapFind s.books k).isNone)).getD 0

/-- BOOK_LOAD (R322, R324, R325, R334). -/
def cmdBookLoad (via : Via) (q : CmdReq) : Cmd := fun s =>
  let a := arg q 0
  let c := fld a 5 0
  let mask := fld a 11 8
  let bringup := bitAt a 16
  let ts := (List.range 4).filter (bitAt mask)
  let t0 := ts.headD 0
  let reject (s : State) (t : Nat) (f : BookFault) : State × Option Rsp :=
    (s, some { status := stRejected, detail := pack [(t, 8), (f.1, 0)], payload := [BitVec.ofNat 32 f.2] })
  checks [argCheck q [0x10F3F, 0, whole, hi48, whole] (ts.isEmpty || !ts.all (slatePresent s)), ctxCheck s via c,
      (bringup && !viaPf via, stDenied, 0),
      (s.pwr.st != .run || ts.any (fun t => (getSlate s t).failed || (getSlate s t).inReset), stState, 0)] (fun s =>
    match ctxBytes s c (arg48 q 2) (arg q 4) with
    | none => reject s t0 (8, 0)
    | some img =>
      match (ts.findSome? (fun t => (bookFault s c t img bringup).map (fun f => (t, f)))).or (unionFault s ts img bringup) with
      | some (t, f) => reject s t f
      | none =>
        match loadSlates c img bringup ts {} s with
        | .error t => (s, some { status := stNoResource, detail := pack [(t, 8)] })
        | .ok (x, s) =>
          let k := freeBook s
          let b : Book := { ctx := ⟨c % 64, Nat.mod_lt _ (by decide)⟩, mask := BitVec.ofNat 4 mask, bringup := bringup
                            image := img, frames := x.frames, rulings := x.rulings, segs := x.segs, copies := x.copies }
          let size {α : Type} (l : List (Nat × List α)) (t : Nat) : Nat := ((l.find? (fun p => p.1 == t)).map (·.2.length)).getD 0
          answer { s with books := mapPut s.books k b }
            ([BitVec.ofNat 32 k, pack ((List.range 4).map (fun t => (size x.frames t, 8 * t)))]
              ++ (List.range 4).map (fun t => BitVec.ofNat 32 (size x.copies t)))) s

/-- BOOK_LOAD from a function's command well. -/
def execBookLoad (q : CmdReq) (s : State) : Host.Outcome State Fault Refusal :=
  .next (serveWell 0x30 q (cmdBookLoad (.well q.fn) q) s)

end Sys2Proof.Machine
end

