-- ==== Sys2Proof/Machine/WellSystem.lean ====
section
/-! DEFINITION. The PF's commands about the system (R322): STROKE_CONFIG, LINK_CONFIG, LINK_ROUTE, the debug commands
(R371 to R374, R381), FW_STAGE and FW_COMMIT (R365, R366), SYNC_DUMP (R272) and SLATE_RESET (R384). -/

namespace Sys2Proof.Machine

/-- STROKE_CONFIG (R308, R322): the registers of the write mask are written, then FENCE and UNFENCE acted on. -/
def cmdStrokeConfig (via : Via) (q : CmdReq) : Cmd := fun s =>
  let m := arg q 0
  let v (n : Nat) : W32 := BitVec.ofNat 32 (arg q n)
  checks [pfOnly via, argCheck q [0x3F, 0x9F3FFFF0, 0xFFFFFF, 0xFF, whole] false] (fun s =>
    let s := if bitAt m 0 then writeStrokeCfg s (v 1) else s
    let s := if bitAt m 1 then modStroke s (fun x => { x with lenNext := some ((v 2).truncate 24) }) else s
    let s := if bitAt m 2 then modAux s (fun a => { a with pinAdj := (v 3).truncate 8 }) else s
    let s := if bitAt m 3 then writeStrokeAlloc s (v 4) else s
    let s := if bitAt m 4 then fenceUnit s else s
    let s := if bitAt m 5 then unfenceUnit s else s
    answer s [strokeReg s 0x18, strokeReg s 0x1C]) s

/-- STROKE_CONFIG from a function's command well. -/
def execStrokeConfig (q : CmdReq) (s : State) : Host.Outcome State Fault Refusal :=
  .next (serveWell 0x60 q (cmdStrokeConfig (.well q.fn) q) s)

/-- DUCTUS_p_CFG written (R308): a port that is disabled leaves its link, and one that takes ECHO takes it from every other
(log 172). -/
def writePortCfg (s : State) (p : Nat) (v : BitVec 4) : State :=
  let s := if v.getLsbD 3 then
      { s with ports := s.ports.map (fun q => (q.1, { q.2 with cfg := q.2.cfg &&& 7 })) }
    else s
  modPort s p (fun x => if v.getLsbD 0 then { x with cfg := v } else { retrainPort x with cfg := v })

/-- LINK_CONFIG (R293, R322): ports of absent Slates are passed over, and the response follows at once, with DELAY as it
stands. -/
def cmdLinkConfig (via : Via) (q : CmdReq) : Cmd := fun s =>
  let m := arg q 0
  let cfg (p : Nat) : Nat := fld (arg q (2 + p / 4)) (8 * (p % 4) + 3) (8 * (p % 4))
  let here (s : State) (p : Nat) : Bool := slatePresent s (p / 3)
  checks [pfOnly via, argCheck q [0x10FFF, 0x0FFF0FFF, 0x0F0F0F0F, 0x0F0F0F0F, 0x0F0F0F0F] false] (fun s =>
    let ps := (List.range 12).filter (fun p => bitAt m p && here s p)
    let s := modAux s (fun a => { a with
      devnum := BitVec.ofNat 12 (fld (arg q 1) 11 0), masterDev := BitVec.ofNat 12 (fld (arg q 1) 27 16) })
    let s := ps.foldl (fun s p => writePortCfg s p (BitVec.ofNat 4 (cfg p))) s
    let s := if bitAt m 16 then
        (ps.filter (fun p => portHere s p && (getPort s p).aligned && !(getPort s p).failed)).foldl startRanging s
      else s
    answer s ((List.range 12).flatMap (fun p =>
      if here s p then [portReg s p 0x04, portReg s p 0x08] else [0, 0]))) s

/-- LINK_CONFIG from a function's command well. -/
def execLinkConfig (q : CmdReq) (s : State) : Host.Outcome State Fault Refusal :=
  .next (serveWell 0x61 q (cmdLinkConfig (.well q.fn) q) s)

/-- LINK_ROUTE (R322, R336). -/
def cmdLinkRoute (via : Via) (q : CmdReq) : Cmd := fun s =>
  let c := fld (arg q 0) 5 0
  let t := ctxBytes s c (arg48 q 2) 2048
  checks [pfOnly via, argCheck q [0x3F, 0, whole, hi48] t.isNone, ctxCheck s via c] (fun s =>
    answer (modAux s (fun a => { a with routes := t.getD [] })) []) s

/-- LINK_ROUTE from a function's command well. -/
def execLinkRoute (q : CmdReq) (s : State) : Host.Outcome State Fault Refusal :=
  .next (serveWell 0x62 q (cmdLinkRoute (.well q.fn) q) s)

/-- The nonce held for a path (R371). -/
def nonceOf (s : State) (jtag : Bool) : Option Nonce := if jtag then s.sec.nonceJtag else s.sec.nonceWells
/-- The nonce of a path replaced. -/
def putNonce (s : State) (jtag : Bool) (x : Option Nonce) : State :=
  { s with sec := if jtag then { s.sec with nonceJtag := x } else { s.sec with nonceWells := x } }

/-- n free values, one after another. -/
def drawFree : Nat → State → List W64 × State
  | 0, s => ([], s)
  | n + 1, s =>
    let (v, s) := freeBits s
    let (l, s) := drawFree n s
    (v :: l, s)

/-- DEBUG_CHALLENGE (R371, R372): the nonce is a free value of 32 bytes. -/
def cmdDebugChallenge (via : Via) (q : CmdReq) (jtag : Bool) : Cmd := fun s =>
  let l := arg q 0
  checks [pfOnly via, argCheck q [3] (l = 0), (l = 3 && !jtag, stDenied, 0)] (fun s =>
    let (vs, s) := drawFree 4 s
    let bs := vs.flatMap (fun v => toBytes 8 v.toNat)
    answer (putNonce s jtag (some ⟨bs, BitVec.ofNat 2 l⟩)) (bytesWords 8 bs)) s

/-- DEBUG_CHALLENGE from the PF's command well, or from the mailbox. -/
def execDebugChallenge (q : CmdReq) (jtag : Bool) (s : State) : Host.Outcome State Fault Refusal :=
  .next (if jtag then serveMbox 0x80 q (cmdDebugChallenge .mbox q true) s
    else serveWell 0x80 q (cmdDebugChallenge (.well q.fn) q false) s)

/-- NONCE_EXPIRE (R371). -/
def execNonceExpire (jtag : Bool) (s : State) : Host.Outcome State Fault Refusal := .next (putNonce s jtag none)

/-- The token of a DEBUG_UNLOCK: the bytes from argument offset 8 on (R322, R371). -/
def tokenOf (q : CmdReq) : List W8 := wordsBytes (q.args.drop 2)
/-- Fields of a debug token (R371). -/
def tokCtrl (b : List W8) : Nat := leAt b 0 4
@[inherit_doc tokCtrl] def tokLevel (b : List W8) : Nat := fld (tokCtrl b) 9 8
@[inherit_doc tokCtrl] def tokSigner (b : List W8) : Bool := bitAt (tokCtrl b) 12
@[inherit_doc tokCtrl] def tokKind (b : List W8) : Nat := fld (tokCtrl b) 19 16

/-- Whether a token's reserved fields are zero (R371). -/
def tokClean (b : List W8) : Bool := onlyBits (wordAt b 0) 0x000F13FF && leAt b 4 4 = 0

/-- Whether a token meets every condition of R371 against the nonce held; proofOk is the verdict on its signature. -/
def tokenGood (s : State) (n : Nonce) (b : List W8) (proofOk : Bool) : Bool :=
  fld (tokCtrl b) 7 0 = 1 && tokKind b ≤ 1 && tokLevel b != 0 && tokLevel b = n.level.toNat
    && leAt b 8 8 = s.sec.serial.toNat && (b.drop 0x10).take 32 == n.bytes && proofOk

/-- Whether the lifecycle state refuses a token (R372, R381): which signer, level and kind each state takes. -/
def tokenDenied (s : State) (b : List W8) (jtag : Bool) : Bool :=
  let x := s.sec
  let factory := tokLevel b = 3
  (factory && !jtag) || (tokSigner b && !x.fuseCfg.getLsbD 0) ||
    (match x.lifecycle with
    | .blank | .openLc => true
    | .sealed => (!tokSigner b && x.fuseCfg.getLsbD 2) || (factory && tokKind b != 1)
    | .voided => tokSigner b || tokKind b = 1)

/-- Factory entry begun (R321, R364, R372): it is journaled, every page is aborted and the identity keys are erased. The
response waits for the end of the scrub, which a Scribe that takes over completes. -/
def beginScrub (s : State) (tag : W32) : State :=
  let s := (presentSlates s).foldl (fun s t => abortPage s t) s
  { s with
    sec := { s.sec with
      scrub := some tag, keysErased := true
      cdi1 := List.replicate 64 0, aliasKey := List.replicate 57 0 }
    spine := { s.spine with journal := (0, 0x81) :: s.spine.journal } }

/-- A session granted over a well or the mailbox, and its answer (R322, R374). -/
def grantSession (s : State) (level : BitVec 2) (jtag : Bool) : State × Option Rsp :=
  let n := s.sec.nextSession
  answer (openSession s level jtag) [level.zeroExtend 32, n.zeroExtend 32]

/-- A token judged once no other refusal applies (R371, R372). -/
def judgeToken (s : State) (n : Nonce) (b : List W8) (jtag proofOk : Bool) (tag : W32) : State × Option Rsp :=
  if !tokenGood s n b proofOk then refuse s stAuthFail
  else if tokKind b = 1 then
    ({ s with sec := { s.sec with pendingLc := some .voided } }, some { detail := 1 })
  else if tokLevel b = 3 then (beginScrub s tag, none)
  else grantSession s (BitVec.ofNat 2 (tokLevel b)) jtag

/-- A passphrase judged once no other refusal applies (R373). -/
def judgePhrase (s : State) (jtag proofOk : Bool) : State × Option Rsp :=
  let x := s.sec
  if proofOk then grantSession { s with sec := { x with fails := 0 } } 1 jtag
  else refuse { s with sec := { x with fails := x.fails + 1, blocked := x.blocked || x.fails + 1 == 5 } } stAuthFail

/-- DEBUG_UNLOCK (R371 to R374, R381). A request with METHOD 0 consumes the nonce of its path whatever the answer. -/
def cmdDebugUnlock (via : Via) (q : CmdReq) (jtag proofOk : Bool) : Cmd := fun s =>
  let b := tokenOf q
  let used := arg q 1
  let phrase := arg q 0 = 1
  let n := nonceOf s jtag
  let busy := s.sec.session.isSome || s.sec.scrub.isSome
  let masks := [1, whole] ++ List.replicate 56 whole
  let tail := (b.drop used).any (· != 0)
  let s := if !phrase && viaPf via then putNonce s jtag none else s
  if phrase then
    checks [pfOnly via, argCheck q masks (used < 8 || 224 < used || tail), (busy, stBusy, 0),
        (s.sec.lifecycle != .sealed || !s.sec.fuseCfg.getLsbD 1, stDenied, 0), (s.sec.blocked, stBlocked, 0)]
      (fun s => judgePhrase s jtag proofOk) s
  else
    checks [pfOnly via, argCheck q masks (used != 162 || tail || !tokClean b),
        (busy && !(s.sec.lifecycle = .blank && tokKind b = 1), stBusy, 0),
        (n.isNone || tokenDenied s b jtag, stDenied, 0)] (fun s =>
      match n with
      | some n => judgeToken s n b jtag proofOk q.tag
      | none => refuse s stDenied) s

/-- DEBUG_UNLOCK from the PF's command well, or from the mailbox. -/
def execDebugUnlock (q : CmdReq) (jtag : Bool) (proofOk : Bool) (s : State) : Host.Outcome State Fault Refusal :=
  .next (if jtag then serveMbox 0x81 q (cmdDebugUnlock .mbox q true proofOk) s
    else serveWell 0x81 q (cmdDebugUnlock (.well q.fn) q false proofOk) s)

/-- DEBUG_CLOSE (R374). -/
def cmdDebugClose (via : Via) (q : CmdReq) : Cmd := fun s =>
  let n := arg q 0
  let fixed := n = 0 && (standing s.sec.lifecycle).isSome
  let known := match s.sec.session with | some d => d.number.toNat = n | none => false
  checks [pfOnly via, argCheck q [0xFFFF] false, (fixed, stDenied, 0), (!fixed && !known, stNotFound, 0)]
    (fun s => answer (closeSession s) []) s

/-- DEBUG_CLOSE from the PF's command well, or from the mailbox. -/
def execDebugClose (q : CmdReq) (jtag : Bool) (s : State) : Host.Outcome State Fault Refusal :=
  .next (if jtag then serveMbox 0x82 q (cmdDebugClose .mbox q) s
    else serveWell 0x82 q (cmdDebugClose (.well q.fn) q) s)

/-- What the scrub zeroes on one Slate besides its memory (R372): tile files, ruling store, accumulation groups, and the
blotter lines that its folios held. -/
def scrubSlate (s : State) (t : Nat) : State :=
  let s := zeroSlate s t
  let s := ((slateBeads t).filter (beadExists s)).foldl (fun s i => modBead s i (fun b => { b with
    tiles := [], rowBad := [], nibCells := [], nibGroups := [], blot := { b.blot with ways := [], fills := [] } })) s
  let s := (slateBrushes t).foldl (fun s k => modBrush s k (fun b => { b with
    groups := [], cells := [], cellBad := [], waiting := [] })) s
  modPage s t (fun p => { p with frames := [] })

/-- SCRUB_END (R372): every SRAM of the device and all HBM are zero, with what the firmware keeps in HBM, and the Factory
level is granted to the mailbox. -/
def execScrubEnd (s : State) : Host.Outcome State Fault Refusal :=
  .next (match s.sec.scrub with
    | none => s
    | some tag =>
      let s := (presentSlates s).foldl scrubSlate s
      let l := s.ledger
      let s := { s with
        mem := [], parity := [], ctxs := [], books := [], hbmUsed := []
        fns := s.fns.map (fun f => (f.1, { f.2 with ring := {}, aperture := none, bind := none }))
        ledger := { l with entries := [], log := [], logIndex := 0 }, sec := { s.sec with scrub := none } }
      let (s, r) := grantSession (unjournal s 0x81) 3 true
      match r with
      | some r => postRsp s .mbox 0x81 tag r
      | none => s)

/-- A firmware image as a slot holds it (R365): a body shorter than LENGTH fails its digest. -/
def fwImage (image : List W8) (digestOk sigOk : Bool) : FwSlot :=
  { image := image, digestOk := digestOk && leAt image 8 4 + 256 ≤ image.length, sigOk := sigOk }

/-- A slot written. -/
def putSlot (s : State) (b : Bool) (f : FwSlot) : State :=
  { s with sec := if b then { s.sec with slotB := f } else { s.sec with slotA := f } }

/-- FW_STAGE (R322, R365): an image that is accepted is written to the slot that is not active. -/
def cmdFwStage (via : Via) (q : CmdReq) (digestOk sigOk : Bool) : Cmd := fun s =>
  let c := fld (arg q 0) 5 0
  let n := arg q 4
  let bad := n = 0 || 0x1000000 < n
  let img := if bad then none else ctxBytes s c (arg48 q 2) n
  checks [pfOnly via, argCheck q [0x3F, 0, whole, hi48, whole] (bad || img.isNone), ctxCheck s via c] (fun s =>
    let f := fwImage (img.getD []) digestOk sigOk
    let b := !s.sec.imageB
    match fwFault s.sec f with
    | some k => (s, some { status := stRejected, detail := BitVec.ofNat 32 k })
    | none =>
      let s := putSlot s b f
      answer (postWide { s with sec := { s.sec with staged := some b } } 0x0A []) [flag b 0]) s

/-- FW_STAGE from a function's command well. -/
def execFwStage (q : CmdReq) (digestOk sigOk : Bool) (s : State) : Host.Outcome State Fault Refusal :=
  .next (serveWell 0x90 q (cmdFwStage (.well q.fn) q digestOk sigOk) s)

/-- The boot selector pointed at a slot, and the fuses of a BUMP image burnt (R366). They only grow: an SVN above 63, which
the header's format does not have, burns 63 (log 52). -/
def commitSlot (x : Sec) (b : Bool) : Sec :=
  let img := (fwSlot x b).image
  let own : BitVec 4 := BitVec.ofNat 4 (2 ^ fwKey img)
  let x := { x with selectB := b, staged := none }
  if fwBump img then
    { x with
      minSvn := if x.minSvn.toNat < fwSvn img then BitVec.ofNat 6 (Nat.min 63 (fwSvn img)) else x.minSvn
      keyRev := x.keyRev ||| (BitVec.ofNat 4 (fwRevoke img) &&& ~~~own) }
  else x

/-- FW_COMMIT (R322, R365, R366). -/
def cmdFwCommit (via : Via) (q : CmdReq) : Cmd := fun s =>
  let b := bitAt (arg q 0) 0
  let f := fwFault s.sec (fwSlot s.sec b)
  checks [pfOnly via, argCheck q [1] (s.sec.staged != some b), (f.isSome, stRejected, f.getD 0)] (fun s =>
    answer (postWide { s with sec := commitSlot s.sec b } 0x0A []) []) s

/-- FW_COMMIT from a function's command well. -/
def execFwCommit (q : CmdReq) (s : State) : Host.Outcome State Fault Refusal :=
  .next (serveWell 0x91 q (cmdFwCommit (.well q.fn) q) s)

/-- SYNC_DUMP (R272, R322, R334): the area lies whole within one HBM page. -/
def cmdSyncDump (via : Via) (q : CmdReq) : Cmd := fun s =>
  let a := arg q 0
  let t := fld a 1 0
  let c := fld a 13 8
  let va := arg48 q 2
  let bad := va % 0x1000 != 0 || 0x200000 < va % 0x200000 + 0x30000 || (hbmOf s c va).isNone || !slatePresent s t
  checks [pfOnly via, argCheck q [0x3F03, 0, whole, hi48] bad, ctxCheck s via c,
      (s.pwr.st != .run || (slatePresent s t && !slateRuns s t), stState, 0),
      ((getSlate s t).watch.dumpBusy, stBusy, 0)] (fun s =>
    let s := modSlate s t (fun x => { x with watch := { x.watch with
      dumpBase := BitVec.ofNat 48 ((hbmOf s c va).getD 0) } })
    match startDump s t 0 with
    | some s => answer s [(getSlate s t).watch.dumpSeq.zeroExtend 32]
    | none => refuse s stBusy) s

/-- A dump that the debug path asks for (R272, R369): at Observe or higher, to the area that SLATE_DUMP_BASE gives; what the
debugger is told is whether the Slate was busy. -/
def debugDump (s : State) (t : Nat) : State :=
  let say (s : State) (b : Bool) : State := { s with answers := { s.answers with dumpBusy := b } }
  if debugLevel s = 0 then deny s
  else if !slateRuns s t || s.pwr.st != .run then s
  else match startDump s t 1 with
    | some s => say s false
    | none => say s true

/-- SYNC_DUMP (R272): from a function's command well, or over the debug path for the Slate that the request names. -/
def execSyncDump (r : DumpReq) (s : State) : Host.Outcome State Fault Refusal :=
  .next (if r.debug then (if deviceUp s then debugDump s (fld (arg r.q 0) 1 0) else s)
    else serveWell 0xA0 r.q (cmdSyncDump (.well r.q.fn) r.q) s)

/-- A Slate reset that SLATE_RESET asks for (R384, R385): it waits while a recovery goes on. -/
def askSlateReset (s : State) (t : Nat) : State :=
  if s.spine.recovering then
    let m : BitVec 4 := BitVec.ofNat 4 (2 ^ t)
    { s with spine := { s.spine with waits := s.spine.waits ||| m, retrains := s.spine.retrains ||| m } }
  else beginSlateReset s t true

/-- SLATE_RESET (R322, R334, R384). -/
def cmdSlateReset (via : Via) (q : CmdReq) : Cmd := fun s =>
  let t := fld (arg q 0) 1 0
  checks [pfOnly via, argCheck q [3] (!slatePresent s t), (s.pwr.st != .run, stState, 0)]
    (fun s => answer (askSlateReset s t) []) s

/-- SLATE_RESET from a function's command well. -/
def execSlateReset (q : CmdReq) (s : State) : Host.Outcome State Fault Refusal :=
  .next (serveWell 0xB0 q (cmdSlateReset (.well q.fn) q) s)

end Sys2Proof.Machine
end

