-- ==== Sys2Proof/Machine/HostSide.lean ====
section
/-! DEFINITION. What the host does outside the command wells: the submission ring (R326 to R328), the heads of the
completion ring and the event well (R331, R333), BAR2 and AtomicOps (R310, R316), and MSI-X (R312). -/

namespace Sys2Proof.Machine

/-- A ring halted (R327), with its event. -/
def haltRing (s : State) (f reason : Nat) (ctx : Nat) (seq : BitVec 48) : State :=
  let s := modFn s f (fun x => { x with halt := true, reason := BitVec.ofNat 8 reason })
  postEvent s 0x01 f 0xF ctx ([BitVec.ofNat 32 reason] ++ seqWords seq)

/-- The status block of a ring written to host memory (R328). -/
def writeStatus (s : State) (f : Nat) (b : Binding) : State :=
  let e := s.ledger.epoch
  modFn s f (fun x => { x with out := x.out ++ [⟨b.rsbBus, seqWords x.ring.accepted ++ [x.sqHead, e.zeroExtend 32]⟩] })

/-- The 16 words of the entry at count n of a submission ring; an entry that cannot be read reads as zero. -/
def ringEntry (s : State) (b : Binding) (n : Nat) : List W32 :=
  let va := b.sqVa.toNat + 64 * (n % 2 ^ b.sqLog)
  bytesWords 16 ((ctxBytes s b.ctx.val va 64).getD [])

/-- Room made in the ledger for one entry (R342): the oldest Retired entry is dropped where every slot is taken. -/
def makeSlot (l : List LEntry) : List LEntry :=
  if l.length < 131072 then l
  else match l.findIdx? (fun e => e.state == .retired) with
    | some i => l.take i ++ l.drop (i + 1)
    | none => l

/-- A job accepted (R327, R328). -/
def acceptJob (s : State) (fn : Fin 16) (ws : List W32) (seq : BitVec 48) : State :=
  let s := { s with ledger := { s.ledger with entries := makeSlot s.ledger.entries ++ [{ fn := fn, seq := seq, words := ws }] } }
  modFn s fn.val (fun x => { x with
    sqHead := x.sqHead + 1, accShown := seq, ring := { x.ring with next := x.ring.next + 1, accepted := seq } })

/-- The DUP record of a duplicate entry (R331, R344): DETAIL and stamp of an entry that the ledger has dropped are free
values. -/
def dupRecord (s : State) (f : Nat) (ws : List W32) (seq : BitVec 48) : List W32 × State :=
  let user := (ws.drop 4).take 2
  let c := fld ((ws[2]?).getD 0).toNat 5 0
  match findEntry s f seq.toNat with
  | some e => (recordWords seq e.status 1 user s.ledger.epoch (lstateCode e.state) c e.detail e.commitStamp, s)
  | none =>
    let (v, s) := freeBits s
    let (w, s) := freeBits s
    (recordWords seq 0xFF 1 user s.ledger.epoch 5 c (v.truncate 32) w, s)

/-- Whether acceptance waits (R327): the device is not in Run, or the ledger holds as many jobs in flight as it may. -/
def acceptWaits (s : State) : Bool := s.pwr.st != .run || !s.ledger.ready || 65536 ≤ inFlight s

/-- Up to n entries of a ring taken and judged in ascending count (R327). -/
def takeEntries (fn : Fin 16) (b : Binding) : Nat → State → State
  | 0, s => s
  | n + 1, s =>
    let f := fn.val
    let x := getFn s f
    if x.sqHead = x.sqTail then s
    else
      let ws := ringEntry s b x.sqHead.toNat
      let seq : BitVec 48 := BitVec.ofNat 48 (((ws[0]?).getD 0).toNat + fld ((ws[1]?).getD 0).toNat 15 0 * 2 ^ 32)
      if seq = 0 then haltRing s f 2 b.ctx.val seq
      else if x.ring.next < seq then haltRing s f 1 b.ctx.val seq
      else if seq = x.ring.next then
        if acceptWaits s then modFn s f (fun x => { x with waiting := true })
        else takeEntries fn b n (acceptJob s fn ws seq)
      else
        let (d, s) := dupRecord s f ws seq
        takeEntries fn b n (modFn s f (fun x => { x with sqHead := x.sqHead + 1, dupOut := x.dupOut ++ [d] }))

/-- Entries taken in batches of up to 64, with the status block written after each batch that took one (R328), until the ring
halts. -/
def takeBatches (fn : Fin 16) (b : Binding) : Nat → State → State
  | 0, s => s
  | n + 1, s =>
    let h := (getFn s fn.val).sqHead
    let s := takeEntries fn b 64 s
    if (getFn s fn.val).sqHead = h then s
    else
      let s := writeStatus s fn.val b
      if (getFn s fn.val).halt then s else takeBatches fn b n s

/-- A function's ring served (R327): none while it is unbound or halted. -/
def serveRing (s : State) (fn : Fin 16) : State :=
  let x := getFn s fn.val
  match x.bind with
  | none => s
  | some b =>
    if x.halt then s
    else takeBatches fn b (2 ^ b.sqLog / 64 + 1) (modFn s fn.val (fun x => { x with waiting := false }))

/-- Acceptance that waited goes on (R327), looked at for every function. -/
def serveWaiting (s : State) : State :=
  (List.finRange 16).foldl (fun s fn => if (getFn s fn.val).waiting && !acceptWaits s && serving s then serveRing s fn else s) s

/-- WELL_SQ_TAIL written (R317, R327, R334): a halted ring resumes; a tail beyond the ring's size halts it. -/
def writeSqTail (s : State) (fn : Fin 16) (v : W32) : State :=
  let f := fn.val
  match (getFn s f).bind with
  | none => s
  | some b =>
    if !serving s then s
    else
      let s := modFn s f (fun x => { x with sqTail := v, halt := false, reason := 0 })
      if 2 ^ b.sqLog < (v - (getFn s f).sqHead).toNat then haltRing s f 3 b.ctx.val 0
      else serveRing s fn

/-- WELL_CQ_HEAD written (R331, R342): jobs whose record the head passes become Retired. -/
def writeCqHead (s : State) (fn : Fin 16) (v : W32) : State :=
  let f := fn.val
  let x := getFn s f
  let passed (r : Option W32) : Bool := match r with
    | some n => n - x.cqHead < v - x.cqHead
    | none => false
  if x.bind.isNone || !serving s then s
  else
    let s := modFn s f (fun x => { x with cqHead := v })
    { s with ledger := { s.ledger with entries := s.ledger.entries.map (fun e =>
      if e.fn = fn ∧ e.state = .reported ∧ passed e.record then { e with state := .retired } else e) } }

/-- WELL_EQ_HEAD written (R333): with room again, the LOST event is written before any other. -/
def writeEqHead (s : State) (fn : Fin 16) (v : W32) : State :=
  if (getFn s fn.val).bind.isNone || !serving s then s
  else
    let (sev, s) := freeBits s
    let e : EventRec := { kind := 0x0B, severity := sev.toNat % 3, stamp := stampNow s }
    modFn s fn.val (fun x => payLost { x with eqHead := v } e)

/-- WELL_SQ_TAIL_WRITE (R317, R327, R334). -/
def execWellSqTailWrite (fn : Fin 16) (v : W32) (s : State) : Host.Outcome State Fault Refusal := .next (writeSqTail s fn v)
/-- WELL_CQ_HEAD_WRITE (R331, R342). -/
def execWellCqHeadWrite (fn : Fin 16) (v : W32) (s : State) : Host.Outcome State Fault Refusal := .next (writeCqHead s fn v)
/-- WELL_EQ_HEAD_WRITE (R333). -/
def execWellEqHeadWrite (fn : Fin 16) (v : W32) (s : State) : Host.Outcome State Fault Refusal := .next (writeEqHead s fn v)

/-- A register of a function's well page (R317). -/
def wellReg (s : State) (f o : Nat) : W32 :=
  let x := getFn s f
  let ap : Bool × BitVec 48 := x.apFault.getD (false, 0)
  if o < 0x100 then mapGet (fun _ => 0) x.req (o / 4)
  else if o < 0x200 then mapGet (fun _ => 0) x.rsp ((o - 0x100) / 4)
  else if o = 0x204 then pack [(b1 (s.spine.orphan || s.pins.bootFailed), 31), (b1 x.overrun, 2), (b1 x.done, 1), (b1 x.busy, 0)]
  else if o = 0x300 then x.sqTail
  else if o = 0x304 then x.sqHead
  else if o = 0x308 then pack [(b1 x.bind.isSome, 31), (b1 x.halt, 30), (b1 x.waiting, 29), (x.reason.toNat, 0)]
  else if o = 0x30C then x.accShown.truncate 32
  else if o = 0x310 then (x.accShown >>> 32).truncate 32
  else if o = 0x320 then x.cqHead
  else if o = 0x324 then x.cqTail
  else if o = 0x330 then x.eqHead
  else if o = 0x334 then x.eqTail
  else if o = 0x338 then x.eqLost
  else if o = 0x340 then pack [(b1 x.flr, 30), (f, 24), (s.ledger.epoch.toNat, 0)]
  else if o = 0x348 then ap.2.truncate 32
  else if o = 0x34C then pack [(b1 x.apFault.isSome, 31), (b1 ap.1, 30), (ap.2.toNat / 2 ^ 32, 0)]
  else 0

/-- An aperture fault recorded and reported (R316, R333): only the first is recorded. -/
def apertureFault (s : State) (f : Nat) (off : BitVec 48) (write : Bool) : State :=
  let c := ((getFn s f).aperture.map (·.val)).getD 0
  let s := modFn s f (fun x => { x with apFault := x.apFault.orElse (fun _ => some (write, off)) })
  postEvent s 0x02 f 0xF c [off.truncate 32, (off >>> 32).truncate 32, flag write 0]

/-- Whether BAR2 is served (R316, R378). -/
def bar2Serves (s : State) : Bool := booted s && (s.pwr.st == .run || s.pwr.st == .hold)

/-- The place that an aperture offset names for an access (R316): none where R316 handles the access as a fault. A Slate
that is absent or offline, a place that a folio controller refuses (R144) and a failed brush (R190) serve no access. -/
def apertureAt (s : State) (f : Nat) (off : BitVec 48) (n : Nat) (write : Bool) : Option Xlat :=
  if !bar2Serves s then none
  else match (getFn s f).aperture with
    | none => none
    | some c =>
      match translate s (some c.val) off.toNat write with
      | none => none
      | some x =>
        let r := regionOf x.pa
        let shut := match r with
          | .hbm .. => false
          | .folio j o => folioRefuses s j o n
          | .reservoir k _ => brushRefuses s k
          | .ink k _ => brushRefuses s k
          | _ => true
        let off_ := match r with
          | .hbm .. => false
          | _ => (regionSlate r).any (fun t => (slateRefuses s none t).isSome)
        if shut || off_ then none else some x

/-- Bytes of a brush memory as an access held at the memory tap reads them (R170, R188): after the zeroing that goes on and
the writes that wait. -/
def tapBytes (s : State) (k a n : Nat) : List W8 :=
  let b := getBrush s k
  let m := if b.zeroing then [] else s.mem.filter (fun c => a ≤ c.1 && c.1 < a + n)
  memReadN (b.waiting.foldl (fun m w => memWriteN m w.pa w.data) m) a n

/-- A read at a translated place: none where a parity error is not cured (R347, R348). -/
def apertureRead (s : State) (x : Xlat) (n : Nat) : Option (List W8) × State :=
  let plain (s : State) : Option (List W8) × State :=
    if (parityFind s.parity x.pa n).isSome then (none, s) else (some (loadBytes s x.pa n), s)
  let again (t kind target off : Nat) : Option (List W8) × State :=
    if (parityFind s.parity x.pa n).isSome then plain ((refetch s t kind target off n).getD s) else plain s
  match regionOf x.pa with
  | .hbm .. => hbmRead s x.pa n x.mirror false
  | .folio j o => again (j / 256) 0 (j % 256) o
  | .reservoir k o =>
    if (parityFind s.parity x.pa n).isSome && !(getBrush s k).zeroing then again (k / 6) 1 (k % 6) o
    else (some (tapBytes s k x.pa n), s)
  | .ink k _ =>
    if (parityFind s.parity x.pa n).isSome && !(getBrush s k).zeroing then (none, s) else (some (tapBytes s k x.pa n), s)
  | _ => (none, s)

/-- A write at a translated place: one to a reservoir, or to a brush memory that is being zeroed, waits at the brush
(R170, R188). -/
def apertureWrite (s : State) (x : Xlat) (bs : List W8) : State :=
  let wait (k : Nat) : State := joinTap s k { pa := x.pa, data := bs }
  match regionOf x.pa with
  | .hbm .. => hbmWrite s x.pa x.mirror bs
  | .reservoir k _ => wait k
  | .ink k _ => if (getBrush s k).zeroing then wait k else storeBytes s x.pa bs
  | _ => storeBytes s x.pa bs

/-- The AER status bits of a packet that the host interface discards, and of an unsupported request (R309; log 178). -/
def aerPoisoned : W32 := 0x00001000
@[inherit_doc aerPoisoned] def aerEcrc : W32 := 0x00080000
@[inherit_doc aerPoisoned] def aerUnsupported : W32 := 0x00100000

/-- A bit of a function's AER status set. -/
def setAer (s : State) (f : Nat) (bit : W32) : State := modFn s f (fun x => { x with aer := x.aer ||| bit })

/-- A packet that is discarded (R309, R310): the state that this leaves, or none where it is good. The requester ID that the
record of a poisoned one gives is a free value. -/
def discardTlp (s : State) (f : Nat) (tlp : Tlp) : Option State :=
  match tlp with
  | .good => none
  | .badEcrc => some (setAer s f aerEcrc)
  | .poisoned =>
    let (v, s) := freeBits s
    some (logSpine (setAer s f aerPoisoned) 0x03 (v.truncate 32))

/-- A request that a function completes as Unsupported (R309 to R311). -/
def completeUr (s : State) (f : Nat) (v : Option W64) : State :=
  setAer { s with answers := { s.answers with atomic := v, unsupported := true } } f aerUnsupported

/-- Whether an access of n bytes lies in a function's BAR2 (R311), and the function is in D0 (R309; log 178). -/
def inBar2 (s : State) (f : Nat) (off : BitVec 48) (n : Nat) : Bool :=
  !(getFn s f).d3hot && off.toNat + n ≤ 2 ^ (getFn s f).bar2Log

/-- BAR2_ACCESS (R310, R311, R316). A read whose parity error is not cured returns no data. -/
def execBar2Access (fn : FnTlp) (off : BitVec 48) (write : Option (List W8)) (len : Fin 65) (s : State) :
    Host.Outcome State Fault Refusal :=
  let f := fn.fn.val
  let n := match write with | some bs => bs.length | none => len.val
  .next (if !deviceUp s then s
    else if fn.tlp != .good then (discardTlp s f fn.tlp).getD s
    else if !inBar2 s f off n then completeUr s f none
    else match apertureAt s f off n write.isSome, write with
      | none, some _ => apertureFault s f off true
      | none, none => apertureFault (modFn s f (fun x => { x with read := List.replicate n 0 })) f off false
      | some x, some bs => apertureWrite s x bs
      | some x, none =>
        let (r, s) := apertureRead s x n
        modFn s f (fun x => { x with read := r.getD [] }))

/-- The value that a PCI Express AtomicOp leaves (R309), of w bits. -/
def atomicValue (op : PcieAtomic) (w old a b : Nat) : Nat :=
  match op with
  | .fetchAdd => (old + a) % 2 ^ w
  | .swap => a % 2 ^ w
  | .cas => if old = a % 2 ^ w then b % 2 ^ w else old

/-- ATOMICOP (R309, R310, R316): an operation on a page that is not HBM, and a 32-bit CAS, complete with Unsupported
Request. -/
def execAtomicop (fn : FnTlp) (off : BitVec 48) (op : PcieAtomic) (wide : Bool) (a b : W64) (s : State) :
    Host.Outcome State Fault Refusal :=
  let f := fn.fn.val
  let n := if wide then 8 else 4
  let done (s : State) (v : Option W64) (ur : Bool) : State :=
    if ur then completeUr s f v else { s with answers := { s.answers with atomic := v, unsupported := false } }
  .next (if !deviceUp s then s
    else if fn.tlp != .good then (discardTlp s f fn.tlp).getD s
    else if (op == .cas && !wide) || !inBar2 s f off n then done s none true
    else match apertureAt s f off n false, apertureAt s f off n true with
      | some x, some _ =>
        if !inHbm x.pa then done s none true
        else match hbmRead s x.pa n x.mirror false with
          | (none, s) => done s none false
          | (some bs, s) =>
            let old := ofBytes bs
            let s := hbmWrite s x.pa x.mirror (toBytes n (atomicValue op (8 * n) old a.toNat b.toNat))
            done s (some (BitVec.ofNat 64 old)) false
      | _, _ => apertureFault (done s (some 0) false) f off true)

/-- A word of a function's BAR4 (R311, R312): the MSI-X table of four words a vector, whose last holds the mask bit, and the
PBA from 0x8000 on; the rest reads zero. -/
def bar4Reg (s : State) (f o : Nat) : W32 :=
  let x := getFn s f
  if o < 0x800 then
    if o % 16 = 12 then flag (x.masked.getLsbD (o / 16)) 0 else mapGet (fun _ => 0) x.msix (o / 4)
  else if 0x8000 ≤ o ∧ o < 0x8010 then (x.pba >>> (8 * (o - 0x8000))).truncate 32
  else 0

/-- A vector unmasked: if it is pending and MSI-X is on, it is raised (R312). -/
def unmask (x : Fn) (v : Fin 128) : Fn :=
  let bit : BitVec 128 := BitVec.ofNat 128 (2 ^ v.val)
  let x := { x with masked := x.masked &&& ~~~bit }
  if x.msixOn && x.pba.getLsbD v.val then raiseVector { x with pba := x.pba &&& ~~~bit } v else x

/-- A word of BAR4 written (R311, R312): the PBA and the rest ignore writes. -/
def writeBar4 (x : Fn) (o : Nat) (w : W32) : Fn :=
  if 0x800 ≤ o then x
  else if o % 16 = 12 then
    let v : Fin 128 := ⟨o / 16 % 128, Nat.mod_lt _ (by decide)⟩
    if w.getLsbD 0 then { x with masked := x.masked ||| BitVec.ofNat 128 (2 ^ v.val) } else unmask x v
  else { x with msix := mapPut x.msix (o / 4) w }

/-- MSIX_UNMASK (R312): MSI-X is on and the vector unmasked; if it is pending, it is raised. -/
def execMsixUnmask (fn : Fin 16) (vector : Fin 128) (s : State) : Host.Outcome State Fault Refusal :=
  .next (if !deviceUp s then s else modFn s fn.val (fun x => unmask { x with msixOn := true } vector))

end Sys2Proof.Machine
end

