-- ==== Sys2Proof/Machine/Sideband.lean ====
section
/-! DEFINITION. The sideband and attestation (R309, R335, R364, R367, R368, R380, R388): MCTP messages, SPDM requests, DOE
Discovery and PLDM. The layouts of SPDM and DOE messages are those of DSP0274 and of the PCI Express specification, which
the spec names and does not repeat (log 49). -/

namespace Sys2Proof.Machine

/-- The key of a transport in the maps of State. -/
def transportKey : Transport → Nat
  | .i3c => 0 | .vdm => 1 | .doe => 2

/-- Whether a transport's command is still being served: a POWER whose transition goes on. -/
def transportBusy (s : State) (t : Transport) : Bool :=
  match s.pwr.waiter with
  | some (.mctp u, _) => u == t
  | _ => false

/-- The commands that MCTP carries, with PF authority; every other opcode answers DENIED (R335). -/
def mctpCmd (t : Transport) (op : Nat) (q : CmdReq) : Cmd :=
  if op = 0x01 then cmdIdentify (.mctp t) q
  else if op = 0x02 then cmdCapability (.mctp t) q
  else if op = 0xC0 then cmdErrlogRead (.mctp t) q
  else if op = 0x70 then cmdPower (.mctp t) q
  else if op = 0xB0 then cmdSlateReset (.mctp t) q
  else fun s => refuse s stDenied

/-- n bytes of a secret item (log 4). -/
def secretBytes (item n : Nat) : List W8 := (List.range n).map (Config.secretByte item)

/-- The response to an MCTP control message after its header: the completion code and data, as DSP0236 has them (R335;
log 49). `code` is the command code and `data` its first bytes. -/
def controlAnswer (s : State) (eid : W8) (code : Nat) (data : Nat) : List W8 × State :=
  match code with
  | 0x01 => ([0, 0, BitVec.ofNat 8 (fld data 15 8), 0], s)
  | 0x02 => ([0, eid, 0, 0], s)
  | 0x03 => (0 :: secretBytes 7 16, s)
  | 0x04 =>
    if fld data 7 0 = 0xFF ∨ fld data 7 0 = 0 then ([0, 1, 0xF1, 0xF3, 0xF0, 0], s)
    else if [0x01, 0x05, 0x7E].contains (fld data 7 0) then
      let (v, s) := freeBytes s 4
      ([0, 1] ++ v, s)
    else ([0x80], s)
  | 0x05 => ([0, 3, 0x01, 0x05, 0x7E], s)
  | 0x06 => ([0, 0xFF, 0] ++ secretBytes 8 4, s)
  | _ => ([0x05], s)

/-- An MCTP control message served (R335): Set Endpoint ID gives the endpoint its ID, unless that is a reserved one. -/
def mctpControl (s : State) (t : Transport) (code : Nat) (q : CmdReq) : State :=
  let k := transportKey t
  let data := arg q 0
  let eid := mapGet (fun _ => 0) s.answers.eid k
  let set := code = 0x01 ∧ fld data 1 0 < 2 ∧ fld data 15 8 ≠ 0 ∧ fld data 15 8 ≠ 0xFF
  let new : W8 := if set then BitVec.ofNat 8 (fld data 15 8) else eid
  let (bs, s) := if code = 0x01 ∧ ¬ set then ([0x02], s) else controlAnswer s new code data
  { s with answers := { s.answers with control := mapPut s.answers.control k bs, eid := mapPut s.answers.eid k new } }

/-- MCTP_MESSAGE (R335): a control message is answered, a vendor-defined message carries a command; PLDM and SPDM messages
have commands of their own and change nothing here. In boot failure control messages alone are served, over I3C (R388). -/
def execMctpMessage (t : Transport) (type : W8) (opcode : W16) (q : CmdReq) (s : State) : Host.Outcome State Fault Refusal :=
  let failed := deviceUp s && s.pins.bootFailed && t == .i3c
  .next (if type = 0 && t != .doe && (serving s || failed) then mctpControl s t opcode.toNat q
    else if !serving s || t == .doe then s
    else if type != 0x7E || transportBusy s t then s
    else runCmd (.mctp t) opcode.toNat q (mctpCmd t opcode.toNat q) s)

/-- The responder of a transport. -/
def getSpdm (s : State) (t : Transport) : Spdm := mapGet (fun _ => {}) s.spdm (transportKey t)

/-- A responder's state replaced. -/
def putSpdm (s : State) (t : Transport) (x : Spdm) : State := { s with spdm := mapPut s.spdm (transportKey t) x }

/-- A response to an SPDM request, without a change of what is negotiated. -/
def spdmAnswer (s : State) (t : Transport) (bs : List W8) : State := putSpdm s t { getSpdm s t with rsp := bs }

/-- The version that a responder's answers carry: 1.0 before one is negotiated, as DSP0274 has it. -/
def spdmVer (s : State) (t : Transport) : W8 := (getSpdm s t).version.getD 0x10

/-- An SPDM ERROR response. -/
def spdmError (s : State) (t : Transport) (code data : W8) : State := spdmAnswer s t [spdmVer s t, 0x7F, code, data]

/-- SPDM error codes of DSP0274. -/
def errInvalid : W8 := 0x01
@[inherit_doc errInvalid] def errUnexpected : W8 := 0x04
@[inherit_doc errInvalid] def errUnspecified : W8 := 0x05
@[inherit_doc errInvalid] def errUnsupported : W8 := 0x07

/-- A request that needs version and algorithms negotiated. -/
def spdmReady (s : State) (t : Transport) (go : State → State) : State :=
  if !serving s then s
  else if (getSpdm s t).algorithms then go s else spdmError s t errUnexpected 0

/-- GET_VERSION (R367): 1.2 and 1.3. It starts a new negotiation. -/
def execGetVersion (t : Transport) (s : State) : Host.Outcome State Fault Refusal :=
  .next (if !serving s then s
    else putSpdm s t { rsp := [0x10, 0x04, 0, 0, 0, 2, 0x00, 0x12, 0x00, 0x13] })

/-- GET_CAPABILITIES (R367): CERT, CHAL and signed measurements. Timing exponent and sizes are free values. -/
def execGetCapabilities (t : Transport) (s : State) : Host.Outcome State Fault Refusal :=
  .next (if !serving s then s
    else
      let (ct, s) := freeBytes s 1
      let (sizes, s) := freeBytes s 8
      putSpdm s t { version := some 0x13
                    rsp := [0x13, 0x61, 0, 0, 0] ++ ct ++ [0, 0, 0x16, 0, 0, 0] ++ sizes })

/-- NEGOTIATE_ALGORITHMS (R367): EdDSA Ed448, SHA3-384 as hash and measurement hash. -/
def execNegotiateAlgorithms (t : Transport) (s : State) : Host.Outcome State Fault Refusal :=
  .next (if !serving s then s
    else if (getSpdm s t).version.isNone then spdmError s t errUnexpected 0
    else putSpdm s t { getSpdm s t with
      algorithms := true
      rsp := [0x13, 0x63, 0, 0, 36, 0, 1, 0, 0x20, 0, 0, 0, 0x00, 0x08, 0, 0, 0x10, 0, 0, 0] ++ List.replicate 16 0 })

/-- The 48 bytes of a message's SHA3-384 digest (R367). -/
def sha3 (m : List W8) : List W8 := (List.range 48).map (Config.sha3Byte m)

/-- The certificate chain in slot 0 (R363, R367): its length and the root's digest, as DSP0274 has them, the DeviceID
certificate and the alias certificate that ends it. -/
def certChain (x : Sec) : List W8 :=
  let certs := x.deviceCert ++ x.aliasCert
  toBytes 2 (certs.length + 52) ++ [0, 0] ++ sha3 x.deviceCert ++ certs

/-- GET_DIGESTS (R367): the digest of the chain in slot 0. -/
def execGetDigests (t : Transport) (s : State) : Host.Outcome State Fault Refusal :=
  .next (spdmReady s t (fun s => spdmAnswer s t ([0x13, 0x01, 0, 1] ++ sha3 (certChain s.sec))))

/-- GET_CERTIFICATE (R367): a portion of the chain in slot 0. -/
def execGetCertificate (t : Transport) (off len : W16) (s : State) : Host.Outcome State Fault Refusal :=
  .next (spdmReady s t (fun s =>
    let chain := certChain s.sec
    let total := chain.length
    if total ≤ off.toNat then spdmError s t errInvalid 0
    else
      let n := Nat.min len.toNat (total - off.toNat)
      spdmAnswer s t ([0x13, 0x02, 0, 0] ++ toBytes 2 n ++ toBytes 2 (total - off.toNat - n) ++ (chain.drop off.toNat).take n)))

/-- A response that the alias key signs (R363, R364, R367): once the keys are erased it is ERROR Unspecified. The message
signed holds the digest of what was negotiated, which is a free value (log 49), and this answer. -/
def signed (s : State) (t : Transport) (body : List W8) : State :=
  if s.sec.keysErased then spdmError s t errUnspecified 0
  else
    let (before, s) := freeBytes s 48
    spdmAnswer s t (body ++ (List.range 114).map (Config.signatureByte s.sec.aliasKey (before ++ body)))

/-- CHALLENGE (R364, R367): the hash of the chain and a nonce of free values; no opaque data. -/
def execChallenge (t : Transport) (_nonce : List W8) (s : State) : Host.Outcome State Fault Refusal :=
  .next (spdmReady s t (fun s =>
    let (own, s) := freeBytes s 32
    signed s t ([0x13, 0x03, 0, 1] ++ sha3 (certChain s.sec) ++ own ++ [0, 0] ++ List.replicate 8 0)))

/-- The content of a measurement block (R367). -/
def measurement (s : State) (n : Nat) : List W8 :=
  if n = 1 then [s.sec.romVer, s.sec.keyIdx.zeroExtend 8]
  else if n = 2 then sha3 ((fwSlot s.sec s.sec.imageB).image.drop 256)
  else if n = 3 then wordsBytes [secReg s 0x00, secReg s 0x80, secReg s 0x14, secReg s 0x10]
  else if n = 4 then wordsBytes [secReg s 0x08, secReg s 0x8C]
  else wordsBytes [spineReg s 0x00, spineReg s 0x200]

/-- A measurement block: index, DMTF specification, and the content as a digest or as bits. -/
def measBlock (s : State) (n : Nat) : List W8 :=
  let m := measurement s n
  [BitVec.ofNat 8 n, 1] ++ toBytes 2 (m.length + 3) ++ [if n = 2 then 0x01 else 0x84] ++ toBytes 2 m.length ++ m

/-- GET_MEASUREMENTS (R364, R367, R368): index 0 asks how many blocks there are, 0xFF for all of them. -/
def execGetMeasurements (t : Transport) (index : W8) (sign : Bool) (s : State) : Host.Outcome State Fault Refusal :=
  .next (spdmReady s t (fun s =>
    let n := index.toNat
    if 5 < n ∧ n ≠ 0xFF then spdmError s t errInvalid 0
    else
      let l := if n = 0xFF then [1, 2, 3, 4, 5] else if n = 0 then [] else [n]
      let rec_ := l.flatMap (measBlock s)
      let (own, s) := freeBytes s 32
      let body := [0x13, 0x60, if n = 0 then 5 else 0, 0, BitVec.ofNat 8 l.length] ++ toBytes 3 rec_.length ++ rec_ ++ own
        ++ [0, 0] ++ List.replicate 8 0
      if sign then signed s t body else spdmAnswer s t body))

/-- A request that the responder does not support (R367). -/
def unsupported (s : State) (t : Transport) (code : W8) : State :=
  if serving s then spdmError s t errUnsupported code else s

/-- KEY_EXCHANGE (R367). -/
def execKeyExchange (t : Transport) (s : State) : Host.Outcome State Fault Refusal := .next (unsupported s t 0xE4)
/-- PSK_EXCHANGE (R367). -/
def execPskExchange (t : Transport) (s : State) : Host.Outcome State Fault Refusal := .next (unsupported s t 0xE6)
/-- SET_CERTIFICATE (R367). -/
def execSetCertificate (t : Transport) (s : State) : Host.Outcome State Fault Refusal := .next (unsupported s t 0xEE)

/-- DOE_DISCOVERY (R309): object 0 is DOE Discovery, object 1 CMA-SPDM. -/
def execDoeDiscovery (index : W8) (s : State) : Host.Outcome State Fault Refusal :=
  let w : W32 := if index = 0 then 0x01000001 else if index = 1 then 0x00010001 else 0x0000FFFF
  .next (if serving s then { s with answers := { s.answers with doe := [w] } } else s)

/-- PLDM_PLATFORM (R335, R380): the temperature, power, thermal and state sensors, or the power limit's effecter. -/
def execPldmPlatform (r : PldmReq) (s : State) : Host.Outcome State Fault Refusal :=
  .next (if !serving s then s
    else match r with
      | .readSensors =>
        { s with answers := { s.answers with pldm := [pwrReg s 0x14, pwrReg s 0x10, pwrReg s 0x18, pwrReg s 0x00] } }
      | .setPowerLimit w => setBudget { s with pwr := { s.pwr with limit := w } })

/-- PLDM_FIRMWARE_UPDATE (R388): in boot failure, an image that passes R365 is written to the slot named. -/
def execPldmFirmwareUpdate (slotB : Bool) (image : List W8) (digestOk sigOk : Bool) (s : State) :
    Host.Outcome State Fault Refusal :=
  let f := fwImage image digestOk sigOk
  .next (if deviceUp s && s.pins.bootFailed && (fwFault s.sec f).isNone then putSlot s slotB f else s)

end Sys2Proof.Machine
end

