-- ==== Sys2Proof/Machine/Jtag.lean ====
section
/-! DEFINITION. The TAP of the debug header (R369, R370, R389): the mandatory IEEE 1149.1 instructions, IDCODE, the
mailbox, and TRST_N. DBG_ACCESS stands in Space.lean. The instruction codes other than R370's two, and the boundary
register as one cell, are the model's (log 50). -/

namespace Sys2Proof.Machine

/-- Whether the TAP takes instructions: the module has power and TRST_N is high. -/
def tapServes (s : State) : Bool := s.pins.rails && !s.tap.held

/-- The TAP changed. -/
def modTap (s : State) (f : Tap → Tap) : State := { s with tap := f s.tap }

/-- The data shifted out of the bypass register: one bit, delayed by one. -/
def bypassShift (x : Tap) (tdi : Bool) : Tap := { x with tdo := flag x.bypassBit 0, bypassBit := tdi }

/-- DBG_MBOX (R370): opcodes 0x0080 to 0x0082 alone; any other is unknown to the mailbox. -/
def execDbgMbox (opcode : W16) (q : CmdReq) (proofOk : Bool) (s : State) : Host.Outcome State Fault Refusal :=
  let op := opcode.toNat
  let go : Cmd :=
    if op = 0x80 then cmdDebugChallenge .mbox q true
    else if op = 0x81 then cmdDebugUnlock .mbox q true proofOk
    else if op = 0x82 then cmdDebugClose .mbox q
    else fun s => refuse s stBadOpcode
  .next (if !tapServes s then s else serveMbox op q go (modTap s (fun x => { x with ir := 0x21 })))

/-- IDCODE (R370): revision, part, 0x5A3 and 1. -/
def idcodeWord (s : State) : W32 :=
  let p := s.spine.part.toNat
  pack [(fld p 11 8, 28), (fld p 7 0, 12), (0x5A3, 1), (1, 0)]

/-- IDCODE (R370) shifts the identification word out. -/
def execIdcode (s : State) : Host.Outcome State Fault Refusal :=
  .next (if tapServes s then modTap s (fun x => { x with ir := 0x01, tdo := idcodeWord s }) else s)

/-- BYPASS (R369). -/
def execBypass (tdi : Bool) (s : State) : Host.Outcome State Fault Refusal :=
  .next (if tapServes s then modTap s (fun x => bypassShift { x with ir := 0xFF } tdi) else s)

/-- SAMPLE/PRELOAD (R369): the cell's sample leaves and a new bit is preloaded; pins and device are untouched. The sampled
pin is a free value. -/
def execSamplePreload (tdi : Bool) (s : State) : Host.Outcome State Fault Refusal :=
  .next (if tapServes s then
      let (v, s) := freeBits s
      modTap s (fun x => { x with ir := 0x02, tdo := flag (v.getLsbD 0) 0, boundary := tdi })
    else s)

/-- Whether EXTEST and INTEST are granted (R369): Control and above. -/
def testGranted (s : State) : Bool := 2 ≤ debugLevel s

/-- EXTEST (R369): the boundary cell drives its pin, and what another pin holds is captured as a free value. Below Control
the instruction acts as BYPASS. -/
def execExtest (tdi : Bool) (s : State) : Host.Outcome State Fault Refusal :=
  .next (if !tapServes s then s
    else if !testGranted s then modTap s (fun x => bypassShift x tdi)
    else
      let (v, s) := freeBits s
      modTap s (fun x => { x with ir := 0x00, tdo := flag (v.getLsbD 0) 0, boundary := tdi, driven := some tdi }))

/-- INTEST (R369): the boundary cell drives the core's input, and the core's output is captured as a free value; no pin is
driven. Below Control the instruction acts as BYPASS. -/
def execIntest (tdi : Bool) (s : State) : Host.Outcome State Fault Refusal :=
  .next (if !tapServes s then s
    else if !testGranted s then modTap s (fun x => bypassShift x tdi)
    else
      let (v, s) := freeBits s
      modTap s (fun x => { x with ir := 0x03, tdo := flag (v.getLsbD 0) 0, boundary := tdi, driven := none }))

/-- TRST_N (R389): low holds the TAP in Test-Logic-Reset, where IDCODE is selected; no device state is touched. -/
def execTrstN (low : Bool) (s : State) : Host.Outcome State Fault Refusal :=
  .next (if !s.pins.rails then s
    else modTap s (fun x => if low then { x with ir := 0x01, held := true, bypassBit := false, driven := none }
      else { x with held := false }))

end Sys2Proof.Machine
end

