-- ==== Sys2Proof/Machine/Space.lean ====
section
/-! DEFINITION. Writes and reads of control space (R361, R370, R377, R397 to R408): direct accesses by any path, the
broadcast windows, the debug memory window, and DBG_ACCESS. -/

namespace Sys2Proof.Machine

/-- A counter that a write of all ones clears. -/
def clearOnes (old v : W32) : W32 := if v = BitVec.allOnes 32 then 0 else old

/-- A register of the Slate controller written. -/
def writeSlateReg (s : State) (t o : Nat) (v : W32) : State :=
  let watch (f : SlateWatch → SlateWatch) : State := modSlate s t (fun x => { x with watch := f x.watch })
  if 0x20 ≤ o ∧ o < 0x40 then modSlate s t (fun x => { x with bgrp := mapPut x.bgrp ((o - 0x20) / 4) v })
  else if o = 0x50 then modPage s t (fun p => { p with stale := clearOnes p.stale v })
  else if o = 0xA0 then watch (fun w => { w with stallCfg := v &&& 0xC0FFFFFF })
  else if o = 0xA4 then watch (fun w => { w with fired := w.fired && !v.getLsbD 31 })
  else if o = 0xA8 then watch (fun w => { w with dumpBase := (w.dumpBase >>> 32 <<< 32) ||| (v &&& 0xFFFFF000).zeroExtend 48 })
  else if o = 0xAC then watch (fun w => { w with dumpBase := (v.zeroExtend 48 <<< 32) ||| (w.dumpBase &&& 0xFFFFFFFF) })
  else if o = 0xB0 then watch (fun w => { w with dumpDone := w.dumpDone && !v.getLsbD 30 })
  else if o = 0xB4 then watch (fun w => { w with slumbers := clearOnes w.slumbers v })
  else s

/-- The order staged in BRUSH_k_ORDER_0 to _15 pushed (R182): one that finds the queue full ends the job. A failed brush
takes no order (R190). -/
def pushOrder (s : State) (k : Nat) : State :=
  let b := getBrush s k
  if b.failed then s
  else
    let ws := (List.range 16).map (fun w => mapGet (fun _ => 0) b.stage w)
    let (s, lost) := enterOrder s k ws
    if lost then endJob s (k / 6) 0x04 else s

/-- A register of a brush written (R179, R182, R188, R191). -/
def writeBrushReg (s : State) (k o : Nat) (v : W32) : State :=
  let port (f : InPort → InPort) : State := modBrush s k (fun b =>
    let n := (o - 0x20) / 16
    let x : InPort := f (mapGet (fun _ => {}) b.inPorts n)
    { b with inPorts := mapPut b.inPorts n { x with ptr := x.base } })
  if o = 0x08 then if v.getLsbD 0 then flushBrush s k else s
  else if o = 0x0C then modBrush s k (fun b => { b with oqovf := b.oqovf && !v.getLsbD 29 })
  else if o = 0x10 then if v &&& 0xFF = 0x80 then s else modBrush s k (fun b => { b with gscale := v &&& 0xFF })
  else if o = 0x14 then modBrush s k (fun b => { b with wdog := v &&& 0xFFFFFF })
  else if o = 0x1C then modBrush s k (fun b => { b with drops := clearOnes b.drops v })
  else if 0x20 ≤ o ∧ o < 0x60 then
    if o % 16 = 0 then port (fun p => { p with cfg := v &&& 0x83FF0003 })
    else if o % 16 = 4 then port (fun p => { p with base := v &&& 0x000FFFC0 })
    else if o % 16 = 8 then port (fun p => { p with limit := v &&& 0x001FFFC0 })
    else s
  else if 0x100 ≤ o ∧ o < 0x140 then
    let s := modBrush s k (fun b => { b with stage := mapPut b.stage ((o - 0x100) / 4) v })
    if o = 0x13C then pushOrder s k else s
  else s

/-- The writes of the Slate controller that wait at a bead performed, oldest first, as far as none has to wait any longer. -/
def drainHeld (s : State) (i : Nat) : Nat → State
  | 0 => s
  | n + 1 =>
    let b := getBead s i
    match b.heldWrites with
    | [] => s
    | (o, v) :: ws =>
      if beadWriteWaits b o v then s
      else drainHeld (writeBeadReg (putBead s i { b with heldWrites := ws }) i o v .space) i n

/-- The number of a requester. -/
def pathCode : Path → Nat
  | .bar0 => 0 | .jtag => 1 | .firmware => 2

/-- The accesses of a requester that wait (R124, R401). -/
def heldOf (s : State) (p : Path) : List HeldAcc := mapGet (fun _ => []) s.heldAcc (pathCode p)
/-- The accesses of a requester that wait replaced. -/
def setHeld (s : State) (p : Path) (l : List HeldAcc) : State := { s with heldAcc := mapPut s.heldAcc (pathCode p) l }

/-- A bead register written through control space (R124, R401): a write that has to wait is held for its requester. -/
def writeBead (s : State) (p : Path) (i o : Nat) (v : W32) : State :=
  if beadWriteWaits (getBead s i) o v then setHeld s p (heldOf s p ++ [.bead i o v]) else writeBeadReg s i o v .space

/-- A register of the spine control block written (R384, R405, R407). -/
def writeSpineReg (s : State) (o : Nat) (v : W32) : State :=
  let x := s.spine
  if 0x10 ≤ o ∧ o < 0x20 then { s with spine := { x with groups := mapPut x.groups ((o - 0x10) / 4) (v &&& 0xF) } }
  else if o = 0x20 then
    { s with spine := { x with diverge := x.diverge && !v.getLsbD 31, skipped := x.skipped && !v.getLsbD 30 } }
  else if o = 0x30 then { s with spine := { x with dbgBase := v.truncate 28 } }
  else if o = 0x208 then { s with spine := { x with scribeWd := v &&& 0xFFFFFF } }
  else if o = 0x20C then { s with spine := { x with slateWd := v &&& 0xFFFFFF } }
  else if 0x220 ≤ o ∧ o < 0x240 then
    let n := (o - 0x220) / 4
    { s with spine := { x with corr := mapPut x.corr n (clearOnes (mapGet (fun _ => 0) x.corr n) v) } }
  else if o = 0x300 then if v.getLsbD 0 then warmReset s 5 else s
  else s

/-- A register of the stroke unit written (R308). -/
def writeStrokeReg (s : State) (o : Nat) (v : W32) : State :=
  if o = 0x00 then writeStrokeCfg s v
  else if o = 0x04 then
    let s := modStroke s (fun x => { x with recovering := v.getLsbD 8 })
    let s := if v.getLsbD 0 then fenceUnit s else s
    if v.getLsbD 1 then unfenceUnit s else s
  else if o = 0x08 then modStroke s (fun x => { x with lenNext := some (v.truncate 24) })
  else if o = 0x18 then modStroke s (fun x => { x with
    slip := x.slip && !v.getLsbD 31, loss := x.loss && !v.getLsbD 30, miss := x.miss && !v.getLsbD 29
    late := x.late && !v.getLsbD 28, echoLate := x.echoLate && !v.getLsbD 27, replayx := x.replayx && !v.getLsbD 24 })
  else if o = 0x20 then modAux s (fun a => { a with pinAdj := v.truncate 8 })
  else if o = 0x24 then modAux s (fun a => { a with pbudget := v.truncate 16 })
  else if o = 0x30 then writeStrokeAlloc s v
  else if o = 0x44 then modAux s (fun a => { a with echoMax := if v = BitVec.allOnes 32 then 0 else a.echoMax })
  else if o = 0x48 then modAux s (fun a => { a with devnum := v.truncate 12 })
  else s

/-- A register of a Ductus port written (R308). -/
def writePortReg (s : State) (p o : Nat) (v : W32) : State :=
  if o = 0x00 then writePortCfg s p (v.truncate 4)
  else modPort s p (fun x =>
    if o = 0x0C then { x with corr := clearOnes x.corr v }
    else if o = 0x10 then { x with uncorr := clearOnes x.uncorr v }
    else if o = 0x14 then { x with drop := clearOnes x.drop v }
    else x)

/-- A register of the ledger engine written (R359). -/
def writeLedgerReg (s : State) (o : Nat) (v : W32) : State :=
  let l := s.ledger
  { s with ledger :=
    if o = 0x0C then { l with cfg := v &&& 0xF }
    else if o = 0x10 then { l with commits := clearOnes l.commits v }
    else if o = 0x14 then { l with restarts := clearOnes l.restarts v }
    else l }

/-- SEAL (R361): the customer's fields are burnt as they stand; a key or digest never written is not valid. -/
def sealNow (x : Sec) : Sec :=
  let c := if x.dbgKey.isEmpty then x.fuseCfg &&& 6 else x.fuseCfg
  let c := if x.ppDigest.isEmpty then c &&& 5 else c
  { x with fuseCfg := c, burnt := some (x.dbgKey, x.ppDigest, c), pendingLc := some .sealed }

/-- SEC_LC_CTL written (R361): in Open, by the PF or the JTAG port, while nothing is pending. Where both bits are written,
which of them takes effect is a free value. -/
def writeLcCtl (s : State) (p : Path) (v : W32) : State :=
  if p == .firmware || s.sec.lifecycle != .openLc || s.sec.pendingLc.isSome then s
  else
    let both := v.getLsbD 0 && v.getLsbD 1
    let (f, s) := if both then freeBits s else (0, s)
    if v.getLsbD 0 && !(both && f.getLsbD 0) then { s with sec := sealNow s.sec }
    else if v.getLsbD 1 then { s with sec := { s.sec with pendingLc := some .voided } }
    else s

/-- A register of the security block written: RL fields take a write until the device is Sealed (R360). -/
def writeSecReg (s : State) (p : Path) (o : Nat) (v : W32) : State :=
  let x := s.sec
  let rl := x.lifecycle == .openLc || x.lifecycle == .blank
  if o = 0x04 then writeLcCtl s p v
  else if o = 0x1C then { s with sec := { x with denyCount := clearOnes x.denyCount v } }
  else if !rl then s
  else if 0x20 ≤ o ∧ o < 0x5C then
    let n := (o - 0x20) / 4
    { s with sec := { x with dbgKey := mapPut x.dbgKey n (if n = 14 then v &&& 0xFF else v) } }
  else if 0x60 ≤ o ∧ o < 0x80 then { s with sec := { x with ppDigest := mapPut x.ppDigest ((o - 0x60) / 4) v } }
  else if o = 0x80 then { s with sec := { x with fuseCfg := v &&& 7 } }
  else s

/-- A register of the power block written: firmware keeps STROKE_PBUDGET with it (R380). -/
def writePwrReg (s : State) (o : Nat) (v : W32) : State :=
  if o = 0x08 then setBudget { s with pwr := { s.pwr with limit := v.truncate 16 } }
  else if o = 0x0C then setBudget { s with pwr := { s.pwr with reserve := v.truncate 16 } }
  else s

/-- Whether a location lies in a Slate that is in Slate reset, whose registers take no write. -/
def locInReset (s : State) : Loc → Bool
  | .slate t _ => (getSlate s t).inReset
  | .brush k _ => (getSlate s (k / 6)).inReset
  | .bead i _ => (getSlate s (i / 256)).inReset
  | _ => false

/-- The debug window's target (R397, R404): none where it is refused as reserved. -/
def dbgTarget (s : State) (o : Nat) : Option Nat :=
  let a := s.spine.dbgBase.toNat * 2 ^ 20 + o
  match regionOf a with
  | .hbm .. => some a
  | .folio j _ => if beadExists s j || (slateRefuses s none (j / 256)).isSome then some a else none
  | .reservoir .. => some a
  | .ink .. => some a
  | _ => none

/-- The error-log cause of an access to an absent or offline Slate (R5, R21). -/
def dbgAway (s : State) (a : Nat) : Option (Nat × Nat) :=
  match regionOf a with
  | .hbm _ _ => (regionSlate (regionOf a)).bind (fun t => if slatePresent s t then none else some (0x01, t))
  | r => (regionSlate r).bind (fun t => (slateRefuses s none t).map (fun c => (c, t)))

/-- Whether an address lies in the firmware region or its mirror. -/
def inFirmware (s : State) (a : Nat) : Bool := inHbm a && firmwarePage s (a / 0x200000)

/-- The mirror of a device address for an access through the debug window (R345, R404). -/
def dbgMirror (s : State) (a : Nat) : Option Nat :=
  let l := s.ledger
  let off := a % (stackPages * 0x200000)
  if inFirmware s a then
    if l.mirror = 0xF then none
    else if a / 0x200000 / stackPages = l.primary.toNat then some (l.mirror.toNat * (stackPages * 0x200000) + off)
    else some (l.primary.toNat * (stackPages * 0x200000) + off)
  else copyMirror s a

/-- Whether a brush memory at a device address refuses access because its brush has failed (R190). -/
def dbgFailed (s : State) (a : Nat) : Bool :=
  match regionOf a with
  | .reservoir k _ => brushRefuses s k
  | .ink k _ => brushRefuses s k
  | _ => false

/-- An access through the debug window (R404), once its place in the window is judged: `got` receives the bytes read. -/
def windowAccess (s : State) (p : Path) (o n : Nat) (write : Option (List W8)) (got : State → List W8 → State) : State :=
  let nothing (s : State) : State := if write.isSome then s else got s (List.replicate n 0)
  match dbgTarget s o with
  | none => nothing s
  | some a =>
    match dbgAway s a with
    | some (c, t) => nothing (logSlate s c t (BitVec.ofNat 32 (a / 0x10000)))
    | none =>
      if !granted s p (.dbgwin o) write.isSome then nothing (deny s)
      else if dbgFailed s a then nothing s
      else
        let x : Xlat := ⟨a, dbgMirror s a, false⟩
        match write with
        | some bs =>
          if inFirmware s a && p != .firmware && debugLevel s < 3 then deny s else apertureWrite s x bs
        | none =>
          let (r, s) := if inFirmware s a then (let (bs, s) := freeBytes s n; (some bs, s)) else apertureRead s x n
          got s (r.getD [])

/-- A word of an accumulator cell written (R56). -/
def writeCell (c : Cell) (e : Bool) (v : W32) : Cell := if e then { c with e := v } else { c with s := v }

/-- A word of a tile row written; word 16 is its scale word. -/
def writeTileWord (x : TileRow) (w : Nat) (v : W32) : TileRow :=
  if w = 16 then { x with scale := v }
  else
    let m : Row := (BitVec.allOnes 32).zeroExtend 512 <<< (32 * w)
    { x with data := (x.data &&& ~~~m) ||| (v.zeroExtend 512 <<< (32 * w)) }

/-- A granted write of one register (R401). -/
def writeLoc (s : State) (p : Path) (v : W32) : Loc → State
  | .slate t o => writeSlateReg s t o v
  | .brush k o => writeBrushReg s k o v
  | .bead i o => writeBead s p i o v
  | .nibCell i n e => modBead s i (fun b => { b with
      nibCells := mapPut b.nibCells n (writeCell (mapGet (fun _ => {}) b.nibCells n) e v) })
  | .brushCell k n e => modBrush s k (fun b => { b with
      cells := mapPut b.cells n (writeCell (mapGet (fun _ => {}) b.cells n) e v), cellBad := b.cellBad.filter (· != n) })
  | .tileWord i t r w => modBead s i (fun b => putRow b t r (writeTileWord (tileRow b t r) w v))
  | .spine o => writeSpineReg s o v
  | .stroke o => writeStrokeReg s o v
  | .port q o => writePortReg s q o v
  | .ledger o => writeLedgerReg s o v
  | .sec o => writeSecReg s p o v
  | .pwr o => writePwrReg s o v
  | _ => s

/-- A write of one register judged and performed (R370, R397, R401). -/
def locWrite (s : State) (p : Path) (l : Loc) (v : W32) : State :=
  guardAccess s p l true (fun s => if locInReset s l then s else writeLoc s p v l) id

/-- Whether a register is coded RWB, and so takes a write through a window (R406). -/
def isRwb : Loc → Bool
  | .slate _ o => 0x20 ≤ o && o < 0x40
  | .bead _ o =>
    (0x08 ≤ o && o < 0x20) || o == 0x24 || o == 0x2C || o == 0x60 || o == 0x68 || (0x70 ≤ o && o < 0xA0) || o == 0x520
  | _ => false

/-- A broadcast window (R400, R405): its code in SPINE_BCAST_STAT and its members' registers in ascending order. -/
structure WindowAt where
  code : Nat
  members : List Loc
deriving DecidableEq, Repr

/-- The register at an offset of a Slate's bead block b, where the position holds a site. -/
def beadAt (s : State) (t b o : Nat) : Option Loc :=
  match slateLoc s t (0x300000 + b * 0x1000 + o) with
  | .bead i o => some (.bead i o)
  | _ => none

/-- The members of a Slate window: present Slates with open crossings that satisfy p. -/
def slateMembers (s : State) (o : Nat) (p : Nat → Bool) : List Loc :=
  ((presentSlates s).filter (fun t => !slateOffline s t && p t)).filterMap (fun t => match slateLoc s t o with
    | .reserved => none
    | .absent .. => none
    | l => some l)

/-- The window that an offset of the spine region lies in (R400, R405). -/
def windowAt (s : State) (o : Nat) : Option WindowAt :=
  let beads (t : Nat) (l : List Nat) : List Loc := l.filterMap (fun b => beadAt s t b (o % 0x1000))
  if o < 0x1000000 then none
  else if o < 0x2000000 then some ⟨0, slateMembers s (o % 0x1000000) (fun _ => true)⟩
  else if o < 0x6000000 then
    let g := o / 0x1000000 - 2
    some ⟨1 + g, slateMembers s (o % 0x1000000) (fun t => (mapGet (fun _ => 0) s.spine.groups g).getLsbD t)⟩
  else if o < 0x6100000 then
    let t := (o - 0x6000000) / 0x40000
    let r := (o - 0x6000000) % 0x40000
    if r < 0x1000 then some ⟨5, beads t (List.range 256)⟩
    else if r < 0x2000 then
      some ⟨6, beads t ((List.range 256).filter (fun b =>
        (mapGet (fun _ => 0) (getSlate s t).bgrp (b / 32)).getLsbD (b % 32)))⟩
    else if 0x10000 ≤ r ∧ r < 0x20000 then
      some ⟨7, beads t ((List.range 16).map (fun q => (r - 0x10000) / 0x1000 * 16 + q))⟩
    else none
  else none

/-- A write through a window (R406): at every member in ascending order, each an ordinary write of an RWB register. -/
def windowWrite (s : State) (p : Path) (o : Nat) (v : W32) : State :=
  match windowAt s (o / 4 * 4) with
  | none => s
  | some w =>
    if granted s p (.window o) true then
      w.members.foldl (fun s l => if isRwb l then locWrite s p l v else s) s
    else deny s

/-- The words of a window's members, each read without side effect; one that consent refuses reads as zero and is counted
(R370, R375). -/
def memberWords (s : State) (p : Path) : List Loc → List W32 × State
  | [] => ([], s)
  | l :: ls =>
    let ok := granted s p l false
    let w := if ok then locRead s l else 0
    let (ws, s) := memberWords (if ok then s else deny s) p ls
    (w :: ws, s)

/-- A read through a window (R407): the lowest member's word, and DIVERGE where another differs. -/
def windowRead (s : State) (p : Path) (o : Nat) : W32 × State :=
  let o := o / 4 * 4
  match windowAt s o with
  | none => (0, s)
  | some w =>
    if !granted s p (.window o) false then (0, deny s)
    else
      let (ws, s) := memberWords s p w.members
      match ws with
      | [] => (0, s)
      | v :: rest =>
        let x := s.spine
        if rest.all (· == v) then (v, s)
        else if x.diverge then (v, s)
        else (v, { s with spine := { x with
          diverge := true, bcastPath := BitVec.ofNat 2 (pathCode p), bcastWin := BitVec.ofNat 4 w.code
          bcastAddr := BitVec.ofNat 32 o } })

/-- The location that a place of control space names; a bead or brush that is not there has none. -/
def placeLoc (s : State) : CtlPlace → Loc
  | .addr a => locOf s a.toNat
  | .nibCell b n e => if beadExists s (beadNo b) then .nibCell (beadNo b) n.val e else .reserved
  | .brushCell k n e => if slateRuns s k.slate.val then .brushCell (brushNo k) n.toNat e else .reserved
  | .tileWord b t r w => if beadExists s (beadNo b) then .tileWord (beadNo b) t.val r.val w.val else .reserved

/-- A write of one word of control space performed (R401, R403 to R406). -/
def writeNow (s : State) (p : Path) (a : CtlPlace) (v : W32) : State :=
  match placeLoc s a with
  | .window o => windowWrite s p o v
  | .dbgwin o => windowAccess s p (o / 4 * 4) 4 (some (toBytes 4 v.toNat)) (fun s _ => s)
  | l => locWrite s p l v

/-- A read of one word of control space performed (R401, R403 to R407). -/
def readNow (s : State) (p : Path) (a : CtlPlace) : State :=
  match placeLoc s a with
  | .window o =>
    let (v, s) := windowRead s p o
    answerPath s p v
  | .dbgwin o => windowAccess s p (o / 4 * 4) 4 none (fun s bs => answerPath s p (wordAt bs 0))
  | l => spaceRead s p l

/-- One access of a requester performed. A bead register write that was held takes effect, or waits on (R124). -/
def performAcc (s : State) (p : Path) : HeldAcc → State
  | .bead i o v => if locInReset s (.bead i o) then s else writeBead s p i o v
  | .write a v => writeNow s p a v
  | .read a => readNow s p a
  | .window o n w => windowAccess s p o n w (fun s bs => { s with answers := { s.answers with window := bs } })

/-- The accesses of a requester that wait performed in order, as far as none has to wait any longer (R401). -/
def drainPath (s : State) (p : Path) : Nat → State
  | 0 => s
  | n + 1 =>
    match heldOf s p with
    | [] => s
    | x :: rest =>
      let s := performAcc (setHeld s p []) p x
      let q := heldOf s p
      let s := setHeld s p (q ++ rest)
      if q.isEmpty then drainPath s p n else s

/-- One access of a requester (R401): performed at once, or behind the accesses of that requester which wait. -/
def access (s : State) (p : Path) (x : HeldAcc) : State :=
  if !deviceUp s then s
  else if (heldOf s p).isEmpty then performAcc s p x
  else
    let s := drainPath s p (heldOf s p).length
    if (heldOf s p).isEmpty then performAcc s p x else setHeld s p (heldOf s p ++ [x])

/-- A write of one word at an offset of control space. -/
def spaceWrite (s : State) (p : Path) (a : Nat) (v : W32) : State := access s p (.write (.addr (BitVec.ofNat 30 a)) v)
/-- A read of one word at an offset of control space. -/
def wordRead (s : State) (p : Path) (a : Nat) : State := access s p (.read (.addr (BitVec.ofNat 30 a)))

/-- The offset of a bead's register in control space, through the logical alias (R400). -/
def beadAddr (b : BeadRef) (o : Nat) : Nat := b.slate.val * 0x4000000 + 0x300000 + b.bead.val * 0x1000 + o
/-- The offset of a hand's register (R91). -/
def handAddr (h : HandRef) (o : Nat) : Nat := beadAddr h.br (0x100 + 0x100 * h.hand.val + o)
/-- The offset of a brush's register (R400). -/
def brushAddr (k : BrushRef) (o : Nat) : Nat := k.slate.val * 0x4000000 + 0x10000 + k.brush.val * 0x1000 + o
/-- The offset of a register of the spine region (R400). -/
def spineAddr (o : Nat) : Nat := 0x10000000 + o

/-- TCMP_WRITE (R67). -/
def execTcmpWrite (p : Path) (h : HandRef) (hi : Bool) (v : W32) (s : State) : Host.Outcome State Fault Refusal :=
  .next (spaceWrite s p (handAddr h (if hi then 0x54 else 0x50)) v)

/-- BEAD_INT_MASK_WRITE (R81). -/
def execBeadIntMaskWrite (p : Path) (b : BeadRef) (v : W32) (s : State) : Host.Outcome State Fault Refusal :=
  .next (spaceWrite s p (beadAddr b 0x24) v)

/-- START (R64): STATE of hand 0 written. -/
def execStartHand0 (p : Path) (b : BeadRef) (v : W32) (s : State) : Host.Outcome State Fault Refusal :=
  .next (spaceWrite s p (beadAddr b 0x158) v)

/-- BEAD_CHAN_CFG_WRITE (R71). -/
def execBeadChanCfgWrite (p : Path) (b : BeadRef) (v : W32) (s : State) : Host.Outcome State Fault Refusal :=
  .next (spaceWrite s p (beadAddr b 0x10) v)

/-- BEAD_TCFG_WRITE (R124). -/
def execBeadTcfgWrite (p : Path) (b : BeadRef) (t : Fin 8) (v : W32) (s : State) : Host.Outcome State Fault Refusal :=
  .next (spaceWrite s p (beadAddr b (0x80 + 4 * t.val)) v)

/-- BEAD_VQ_BIND_WRITE (R246). -/
def execBeadVqBindWrite (p : Path) (b : BeadRef) (v : W32) (s : State) : Host.Outcome State Fault Refusal :=
  .next (spaceWrite s p (beadAddr b 0x520) v)

/-- BEAD_QCLOSE_WRITE (R248). -/
def execBeadQcloseWrite (p : Path) (b : BeadRef) (v : W32) (s : State) : Host.Outcome State Fault Refusal :=
  .next (spaceWrite s p (beadAddr b 0x518) v)

/-- BEAD_BLOT_CFG_WRITE (R145, R146). -/
def execBeadBlotCfgWrite (p : Path) (b : BeadRef) (v : W32) (s : State) : Host.Outcome State Fault Refusal :=
  .next (spaceWrite s p (beadAddr b 0x68) v)

/-- ABORT (R245): QCTL written. -/
def execAbortMsg (p : Path) (h : HandRef) (v : W32) (s : State) : Host.Outcome State Fault Refusal :=
  .next (spaceWrite s p (handAddr h 0xA8) v)

/-- HALT (R377). -/
def execHaltHand (p : Path) (h : HandRef) (s : State) : Host.Outcome State Fault Refusal :=
  .next (spaceWrite s p (handAddr h 0xAC) 1)

/-- RELEASE (R377). -/
def execReleaseHand (p : Path) (h : HandRef) (s : State) : Host.Outcome State Fault Refusal :=
  .next (spaceWrite s p (handAddr h 0xAC) 2)

/-- BEAD_TICK_LO_READ (R67). -/
def execBeadTickLoRead (p : Path) (b : BeadRef) (s : State) : Host.Outcome State Fault Refusal :=
  .next (wordRead s p (beadAddr b 0x38))

/-- SLATE_TICK_LO_READ (R400). -/
def execSlateTickLoRead (p : Path) (sl : Fin 4) (s : State) : Host.Outcome State Fault Refusal :=
  .next (wordRead s p (sl.val * 0x4000000 + 0x08))

/-- STROKE_COUNT_LO_READ (R308). -/
def execStrokeCountLoRead (p : Path) (s : State) : Host.Outcome State Fault Refusal :=
  .next (wordRead s p (spineAddr 0x1000C))

/-- ORDER_PUSH (R182): BRUSH_k_ORDER_15 written. -/
def execOrderPush (p : Path) (k : BrushRef) (v : W32) (s : State) : Host.Outcome State Fault Refusal :=
  .next (spaceWrite s p (brushAddr k 0x13C) v)

/-- FLUSH (R188). -/
def execFlush (p : Path) (k : BrushRef) (s : State) : Host.Outcome State Fault Refusal :=
  .next (spaceWrite s p (brushAddr k 0x08) 1)

/-- STROKE_CTL as it stands, with a bit of its low byte written. -/
def strokeCtl (s : State) (bit : Nat) : W32 := flag s.stroke.recovering 8 ||| BitVec.ofNat 32 (2 ^ bit)

/-- FENCE_STROKE (R289). -/
def execFenceStroke (p : Path) (s : State) : Host.Outcome State Fault Refusal :=
  .next (spaceWrite s p (spineAddr 0x10004) (strokeCtl s 0))

/-- UNFENCE (R289). -/
def execUnfence (p : Path) (s : State) : Host.Outcome State Fault Refusal :=
  .next (spaceWrite s p (spineAddr 0x10004) (strokeCtl s 1))

/-- SEAL (R361). -/
def execSealLc (p : Path) (s : State) : Host.Outcome State Fault Refusal := .next (spaceWrite s p (spineAddr 0x40004) 1)
/-- VOID (R361). -/
def execVoidLc (p : Path) (s : State) : Host.Outcome State Fault Refusal := .next (spaceWrite s p (spineAddr 0x40004) 2)
/-- WARM (R384). -/
def execWarm (p : Path) (s : State) : Host.Outcome State Fault Refusal := .next (spaceWrite s p (spineAddr 0x300) 1)

/-- DBG_ACCESS (R370): one word read or written over JTAG; what is read leaves through TDO. -/
def execDbgAccess (write : Option W32) (a : CtlPlace) (s : State) : Host.Outcome State Fault Refusal :=
  .next (if !tapServes s || !deviceUp s then s
    else
      let s := modTap s (fun x => { x with ir := 0x22 })
      match write with
      | some v => access s .jtag (.write a v)
      | none => access s .jtag (.read a))

/-- DEBUG_WINDOW_ACCESS (R404): the bytes read are the answer; a read whose parity error is not cured has none. -/
def execDebugWindowAccess (p : Path) (off : BitVec 20) (write : Option (List W8)) (len : Fin 65) (s : State) :
    Host.Outcome State Fault Refusal :=
  let n := match write with | some bs => bs.length | none => len.val
  .next (access s p (.window off.toNat n write))

/-- BROADCAST_WRITE (R405, R406). -/
def execBroadcastWrite (p : Path) (a : BitVec 30) (v : W32) (s : State) : Host.Outcome State Fault Refusal :=
  .next (spaceWrite s p a.toNat v)

/-- BROADCAST_READ (R405, R407). -/
def execBroadcastRead (p : Path) (a : BitVec 30) (s : State) : Host.Outcome State Fault Refusal :=
  .next (wordRead s p a.toNat)

end Sys2Proof.Machine
end

