-- ==== Sys2Proof/Machine/Doorbell.lean ====
section
/-! DEFINITION. REGISTER_WRITE: writes of control space, of a function's well page with the command doorbell (R317, R318,
R320), of its BAR4 (R311, R312), and of the PCI Express registers that the spec speaks of (R309, R311, R334). -/

namespace Sys2Proof.Machine

/-- The commands of R322 by opcode, as a command well has them. The verdicts of the checks that a command makes with keys are
free values here, since the request's bytes alone do not say them (log 179). -/
def wellCommand (op : Nat) (q : CmdReq) (v : W64) : Option Cmd :=
  let via : Via := .well q.fn
  match op with
  | 0x01 => some (cmdIdentify via q)
  | 0x02 => some (cmdCapability via q)
  | 0x10 => some (cmdCtxCreate via q)
  | 0x11 => some (cmdCtxDestroy via q)
  | 0x12 => some (cmdCtxAttr via q)
  | 0x20 => some (cmdMap via q)
  | 0x21 => some (cmdUnmap via q)
  | 0x30 => some (cmdBookLoad via q)
  | 0x31 => some (cmdBookUnload via q)
  | 0x40 => some (cmdRingBind via q)
  | 0x41 => some (cmdRingUnbind via q)
  | 0x50 => some (cmdCancel via q)
  | 0x51 => some (cmdLedgerQuery via q)
  | 0x60 => some (cmdStrokeConfig via q)
  | 0x61 => some (cmdLinkConfig via q)
  | 0x62 => some (cmdLinkRoute via q)
  | 0x70 => some (cmdPower via q)
  | 0x80 => some (cmdDebugChallenge via q false)
  | 0x81 => some (cmdDebugUnlock via q false (v.getLsbD 0))
  | 0x82 => some (cmdDebugClose via q)
  | 0x90 => some (cmdFwStage via q (v.getLsbD 0) (v.getLsbD 1))
  | 0x91 => some (cmdFwCommit via q)
  | 0xA0 => some (cmdSyncDump via q)
  | 0xB0 => some (cmdSlateReset via q)
  | 0xC0 => some (cmdErrlogRead via q)
  | _ => none

/-- Word w of a function's request area. -/
def reqWord (s : State) (fn : Fin 16) (w : Nat) : W32 := mapGet (fun _ => 0) (getFn s fn.val).req w

/-- The request that stands in a function's request area (R319). -/
def storedReq (s : State) (fn : Fin 16) : CmdReq :=
  let h := (reqWord s fn 0).toNat
  { fn := fn, version := BitVec.ofNat 8 (fld h 23 16), tag := reqWord s fn 1
    args := (List.range 60).map (fun k => reqWord s fn (4 + k))
    hdr := { high := BitVec.ofNat 8 (fld h 31 24), used := some (reqWord s fn 2), spare := reqWord s fn 3 } }

/-- The doorbell (R318, R320): the request that stands in the request area is submitted; an OPCODE that R322 does not list
answers BAD_OPCODE. -/
def ringBell (s : State) (fn : Fin 16) : State :=
  let op := fld (reqWord s fn 0).toNat 15 0
  let q := storedReq s fn
  let (v, s) := freeBits s
  serveWell op q ((wellCommand op q v).getD (fun s => refuse s stBadOpcode)) s

/-- A register of a function's well page written (R317, R318). While BUSY, a write of the request area or the doorbell is
discarded and sets OVERRUN; in the Orphan state the registers keep their values (R334). -/
def writeWell (s : State) (fn : Fin 16) (o : Nat) (v : W32) : State :=
  let f := fn.val
  if wellDeaf s then s
  else if o < 0x100 then
    modFn s f (fun x => if x.busy then { x with overrun := true } else { x with req := mapPut x.req (o / 4) v })
  else if o = 0x200 then (if v.getLsbD 0 then ringBell s fn else s)
  else if o = 0x204 then
    modFn s f (fun x => { x with overrun := x.overrun && !v.getLsbD 2, done := x.done && !v.getLsbD 1 })
  else if o = 0x300 then writeSqTail s fn v
  else if o = 0x320 then writeCqHead s fn v
  else if o = 0x330 then writeEqHead s fn v
  else if o = 0x338 then modFn s f (fun x => { x with eqLost := clearOnes x.eqLost v })
  else if o = 0x34C then modFn s f (fun x => if v.getLsbD 31 then { x with apFault := none } else x)
  else s

/-- The function to which a register belongs that the host writes over the link. -/
def hostFn : RegPlace → Option Nat
  | .ctl .bar0 _ => some 0
  | .ctl _ _ => none
  | .well fn _ | .bar4 fn _ | .bar2Size fn | .power fn | .aer fn => some fn.val
  | .vfEnable => some 0

/-- VF Enable written (R334): clearing it resets every VF. -/
def writeVfEnable (s : State) (on : Bool) : State :=
  if on then { s with vfOn := true }
  else if s.vfOn then { (List.range 15).foldl (fun s k => resetFunction s (k + 1)) s with vfOn := false }
  else s

/-- One register written. BAR2 takes a size from 1 GiB to 512 GiB (R311), and a power state is D0 or D3hot, neither of which
changes a device power state (R309). -/
def writeReg (s : State) (w : RegPlace) (v : W32) : State :=
  match w with
  | .ctl p a => access s p (.write a v)
  | .well fn o => writeWell s fn o.toNat v
  | .bar4 fn o => modFn s fn.val (fun x => writeBar4 x o.toNat v)
  | .bar2Size fn => if 30 ≤ v.toNat ∧ v.toNat ≤ 39 then modFn s fn.val (fun x => { x with bar2Log := v.toNat }) else s
  | .power fn => modFn s fn.val (fun x => match fld v.toNat 1 0 with
    | 0 => { x with d3hot := false }
    | 3 => { x with d3hot := true }
    | _ => x)
  | .aer fn => modFn s fn.val (fun x => { x with aer := x.aer &&& ~~~v })
  | .vfEnable => writeVfEnable s (v.getLsbD 0)

/-- REGISTER_WRITE (R309, R310, R317, R370, R401): a packet that came damaged is discarded, and so is a write whose byte
enables do not cover the word. -/
def execRegisterWrite (w : RegPlace) (tlp : Tlp) (be : BitVec 4) (v : W32) (s : State) : Host.Outcome State Fault Refusal :=
  .next (if !deviceUp s then s
    else match hostFn w with
      | some f => match discardTlp s f tlp with
        | some u => u
        | none => if be = 0xF then writeReg s w v else s
      | none => if be = 0xF then writeReg s w v else s)

end Sys2Proof.Machine
end

