-- ==== Sys2Proof/Machine/GlyphA.lean ====
section
/-! DEFINITION. The meanings of the A-slot glyphs (R106, R152, R158, R159): each hands its glyph to the line its hand is forming.
What the glyph evaluates to stands in `evalGlyph` of Line.lean. -/

namespace Sys2Proof.Machine

/-- XLD (R106): Loads a 32-bit word from memory into index register X0 or X1. -/
def execXld (h : HandRef) (stop : Bool) (x : XReg) (opd : BitVec 22) (s : State) : Host.Outcome State Fault Refusal :=
  .next (issue h stop (.xld h stop x opd) s)

/-- XST (R106): Stores index register X0 or X1 to a 32-bit memory word. -/
def execXst (h : HandRef) (stop : Bool) (x : XReg) (opd : BitVec 22) (s : State) : Host.Outcome State Fault Refusal :=
  .next (issue h stop (.xst h stop x opd) s)

/-- XADDI (R106): Adds a sign-extended immediate to an index register, modulo 2^32. -/
def execXaddi (h : HandRef) (stop : Bool) (x : XReg) (opd : BitVec 22) (s : State) : Host.Outcome State Fault Refusal :=
  .next (issue h stop (.xaddi h stop x opd) s)

/-- XLEA (R106): Loads a local effective address into an index register. -/
def execXlea (h : HandRef) (stop : Bool) (x : XReg) (opd : BitVec 22) (s : State) : Host.Outcome State Fault Refusal :=
  .next (issue h stop (.xlea h stop x opd) s)

/-- XMULI (R106): Multiplies an index register by a sign-extended immediate, modulo 2^32. -/
def execXmuli (h : HandRef) (stop : Bool) (x : XReg) (opd : BitVec 22) (s : State) : Host.Outcome State Fault Refusal :=
  .next (issue h stop (.xmuli h stop x opd) s)

/-- XACC (R106): Copies ACC[31:0] into an index register. -/
def execXacc (h : HandRef) (stop : Bool) (x : XReg) (opd : BitVec 22) (s : State) : Host.Outcome State Fault Refusal :=
  .next (issue h stop (.xacc h stop x opd) s)

/-- XANDI (R106): ANDs an index register with a sign-extended immediate. -/
def execXandi (h : HandRef) (stop : Bool) (x : XReg) (opd : BitVec 22) (s : State) : Host.Outcome State Fault Refusal :=
  .next (issue h stop (.xandi h stop x opd) s)

/-- FPADDI (R106): Adds a sign-extended immediate to FP. -/
def execFpaddi (h : HandRef) (stop : Bool) (opd : BitVec 22) (s : State) : Host.Outcome State Fault Refusal :=
  .next (issue h stop (.fpaddi h stop opd) s)

/-- FPLD (R106): Loads FP from a 32-bit memory word. -/
def execFpld (h : HandRef) (stop : Bool) (opd : BitVec 22) (s : State) : Host.Outcome State Fault Refusal :=
  .next (issue h stop (.fpld h stop opd) s)

/-- FPST (R106): Stores FP to a 32-bit memory word. -/
def execFpst (h : HandRef) (stop : Bool) (opd : BitVec 22) (s : State) : Host.Outcome State Fault Refusal :=
  .next (issue h stop (.fpst h stop opd) s)

/-- FPACC (R106): Copies ACC[31:0] into FP. -/
def execFpacc (h : HandRef) (stop : Bool) (opd : BitVec 22) (s : State) : Host.Outcome State Fault Refusal :=
  .next (issue h stop (.fpacc h stop opd) s)

/-- FPLEA (R106): Loads a local effective address into FP. -/
def execFplea (h : HandRef) (stop : Bool) (opd : BitVec 22) (s : State) : Host.Outcome State Fault Refusal :=
  .next (issue h stop (.fplea h stop opd) s)

/-- BLCLN (R158): Cleans one blotter line: drains its merging-buffer entry and keeps the line. -/
def execBlcln (h : HandRef) (stop : Bool) (opd : BitVec 22) (s : State) : Host.Outcome State Fault Refusal :=
  .next (issue h stop (.blcln h stop opd) s)

/-- BLINV (R158): Invalidates one blotter line and leaves its merging-buffer entry to drain normally. -/
def execBlinv (h : HandRef) (stop : Bool) (opd : BitVec 22) (s : State) : Host.Outcome State Fault Refusal :=
  .next (issue h stop (.blinv h stop opd) s)

/-- BLCI (R158): Cleans and invalidates one blotter line. -/
def execBlci (h : HandRef) (stop : Bool) (opd : BitVec 22) (s : State) : Host.Outcome State Fault Refusal :=
  .next (issue h stop (.blci h stop opd) s)

/-- BLSW_CLEAN (R159): BLSW with OP 0: cleans the blotter line at a set and way. -/
def execBlswClean (h : HandRef) (stop : Bool) (opd : BitVec 22) (s : State) : Host.Outcome State Fault Refusal :=
  .next (issue h stop (.blswClean h stop opd) s)

/-- BLSW_INVALIDATE (R159): BLSW with OP 1: invalidates the blotter line at a set and way. -/
def execBlswInvalidate (h : HandRef) (stop : Bool) (opd : BitVec 22) (s : State) : Host.Outcome State Fault Refusal :=
  .next (issue h stop (.blswInvalidate h stop opd) s)

/-- BLSW_CLEAN_INVALIDATE (R159): BLSW with OP 2: cleans and invalidates the blotter line at a set and way. -/
def execBlswCleanInvalidate (h : HandRef) (stop : Bool) (opd : BitVec 22) (s : State) : Host.Outcome State Fault Refusal :=
  .next (issue h stop (.blswCleanInvalidate h stop opd) s)

/-- BLSW_ALL (R159): BLSW with OP 3: starts a scan that cleans and invalidates every blotter line, holding other hands' device accesses. -/
def execBlswAll (h : HandRef) (stop : Bool) (opd : BitVec 22) (s : State) : Host.Outcome State Fault Refusal :=
  .next (issue h stop (.blswAll h stop opd) s)

/-- PREF (R152): Prefetches the HBM line holding a device address into the blotter, or is dropped. -/
def execPref (h : HandRef) (stop : Bool) (opd : BitVec 22) (s : State) : Host.Outcome State Fault Refusal :=
  .next (issue h stop (.pref h stop opd) s)

end Sys2Proof.Machine
end

