-- ==== Sys2Proof/Machine/GlyphB.lean ====
section
/-! DEFINITION. The meanings of the B-slot glyphs (R64, R66, R74, R84, R87 to R89, R109, R110, R114, R118): each hands its glyph to the line its hand is forming.
What the glyph evaluates to stands in `evalGlyph` of Line.lean. -/

namespace Sys2Proof.Machine

/-- NOP (R109): Does nothing. -/
def execNop (h : HandRef) (stop : Bool) (opd : BitVec 22) (s : State) : Host.Outcome State Fault Refusal :=
  .next (issue h stop (.nop h stop opd) s)

/-- BR (R109): Branches by displacement when the condition holds, possibly leaving the innermost loop. -/
def execBr (h : HandRef) (stop : Bool) (opd : BitVec 22) (s : State) : Host.Outcome State Fault Refusal :=
  .next (issue h stop (.br h stop opd) s)

/-- JR (R109): Jumps to ACC when the condition holds. -/
def execJr (h : HandRef) (stop : Bool) (opd : BitVec 22) (s : State) : Host.Outcome State Fault Refusal :=
  .next (issue h stop (.jr h stop opd) s)

/-- CALL (R110): Pushes the successor on the FP stack and branches. -/
def execCall (h : HandRef) (stop : Bool) (opd : BitVec 22) (s : State) : Host.Outcome State Fault Refusal :=
  .next (issue h stop (.call h stop opd) s)

/-- CALLR (R110): Pushes the successor and jumps to ACC. -/
def execCallr (h : HandRef) (stop : Bool) (opd : BitVec 22) (s : State) : Host.Outcome State Fault Refusal :=
  .next (issue h stop (.callr h stop opd) s)

/-- RET (R110): Pops the return address from the FP stack and jumps to it. -/
def execRet (h : HandRef) (stop : Bool) (opd : BitVec 22) (s : State) : Host.Outcome State Fault Refusal :=
  .next (issue h stop (.ret h stop opd) s)

/-- LOOP (R114): Opens a hardware loop level whose count is taken from ACC. -/
def execLoop (h : HandRef) (stop : Bool) (opd : BitVec 22) (s : State) : Host.Outcome State Fault Refusal :=
  .next (issue h stop (.loop h stop opd) s)

/-- LOOPI (R114): Opens a hardware loop level with an immediate count. -/
def execLoopi (h : HandRef) (stop : Bool) (opd : BitVec 22) (s : State) : Host.Outcome State Fault Refusal :=
  .next (issue h stop (.loopi h stop opd) s)

/-- LEXIT (R118): Closes the innermost hardware loop level. -/
def execLexit (h : HandRef) (stop : Bool) (opd : BitVec 22) (s : State) : Host.Outcome State Fault Refusal :=
  .next (issue h stop (.lexit h stop opd) s)

/-- GATE (R87): Checks a gate descriptor and enters keeper level at its target, saving the level-1 save set. -/
def execGate (h : HandRef) (stop : Bool) (opd : BitVec 22) (s : State) : Host.Outcome State Fault Refusal :=
  .next (issue h stop (.gate h stop opd) s)

/-- GRET (R88): Returns from a gate to the user caller. -/
def execGret (h : HandRef) (stop : Bool) (opd : BitVec 22) (s : State) : Host.Outcome State Fault Refusal :=
  .next (issue h stop (.gret h stop opd) s)

/-- RETE (R89): Returns from keeper or sentinel level to a lower level. -/
def execRete (h : HandRef) (stop : Bool) (opd : BitVec 22) (s : State) : Host.Outcome State Fault Refusal :=
  .next (issue h stop (.rete h stop opd) s)

/-- BRK (R109): Raises the BREAK fault with the immediate in SFA. -/
def execBrk (h : HandRef) (stop : Bool) (opd : BitVec 22) (s : State) : Host.Outcome State Fault Refusal :=
  .next (issue h stop (.brk h stop opd) s)

/-- HSTART (R64): Hand 0 starts an Idle hand at X0 at user level. -/
def execHstart (h : HandRef) (stop : Bool) (opd : BitVec 22) (s : State) : Host.Outcome State Fault Refusal :=
  .next (issue h stop (.hstart h stop opd) s)

/-- HSTOP (R66): Hand 0 stops a Running or Sleeping hand, cancelling its wait and posting a KIND 4 notice. -/
def execHstop (h : HandRef) (stop : Bool) (opd : BitVec 22) (s : State) : Host.Outcome State Fault Refusal :=
  .next (issue h stop (.hstop h stop opd) s)

/-- HRESUME (R74): Hand 0 resumes a Stopped hand from its level-1 save set. -/
def execHresume (h : HandRef) (stop : Bool) (opd : BitVec 22) (s : State) : Host.Outcome State Fault Refusal :=
  .next (issue h stop (.hresume h stop opd) s)

/-- HKILL (R84): Hand 0 makes a hand Idle, aborting staged messages and waits. -/
def execHkill (h : HandRef) (stop : Bool) (opd : BitVec 22) (s : State) : Host.Outcome State Fault Refusal :=
  .next (issue h stop (.hkill h stop opd) s)

end Sys2Proof.Machine
end

