-- ==== Sys2Proof/Machine/GlyphM.lean ====
section
/-! DEFINITION. The meanings of the M-slot glyphs (R50, R124, R128, R132, R135 to R138): each hands its glyph to the line its hand is forming.
What the glyph evaluates to stands in `evalGlyph` of Line.lean. -/

namespace Sys2Proof.Machine

/-- TLD (R128): Loads tile rows from TSR.ROW onward from folio or device memory. -/
def execTld (h : HandRef) (stop : Bool) (opd : BitVec 22) (s : State) : Host.Outcome State Fault Refusal :=
  .next (issue h stop (.tld h stop opd) s)

/-- TST_TILE_STORE (R128): Stores tile rows from TSR.ROW onward to memory. -/
def execTstore (h : HandRef) (stop : Bool) (opd : BitVec 22) (s : State) : Host.Outcome State Fault Refusal :=
  .next (issue h stop (.tstore h stop opd) s)

/-- TZERO (R132): Zeroes every row and scale word of a tile. -/
def execTzero (h : HandRef) (stop : Bool) (opd : BitVec 22) (s : State) : Host.Outcome State Fault Refusal :=
  .next (issue h stop (.tzero h stop opd) s)

/-- TCFG (R124): Reshapes a tile once operations on it have finished, zeroing it if its shape changes. -/
def execTcfg (h : HandRef) (stop : Bool) (opd : BitVec 22) (s : State) : Host.Outcome State Fault Refusal :=
  .next (issue h stop (.tcfg h stop opd) s)

/-- NSET (R135): Writes a nib group descriptor from ACC. -/
def execNset (h : HandRef) (stop : Bool) (opd : BitVec 22) (s : State) : Host.Outcome State Fault Refusal :=
  .next (issue h stop (.nset h stop opd) s)

/-- NGET (R135): Reads a nib group descriptor into ACC. -/
def execNget (h : HandRef) (stop : Bool) (opd : BitVec 22) (s : State) : Host.Outcome State Fault Refusal :=
  .next (issue h stop (.nget h stop opd) s)

/-- NOPEN (R50): Opens a nib accumulation group, zeroing its cells. -/
def execNopen (h : HandRef) (stop : Bool) (opd : BitVec 22) (s : State) : Host.Outcome State Fault Refusal :=
  .next (issue h stop (.nopen h stop opd) s)

/-- NMAC (R136): Multiplies activation rows by folio weights into a nib group, optionally opening and draining. -/
def execNmac (h : HandRef) (stop : Bool) (opd : BitVec 22) (s : State) : Host.Outcome State Fault Refusal :=
  .next (issue h stop (.nmac h stop opd) s)

/-- NDRN (R138): Issues a drain alone of a nib group. -/
def execNdrn (h : HandRef) (stop : Bool) (opd : BitVec 22) (s : State) : Host.Outcome State Fault Refusal :=
  .next (issue h stop (.ndrn h stop opd) s)

end Sys2Proof.Machine
end

