-- ==== Sys2Proof/Machine/GlyphQ.lean ====
section
/-! DEFINITION. The meanings of the Q-slot glyphs (R68, R71, R72, R80, R111, R112, R160, R238, R240, R242, R244, R249, R261, R262, R270): each hands its glyph to the line its hand is forming.
What the glyph evaluates to stands in `evalGlyph` of Line.lean. -/

namespace Sys2Proof.Machine

/-- SEND (R244): Sends ACC[31:0] as a one-word message on a scalar out-endpoint. -/
def execSend (h : HandRef) (stop : Bool) (opd : BitVec 22) (s : State) : Host.Outcome State Fault Refusal :=
  .next (issue h stop (.send h stop opd) s)

/-- SENDM (R112): Stages a word of a multi-word message, taking the send port and a credit. -/
def execSendm (h : HandRef) (stop : Bool) (opd : BitVec 22) (s : State) : Host.Outcome State Fault Refusal :=
  .next (issue h stop (.sendm h stop opd) s)

/-- SENDL (R112): Stages the last word and commits a multi-word message, releasing the send port. -/
def execSendl (h : HandRef) (stop : Bool) (opd : BitVec 22) (s : State) : Host.Outcome State Fault Refusal :=
  .next (issue h stop (.sendl h stop opd) s)

/-- RECV (R111): Removes the oldest word of a scalar in-endpoint into ACC. -/
def execRecv (h : HandRef) (stop : Bool) (opd : BitVec 22) (s : State) : Host.Outcome State Fault Refusal :=
  .next (issue h stop (.recv h stop opd) s)

/-- QPOLL (R111): Reads the number of words waiting in an in-endpoint. -/
def execQpoll (h : HandRef) (stop : Bool) (opd : BitVec 22) (s : State) : Host.Outcome State Fault Refusal :=
  .next (issue h stop (.qpoll h stop opd) s)

/-- QCRED (R249): Reads the credits of an out-endpoint, or all ones if it is closed. -/
def execQcred (h : HandRef) (stop : Bool) (opd : BitVec 22) (s : State) : Host.Outcome State Fault Refusal :=
  .next (issue h stop (.qcred h stop opd) s)

/-- TOKSEND (R242): Writes ACC[7:0] into an out token slot. -/
def execToksend (h : HandRef) (stop : Bool) (opd : BitVec 22) (s : State) : Host.Outcome State Fault Refusal :=
  .next (issue h stop (.toksend h stop opd) s)

/-- TOKRECV (R242): Removes the token of an in token slot into ACC. -/
def execTokrecv (h : HandRef) (stop : Bool) (opd : BitVec 22) (s : State) : Host.Outcome State Fault Refusal :=
  .next (issue h stop (.tokrecv h stop opd) s)

/-- TWAIT (R261): Waits until a tally reaches the target in ACC, through the hand's tally latch. -/
def execTwait (h : HandRef) (stop : Bool) (opd : BitVec 22) (s : State) : Host.Outcome State Fault Refusal :=
  .next (issue h stop (.twait h stop opd) s)

/-- TADD (R262): Queues a release raise of a tally by ACC[47:0]. -/
def execTadd (h : HandRef) (stop : Bool) (opd : BitVec 22) (s : State) : Host.Outcome State Fault Refusal :=
  .next (issue h stop (.tadd h stop opd) s)

/-- TINC (R262): Queues a release raise of a tally by 1. -/
def execTinc (h : HandRef) (stop : Bool) (opd : BitVec 22) (s : State) : Host.Outcome State Fault Refusal :=
  .next (issue h stop (.tinc h stop opd) s)

/-- TREAD (R261): Reads a tally's value into ACC through the tally latch. -/
def execTread (h : HandRef) (stop : Bool) (opd : BitVec 22) (s : State) : Host.Outcome State Fault Refusal :=
  .next (issue h stop (.tread h stop opd) s)

/-- TRPUSH (R238): Pushes a 64-byte descriptor onto the tail of the bead's own tray. -/
def execTrpush (h : HandRef) (stop : Bool) (opd : BitVec 22) (s : State) : Host.Outcome State Fault Refusal :=
  .next (issue h stop (.trpush h stop opd) s)

/-- TRPOP (R238): Pops the tail of the bead's own tray into memory. -/
def execTrpop (h : HandRef) (stop : Bool) (opd : BitVec 22) (s : State) : Host.Outcome State Fault Refusal :=
  .next (issue h stop (.trpop h stop opd) s)

/-- TRSTEAL (R240): Probes victim trays in a fixed order and random walk to steal one descriptor. -/
def execTrsteal (h : HandRef) (stop : Bool) (opd : BitVec 22) (s : State) : Host.Outcome State Fault Refusal :=
  .next (issue h stop (.trsteal h stop opd) s)

/-- QUILL (R160): Reads a quill descriptor and starts it in the lowest free slot. -/
def execQuill (h : HandRef) (stop : Bool) (opd : BitVec 22) (s : State) : Host.Outcome State Fault Refusal :=
  .next (issue h stop (.quill h stop opd) s)

/-- QUILLST (R111): Reads the busy and error masks of the quill slots into ACC. -/
def execQuillst (h : HandRef) (stop : Bool) (opd : BitVec 22) (s : State) : Host.Outcome State Fault Refusal :=
  .next (issue h stop (.quillst h stop opd) s)

/-- FENCE (R270): Issues a fence of kind STORE, FULL, QUILL or BEAD, draining the merging buffer. -/
def execFence (h : HandRef) (stop : Bool) (opd : BitVec 22) (s : State) : Host.Outcome State Fault Refusal :=
  .next (issue h stop (.fence h stop opd) s)

/-- CWLD (R72): Reads a common word into ACC. -/
def execCwld (h : HandRef) (stop : Bool) (opd : BitVec 22) (s : State) : Host.Outcome State Fault Refusal :=
  .next (issue h stop (.cwld h stop opd) s)

/-- CWST (R72): Writes a common word, waking hands sleeping on it. -/
def execCwst (h : HandRef) (stop : Bool) (opd : BitVec 22) (s : State) : Host.Outcome State Fault Refusal :=
  .next (issue h stop (.cwst h stop opd) s)

/-- CWADD (R72): Fetches and adds to a common word. -/
def execCwadd (h : HandRef) (stop : Bool) (opd : BitVec 22) (s : State) : Host.Outcome State Fault Refusal :=
  .next (issue h stop (.cwadd h stop opd) s)

/-- CWSWP (R72): Swaps ACC with a common word. -/
def execCwswp (h : HandRef) (stop : Bool) (opd : BitVec 22) (s : State) : Host.Outcome State Fault Refusal :=
  .next (issue h stop (.cwswp h stop opd) s)

/-- CSEND (R71): Sends ACC into a hand-to-hand channel, sleeping if it is full. -/
def execCsend (h : HandRef) (stop : Bool) (opd : BitVec 22) (s : State) : Host.Outcome State Fault Refusal :=
  .next (issue h stop (.csend h stop opd) s)

/-- CRECV (R71): Receives the oldest entry of a hand-to-hand channel, sleeping if it is empty. -/
def execCrecv (h : HandRef) (stop : Bool) (opd : BitVec 22) (s : State) : Host.Outcome State Fault Refusal :=
  .next (issue h stop (.crecv h stop opd) s)

/-- SLEEP (R68): The hand sleeps after its line until a masked common word is written or its timer wakes it. -/
def execSleep (h : HandRef) (stop : Bool) (opd : BitVec 22) (s : State) : Host.Outcome State Fault Refusal :=
  .next (issue h stop (.sleep h stop opd) s)

/-- NWAIT (R80): Hand 0 sleeps while its notice queue is empty. -/
def execNwait (h : HandRef) (stop : Bool) (opd : BitVec 22) (s : State) : Host.Outcome State Fault Refusal :=
  .next (issue h stop (.nwait h stop opd) s)

/-- NPOP (R80): Hand 0 removes the oldest notice and writes it as 16 bytes. -/
def execNpop (h : HandRef) (stop : Bool) (opd : BitVec 22) (s : State) : Host.Outcome State Fault Refusal :=
  .next (issue h stop (.npop h stop opd) s)

end Sys2Proof.Machine
end

