-- ==== Sys2Proof/Machine/GlyphS.lean ====
section
/-! DEFINITION. The meanings of the S-slot glyphs (R85, R91, R107, R108, R269): each hands its glyph to the line its hand is forming.
What the glyph evaluates to stands in `evalGlyph` of Line.lean. -/

namespace Sys2Proof.Machine

/-- LD (R107): Loads a 64-bit value or an immediate into ACC. -/
def execLd (h : HandRef) (stop : Bool) (opd : BitVec 22) (s : State) : Host.Outcome State Fault Refusal :=
  .next (issue h stop (.ld h stop opd) s)

/-- LDW (R107): Loads a sign-extended 32-bit word into ACC. -/
def execLdw (h : HandRef) (stop : Bool) (opd : BitVec 22) (s : State) : Host.Outcome State Fault Refusal :=
  .next (issue h stop (.ldw h stop opd) s)

/-- LDWU (R107): Loads a zero-extended 32-bit word into ACC. -/
def execLdwu (h : HandRef) (stop : Bool) (opd : BitVec 22) (s : State) : Host.Outcome State Fault Refusal :=
  .next (issue h stop (.ldwu h stop opd) s)

/-- LDH (R107): Loads a sign-extended 16-bit halfword into ACC. -/
def execLdh (h : HandRef) (stop : Bool) (opd : BitVec 22) (s : State) : Host.Outcome State Fault Refusal :=
  .next (issue h stop (.ldh h stop opd) s)

/-- LDHU (R107): Loads a zero-extended 16-bit halfword into ACC. -/
def execLdhu (h : HandRef) (stop : Bool) (opd : BitVec 22) (s : State) : Host.Outcome State Fault Refusal :=
  .next (issue h stop (.ldhu h stop opd) s)

/-- LDB (R107): Loads a sign-extended byte into ACC. -/
def execLdb (h : HandRef) (stop : Bool) (opd : BitVec 22) (s : State) : Host.Outcome State Fault Refusal :=
  .next (issue h stop (.ldb h stop opd) s)

/-- LDBU (R107): Loads a zero-extended byte into ACC. -/
def execLdbu (h : HandRef) (stop : Bool) (opd : BitVec 22) (s : State) : Host.Outcome State Fault Refusal :=
  .next (issue h stop (.ldbu h stop opd) s)

/-- ST (R107): Stores the 64 bits of ACC to memory. -/
def execSt (h : HandRef) (stop : Bool) (opd : BitVec 22) (s : State) : Host.Outcome State Fault Refusal :=
  .next (issue h stop (.st h stop opd) s)

/-- STW (R107): Stores ACC[31:0] to memory. -/
def execStw (h : HandRef) (stop : Bool) (opd : BitVec 22) (s : State) : Host.Outcome State Fault Refusal :=
  .next (issue h stop (.stw h stop opd) s)

/-- STH (R107): Stores ACC[15:0] to memory. -/
def execSth (h : HandRef) (stop : Bool) (opd : BitVec 22) (s : State) : Host.Outcome State Fault Refusal :=
  .next (issue h stop (.sth h stop opd) s)

/-- STB (R107): Stores ACC[7:0] to memory. -/
def execStb (h : HandRef) (stop : Bool) (opd : BitVec 22) (s : State) : Host.Outcome State Fault Refusal :=
  .next (issue h stop (.stb h stop opd) s)

/-- ADD (R107): Adds an operand to ACC and sets NZCV, faulting on signed overflow when OVE is set. -/
def execAdd (h : HandRef) (stop : Bool) (opd : BitVec 22) (s : State) : Host.Outcome State Fault Refusal :=
  .next (issue h stop (.add h stop opd) s)

/-- SUB (R107): Subtracts an operand from ACC and sets NZCV. -/
def execSub (h : HandRef) (stop : Bool) (opd : BitVec 22) (s : State) : Host.Outcome State Fault Refusal :=
  .next (issue h stop (.sub h stop opd) s)

/-- MUL (R107): Multiplies ACC by an operand and keeps the low 64 bits. -/
def execMul (h : HandRef) (stop : Bool) (opd : BitVec 22) (s : State) : Host.Outcome State Fault Refusal :=
  .next (issue h stop (.mul h stop opd) s)

/-- MULHS (R107): Keeps the high 64 bits of the signed 128-bit product in ACC. -/
def execMulhs (h : HandRef) (stop : Bool) (opd : BitVec 22) (s : State) : Host.Outcome State Fault Refusal :=
  .next (issue h stop (.mulhs h stop opd) s)

/-- MULHU (R107): Keeps the high 64 bits of the unsigned 128-bit product in ACC. -/
def execMulhu (h : HandRef) (stop : Bool) (opd : BitVec 22) (s : State) : Host.Outcome State Fault Refusal :=
  .next (issue h stop (.mulhu h stop opd) s)

/-- DIV (R43): Signed division of ACC using the bead's single divider, with divide-by-zero and overflow handling. -/
def execDiv (h : HandRef) (stop : Bool) (opd : BitVec 22) (s : State) : Host.Outcome State Fault Refusal :=
  .next (issue h stop (.div h stop opd) s)

/-- DIVU (R107): Unsigned division of ACC. -/
def execDivu (h : HandRef) (stop : Bool) (opd : BitVec 22) (s : State) : Host.Outcome State Fault Refusal :=
  .next (issue h stop (.divu h stop opd) s)

/-- REM (R107): Signed remainder of ACC, taking the sign of the dividend. -/
def execRem (h : HandRef) (stop : Bool) (opd : BitVec 22) (s : State) : Host.Outcome State Fault Refusal :=
  .next (issue h stop (.rem h stop opd) s)

/-- REMU (R107): Unsigned remainder of ACC. -/
def execRemu (h : HandRef) (stop : Bool) (opd : BitVec 22) (s : State) : Host.Outcome State Fault Refusal :=
  .next (issue h stop (.remu h stop opd) s)

/-- AND (R107): ANDs an operand into ACC. -/
def execAnd (h : HandRef) (stop : Bool) (opd : BitVec 22) (s : State) : Host.Outcome State Fault Refusal :=
  .next (issue h stop (.and_ h stop opd) s)

/-- OR (R107): ORs an operand into ACC. -/
def execOr (h : HandRef) (stop : Bool) (opd : BitVec 22) (s : State) : Host.Outcome State Fault Refusal :=
  .next (issue h stop (.or_ h stop opd) s)

/-- XOR (R107): XORs an operand into ACC. -/
def execXor (h : HandRef) (stop : Bool) (opd : BitVec 22) (s : State) : Host.Outcome State Fault Refusal :=
  .next (issue h stop (.xor_ h stop opd) s)

/-- SHL (R107): Shifts ACC left. -/
def execShl (h : HandRef) (stop : Bool) (opd : BitVec 22) (s : State) : Host.Outcome State Fault Refusal :=
  .next (issue h stop (.shl h stop opd) s)

/-- SHR (R107): Shifts ACC right, logical. -/
def execShr (h : HandRef) (stop : Bool) (opd : BitVec 22) (s : State) : Host.Outcome State Fault Refusal :=
  .next (issue h stop (.shr h stop opd) s)

/-- SAR (R107): Shifts ACC right, arithmetic. -/
def execSar (h : HandRef) (stop : Bool) (opd : BitVec 22) (s : State) : Host.Outcome State Fault Refusal :=
  .next (issue h stop (.sar h stop opd) s)

/-- CMP (R107): Sets the flags from ACC minus an operand, leaving ACC unchanged. -/
def execCmp (h : HandRef) (stop : Bool) (opd : BitVec 22) (s : State) : Host.Outcome State Fault Refusal :=
  .next (issue h stop (.cmp h stop opd) s)

/-- TST (R107): Sets the flags from ACC AND an operand, leaving ACC unchanged. -/
def execTst (h : HandRef) (stop : Bool) (opd : BitVec 22) (s : State) : Host.Outcome State Fault Refusal :=
  .next (issue h stop (.tst h stop opd) s)

/-- MIN (R107): Writes the signed minimum of ACC and an operand to ACC. -/
def execMin (h : HandRef) (stop : Bool) (opd : BitVec 22) (s : State) : Host.Outcome State Fault Refusal :=
  .next (issue h stop (.min h stop opd) s)

/-- MAX (R107): Writes the signed maximum of ACC and an operand to ACC. -/
def execMax (h : HandRef) (stop : Bool) (opd : BitVec 22) (s : State) : Host.Outcome State Fault Refusal :=
  .next (issue h stop (.max h stop opd) s)

/-- MINU (R107): Writes the unsigned minimum of ACC and an operand to ACC. -/
def execMinu (h : HandRef) (stop : Bool) (opd : BitVec 22) (s : State) : Host.Outcome State Fault Refusal :=
  .next (issue h stop (.minu h stop opd) s)

/-- MAXU (R107): Writes the unsigned maximum of ACC and an operand to ACC. -/
def execMaxu (h : HandRef) (stop : Bool) (opd : BitVec 22) (s : State) : Host.Outcome State Fault Refusal :=
  .next (issue h stop (.maxu h stop opd) s)

/-- SHLORI (R107): Shifts ACC left by 16 and ORs in a 16-bit immediate. -/
def execShlori (h : HandRef) (stop : Bool) (opd : BitVec 22) (s : State) : Host.Outcome State Fault Refusal :=
  .next (issue h stop (.shlori h stop opd) s)

/-- NEG (R107): Negates ACC. -/
def execNeg (h : HandRef) (stop : Bool) (opd : BitVec 22) (s : State) : Host.Outcome State Fault Refusal :=
  .next (issue h stop (.neg h stop opd) s)

/-- NOT (R107): Inverts ACC bitwise. -/
def execNot (h : HandRef) (stop : Bool) (opd : BitVec 22) (s : State) : Host.Outcome State Fault Refusal :=
  .next (issue h stop (.not_ h stop opd) s)

/-- ABS (R107): Replaces ACC with its absolute value. -/
def execAbs (h : HandRef) (stop : Bool) (opd : BitVec 22) (s : State) : Host.Outcome State Fault Refusal :=
  .next (issue h stop (.abs h stop opd) s)

/-- CLZ (R107): Counts the leading zeros of ACC. -/
def execClz (h : HandRef) (stop : Bool) (opd : BitVec 22) (s : State) : Host.Outcome State Fault Refusal :=
  .next (issue h stop (.clz h stop opd) s)

/-- POPC (R107): Counts the one bits of ACC. -/
def execPopc (h : HandRef) (stop : Bool) (opd : BitVec 22) (s : State) : Host.Outcome State Fault Refusal :=
  .next (issue h stop (.popc h stop opd) s)

/-- RGET (R107): Reads an internal register or the line's successor into ACC. -/
def execRget (h : HandRef) (stop : Bool) (opd : BitVec 22) (s : State) : Host.Outcome State Fault Refusal :=
  .next (issue h stop (.rget h stop opd) s)

/-- FSWPUT (R108): Writes FSW from ACC: sets RM and SAT and clears the selected sticky flags. -/
def execFswput (h : HandRef) (stop : Bool) (opd : BitVec 22) (s : State) : Host.Outcome State Fault Refusal :=
  .next (issue h stop (.fswput h stop opd) s)

/-- PSWPUT (R108): Writes the PSW flags and enables from ACC, and LD above user level. -/
def execPswput (h : HandRef) (stop : Bool) (opd : BitVec 22) (s : State) : Host.Outcome State Fault Refusal :=
  .next (issue h stop (.pswput h stop opd) s)

/-- CRD (R91): Reads a bead control register into ACC at keeper or sentinel level. -/
def execCrd (h : HandRef) (stop : Bool) (opd : BitVec 22) (s : State) : Host.Outcome State Fault Refusal :=
  .next (issue h stop (.crd h stop opd) s)

/-- CWR (R85): Writes a bead control register from ACC, subject to the per-hand write rules. -/
def execCwr (h : HandRef) (stop : Bool) (opd : BitVec 22) (s : State) : Host.Outcome State Fault Refusal :=
  .next (issue h stop (.cwr h stop opd) s)

/-- AADD (R269): Atomic fetch-and-add on a 64-bit word at its home. -/
def execAadd (h : HandRef) (stop : Bool) (opd : BitVec 22) (s : State) : Host.Outcome State Fault Refusal :=
  .next (issue h stop (.aadd h stop opd) s)

/-- ASWP (R269): Atomic swap of a 64-bit word at its home. -/
def execAswp (h : HandRef) (stop : Bool) (opd : BitVec 22) (s : State) : Host.Outcome State Fault Refusal :=
  .next (issue h stop (.aswp h stop opd) s)

/-- ACAS (R107): Atomic compare-and-swap of a 64-bit word against ACC, writing X1:X0. -/
def execAcas (h : HandRef) (stop : Bool) (opd : BitVec 22) (s : State) : Host.Outcome State Fault Refusal :=
  .next (issue h stop (.acas h stop opd) s)

/-- AMIN (R107): Atomic signed minimum on a 64-bit word. -/
def execAmin (h : HandRef) (stop : Bool) (opd : BitVec 22) (s : State) : Host.Outcome State Fault Refusal :=
  .next (issue h stop (.amin h stop opd) s)

/-- AMAX (R107): Atomic signed maximum on a 64-bit word. -/
def execAmax (h : HandRef) (stop : Bool) (opd : BitVec 22) (s : State) : Host.Outcome State Fault Refusal :=
  .next (issue h stop (.amax h stop opd) s)

/-- AOR (R107): Atomic OR on a 64-bit word. -/
def execAor (h : HandRef) (stop : Bool) (opd : BitVec 22) (s : State) : Host.Outcome State Fault Refusal :=
  .next (issue h stop (.aor h stop opd) s)

/-- AAND (R107): Atomic AND on a 64-bit word. -/
def execAand (h : HandRef) (stop : Bool) (opd : BitVec 22) (s : State) : Host.Outcome State Fault Refusal :=
  .next (issue h stop (.aand h stop opd) s)

end Sys2Proof.Machine
end

