-- ==== Sys2Proof/Machine/GlyphV.lean ====
section
/-! DEFINITION. The meanings of the V-slot glyphs (R42, R58, R132 to R134): each hands its glyph to the line its hand is forming.
What the glyph evaluates to stands in `evalGlyph` of Line.lean. -/

namespace Sys2Proof.Machine

/-- VADD (R132): Lane-wise addition of two tile rows. -/
def execVadd (h : HandRef) (stop : Bool) (opd : BitVec 22) (s : State) : Host.Outcome State Fault Refusal :=
  .next (issue h stop (.vadd h stop opd) s)

/-- VSUB (R132): Lane-wise subtraction of two tile rows. -/
def execVsub (h : HandRef) (stop : Bool) (opd : BitVec 22) (s : State) : Host.Outcome State Fault Refusal :=
  .next (issue h stop (.vsub h stop opd) s)

/-- VMUL (R132): Lane-wise multiplication of two tile rows. -/
def execVmul (h : HandRef) (stop : Bool) (opd : BitVec 22) (s : State) : Host.Outcome State Fault Refusal :=
  .next (issue h stop (.vmul h stop opd) s)

/-- VFMA (R132): Lane-wise fused multiply-add into TD. -/
def execVfma (h : HandRef) (stop : Bool) (opd : BitVec 22) (s : State) : Host.Outcome State Fault Refusal :=
  .next (issue h stop (.vfma h stop opd) s)

/-- VFNMA (R132): Lane-wise fused negative multiply-add into TD. -/
def execVfnma (h : HandRef) (stop : Bool) (opd : BitVec 22) (s : State) : Host.Outcome State Fault Refusal :=
  .next (issue h stop (.vfnma h stop opd) s)

/-- VMIN (R132): Lane-wise minimum. -/
def execVmin (h : HandRef) (stop : Bool) (opd : BitVec 22) (s : State) : Host.Outcome State Fault Refusal :=
  .next (issue h stop (.vmin h stop opd) s)

/-- VMAX (R132): Lane-wise maximum. -/
def execVmax (h : HandRef) (stop : Bool) (opd : BitVec 22) (s : State) : Host.Outcome State Fault Refusal :=
  .next (issue h stop (.vmax h stop opd) s)

/-- VABS (R132): Lane-wise absolute value. -/
def execVabs (h : HandRef) (stop : Bool) (opd : BitVec 22) (s : State) : Host.Outcome State Fault Refusal :=
  .next (issue h stop (.vabs h stop opd) s)

/-- VNEG (R132): Lane-wise negation. -/
def execVneg (h : HandRef) (stop : Bool) (opd : BitVec 22) (s : State) : Host.Outcome State Fault Refusal :=
  .next (issue h stop (.vneg h stop opd) s)

/-- VCMP (R132): Lane-wise compare producing all-ones or zero masks. -/
def execVcmp (h : HandRef) (stop : Bool) (opd : BitVec 22) (s : State) : Host.Outcome State Fault Refusal :=
  .next (issue h stop (.vcmp h stop opd) s)

/-- VBSL (R132): Bitwise select of TA and TB under the mask in TD. -/
def execVbsl (h : HandRef) (stop : Bool) (opd : BitVec 22) (s : State) : Host.Outcome State Fault Refusal :=
  .next (issue h stop (.vbsl h stop opd) s)

/-- VAND (R132): Bitwise AND of two rows. -/
def execVand (h : HandRef) (stop : Bool) (opd : BitVec 22) (s : State) : Host.Outcome State Fault Refusal :=
  .next (issue h stop (.vand h stop opd) s)

/-- VOR (R132): Bitwise OR of two rows. -/
def execVor (h : HandRef) (stop : Bool) (opd : BitVec 22) (s : State) : Host.Outcome State Fault Refusal :=
  .next (issue h stop (.vor h stop opd) s)

/-- VXOR (R132): Bitwise XOR of two rows. -/
def execVxor (h : HandRef) (stop : Bool) (opd : BitVec 22) (s : State) : Host.Outcome State Fault Refusal :=
  .next (issue h stop (.vxor h stop opd) s)

/-- VMOV (R132): Copies a row together with its scale word. -/
def execVmov (h : HandRef) (stop : Bool) (opd : BitVec 22) (s : State) : Host.Outcome State Fault Refusal :=
  .next (issue h stop (.vmov h stop opd) s)

/-- VCVT (R133): Converts a part of a row between formats with one rounding. -/
def execVcvt (h : HandRef) (stop : Bool) (opd : BitVec 22) (s : State) : Host.Outcome State Fault Refusal :=
  .next (issue h stop (.vcvt h stop opd) s)

/-- VCADD (R58): Compensated addition of pairs of partials. -/
def execVcadd (h : HandRef) (stop : Bool) (opd : BitVec 22) (s : State) : Host.Outcome State Fault Refusal :=
  .next (issue h stop (.vcadd h stop opd) s)

/-- VCRND (R134): Rounds compensated pairs to a narrow or MX format. -/
def execVcrnd (h : HandRef) (stop : Bool) (opd : BitVec 22) (s : State) : Host.Outcome State Fault Refusal :=
  .next (issue h stop (.vcrnd h stop opd) s)

/-- VRSUM (R132): Sums the 16 binary32 lanes of a row in fixed order into ACC. -/
def execVrsum (h : HandRef) (stop : Bool) (opd : BitVec 22) (s : State) : Host.Outcome State Fault Refusal :=
  .next (issue h stop (.vrsum h stop opd) s)

/-- VGETL (R132): Reads lane X1 of a row into ACC. -/
def execVgetl (h : HandRef) (stop : Bool) (opd : BitVec 22) (s : State) : Host.Outcome State Fault Refusal :=
  .next (issue h stop (.vgetl h stop opd) s)

/-- VPUTL (R132): Writes the low bits of ACC into lane X1 of a row. -/
def execVputl (h : HandRef) (stop : Bool) (opd : BitVec 22) (s : State) : Host.Outcome State Fault Refusal :=
  .next (issue h stop (.vputl h stop opd) s)

/-- VBCAST (R132): Writes the low bits of ACC into every lane of a row. -/
def execVbcast (h : HandRef) (stop : Bool) (opd : BitVec 22) (s : State) : Host.Outcome State Fault Refusal :=
  .next (issue h stop (.vbcast h stop opd) s)

/-- VEXP (R42): Lane-wise exponential. -/
def execVexp (h : HandRef) (stop : Bool) (opd : BitVec 22) (s : State) : Host.Outcome State Fault Refusal :=
  .next (issue h stop (.vexp h stop opd) s)

/-- VLOG2 (R42): Lane-wise base-2 logarithm. -/
def execVlog2 (h : HandRef) (stop : Bool) (opd : BitVec 22) (s : State) : Host.Outcome State Fault Refusal :=
  .next (issue h stop (.vlog2 h stop opd) s)

/-- VRCP (R42): Lane-wise reciprocal. -/
def execVrcp (h : HandRef) (stop : Bool) (opd : BitVec 22) (s : State) : Host.Outcome State Fault Refusal :=
  .next (issue h stop (.vrcp h stop opd) s)

/-- VRSQ (R42): Lane-wise reciprocal square root. -/
def execVrsq (h : HandRef) (stop : Bool) (opd : BitVec 22) (s : State) : Host.Outcome State Fault Refusal :=
  .next (issue h stop (.vrsq h stop opd) s)

/-- VTANH (R42): Lane-wise hyperbolic tangent. -/
def execVtanh (h : HandRef) (stop : Bool) (opd : BitVec 22) (s : State) : Host.Outcome State Fault Refusal :=
  .next (issue h stop (.vtanh h stop opd) s)

/-- VERF (R42): Lane-wise error function. -/
def execVerf (h : HandRef) (stop : Bool) (opd : BitVec 22) (s : State) : Host.Outcome State Fault Refusal :=
  .next (issue h stop (.verf h stop opd) s)

end Sys2Proof.Machine
end

