-- ==== Sys2Proof/Machine/Dispatch.lean ====
section
/-! DEFINITION. The meaning of each command: one arm per constructor, each one call of its meaning. -/

namespace Sys2Proof.Machine

def exec (i : Instr) (s : State) : Host.Outcome State Fault Refusal :=
  match i with
  | .xld h stop x opd => Sys2Proof.Machine.execXld h stop x opd s
  | .xst h stop x opd => Sys2Proof.Machine.execXst h stop x opd s
  | .xaddi h stop x opd => Sys2Proof.Machine.execXaddi h stop x opd s
  | .xlea h stop x opd => Sys2Proof.Machine.execXlea h stop x opd s
  | .xmuli h stop x opd => Sys2Proof.Machine.execXmuli h stop x opd s
  | .xacc h stop x opd => Sys2Proof.Machine.execXacc h stop x opd s
  | .xandi h stop x opd => Sys2Proof.Machine.execXandi h stop x opd s
  | .fpaddi h stop opd => Sys2Proof.Machine.execFpaddi h stop opd s
  | .fpld h stop opd => Sys2Proof.Machine.execFpld h stop opd s
  | .fpst h stop opd => Sys2Proof.Machine.execFpst h stop opd s
  | .fpacc h stop opd => Sys2Proof.Machine.execFpacc h stop opd s
  | .fplea h stop opd => Sys2Proof.Machine.execFplea h stop opd s
  | .blcln h stop opd => Sys2Proof.Machine.execBlcln h stop opd s
  | .blinv h stop opd => Sys2Proof.Machine.execBlinv h stop opd s
  | .blci h stop opd => Sys2Proof.Machine.execBlci h stop opd s
  | .blswClean h stop opd => Sys2Proof.Machine.execBlswClean h stop opd s
  | .blswInvalidate h stop opd => Sys2Proof.Machine.execBlswInvalidate h stop opd s
  | .blswCleanInvalidate h stop opd => Sys2Proof.Machine.execBlswCleanInvalidate h stop opd s
  | .blswAll h stop opd => Sys2Proof.Machine.execBlswAll h stop opd s
  | .blswScanEnd b => Sys2Proof.Machine.execBlswScanEnd b s
  | .pref h stop opd => Sys2Proof.Machine.execPref h stop opd s
  | .ld h stop opd => Sys2Proof.Machine.execLd h stop opd s
  | .ldw h stop opd => Sys2Proof.Machine.execLdw h stop opd s
  | .ldwu h stop opd => Sys2Proof.Machine.execLdwu h stop opd s
  | .ldh h stop opd => Sys2Proof.Machine.execLdh h stop opd s
  | .ldhu h stop opd => Sys2Proof.Machine.execLdhu h stop opd s
  | .ldb h stop opd => Sys2Proof.Machine.execLdb h stop opd s
  | .ldbu h stop opd => Sys2Proof.Machine.execLdbu h stop opd s
  | .st h stop opd => Sys2Proof.Machine.execSt h stop opd s
  | .stw h stop opd => Sys2Proof.Machine.execStw h stop opd s
  | .sth h stop opd => Sys2Proof.Machine.execSth h stop opd s
  | .stb h stop opd => Sys2Proof.Machine.execStb h stop opd s
  | .add h stop opd => Sys2Proof.Machine.execAdd h stop opd s
  | .sub h stop opd => Sys2Proof.Machine.execSub h stop opd s
  | .mul h stop opd => Sys2Proof.Machine.execMul h stop opd s
  | .mulhs h stop opd => Sys2Proof.Machine.execMulhs h stop opd s
  | .mulhu h stop opd => Sys2Proof.Machine.execMulhu h stop opd s
  | .div h stop opd => Sys2Proof.Machine.execDiv h stop opd s
  | .divu h stop opd => Sys2Proof.Machine.execDivu h stop opd s
  | .rem h stop opd => Sys2Proof.Machine.execRem h stop opd s
  | .remu h stop opd => Sys2Proof.Machine.execRemu h stop opd s
  | .and_ h stop opd => Sys2Proof.Machine.execAnd h stop opd s
  | .or_ h stop opd => Sys2Proof.Machine.execOr h stop opd s
  | .xor_ h stop opd => Sys2Proof.Machine.execXor h stop opd s
  | .shl h stop opd => Sys2Proof.Machine.execShl h stop opd s
  | .shr h stop opd => Sys2Proof.Machine.execShr h stop opd s
  | .sar h stop opd => Sys2Proof.Machine.execSar h stop opd s
  | .cmp h stop opd => Sys2Proof.Machine.execCmp h stop opd s
  | .tst h stop opd => Sys2Proof.Machine.execTst h stop opd s
  | .min h stop opd => Sys2Proof.Machine.execMin h stop opd s
  | .max h stop opd => Sys2Proof.Machine.execMax h stop opd s
  | .minu h stop opd => Sys2Proof.Machine.execMinu h stop opd s
  | .maxu h stop opd => Sys2Proof.Machine.execMaxu h stop opd s
  | .shlori h stop opd => Sys2Proof.Machine.execShlori h stop opd s
  | .neg h stop opd => Sys2Proof.Machine.execNeg h stop opd s
  | .not_ h stop opd => Sys2Proof.Machine.execNot h stop opd s
  | .abs h stop opd => Sys2Proof.Machine.execAbs h stop opd s
  | .clz h stop opd => Sys2Proof.Machine.execClz h stop opd s
  | .popc h stop opd => Sys2Proof.Machine.execPopc h stop opd s
  | .rget h stop opd => Sys2Proof.Machine.execRget h stop opd s
  | .fswput h stop opd => Sys2Proof.Machine.execFswput h stop opd s
  | .pswput h stop opd => Sys2Proof.Machine.execPswput h stop opd s
  | .crd h stop opd => Sys2Proof.Machine.execCrd h stop opd s
  | .cwr h stop opd => Sys2Proof.Machine.execCwr h stop opd s
  | .aadd h stop opd => Sys2Proof.Machine.execAadd h stop opd s
  | .aswp h stop opd => Sys2Proof.Machine.execAswp h stop opd s
  | .acas h stop opd => Sys2Proof.Machine.execAcas h stop opd s
  | .amin h stop opd => Sys2Proof.Machine.execAmin h stop opd s
  | .amax h stop opd => Sys2Proof.Machine.execAmax h stop opd s
  | .aor h stop opd => Sys2Proof.Machine.execAor h stop opd s
  | .aand h stop opd => Sys2Proof.Machine.execAand h stop opd s
  | .nop h stop opd => Sys2Proof.Machine.execNop h stop opd s
  | .br h stop opd => Sys2Proof.Machine.execBr h stop opd s
  | .jr h stop opd => Sys2Proof.Machine.execJr h stop opd s
  | .call h stop opd => Sys2Proof.Machine.execCall h stop opd s
  | .callr h stop opd => Sys2Proof.Machine.execCallr h stop opd s
  | .ret h stop opd => Sys2Proof.Machine.execRet h stop opd s
  | .loop h stop opd => Sys2Proof.Machine.execLoop h stop opd s
  | .loopi h stop opd => Sys2Proof.Machine.execLoopi h stop opd s
  | .lexit h stop opd => Sys2Proof.Machine.execLexit h stop opd s
  | .gate h stop opd => Sys2Proof.Machine.execGate h stop opd s
  | .gret h stop opd => Sys2Proof.Machine.execGret h stop opd s
  | .rete h stop opd => Sys2Proof.Machine.execRete h stop opd s
  | .brk h stop opd => Sys2Proof.Machine.execBrk h stop opd s
  | .hstart h stop opd => Sys2Proof.Machine.execHstart h stop opd s
  | .hstop h stop opd => Sys2Proof.Machine.execHstop h stop opd s
  | .hresume h stop opd => Sys2Proof.Machine.execHresume h stop opd s
  | .hkill h stop opd => Sys2Proof.Machine.execHkill h stop opd s
  | .send h stop opd => Sys2Proof.Machine.execSend h stop opd s
  | .sendm h stop opd => Sys2Proof.Machine.execSendm h stop opd s
  | .sendl h stop opd => Sys2Proof.Machine.execSendl h stop opd s
  | .recv h stop opd => Sys2Proof.Machine.execRecv h stop opd s
  | .qpoll h stop opd => Sys2Proof.Machine.execQpoll h stop opd s
  | .qcred h stop opd => Sys2Proof.Machine.execQcred h stop opd s
  | .toksend h stop opd => Sys2Proof.Machine.execToksend h stop opd s
  | .tokrecv h stop opd => Sys2Proof.Machine.execTokrecv h stop opd s
  | .twait h stop opd => Sys2Proof.Machine.execTwait h stop opd s
  | .tadd h stop opd => Sys2Proof.Machine.execTadd h stop opd s
  | .tinc h stop opd => Sys2Proof.Machine.execTinc h stop opd s
  | .tread h stop opd => Sys2Proof.Machine.execTread h stop opd s
  | .trpush h stop opd => Sys2Proof.Machine.execTrpush h stop opd s
  | .trpop h stop opd => Sys2Proof.Machine.execTrpop h stop opd s
  | .trsteal h stop opd => Sys2Proof.Machine.execTrsteal h stop opd s
  | .quill h stop opd => Sys2Proof.Machine.execQuill h stop opd s
  | .quillst h stop opd => Sys2Proof.Machine.execQuillst h stop opd s
  | .fence h stop opd => Sys2Proof.Machine.execFence h stop opd s
  | .fenceComplete h => Sys2Proof.Machine.execFenceComplete h s
  | .cwld h stop opd => Sys2Proof.Machine.execCwld h stop opd s
  | .cwst h stop opd => Sys2Proof.Machine.execCwst h stop opd s
  | .cwadd h stop opd => Sys2Proof.Machine.execCwadd h stop opd s
  | .cwswp h stop opd => Sys2Proof.Machine.execCwswp h stop opd s
  | .csend h stop opd => Sys2Proof.Machine.execCsend h stop opd s
  | .crecv h stop opd => Sys2Proof.Machine.execCrecv h stop opd s
  | .sleep h stop opd => Sys2Proof.Machine.execSleep h stop opd s
  | .nwait h stop opd => Sys2Proof.Machine.execNwait h stop opd s
  | .npop h stop opd => Sys2Proof.Machine.execNpop h stop opd s
  | .vadd h stop opd => Sys2Proof.Machine.execVadd h stop opd s
  | .vsub h stop opd => Sys2Proof.Machine.execVsub h stop opd s
  | .vmul h stop opd => Sys2Proof.Machine.execVmul h stop opd s
  | .vfma h stop opd => Sys2Proof.Machine.execVfma h stop opd s
  | .vfnma h stop opd => Sys2Proof.Machine.execVfnma h stop opd s
  | .vmin h stop opd => Sys2Proof.Machine.execVmin h stop opd s
  | .vmax h stop opd => Sys2Proof.Machine.execVmax h stop opd s
  | .vabs h stop opd => Sys2Proof.Machine.execVabs h stop opd s
  | .vneg h stop opd => Sys2Proof.Machine.execVneg h stop opd s
  | .vcmp h stop opd => Sys2Proof.Machine.execVcmp h stop opd s
  | .vbsl h stop opd => Sys2Proof.Machine.execVbsl h stop opd s
  | .vand h stop opd => Sys2Proof.Machine.execVand h stop opd s
  | .vor h stop opd => Sys2Proof.Machine.execVor h stop opd s
  | .vxor h stop opd => Sys2Proof.Machine.execVxor h stop opd s
  | .vmov h stop opd => Sys2Proof.Machine.execVmov h stop opd s
  | .vcvt h stop opd => Sys2Proof.Machine.execVcvt h stop opd s
  | .vcadd h stop opd => Sys2Proof.Machine.execVcadd h stop opd s
  | .vcrnd h stop opd => Sys2Proof.Machine.execVcrnd h stop opd s
  | .vrsum h stop opd => Sys2Proof.Machine.execVrsum h stop opd s
  | .vgetl h stop opd => Sys2Proof.Machine.execVgetl h stop opd s
  | .vputl h stop opd => Sys2Proof.Machine.execVputl h stop opd s
  | .vbcast h stop opd => Sys2Proof.Machine.execVbcast h stop opd s
  | .vexp h stop opd => Sys2Proof.Machine.execVexp h stop opd s
  | .vlog2 h stop opd => Sys2Proof.Machine.execVlog2 h stop opd s
  | .vrcp h stop opd => Sys2Proof.Machine.execVrcp h stop opd s
  | .vrsq h stop opd => Sys2Proof.Machine.execVrsq h stop opd s
  | .vtanh h stop opd => Sys2Proof.Machine.execVtanh h stop opd s
  | .verf h stop opd => Sys2Proof.Machine.execVerf h stop opd s
  | .tld h stop opd => Sys2Proof.Machine.execTld h stop opd s
  | .tstore h stop opd => Sys2Proof.Machine.execTstore h stop opd s
  | .transferComplete h => Sys2Proof.Machine.execTransferComplete h s
  | .transferRowFault h row => Sys2Proof.Machine.execTransferRowFault h row s
  | .tzero h stop opd => Sys2Proof.Machine.execTzero h stop opd s
  | .tcfg h stop opd => Sys2Proof.Machine.execTcfg h stop opd s
  | .nset h stop opd => Sys2Proof.Machine.execNset h stop opd s
  | .nget h stop opd => Sys2Proof.Machine.execNget h stop opd s
  | .nopen h stop opd => Sys2Proof.Machine.execNopen h stop opd s
  | .nmac h stop opd => Sys2Proof.Machine.execNmac h stop opd s
  | .ndrn h stop opd => Sys2Proof.Machine.execNdrn h stop opd s
  | .nibDrain b => Sys2Proof.Machine.execNibDrain b s
  | .impreciseFault h slot dev len sfa => Sys2Proof.Machine.execImpreciseFault h slot dev len sfa s
  | .handWake h => Sys2Proof.Machine.execHandWake h s
  | .timerMatch h => Sys2Proof.Machine.execTimerMatch h s
  | .tcmpWrite p h hi v => Sys2Proof.Machine.execTcmpWrite p h hi v s
  | .interruptAssert b src detail => Sys2Proof.Machine.execInterruptAssert b src detail s
  | .beadIntMaskWrite p b v => Sys2Proof.Machine.execBeadIntMaskWrite p b v s
  | .startHand0 p b v => Sys2Proof.Machine.execStartHand0 p b v s
  | .beadChanCfgWrite p b v => Sys2Proof.Machine.execBeadChanCfgWrite p b v s
  | .beadTcfgWrite p b t v => Sys2Proof.Machine.execBeadTcfgWrite p b t v s
  | .beadVqBindWrite p b v => Sys2Proof.Machine.execBeadVqBindWrite p b v s
  | .beadQcloseWrite p b v => Sys2Proof.Machine.execBeadQcloseWrite p b v s
  | .abortMsg p h v => Sys2Proof.Machine.execAbortMsg p h v s
  | .haltHand p h => Sys2Proof.Machine.execHaltHand p h s
  | .releaseHand p h => Sys2Proof.Machine.execReleaseHand p h s
  | .registerWrite w tlp be v => Sys2Proof.Machine.execRegisterWrite w tlp be v s
  | .beadTickLoRead p b => Sys2Proof.Machine.execBeadTickLoRead p b s
  | .slateTickLoRead p sl => Sys2Proof.Machine.execSlateTickLoRead p sl s
  | .strokeCountLoRead p => Sys2Proof.Machine.execStrokeCountLoRead p s
  | .deviceLoadReturn h n bad => Sys2Proof.Machine.execDeviceLoadReturn h n bad s
  | .remoteRequestServe h n => Sys2Proof.Machine.execRemoteRequestServe h n s
  | .storeAcknowledge h n => Sys2Proof.Machine.execStoreAcknowledge h n s
  | .blotterFill b line bad => Sys2Proof.Machine.execBlotterFill b line bad s
  | .mergeEntryTimeout b line => Sys2Proof.Machine.execMergeEntryTimeout b line s
  | .mergeDrainAck b line bad => Sys2Proof.Machine.execMergeDrainAck b line bad s
  | .beadBlotCfgWrite p b v => Sys2Proof.Machine.execBeadBlotCfgWrite p b v s
  | .blotSwitchEnd b => Sys2Proof.Machine.execBlotSwitchEnd b s
  | .quillDescriptorStart b slot => Sys2Proof.Machine.execQuillDescriptorStart b slot s
  | .quillComplete b slot => Sys2Proof.Machine.execQuillComplete b slot s
  | .unitArrival sl n => Sys2Proof.Machine.execUnitArrival sl n s
  | .creditReturn sl n => Sys2Proof.Machine.execCreditReturn sl n s
  | .stealProbe h => Sys2Proof.Machine.execStealProbe h s
  | .stealAnswer h => Sys2Proof.Machine.execStealAnswer h s
  | .raiseRelease h => Sys2Proof.Machine.execRaiseRelease h s
  | .tallyRaise sl n => Sys2Proof.Machine.execTallyRaise sl n s
  | .tallyWaitRequest h => Sys2Proof.Machine.execTallyWaitRequest h s
  | .tallyWake h => Sys2Proof.Machine.execTallyWake h s
  | .contextLeave sl c => Sys2Proof.Machine.execContextLeave sl c s
  | .slumberEvent b => Sys2Proof.Machine.execSlumberEvent b s
  | .stallWatchdogFire sl => Sys2Proof.Machine.execStallWatchdogFire sl s
  | .dumpComplete sl => Sys2Proof.Machine.execDumpComplete sl s
  | .frameWrite sl frame bringup image => Sys2Proof.Machine.execFrameWrite sl frame bringup image s
  | .rulingLoadDone sl digestOk => Sys2Proof.Machine.execRulingLoadDone sl digestOk s
  | .pageDrained sl => Sys2Proof.Machine.execPageDrained sl s
  | .segmentLoadDone sl => Sys2Proof.Machine.execSegmentLoadDone sl s
  | .rulingApply sl => Sys2Proof.Machine.execRulingApply sl s
  | .shiftEnd sl rod => Sys2Proof.Machine.execShiftEnd sl rod s
  | .beatSend sl circuit => Sys2Proof.Machine.execBeatSend sl circuit s
  | .beatDeliver sl circuit => Sys2Proof.Machine.execBeatDeliver sl circuit s
  | .reservoirWrite k => Sys2Proof.Machine.execReservoirWrite k s
  | .inPortBeat k port => Sys2Proof.Machine.execInPortBeat k port s
  | .orderPush p k v => Sys2Proof.Machine.execOrderPush p k v s
  | .orderStart k => Sys2Proof.Machine.execOrderStart k s
  | .brushDrain k => Sys2Proof.Machine.execBrushDrain k s
  | .orderComplete k => Sys2Proof.Machine.execOrderComplete k s
  | .flush p k => Sys2Proof.Machine.execFlush p k s
  | .brushWatchdogExpire k => Sys2Proof.Machine.execBrushWatchdogExpire k s
  | .brushFail k => Sys2Proof.Machine.execBrushFail k s
  | .jobDispatch fn seq sl => Sys2Proof.Machine.execJobDispatch fn seq sl s
  | .jobSteal fn seq sl => Sys2Proof.Machine.execJobSteal fn seq sl s
  | .jobEnd fn seq status => Sys2Proof.Machine.execJobEnd fn seq status s
  | .jobCommit fn seq => Sys2Proof.Machine.execJobCommit fn seq s
  | .completionWrite fn => Sys2Proof.Machine.execCompletionWrite fn s
  | .strokePinEdge err => Sys2Proof.Machine.execStrokePinEdge err s
  | .markerBlock port crcOk err m => Sys2Proof.Machine.execMarkerBlock port crcOk err m s
  | .strokeEnd => Sys2Proof.Machine.execStrokeEnd s
  | .syntheticStroke => Sys2Proof.Machine.execSyntheticStroke s
  | .startAPage e => Sys2Proof.Machine.execStartAPage e s
  | .releaseATally e => Sys2Proof.Machine.execReleaseATally e s
  | .openASlotWindow e => Sys2Proof.Machine.execOpenASlotWindow e s
  | .sendADuctusTransfer e => Sys2Proof.Machine.execSendADuctusTransfer e s
  | .raiseAnInterrupt e => Sys2Proof.Machine.execRaiseAnInterrupt e s
  | .windowClose sl win => Sys2Proof.Machine.execWindowClose sl win s
  | .flitSend port => Sys2Proof.Machine.execFlitSend port s
  | .flitReceive port word data => Sys2Proof.Machine.execFlitReceive port word data s
  | .managementPacket port pkt => Sys2Proof.Machine.execManagementPacket port pkt s
  | .managementResendTimeout port seq => Sys2Proof.Machine.execManagementResendTimeout port seq s
  | .managementCreditBlock port credits acks => Sys2Proof.Machine.execManagementCreditBlock port credits acks s
  | .echoRelay port echo => Sys2Proof.Machine.execEchoRelay port echo s
  | .rangingRequest port seq t1 => Sys2Proof.Machine.execRangingRequest port seq t1 s
  | .rangingAnswer port seq t1 t2 t3 t4 => Sys2Proof.Machine.execRangingAnswer port seq t1 t2 t3 t4 s
  | .rangingTimeout port seq => Sys2Proof.Machine.execRangingTimeout port seq s
  | .laneFailure port lane errorCount => Sys2Proof.Machine.execLaneFailure port lane errorCount s
  | .sparingBlock port lane errorCount seq => Sys2Proof.Machine.execSparingBlock port lane errorCount seq s
  | .sparingAck port lane seq => Sys2Proof.Machine.execSparingAck port lane seq s
  | .fenceStroke p => Sys2Proof.Machine.execFenceStroke p s
  | .unfence p => Sys2Proof.Machine.execUnfence p s
  | .clockSlip sl => Sys2Proof.Machine.execClockSlip sl s
  | .slateHeartbeatMissing sl => Sys2Proof.Machine.execSlateHeartbeatMissing sl s
  | .beadCheckWire sl rod site why => Sys2Proof.Machine.execBeadCheckWire sl rod site why s
  | .stackFailure stack => Sys2Proof.Machine.execStackFailure stack s
  | .remirrorDone => Sys2Proof.Machine.execRemirrorDone s
  | .scribeWatchdogExpire b => Sys2Proof.Machine.execScribeWatchdogExpire b s
  | .scribeRebootDone b pass => Sys2Proof.Machine.execScribeRebootDone b pass s
  | .ledgerEngineFailure => Sys2Proof.Machine.execLedgerEngineFailure s
  | .identify q => Sys2Proof.Machine.execIdentify q s
  | .capability q => Sys2Proof.Machine.execCapability q s
  | .ctxCreate q => Sys2Proof.Machine.execCtxCreate q s
  | .ctxDestroy q => Sys2Proof.Machine.execCtxDestroy q s
  | .ctxAttr q => Sys2Proof.Machine.execCtxAttr q s
  | .mapPages q => Sys2Proof.Machine.execMapPages q s
  | .unmapPages q => Sys2Proof.Machine.execUnmapPages q s
  | .bookLoad q => Sys2Proof.Machine.execBookLoad q s
  | .bookUnload q => Sys2Proof.Machine.execBookUnload q s
  | .ringBind q => Sys2Proof.Machine.execRingBind q s
  | .ringUnbind q => Sys2Proof.Machine.execRingUnbind q s
  | .cancel q => Sys2Proof.Machine.execCancel q s
  | .ledgerQuery q => Sys2Proof.Machine.execLedgerQuery q s
  | .strokeConfig q => Sys2Proof.Machine.execStrokeConfig q s
  | .linkConfig q => Sys2Proof.Machine.execLinkConfig q s
  | .linkRoute q => Sys2Proof.Machine.execLinkRoute q s
  | .power q => Sys2Proof.Machine.execPower q s
  | .powerTransitionDone => Sys2Proof.Machine.execPowerTransitionDone s
  | .debugChallenge q jtag => Sys2Proof.Machine.execDebugChallenge q jtag s
  | .debugUnlock q jtag proofOk => Sys2Proof.Machine.execDebugUnlock q jtag proofOk s
  | .debugClose q jtag => Sys2Proof.Machine.execDebugClose q jtag s
  | .nonceExpire jtag => Sys2Proof.Machine.execNonceExpire jtag s
  | .scrubEnd => Sys2Proof.Machine.execScrubEnd s
  | .fwStage q digestOk sigOk => Sys2Proof.Machine.execFwStage q digestOk sigOk s
  | .fwCommit q => Sys2Proof.Machine.execFwCommit q s
  | .syncDump q => Sys2Proof.Machine.execSyncDump q s
  | .slateReset q => Sys2Proof.Machine.execSlateReset q s
  | .slateSelfTestEnd sl pass => Sys2Proof.Machine.execSlateSelfTestEnd sl pass s
  | .errlogRead q => Sys2Proof.Machine.execErrlogRead q s
  | .wellSqTailWrite fn v => Sys2Proof.Machine.execWellSqTailWrite fn v s
  | .wellCqHeadWrite fn v => Sys2Proof.Machine.execWellCqHeadWrite fn v s
  | .bar2Access fn off write len => Sys2Proof.Machine.execBar2Access fn off write len s
  | .atomicop fn off op wide a b => Sys2Proof.Machine.execAtomicop fn off op wide a b s
  | .functionLevelReset fn => Sys2Proof.Machine.execFunctionLevelReset fn s
  | .vfEnableClear => Sys2Proof.Machine.execVfEnableClear s
  | .mctpMessage t type opcode q => Sys2Proof.Machine.execMctpMessage t type opcode q s
  | .getVersion t => Sys2Proof.Machine.execGetVersion t s
  | .getCapabilities t => Sys2Proof.Machine.execGetCapabilities t s
  | .negotiateAlgorithms t => Sys2Proof.Machine.execNegotiateAlgorithms t s
  | .getDigests t => Sys2Proof.Machine.execGetDigests t s
  | .getCertificate t off len => Sys2Proof.Machine.execGetCertificate t off len s
  | .challenge t nonce => Sys2Proof.Machine.execChallenge t nonce s
  | .getMeasurements t index sign => Sys2Proof.Machine.execGetMeasurements t index sign s
  | .keyExchange t => Sys2Proof.Machine.execKeyExchange t s
  | .pskExchange t => Sys2Proof.Machine.execPskExchange t s
  | .setCertificate t => Sys2Proof.Machine.execSetCertificate t s
  | .doeDiscovery index => Sys2Proof.Machine.execDoeDiscovery index s
  | .pldmPlatform r => Sys2Proof.Machine.execPldmPlatform r s
  | .pldmFirmwareUpdate slotB image digestOk sigOk => Sys2Proof.Machine.execPldmFirmwareUpdate slotB image digestOk sigOk s
  | .sealLc p => Sys2Proof.Machine.execSealLc p s
  | .voidLc p => Sys2Proof.Machine.execVoidLc p s
  | .dbgMbox opcode q proofOk => Sys2Proof.Machine.execDbgMbox opcode q proofOk s
  | .dbgAccess write a => Sys2Proof.Machine.execDbgAccess write a s
  | .idcode => Sys2Proof.Machine.execIdcode s
  | .bypass tdi => Sys2Proof.Machine.execBypass tdi s
  | .samplePreload tdi => Sys2Proof.Machine.execSamplePreload tdi s
  | .extest tdi => Sys2Proof.Machine.execExtest tdi s
  | .intest tdi => Sys2Proof.Machine.execIntest tdi s
  | .trstN low => Sys2Proof.Machine.execTrstN low s
  | .debugWindowAccess p off write len => Sys2Proof.Machine.execDebugWindowAccess p off write len s
  | .broadcastWrite p a v => Sys2Proof.Machine.execBroadcastWrite p a v s
  | .broadcastRead p a => Sys2Proof.Machine.execBroadcastRead p a s
  | .thermalWarn => Sys2Proof.Machine.execThermalWarn s
  | .thermalCritical => Sys2Proof.Machine.execThermalCritical s
  | .thermalRecover => Sys2Proof.Machine.execThermalRecover s
  | .thermalTrip => Sys2Proof.Machine.execThermalTrip s
  | .powerOn => Sys2Proof.Machine.execPowerOn s
  | .powerOff => Sys2Proof.Machine.execPowerOff s
  | .moduleReset resetN => Sys2Proof.Machine.execModuleReset resetN s
  | .resetRelease => Sys2Proof.Machine.execResetRelease s
  | .hotReset => Sys2Proof.Machine.execHotReset s
  | .linkDown => Sys2Proof.Machine.execLinkDown s
  | .warm p => Sys2Proof.Machine.execWarm p s
  | .wellEqHeadWrite fn v => Sys2Proof.Machine.execWellEqHeadWrite fn v s
  | .linkAlignment port => Sys2Proof.Machine.execLinkAlignment port s
  | .slateCheckerMismatch sl => Sys2Proof.Machine.execSlateCheckerMismatch sl s
  | .closeEnd sl => Sys2Proof.Machine.execCloseEnd sl s
  | .brushZeroingEnd k => Sys2Proof.Machine.execBrushZeroingEnd k s
  | .msixUnmask fn vector => Sys2Proof.Machine.execMsixUnmask fn vector s

end Sys2Proof.Machine
end

