-- ==== Sys2Proof/Machine/Tick.lean ====
section
/-! DEFINITION. One tick of the device with no command waiting (log 51): the counters count, and what waits in the device
for a condition goes on. -/

namespace Sys2Proof.Machine

/-- One tick of a Slate: units that cross to another Slate pass their crossings (R233), the stall count and its watchdog go
on (R255, R256), and the tick counter counts (R67). -/
def tickSlate (s : State) (t : Nat) : State :=
  let s := crossAll s t
  if slateRuns s t then modSlate (fireStall (tickStall s t) t) t (fun x => { x with tick := x.tick + 1 }) else s

/-- The phase after one tick (R274): the tick after LEN − 1 is tick 0 of the next stroke. A link edge that waited for the
pin's WINDOW to pass may be the marker now (R275). -/
def tickPhase (s : State) : State :=
  if s.stroke.phase.toNat + 1 < s.stroke.len.toNat then
    let s := modStroke s (fun x => { x with phase := x.phase + 1 })
    if cfgEn s then judgeMarker s false else s
  else endStroke s

/-- What the sensors give at a tick (R380, R395): the input power's average and the temperatures are free values (log 118). -/
def sense (s : State) : State :=
  let (v, s) := freeBits s
  { s with pwr := { s.pwr with measured := v.truncate 16, temp := (v >>> 16).truncate 32 } }

/-- The numbers of the listed beads. -/
def listedBeads (s : State) : List Nat := s.beads.map (·.1)

/-- One tick of the device: the Slates, the beads' hands (R60, R61) and slumber (R271), the stroke unit and the ports, and
what waits for a condition, and the sensors. The stroke unit's tick follows the Slates', whose counters tick 0 latches. -/
def tick (s : State) : State :=
  if !deviceUp s then s
  else
    let s := (presentSlates s).foldl tickSlate s
    let s := (listedBeads s).foldl (fun s i => if beadRuns s i then tickSlumber (tickBead s i) i else s) s
    let s := tickPhase s
    let s := (List.range 12).foldl tickPort s
    let s := ((s.beads.filter (fun b => !b.2.heldWrites.isEmpty)).map (·.1)).foldl
      (fun s i => drainHeld s i (getBead s i).heldWrites.length) s
    let s := [Path.bar0, .jtag, .firmware].foldl (fun s p => drainPath s p (heldOf s p).length) s
    sense (serveWaiting s)

end Sys2Proof.Machine
end

