-- ==== Sys2Proof/Safety.lean ====
section
/-! DEFINITION. The terms of the statements: a sound memory, when a hand can issue a glyph that stands alone on its line,
and the state that such a line leaves. -/

namespace Sys2Proof.Machine

/-- A state whose memory is canonical. -/
def MemOk (s : State) : Prop := memWf s.mem = true

/-- A step completes: it answers a next state. -/
def Completes (o : Host.Outcome State Fault Refusal) : Prop := ∃ t, o = .next t

/-- The hand that a reference names. -/
def handAt (s : State) (hr : HandRef) : Hand := getHand s (beadNo hr.br) hr.hand.val

/-- The bead that a reference to a hand names. -/
def beadOf (s : State) (hr : HandRef) : Bead := getBead s (beadNo hr.br)

/-- The conditions of R60, R61, R93 and R98 under which glyph command c, alone on its line, issues at its hand: its Slate
runs and has the bead, the bead is not held, the hand is Running with an empty fetch buffer and no open line, its PC may
be fetched from, no fire gate or interlock holds the line, and the glyph's encoding is not reserved. -/
structure Ready (s : State) (hr : HandRef) (c : Instr) (g : Glyph) : Prop where
  glyph : glyphOf c = some g
  stops : g.stop = true
  encoded : glyphReserved g = false
  runs : slateRuns s hr.br.slate.val = true
  site : beadExists s (beadNo hr.br) = true
  free : (beadOf s hr).held = false
  running : (handAt s hr).st = .running
  noLine : (handAt s hr).openLine = none
  fresh : (handAt s hr).line = []
  fetch : fetchWords s (beadNo hr.br) (handAt s hr) (handAt s hr).pc.toNat 1 0 = .ok
  gate : gateHolds (beadOf s hr) (handAt s hr) = false
  items : interlocked (beadOf s hr) (handAt s hr) hr.hand.val [g] = false

/-- What a glyph alone on its line is evaluated in (R95, R119). -/
def aloneEnv (s : State) (hr : HandRef) (lexit : Bool) : Env :=
  ⟨s, beadNo hr.br, hr.hand.val, handAt s hr, (handAt s hr).pc, 1, successor (handAt s hr) (handAt s hr).pc 1 lexit⟩

/-- A hand's fetch buffer is empty and it has no open line. -/
def emptied (x : Hand) : Hand := { x with line := [], heldLine := [], openLine := none }

/-- The state after a line of one glyph has issued and retired: its hand continues at the successor or at `jump` (R115 to
R119), `f` being the glyph's own effect on the hand, and nothing else has changed. -/
def retireTo (s : State) (hr : HandRef) (jump : Option (W32 × Bool)) (f : Hand → Hand) : State :=
  putBead s (beadNo hr.br) (setHand (issuedBy (beadOf s hr) hr.hand) hr.hand.val
    (f (emptied (continueAt (handAt s hr) (handAt s hr).pc 1 false jump))))

/-- The same with the successor as the next address. -/
def retire (s : State) (hr : HandRef) (f : Hand → Hand) : State := retireTo s hr none f

/-- The flags that a glyph sets, N and Z always and V and C where they are named (R105). -/
structure FlagSet where
  n : Bool
  z : Bool
  v : Option Bool := none
  c : Option Bool := none
deriving DecidableEq, Repr

/-- A word with bit k given a value, or left as it is. -/
def setBitTo (w : W32) (k : Nat) : Option Bool → W32
  | none => w
  | some true => w ||| BitVec.ofNat 32 (2 ^ k)
  | some false => w &&& ~~~(BitVec.ofNat 32 (2 ^ k))

/-- A PSW with flags set: N is bit 19, Z 18, V 17 and C 16 (R91). -/
def withFlags (w : W32) (f : FlagSet) : W32 :=
  setBitTo (setBitTo (setBitTo (setBitTo w 19 (some f.n)) 18 (some f.z)) 17 f.v) 16 f.c

/-- N and Z of a result (R105). -/
def flagsNZ (r : W64) : FlagSet := { n := r.msb, z := r == 0 }

/-- What R107 and R105 give for an S-slot operation on ACC and v: its result and the flags it sets. -/
def aluSays (op : AluOp) (a v : W64) : W64 × FlagSet :=
  let n := v.toNat % 64
  match op with
  | .add => (a + v, { flagsNZ (a + v) with
      c := some (decide ((a + v).toNat < a.toNat)), v := some ((a + v).toInt != a.toInt + v.toInt) })
  | .sub | .cmp => (a - v, { flagsNZ (a - v) with
      c := some (decide (v.toNat ≤ a.toNat)), v := some ((a - v).toInt != a.toInt - v.toInt) })
  | .mul => (a * v, { flagsNZ (a * v) with c := some false, v := some ((a * v).toInt != a.toInt * v.toInt) })
  | .mulhs => let r := ((a.signExtend 128 * v.signExtend 128) >>> 64).truncate 64; (r, flagsNZ r)
  | .mulhu => let r := ((a.zeroExtend 128 * v.zeroExtend 128) >>> 64).truncate 64; (r, flagsNZ r)
  | .div => (a.sdiv v, flagsNZ (a.sdiv v))
  | .divu => (a / v, flagsNZ (a / v))
  | .rem => (a.srem v, flagsNZ (a.srem v))
  | .remu => (a % v, flagsNZ (a % v))
  | .and | .tst => (a &&& v, flagsNZ (a &&& v))
  | .or => (a ||| v, flagsNZ (a ||| v))
  | .xor => (a ^^^ v, flagsNZ (a ^^^ v))
  | .shl => (a <<< n, { flagsNZ (a <<< n) with c := some (n != 0 && a.getLsbD (64 - n)) })
  | .shr => (a >>> n, { flagsNZ (a >>> n) with c := some (n != 0 && a.getLsbD (n - 1)) })
  | .sar => (a.sshiftRight n, { flagsNZ (a.sshiftRight n) with c := some (n != 0 && a.getLsbD (n - 1)) })
  | .min => let r := if a.sle v then a else v; (r, flagsNZ r)
  | .max => let r := if v.sle a then a else v; (r, flagsNZ r)
  | .minu => let r := if a ≤ v then a else v; (r, flagsNZ r)
  | .maxu => let r := if v ≤ a then a else v; (r, flagsNZ r)

/-- The fault that R43 lets an S-slot operation raise: DIVZ (0x0B) with DZE, OVF (0x0C) with OVE. -/
def aluTraps (op : AluOp) (psw : W32) (a v : W64) : Option W8 :=
  let ovf (exact : Int) (r : W64) : Option W8 := if r.toInt ≠ exact ∧ psw.getLsbD 9 then some 0x0C else none
  let divz : Option W8 := if psw.getLsbD 8 then some 0x0B else none
  match op with
  | .add => ovf (a.toInt + v.toInt) (a + v)
  | .sub => ovf (a.toInt - v.toInt) (a - v)
  | .mul => ovf (a.toInt * v.toInt) (a * v)
  | .div | .rem => if v = 0 then divz else ovf (Int.tdiv a.toInt v.toInt) (a.sdiv v)
  | .divu | .remu => if v = 0 then divz else none
  | _ => none

/-- Whether an S-slot operation writes ACC: CMP and TST do not (R107). -/
def aluKeepsAcc : AluOp → Bool
  | .cmp | .tst => true
  | _ => false

/-- The S-slot glyph of an operation. -/
def aluGlyph (op : AluOp) (h : HandRef) (stop : Bool) (o : BitVec 22) : Instr :=
  match op with
  | .add => .add h stop o | .sub => .sub h stop o | .mul => .mul h stop o | .mulhs => .mulhs h stop o
  | .mulhu => .mulhu h stop o | .div => .div h stop o | .divu => .divu h stop o | .rem => .rem h stop o
  | .remu => .remu h stop o | .and => .and_ h stop o | .or => .or_ h stop o | .xor => .xor_ h stop o
  | .shl => .shl h stop o | .shr => .shr h stop o | .sar => .sar h stop o | .cmp => .cmp h stop o
  | .tst => .tst h stop o | .min => .min h stop o | .max => .max h stop o | .minu => .minu h stop o
  | .maxu => .maxu h stop o

/-- A hand with an S-slot operation's result and flags. -/
def aluDone (op : AluOp) (a v : W64) (x : Hand) : Hand :=
  { x with acc := if aluKeepsAcc op then x.acc else (aluSays op a v).1, psw := withFlags x.psw (aluSays op a v).2 }

/-- A local access of n bytes at a that passes the checks of R70, R101 and R166. -/
structure LocalFree (s : State) (hr : HandRef) (a n : Nat) : Prop where
  inside : a < 0x200000
  aligned : a % n = 0
  allowed : localOk (beadOf s hr) (handAt s hr) (pswPl (handAt s hr).psw) a n = true
  unheld : rangeHeld (beadOf s hr) a n = false

/-- The same for a read, which also meets no parity error (R167). -/
structure LocalOk (s : State) (hr : HandRef) (a n : Nat) : Prop where
  free : LocalFree s hr a n
  parity : parityFind s.parity (folioBase (beadNo hr.br) + a) n = none

/-- The device address of a local address of a hand's bead (R397, R399). -/
def localAt (hr : HandRef) (a : Nat) : Nat := folioBase (beadNo hr.br) + a

/-- The value v of an S-slot operand that is an immediate or in the own folio (R99, R107). -/
def OperandIs (s : State) (hr : HandRef) (o : BitVec 22) (v : W64) : Prop :=
  (opdMode o = 4 ∧ v = opdImm o)
    ∨ (opdMode o ≤ 3 ∧ LocalOk s hr (localEa (handAt s hr) o).toNat 8
        ∧ v = BitVec.ofNat 64 (loadNat s (localAt hr (localEa (handAt s hr) o).toNat) 8))

/-- A hand with an index register written. -/
def setX (x : Hand) : XReg → W32 → Hand
  | .x0, v => { x with x0 := v }
  | .x1, v => { x with x1 := v }

/-- The atomic glyph of an operation. -/
def atomGlyph (op : AtomOp) (h : HandRef) (stop : Bool) (o : BitVec 22) : Instr :=
  match op with
  | .add => .aadd h stop o | .swap => .aswp h stop o | .cas => .acas h stop o | .min => .amin h stop o
  | .max => .amax h stop o | .or => .aor h stop o | .and => .aand h stop o

/-- The word that an atomic of R107 leaves, from the word it finds, ACC and X1 × 2^32 + X0. -/
def atomSays (op : AtomOp) (old acc xs : W64) : W64 :=
  match op with
  | .add => old + acc
  | .swap => acc
  | .cas => if old = acc then xs else old
  | .min => if old.slt acc then old else acc
  | .max => if acc.slt old then old else acc
  | .or => old ||| acc
  | .and => old &&& acc

/-- The state after a LEXIT alone on its line has retired: its innermost level is closed first (R118). -/
def retireExit (s : State) (hr : HandRef) : State :=
  putBead s (beadNo hr.br) (setHand (issuedBy (beadOf s hr) hr.hand) hr.hand.val
    (emptied (continueAt (handAt s hr) (handAt s hr).pc 1 true none)))

/-- The two conditions under which LOOP and LOOPI with this exit open or skip a level (R114, steps 3 to 5). -/
def LoopFits (x : Hand) (exit : W32) : Prop :=
  pswLd x.psw < 4 ∧ x.pc + 4 < exit ∧ (pswLd x.psw = 0 ∨ x.pc + 4 ≠ (loopOf x (pswLd x.psw - 1)).lpe)

/-- A hand with loop level PSW.LD opened over [start, exit) with a count (R114, step 7). -/
def openLevel (y : Hand) (start exit : W32) (count : BitVec 24) : Hand :=
  { setLoop y (pswLd y.psw) ⟨start, exit, count⟩ with psw := pswSetLd y.psw (pswLd y.psw + 1) }

/-- A PSW restored from a save set: every field but HID (R88, R89). -/
def pswBack (old saved : W32) : W32 := (saved &&& 0x007F0303) ||| (old &&& 0x30000000)

/-- The PSW bits that PSWPUT writes (R108): the flags and enables, and LD above user level. -/
def pswputMask (psw : W32) : W32 := if pswPl psw = 0 then 0x000F0300 else 0x007F0300

/-- Whether GATE n finds a gate that its arguments satisfy (R87, steps 1 to 3). -/
structure GateFits (s : State) (hr : HandRef) (n : Nat) (d : List W8) : Prop where
  user : pswPl (handAt s hr).psw = 0
  counted : n < fld (beadOf s hr).regs.gateCount.toNat 8 0
  inside : gateAddr (beadOf s hr) n + 32 ≤ 0x200000
  outside : 0x8000 ≤ gateAddr (beadOf s hr) n
  unheld : rangeHeld (beadOf s hr) (gateAddr (beadOf s hr) n) 32 = false
  parity : parityFind s.parity (localAt hr (gateAddr (beadOf s hr) n)) 32 = none
  desc : d = loadBytes s (localAt hr (gateAddr (beadOf s hr) n)) 32
  valid : bitAt (gCtrl d) 31 = true
  args : gateArgsOk (handAt s hr) d = true

/-- The caller's hand after a gate with ARGC arguments has been entered (R87, steps 4 to 6). -/
def gated (x y : Hand) (succ : W32) (n : Nat) (d : List W8) : Hand :=
  { y with
    acc := if gArgc d = 0 then 0 else y.acc
    x0 := if gArgc d ≤ 1 then 0 else y.x0
    x1 := if gArgc d ≤ 2 then 0 else y.x1
    fp := if bitAt (gCtrl d) 10 then x.ksp else y.fp
    psw := (y.psw &&& ~~~0x303) ||| 1
    save1 := ⟨succ, x.psw, BitVec.ofNat 32 (n % 256 * 0x1000000 + 0x20), x.fp⟩ }

/-- The reference to another hand of the same bead. -/
def siblingAt (hr : HandRef) (t : Fin 4) : HandRef := { hr with hand := t }

/-- A bead with a scalar out-endpoint that this hand may send on: open, its port free and a credit at hand (R242, R244,
R249), with no message of the hand staged elsewhere. -/
structure SendFits (s : State) (hr : HandRef) (ep : Nat) : Prop where
  isOpen : soutClosed (beadOf s hr) ep = false
  credit : soutCredits (beadOf s hr) ep ≠ 0
  free : portTaken (aloneEnv s hr false) ep = false
  here : ∀ m, (handAt s hr).staged = some m → m.ep.val = ep

/-- The virtual tally identifier of form N (R113). -/
def TallyNo (x : Hand) (o : BitVec 22) (t : Nat) : Prop :=
  (opdMode o = 4 ∧ fld o.toNat 18 10 = 0 ∧ t = fld o.toNat 9 0)
    ∨ (opdMode o = 1 ∧ t = (x.x0 + BitVec.ofInt 32 (opdDisp o)).toNat % 1024)
    ∨ (opdMode o = 2 ∧ t = (x.x1 + BitVec.ofInt 32 (opdDisp o)).toNat % 1024)

/-- The physical tally that form N of a tally glyph names through the bead's context (R113, R257). -/
def TallyNamed (s : State) (hr : HandRef) (o : BitVec 22) (p : Nat) : Prop :=
  ∃ c t, beadCtx (beadOf s hr) = some c ∧ TallyNo (handAt s hr) o t ∧ tallyOf s (beadNo hr.br / 256) c t = some p

/-- The tally glyphs of form N. -/
def tallyGlyphs (hr : HandRef) (o : BitVec 22) : List Instr :=
  [.twait hr true o, .tadd hr true o, .tinc hr true o, .tread hr true o]

/-- A hand whose tally latch is cleared. -/
def unlatched (y : Hand) : Hand := { y with latch := {} }

/-- A hand put to sleep by a waiting glyph with a latch (R96): its line is withdrawn. -/
def asleep (s : State) (hr : HandRef) (w : WaitKind) (latch : TallyLatch) (chan : W8) : State :=
  putHand s (beadNo hr.br) hr.hand.val
    { handAt s hr with st := .sleeping w, latch := latch, sleepMask := chan, heldLine := [] }

/-- The tray of a bead with one entry more or less (R238). -/
def movedTail (s : State) (hr : HandRef) (by_ : W32) : State :=
  modBead s (beadNo hr.br) (fun b => { b with regs := { b.regs with trayTail := b.regs.trayTail + by_ } })

/-- The state after a V glyph has written row r of tile t with its flags, and taken its rows of bound in-endpoints
(R132, R246). -/
def vDone (s : State) (hr : HandRef) (t r : Nat) (data : Row) (scale flags : W32) (reads : List (Nat × Nat × Nat)) :
    State :=
  takeRows (modHand (writeRow (retire s hr id) (beadNo hr.br) t r ⟨data, scale⟩) (beadNo hr.br) hr.hand.val
    (fun y => { y with fsw := y.fsw ||| flags })) (beadNo hr.br) reads

/-- A state whose free values of one line have been drawn (log 1). -/
def drawn (s : State) : State := { s with freeCtr := s.freeCtr + 2048 }

/-- The row that a V glyph reads for a tile: that of the bound in-endpoint, or the tile's own (R246). -/
def vData (s : State) (hr : HandRef) (t r : Nat) : Row := (vRead (beadOf s hr) t r 0).data

/-- The row of TB: row 0 with BR = 1 (R121). -/
def vRowB (x : Hand) (o : BitVec 22) : Nat := if rBr o then 0 else vRow x o

/-- The checks of R122, R123, R246 and R249 pass for what a V glyph uses, its formats being as its entry asks. -/
def VFits (s : State) (hr : HandRef) (u : VUse) (shapes : Bool) : Prop := vCheck (aloneEnv s hr false) u shapes = .ok ()

/-- The lane-wise glyphs of R132, with whether they read TB and TD. -/
def laneGlyph (op : VOp) (h : HandRef) (stop : Bool) (o : BitVec 22) : Instr :=
  match op with
  | .add => .vadd h stop o | .sub => .vsub h stop o | .mul => .vmul h stop o | .fma => .vfma h stop o
  | .fnma => .vfnma h stop o | .min => .vmin h stop o | .max => .vmax h stop o | .abs => .vabs h stop o
  | .neg => .vneg h stop o | .cmp _ => .vcmp h stop o

/-- Whether a lane-wise operation reads TB, and TD as its third operand (R132). -/
def laneReads : VOp → Bool × Bool
  | .fma | .fnma => (true, true)
  | .abs | .neg => (false, false)
  | _ => (true, false)

/-- What a lane-wise operation uses. -/
def laneUse (s : State) (hr : HandRef) (op : VOp) (o : BitVec 22) : VUse :=
  useOf (aloneEnv s hr false) o (laneReads op).1 (laneReads op).2

/-- The formats that a lane-wise operation asks for: one plain format for its tiles, a float one for VFMA and VFNMA
(R132). -/
def laneShapes (b : Bead) (op : VOp) (o : BitVec 22) : Bool :=
  let f := tileFmt b (rTd o)
  !fmtMx f && tileFmt b (rTa o) == f && (!(laneReads op).1 || tileFmt b (rTb o) == f) && !((laneReads op).2 && fmtInt f)

/-- The special-function glyphs (R42). -/
def specialGlyph (f : SpecialFn) (h : HandRef) (stop : Bool) (o : BitVec 22) : Instr :=
  match f with
  | .exp => .vexp h stop o | .log2 => .vlog2 h stop o | .rcp => .vrcp h stop o | .rsq => .vrsq h stop o
  | .tanh => .vtanh h stop o | .erf => .verf h stop o

/-- The conditions of R123, R128, R131 and R166 under which a TLD or TST begins. -/
structure TransferFits (s : State) (hr : HandRef) (t : Transfer) : Prop where
  layout : (t.dev && !t.lay && fmtMx (tileFmt (beadOf s hr) t.tile.val)) = false
  granted : (if t.store then mayReadTile (beadOf s hr) hr.hand.val (pswPl (handAt s hr).psw) t.tile.val
    else mayWriteTile (beadOf s hr) hr.hand.val (pswPl (handAt s hr).psw) t.tile.val) = true
  shape : transferShape (beadOf s hr) t = true
  row : t.next < tileRows (beadOf s hr) t.tile.val
  reach : t.dev = true → t.acc.toNat < 2 ^ 48
  aligned : transferMisaligned (beadOf s hr) t t.next = none
  open_ : t.dev = true → devHeld (aloneEnv s hr false) = false
  unheld : t.dev = false → ∀ r ∈ transferHulls t (tileFmt (beadOf s hr) t.tile.val) (tileRows (beadOf s hr) t.tile.val),
    ∀ q ∈ heldRanges (beadOf s hr), overlaps r q = false

/-- A hand whose line stays open for `why` with nothing left to write when it retires (R129, R270). -/
def opened (s : State) (hr : HandRef) (succ : W32) (why : Pending) (y : Hand) : Hand :=
  { y with line := [], heldLine := [],
           openLine := some { pc := (handAt s hr).pc, len := 1, succ := succ, why := [why], effs := [] } }

/-- The state after a glyph alone on its line has issued and waits, `f` being what it does to its bead meanwhile. -/
def waiting (s : State) (hr : HandRef) (f : Bead → Bead) (why : Pending) : State :=
  modHand (modBead (modBead s (beadNo hr.br) (fun b => issuedBy b hr.hand)) (beadNo hr.br) f) (beadNo hr.br) hr.hand.val
    (opened s hr (successor (handAt s hr) (handAt s hr).pc 1 false) why)

/-- No other hand's open line has a nib operation that has not taken effect (R51). -/
def NibFree (s : State) (hr : HandRef) : Prop := nibWaits (aloneEnv s hr false) = false

/-- The hand may name group g at its level (R73). -/
def NibMay (s : State) (hr : HandRef) (g : Nat) : Prop := nibGranted (aloneEnv s hr false) g = true

/-- A drain of a descriptor fits (R135, R138, R166): an entry is free, its format is one that R135 gives, and its
destination lies where the hand may write. -/
structure DrainFits (s : State) (hr : HandRef) (d : W64) : Prop where
  entry : heldEntries (beadOf s hr) < 8
  format : ofmtOk d = true
  place : drainRefused (aloneEnv s hr false) d = none

/-- The cells of a group as numbers (R136). -/
def cellsOf (b : Bead) (g r n : Nat) : W32 × W32 := ((nibCell b g r n).s, (nibCell b g r n).e)

/-- The conditions of R136 to R140 under which an NMAC adds. -/
structure NmacFits (s : State) (hr : HandRef) (o : BitVec 22) : Prop where
  free : NibFree s hr
  may : NibMay s hr (gGroup o)
  weights : 1 ≤ ngWfmt (nibDesc (beadOf s hr) (gGroup o)) ∧ ngWfmt (nibDesc (beadOf s hr) (gGroup o)) ≤ 0xB
    ∧ (gTw o = true → fmtMx (ngWfmt (nibDesc (beadOf s hr) (gGroup o))) = false)
  tile : tileFmt (beadOf s hr) (gTile o) ≠ 0
  unheld : ∀ p ∈ nmacRanges (tileFmt (beadOf s hr) (gTile o)) (ngWfmt (nibDesc (beadOf s hr) (gGroup o)))
    (handAt s hr).x0 (handAt s hr).x1, rangeHeld (beadOf s hr) p.1 p.2 = false
  reads : nmacRefused (aloneEnv s hr false) (tileFmt (beadOf s hr) (gTile o))
    (ngWfmt (nibDesc (beadOf s hr) (gGroup o))) = none
  group : gAcu o = true → (nibGroup (beadOf s hr) (gGroup o)).isOpen = true
  granted : mayReadTile (beadOf s hr) hr.hand.val (pswPl (handAt s hr).psw) (gTile o) = true
  bound : boundIn (beadOf s hr) (gTile o) = none ∧ boundOut (beadOf s hr) (gTile o) = none
  parity : ∀ p ∈ nmacRanges (tileFmt (beadOf s hr) (gTile o)) (ngWfmt (nibDesc (beadOf s hr) (gGroup o)))
    (handAt s hr).x0 (handAt s hr).x1, parityFind s.parity (localAt hr p.1) p.2 = none
  rows : ∀ r < tileRows (beadOf s hr) (gTile o), (beadOf s hr).rowBad.contains (32 * gTile o + r) = false

/-- The cells that an NMAC leaves in its group (R45 to R48, R136): added to those found with ACU = 1, else to zero. -/
def nmacLeaves (s : State) (hr : HandRef) (o : BitVec 22) : SMap Cell :=
  nmacCells (aloneEnv s hr false) (gGroup o) (tileFmt (beadOf s hr) (gTile o))
    (ngWfmt (nibDesc (beadOf s hr) (gGroup o))) o
    (fun r n => if gAcu o then nibCell (beadOf s hr) (gGroup o) r n else {})

/-- A device-address request of an access that s issues, put in flight in t (R104, R142). -/
def requested (s t : State) (hr : HandRef) (slot : Nat) (va : Nat) (x : Xlat) (op : DevOp) : State :=
  pushReq t (beadNo hr.br) hr.hand.val (handAt s hr).pc 1 slot (BitVec.ofNat 48 va) x.pa x.mirror op

/-- The virtual address of ACC-indirect mode (R99). -/
def devAt (s : State) (hr : HandRef) (o : BitVec 22) : W64 := devEa (handAt s hr).acc o

/-- A device-address access of a hand that passes its checks and reaches memory through x (R100, R101, R144, R314), no
switch or scan holding it (R146, R159). -/
structure DevFits (s : State) (hr : HandRef) (o : BitVec 22) (n : Nat) (write atomic : Bool) (x : Xlat) : Prop where
  mode : opdMode o = 5
  checked : checkDev (aloneEnv s hr false) (devAt s hr o) n n write atomic = .ok (.mem x)
  open_ : devHeld (aloneEnv s hr false) = false
/-- The loads of R106 and R107: glyph, slot, bytes and destination. -/
def memLoads (hr : HandRef) (r : XReg) (o : BitVec 22) : List (Instr × Nat × Nat × LoadDest) :=
  [(.ld hr true o, 1, 8, .acc 8 false), (.ldw hr true o, 1, 4, .acc 4 true), (.ldwu hr true o, 1, 4, .acc 4 false),
    (.ldh hr true o, 1, 2, .acc 2 true), (.ldhu hr true o, 1, 2, .acc 2 false), (.ldb hr true o, 1, 1, .acc 1 true),
    (.ldbu hr true o, 1, 1, .acc 1 false), (.xld hr true r o, 0, 4, .xr r), (.fpld hr true o, 0, 4, .fp)]

/-- The stores of R106 and R107: glyph, slot and bytes. -/
def memStores (x : Hand) (hr : HandRef) (r : XReg) (o : BitVec 22) : List (Instr × Nat × List W8) :=
  [(.st hr true o, 1, toBytes 8 x.acc.toNat), (.stw hr true o, 1, toBytes 4 x.acc.toNat),
    (.sth hr true o, 1, toBytes 2 x.acc.toNat), (.stb hr true o, 1, toBytes 1 x.acc.toNat),
    (.xst hr true r o, 0, toBytes 4 (xOf x r).toNat), (.fpst hr true o, 0, toBytes 4 x.fp.toNat)]

/-- A hand with loaded bytes in their register. -/
def loaded (d : LoadDest) (bs : List W8) (y : Hand) : Hand :=
  match d with
  | .acc _ sg => { y with acc := extend sg bs }
  | .xr r => setX y r (BitVec.ofNat 32 (ofBytes bs))
  | .fp => { y with fp := BitVec.ofNat 32 (ofBytes bs) }
  | .alu _ => y

/-- The conditions under which the second of two glyphs completes and issues its line (R60, R93, R98). -/
structure ReadyPair (s : State) (hr : HandRef) (a c : Instr) (ga gc : Glyph) : Prop where
  glyphA : glyphOf a = some ga
  glyphC : glyphOf c = some gc
  legal : lineLegal [ga, gc] = true
  encodedA : glyphReserved ga = false
  encodedC : glyphReserved gc = false
  runs : slateRuns s hr.br.slate.val = true
  site : beadExists s (beadNo hr.br) = true
  free : (beadOf s hr).held = false
  running : (handAt s hr).st = .running
  noLine : (handAt s hr).openLine = none
  waits : (handAt s hr).line = [a]
  fetch : fetchWords s (beadNo hr.br) (handAt s hr) (handAt s hr).pc.toNat 2 0 = .ok
  gate : gateHolds (beadOf s hr) (handAt s hr) = false
  items : interlocked (beadOf s hr) (handAt s hr) hr.hand.val [ga, gc] = false

/-- The state after a line of two glyphs without a transfer of control has issued and retired. -/
def retirePair (s : State) (hr : HandRef) (f : Hand → Hand) : State :=
  putBead s (beadNo hr.br) (setHand (issuedBy (beadOf s hr) hr.hand) hr.hand.val
    (f (emptied (continueAt (handAt s hr) (handAt s hr).pc 2 false none))))

/-- The bead that a bead reference names. -/
def beadIn (s : State) (b : BeadRef) : Bead := getBead s (beadNo b)

/-- A bead whose hands may act: its Slate runs, its position holds a site and it is not held in reset (R66, R384). -/
structure BeadUp (s : State) (b : BeadRef) : Prop where
  runs : slateRuns s b.slate.val = true
  site : beadExists s (beadNo b) = true
  free : (beadIn s b).held = false

/-- A notice of a source waits in a bead's queue with these words 1 and 2 (R80). -/
def Noticed (b : Bead) (source : Nat) (w1 w2 : W32) : Prop :=
  ∃ n ∈ b.core.notices, n.source = source ∧ n.word1 = w1 ∧ n.word2 = w2

/-- `Ready`, whatever the glyph's encoding. -/
structure Formed (s : State) (hr : HandRef) (c : Instr) (g : Glyph) : Prop where
  glyph : glyphOf c = some g
  stops : g.stop = true
  runs : slateRuns s hr.br.slate.val = true
  site : beadExists s (beadNo hr.br) = true
  free : (beadOf s hr).held = false
  running : (handAt s hr).st = .running
  noLine : (handAt s hr).openLine = none
  fresh : (handAt s hr).line = []
  fetch : fetchWords s (beadNo hr.br) (handAt s hr) (handAt s hr).pc.toNat 1 0 = .ok
  gate : gateHolds (beadOf s hr) (handAt s hr) = false
  items : interlocked (beadOf s hr) (handAt s hr) hr.hand.val [g] = false

/-- No imprecise fault is held for hand 0 of a hand's bead (R411). -/
def Unfaulted (s : State) (hr : HandRef) : Prop := (handAt s (siblingAt hr 0)).heldFaults = []

/-- A glyph alone on its line takes a precise fault with this SCAUSE and SFA (R76 to R80, R90): at user level hands 1 to 3
stop with the level-1 save set written and a notice posted; hand 0 and keeper level enter the sentinel vector of the cause;
at sentinel level the bead locks up. No byte of memory changes. The line has issued (R61). Where the notice wakes hand 0 from
NWAIT, no fault is held for that hand (R411). -/
structure FaultsAs (s : State) (hr : HandRef) (c : Instr) (scause sfa : W32) : Prop where
  stops : pswPl (handAt s hr).psw = 0 → hr.hand ≠ 0 → Unfaulted s hr → ∃ t, exec c s = .next t
    ∧ handAt t hr = { emptied (handAt s hr) with
        st := .stopped .fault, save1 := ⟨(handAt s hr).pc, (handAt s hr).psw, scause, sfa⟩ }
    ∧ Noticed (beadOf t hr) hr.hand.val (handAt s hr).pc sfa ∧ t.mem = s.mem
  enters : (pswPl (handAt s hr).psw = 1 ∨ (pswPl (handAt s hr).psw = 0 ∧ hr.hand = 0)) → exec c s
    = .next (putHand (pointTo s (beadNo hr.br) hr.hand.val) (beadNo hr.br) hr.hand.val { emptied (handAt s hr) with
        st := .running, save2 := ⟨(handAt s hr).pc, (handAt s hr).psw, scause, sfa⟩
        psw := ((handAt s hr).psw &&& ~~~0x303) ||| 2, pc := (scause &&& 0xFF) <<< 6 })
  locks : 2 ≤ pswPl (handAt s hr).psw → ∃ t, exec c s = .next t
    ∧ (∀ h : Fin 4, (handAt t (siblingAt hr h)).st = .locked) ∧ t.mem = s.mem

/-- An access by path p to the register at offset o of a bead's control block that is granted and meets no earlier write
of control space still waiting at the bead (R370, R400, R401). -/
structure SpaceFits (s : State) (p : Path) (b : BeadRef) (o : Nat) (write : Bool) : Prop where
  up : deviceUp s = true
  present : slatePresent s b.slate.val = true
  site : (siteOf s b.slate.val (b.bead.val / 16) (b.bead.val % 16)).isSome = true
  grant : granted s p (.bead (beadNo b) o) write = true
  working : (getSlate s b.slate.val).inReset = false
  quiet : heldOf s p = []

/-- What a path's last read of control space answered (R401). -/
def lastRead (s : State) (p : Path) : W32 :=
  match p with
  | .bar0 => s.answers.bar0
  | .jtag => s.answers.jtag
  | .firmware => s.answers.firmware

/-- A brush that a path's granted access reaches: its Slate present and not in reset. -/
structure BrushFits (s : State) (p : Path) (k : BrushRef) (o : Nat) : Prop where
  up : deviceUp s = true
  present : slatePresent s k.slate.val = true
  grant : granted s p (.brush (brushNo k) o) true = true
  working : (getSlate s k.slate.val).inReset = false
  quiet : heldOf s p = []

/-- A function's command well takes a request (R318, R320): it is served, not BUSY, and VERSION is 1. -/
structure WellFits (s : State) (q : CmdReq) : Prop where
  hears : wellDeaf s = false
  idle : (getFn s q.fn.val).busy = false
  version : q.version = 1

/-- A function's well has posted a response (R318, R319): BUSY is clear, DONE is set, and the response words stand in it. -/
def Answered (u : State) (f : Fin 16) (op : Nat) (tag : W32) (r : Rsp) : Prop :=
  (getFn u f.val).rsp = (rspWords op tag r).zipIdx.map (fun p => (p.2, p.1))
    ∧ (getFn u f.val).busy = false ∧ (getFn u f.val).done = true

/-- The state in which a request of a well is served: the request stands in it and BUSY is set (R318). -/
def taken (s : State) (op : Nat) (q : CmdReq) : State :=
  modFn s q.fn.val (fun x => { x with req := (reqWords op q).zipIdx.map (fun p => (p.2, p.1)), busy := true })

/-- A command of the command well with its opcode (R322). -/
def IsWellCommand (q : CmdReq) (c : Instr) (op : Nat) : Prop :=
  (c = .identify q ∧ op = 0x01) ∨ (c = .capability q ∧ op = 0x02) ∨ (c = .ctxCreate q ∧ op = 0x10)
    ∨ (c = .ctxDestroy q ∧ op = 0x11) ∨ (c = .ctxAttr q ∧ op = 0x12) ∨ (c = .mapPages q ∧ op = 0x20)
    ∨ (c = .unmapPages q ∧ op = 0x21) ∨ (c = .bookLoad q ∧ op = 0x30) ∨ (c = .bookUnload q ∧ op = 0x31)
    ∨ (c = .ringBind q ∧ op = 0x40) ∨ (c = .ringUnbind q ∧ op = 0x41) ∨ (c = .cancel q ∧ op = 0x50)
    ∨ (c = .ledgerQuery q ∧ op = 0x51) ∨ (c = .strokeConfig q ∧ op = 0x60) ∨ (c = .linkConfig q ∧ op = 0x61)
    ∨ (c = .linkRoute q ∧ op = 0x62) ∨ (c = .power q ∧ op = 0x70) ∨ (c = .debugChallenge q false ∧ op = 0x80)
    ∨ ((∃ ok, c = .debugUnlock q false ok) ∧ op = 0x81) ∨ (c = .debugClose q false ∧ op = 0x82)
    ∨ ((∃ d g, c = .fwStage q d g) ∧ op = 0x90) ∨ (c = .fwCommit q ∧ op = 0x91) ∨ (c = .syncDump ⟨q, false⟩ ∧ op = 0xA0)
    ∨ (c = .slateReset q ∧ op = 0xB0) ∨ (c = .errlogRead q ∧ op = 0xC0)

end Sys2Proof.Machine
end

