-- ==== Sys2Proof/Certificates/Slice0/Obligations.lean ====
section
/-! DEFINITION. The statements for the provers. Each glyph statement speaks of a glyph alone on its line (`Ready`); what a
line of several glyphs does is `GlyphLines`. -/

open Sys2Proof Sys2Proof.Machine

/-- R106: the A-slot glyphs that only compute write their register and nothing else; the line then retires (R119). -/
def Obligations.IndexRegisterGlyphs : Prop :=
  ∀ (s : State) (hr : HandRef) (r : XReg) (o : BitVec 22) (g : Glyph),
    let x := handAt s hr
    (Ready s hr (.xaddi hr true r o) g →
      exec (.xaddi hr true r o) s = .next (retire s hr (fun y => setX y r (xOf x r + imm32 o))))
    ∧ (Ready s hr (.xmuli hr true r o) g →
      exec (.xmuli hr true r o) s = .next (retire s hr (fun y => setX y r (xOf x r * imm32 o))))
    ∧ (Ready s hr (.xandi hr true r o) g →
      exec (.xandi hr true r o) s = .next (retire s hr (fun y => setX y r (xOf x r &&& imm32 o))))
    ∧ (Ready s hr (.xlea hr true r o) g →
      exec (.xlea hr true r o) s = .next (retire s hr (fun y => setX y r (localEa x o))))
    ∧ (Ready s hr (.xacc hr true r o) g →
      exec (.xacc hr true r o) s = .next (retire s hr (fun y => setX y r (x.acc.truncate 32))))
    ∧ (Ready s hr (.fpaddi hr true o) g →
      exec (.fpaddi hr true o) s = .next (retire s hr (fun y => { y with fp := x.fp + imm32 o })))
    ∧ (Ready s hr (.fpacc hr true o) g →
      exec (.fpacc hr true o) s = .next (retire s hr (fun y => { y with fp := x.acc.truncate 32 })))
    ∧ (Ready s hr (.fplea hr true o) g →
      exec (.fplea hr true o) s = .next (retire s hr (fun y => { y with fp := localEa x o })))

/-- R99, R106, R107: a load from the own folio writes its register with the bytes at its EA, extended as its glyph
says, and an LD of an immediate writes ACC with it; no flag and no byte of memory changes. -/
def Obligations.LocalLoads : Prop :=
  ∀ (s : State) (hr : HandRef) (r : XReg) (o : BitVec 22) (g : Glyph),
    let x := handAt s hr
    let a := (localEa x o).toNat
    let m (n : Nat) : Nat := loadNat s (localAt hr a) n
    let put (v : W64) : State := retire s hr (fun y => { y with acc := v })
    (opdMode o ≤ 3 → LocalOk s hr a 8 → Ready s hr (.ld hr true o) g →
      exec (.ld hr true o) s = .next (put (BitVec.ofNat 64 (m 8))))
    ∧ (opdMode o ≤ 3 → LocalOk s hr a 4 → Ready s hr (.ldw hr true o) g →
      exec (.ldw hr true o) s = .next (put ((BitVec.ofNat 32 (m 4)).signExtend 64)))
    ∧ (opdMode o ≤ 3 → LocalOk s hr a 4 → Ready s hr (.ldwu hr true o) g →
      exec (.ldwu hr true o) s = .next (put (BitVec.ofNat 64 (m 4))))
    ∧ (opdMode o ≤ 3 → LocalOk s hr a 2 → Ready s hr (.ldh hr true o) g →
      exec (.ldh hr true o) s = .next (put ((BitVec.ofNat 16 (m 2)).signExtend 64)))
    ∧ (opdMode o ≤ 3 → LocalOk s hr a 2 → Ready s hr (.ldhu hr true o) g →
      exec (.ldhu hr true o) s = .next (put (BitVec.ofNat 64 (m 2))))
    ∧ (opdMode o ≤ 3 → LocalOk s hr a 1 → Ready s hr (.ldb hr true o) g →
      exec (.ldb hr true o) s = .next (put ((BitVec.ofNat 8 (m 1)).signExtend 64)))
    ∧ (opdMode o ≤ 3 → LocalOk s hr a 1 → Ready s hr (.ldbu hr true o) g →
      exec (.ldbu hr true o) s = .next (put (BitVec.ofNat 64 (m 1))))
    ∧ (opdMode o ≤ 3 → LocalOk s hr a 4 → Ready s hr (.xld hr true r o) g →
      exec (.xld hr true r o) s = .next (retire s hr (fun y => setX y r (BitVec.ofNat 32 (m 4)))))
    ∧ (opdMode o ≤ 3 → LocalOk s hr a 4 → Ready s hr (.fpld hr true o) g →
      exec (.fpld hr true o) s = .next (retire s hr (fun y => { y with fp := BitVec.ofNat 32 (m 4) })))
    ∧ (opdMode o = 4 → Ready s hr (.ld hr true o) g →
      exec (.ld hr true o) s = .next (put (opdImm o)))

/-- R99, R106, R107, R410: a store to the own folio writes the low bytes of its register, lowest first, at its EA, and
changes no register and no other byte of memory. -/
def Obligations.LocalStores : Prop :=
  ∀ (s : State) (hr : HandRef) (r : XReg) (o : BitVec 22) (g : Glyph),
    let x := handAt s hr
    let a := (localEa x o).toNat
    let stored (n v : Nat) : State := storeBytes (retire s hr id) (localAt hr a) (toBytes n v)
    let fits (n : Nat) : Prop := opdMode o ≤ 3 ∧ LocalFree s hr a n
    (fits 8 → Ready s hr (.st hr true o) g → exec (.st hr true o) s = .next (stored 8 x.acc.toNat))
    ∧ (fits 4 → Ready s hr (.stw hr true o) g → exec (.stw hr true o) s = .next (stored 4 x.acc.toNat))
    ∧ (fits 2 → Ready s hr (.sth hr true o) g → exec (.sth hr true o) s = .next (stored 2 x.acc.toNat))
    ∧ (fits 1 → Ready s hr (.stb hr true o) g → exec (.stb hr true o) s = .next (stored 1 x.acc.toNat))
    ∧ (fits 4 → Ready s hr (.xst hr true r o) g → exec (.xst hr true r o) s = .next (stored 4 (xOf x r).toNat))
    ∧ (fits 4 → Ready s hr (.fpst hr true o) g → exec (.fpst hr true o) s = .next (stored 4 x.fp.toNat))
    ∧ (∀ n v b, MemOk s → (b < localAt hr a ∨ localAt hr a + n ≤ b) → memRead (stored n v).mem b = memRead s.mem b)
    ∧ (∀ n v k, MemOk s → k < n → memRead (stored n v).mem (localAt hr a + k) = BitVec.ofNat 8 (v / 256 ^ k))

/-- R43, R105, R107: the S-slot operations with an immediate or an operand in the own folio write their result to ACC
(CMP and TST do not) and their flags to PSW, and change nothing else, unless R43 has them fault. -/
def Obligations.AluGlyphs : Prop :=
  ∀ (op : AluOp) (s : State) (hr : HandRef) (o : BitVec 22) (g : Glyph) (v : W64),
    Ready s hr (aluGlyph op hr true o) g → OperandIs s hr o v →
    aluTraps op (handAt s hr).psw (handAt s hr).acc v = none →
      exec (aluGlyph op hr true o) s = .next (retire s hr (aluDone op (handAt s hr).acc v))

/-- R107: the S-slot glyphs without a memory operand: SHLORI, NEG, NOT, ABS, CLZ, POPC and RGET. NEG and ABS of −2^63
with OVE = 1 fault instead (R43). C of NEG is that of NOT ACC + 1 (log 12). -/
def Obligations.AccumulatorGlyphs : Prop :=
  ∀ (s : State) (hr : HandRef) (o : BitVec 22) (g : Glyph),
    let x := handAt s hr
    let put (v : W64) (f : W32 → W32) : State := retire s hr (fun y => { y with acc := v, psw := f y.psw })
    let nz (v : W64) : W32 → W32 := fun w => withFlags w (flagsNZ v)
    let least : W64 := BitVec.intMin 64
    let all (v : W64) : W32 → W32 := fun w =>
      withFlags w { flagsNZ v with v := some (x.acc == least), c := some (x.acc == 0) }
    (Ready s hr (.shlori hr true o) g →
      exec (.shlori hr true o) s
        = .next (put ((x.acc <<< 16) ||| (o.truncate 16 : BitVec 16).zeroExtend 64) id))
    ∧ (Ready s hr (.not_ hr true o) g → exec (.not_ hr true o) s = .next (put (~~~x.acc) (nz (~~~x.acc))))
    ∧ (Ready s hr (.neg hr true o) g → (x.acc ≠ least ∨ x.psw.getLsbD 9 = false) →
      exec (.neg hr true o) s = .next (put (-x.acc) (all (-x.acc))))
    ∧ (Ready s hr (.abs hr true o) g → (x.acc ≠ least ∨ x.psw.getLsbD 9 = false) →
      exec (.abs hr true o) s = .next (put x.acc.abs (all x.acc.abs)))
    ∧ (Ready s hr (.clz hr true o) g → ∃ n : Nat, n ≤ 64
        ∧ (n = 64 → x.acc = 0) ∧ (n < 64 → x.acc.getLsbD (63 - n) = true ∧ x.acc.toNat < 2 ^ (64 - n))
        ∧ exec (.clz hr true o) s = .next (put (BitVec.ofNat 64 n) (nz (BitVec.ofNat 64 n))))
    ∧ (Ready s hr (.popc hr true o) g →
      let n := ((List.range 64).filter (fun k => x.acc.getLsbD k)).length
      exec (.popc hr true o) s = .next (put (BitVec.ofNat 64 n) (nz (BitVec.ofNat 64 n))))
    ∧ (Ready s hr (.rget hr true o) g → ∃ w : W32,
        (opdField o = 0 → w = x.x0) ∧ (opdField o = 1 → w = x.x1) ∧ (opdField o = 2 → w = x.fp)
        ∧ (opdField o = 3 → w = x.fsw) ∧ (opdField o = 4 → w = x.psw)
        ∧ (opdField o = 5 → pswLd x.psw = 0 → w = 0)
        ∧ (opdField o = 5 → pswLd x.psw ≠ 0 → w = (loopOf x (pswLd x.psw - 1)).lpc.zeroExtend 32)
        ∧ (opdField o = 6 → w = successor x x.pc 1 false)
        ∧ exec (.rget hr true o) s = .next (put (w.zeroExtend 64) id))

/-- R108, R85, R91: FSWPUT and PSWPUT write the fields that R108 names and keep the others; CRD reads a register of the
bead's control block above user level, and CWR writes one, as `writeBeadReg` says. Where the spec leaves a point
open the statement takes the model's reading of log 60. -/
def Obligations.StatusGlyphs : Prop :=
  ∀ (s : State) (hr : HandRef) (o : BitVec 22) (g : Glyph),
    let x := handAt s hr
    let a : W32 := x.acc.truncate 32
    let k := opdField o
    let mayUse : Prop := pswPl x.psw = 2 ∨ (pswPl x.psw = 1 ∧ sentinelOnly k = false)
    (Ready s hr (.fswput hr true o) g → ∃ w : W32,
        exec (.fswput hr true o) s = .next (retire s hr (fun y => { y with fsw := w }))
        ∧ (∀ i, i < 6 → w.getLsbD i = (x.fsw.getLsbD i && !a.getLsbD i))
        ∧ (∀ i, i = 8 ∨ i = 9 ∨ i = 11 → w.getLsbD i = a.getLsbD i))
    ∧ (Ready s hr (.pswput hr true o) g → (pswPl x.psw ≠ 0 → pswLd a ≤ 4) →
        exec (.pswput hr true o) s
          = .next (retire s hr (fun y => { y with psw := merge32 y.psw (pswputMask x.psw) a })))
    ∧ (Ready s hr (.crd hr true o) g → mayUse → k ≠ 0x38 →
        exec (.crd hr true o) s
          = .next (retire s hr (fun y => { y with acc := (beadReg s (beadNo hr.br) k).zeroExtend 64 })))
    ∧ (Ready s hr (.crd hr true o) g → mayUse → k = 0x38 → ∃ t, exec (.crd hr true o) s = .next t
        ∧ (handAt t hr).acc = ((slateTick s (beadNo hr.br)).truncate 32 : W32).zeroExtend 64
        ∧ (beadOf t hr).core.tickHi = (slateTick s (beadNo hr.br) >>> 32).truncate 32)
    ∧ (Ready s hr (.cwr hr true o) g → mayUse → beadWriteWaits (beadOf s hr) k a = false →
        (k = 0x68 → blotAsk (beadOf s hr) a ≠ .switch) →
        exec (.cwr hr true o) s
          = .next (writeBeadReg (retire s hr id) (beadNo hr.br) k a (.hand hr.hand.val)))

/-- R107: an atomic on a word of the own folio puts the old word in ACC and stores the new one, and changes no flag.
-/
def Obligations.LocalAtomics : Prop :=
  ∀ (op : AtomOp) (s : State) (hr : HandRef) (o : BitVec 22) (g : Glyph),
    let x := handAt s hr
    let a := localAt hr (localEa x o).toNat
    let old := BitVec.ofNat 64 (loadNat s a 8)
    opdMode o ≤ 3 → LocalOk s hr (localEa x o).toNat 8 → Ready s hr (atomGlyph op hr true o) g →
      exec (atomGlyph op hr true o) s
        = .next (storeBytes (retire s hr (fun y => { y with acc := old })) a
            (toBytes 8 (atomSays op old x.acc (x.x1.zeroExtend 64 <<< 32 ||| x.x0.zeroExtend 64)).toNat))

/-- R109, R110: NOP, BR, JR, CALL, CALLR and RET. A taken branch leaves the loop bodies that its target is outside of
(R116); a call stores the successor below FP. -/
def Obligations.BranchGlyphs : Prop :=
  ∀ (s : State) (hr : HandRef) (o : BitVec 22) (g : Glyph),
    let x := handAt s hr
    let dest : W32 := x.pc + BitVec.ofInt 32 (4 * ((o.truncate 18 : BitVec 18)).toInt)
    let reg : W32 := x.acc.truncate 32 &&& ~~~3
    let cond := condHolds x.psw (fld o.toNat 21 18)
    let called (target : W32) : State :=
      storeBytes (retireTo s hr (some (target, false)) (fun y => { y with fp := x.fp - 8 }))
        (localAt hr (x.fp - 8).toNat) (toBytes 8 (successor x x.pc 1 false).toNat)
    (Ready s hr (.nop hr true o) g → exec (.nop hr true o) s = .next (retire s hr id))
    ∧ (Ready s hr (.br hr true o) g → cond = true →
        exec (.br hr true o) s = .next (retireTo s hr (some (dest, true)) id))
    ∧ (Ready s hr (.br hr true o) g → cond = false → exec (.br hr true o) s = .next (retire s hr id))
    ∧ (Ready s hr (.jr hr true o) g → cond = true →
        exec (.jr hr true o) s = .next (retireTo s hr (some (reg, true)) id))
    ∧ (Ready s hr (.jr hr true o) g → cond = false → exec (.jr hr true o) s = .next (retire s hr id))
    ∧ (Ready s hr (.call hr true o) g → LocalFree s hr (x.fp - 8).toNat 8 →
        exec (.call hr true o) s = .next (called dest))
    ∧ (Ready s hr (.callr hr true o) g → LocalFree s hr (x.fp - 8).toNat 8 →
        exec (.callr hr true o) s = .next (called reg))
    ∧ (Ready s hr (.ret hr true o) g → LocalOk s hr x.fp.toNat 8 →
        exec (.ret hr true o) s
          = .next (retireTo s hr (some (BitVec.ofNat 32 (loadNat s (localAt hr x.fp.toNat) 4) &&& ~~~3, true))
              (fun y => { y with fp := x.fp + 8 })))

/-- R114, R118: LOOP and LOOPI open the level PSW.LD over the lines from the next one to the exit, or go to the exit
on a count of 0; LEXIT closes the innermost level and goes on, and without a level raises LOOP. -/
def Obligations.LoopGlyphs : Prop :=
  ∀ (s : State) (hr : HandRef) (o : BitVec 22) (g : Glyph),
    let x := handAt s hr
    let exit : W32 := x.pc + BitVec.ofNat 32 (4 * fld o.toNat 11 0)
    let imm := fld o.toNat 21 12
    (Ready s hr (.loopi hr true o) g → LoopFits x exit → imm ≠ 0 →
        exec (.loopi hr true o) s
          = .next (retireTo s hr (some (x.pc + 4, false)) (fun y => openLevel y (x.pc + 4) exit (BitVec.ofNat 24 imm))))
    ∧ (Ready s hr (.loopi hr true o) g → LoopFits x exit → imm = 0 →
        exec (.loopi hr true o) s = .next (retireTo s hr (some (exit, false)) id))
    ∧ (Ready s hr (.loop hr true o) g → LoopFits x exit → x.acc ≠ 0 → x.acc.toNat < 2 ^ 24 →
        exec (.loop hr true o) s
          = .next (retireTo s hr (some (x.pc + 4, false)) (fun y => openLevel y (x.pc + 4) exit (x.acc.truncate 24))))
    ∧ (Ready s hr (.loop hr true o) g → LoopFits x exit → x.acc = 0 →
        exec (.loop hr true o) s = .next (retireTo s hr (some (exit, false)) id))
    ∧ (Ready s hr (.lexit hr true o) g → 1 ≤ pswLd x.psw →
        exec (.lexit hr true o) s = .next (retireExit s hr))
    ∧ (∀ k, Ready s hr (.lexit hr true o) g → pswLd x.psw = k + 1 → (k = 0 ∨ (loopOf x (k - 1)).lpe ≠ x.pc + 4) →
        exec (.lexit hr true o) s
          = .next (retireTo s hr (some (x.pc + 4, false)) (fun y =>
              { setLoop y k { loopOf y k with lpc := 0 } with psw := pswSetLd y.psw k })))
    ∧ (Ready s hr (.lexit hr true o) g → pswLd x.psw = 0 → FaultsAs s hr (.lexit hr true o) 0xA10A 0)

/-- R87, R88, R89: GATE enters keeper level at its target with the caller saved in the level-1 save set; GRET returns
to the user caller, and RETE to the level below that the save set of its own level names. -/
def Obligations.LevelGlyphs : Prop :=
  ∀ (s : State) (hr : HandRef) (o : BitVec 22) (g : Glyph) (d : List W8),
    let x := handAt s hr
    let n := opdField o
    let back (v : SaveSet) (f : Hand → Hand) : State :=
      retireTo s hr (some (v.spc &&& ~~~3, false)) (fun y => { f y with psw := pswBack x.psw v.spsw })
    (Ready s hr (.gate hr true o) g → GateFits s hr n d →
        exec (.gate hr true o) s
          = .next (retireTo s hr (some (BitVec.ofNat 32 (fld (leAt d 0 4) 20 2 * 4), false))
              (fun y => gated x y (successor x x.pc 1 false) n d)))
    ∧ (Ready s hr (.gret hr true o) g → hr.hand ≠ 0 → pswPl x.psw = 1 → fld x.save1.scause.toNat 7 0 = 0x20 →
        pswPl x.save1.spsw = 0 →
        exec (.gret hr true o) s = .next (back x.save1 (fun y => { y with fp := x.save1.sfa })))
    ∧ (Ready s hr (.rete hr true o) g → pswPl x.psw = 1 → hr.hand ≠ 0 → pswPl x.save1.spsw = 0 →
        exec (.rete hr true o) s = .next (back x.save1 id))
    ∧ (Ready s hr (.rete hr true o) g → pswPl x.psw = 2 → pswPl x.save2.spsw < 2 →
        (hr.hand ≠ 0 ∨ pswPl x.save2.spsw = 1) →
        exec (.rete hr true o) s = .next (back x.save2 id))

/-- R99, R104, R142, R147, R149, R151, R155: a load from a device address that passes its checks. A blotter hit writes
the register at once; a miss, an uncached access and a tally word put a request in flight, and the hand goes on. A lookup
invalidates the set's ways with a tag error, and a line with a parity error is dropped and fetched again (R167). -/
def Obligations.DeviceLoads : Prop :=
  ∀ (s : State) (hr : HandRef) (r : XReg) (o : BitVec 22) (g : Glyph) (p : Instr × Nat × Nat × LoadDest) (x : Xlat),
    let i := beadNo hr.br
    let b := beadOf s hr
    let va := (devAt s hr o).toNat % 2 ^ 48
    let op := DevOp.load p.2.2.1 p.2.2.2
    let scrubbed (t : State) : State := modBead t i (fun b => scrubTags b (x.pa / 64))
    p ∈ memLoads hr r o → Ready s hr p.1 g →
      (DevFits s hr o p.2.2.1 false false x → looksUp b x = false →
        exec p.1 s = .next (requested s (modBead (retire s hr id) i (fun b => startDrain b (x.pa / 64))) hr p.2.1 va x op))
      ∧ (DevFits s hr o p.2.2.1 false false x → looksUp b x = true → blotFind b (x.pa / 64) = none →
          fillRoom b (x.pa / 64) = true →
        exec p.1 s = .next (requested s (demandMiss (scrubbed (retire s hr id)) i va x true) hr p.2.1 va x op))
      ∧ (∀ k, DevFits s hr o p.2.2.1 false false x → looksUp b x = true → blotFind b (x.pa / 64) = some k →
          wayBad (wayAt b k) (x.pa % 64) p.2.2.1 = false →
        exec p.1 s = .next (modBead (scrubbed (retire s hr (loaded p.2.2.2
          (((wayAt b k).data.drop (x.pa % 64)).take p.2.2.1)))) i (fun b => touchWay b k)))
      ∧ (∀ k, DevFits s hr o p.2.2.1 false false x → looksUp b x = true → blotFind b (x.pa / 64) = some k →
          wayBad (wayAt b k) (x.pa % 64) p.2.2.1 = true → fillRoom b (x.pa / 64) = true →
        exec p.1 s = .next (requested s (demandMiss (modBead (scrubbed (retire s hr id)) i
          (fun b => countPerr (dropWay b k))) i va x true) hr p.2.1 va x op))
      ∧ (∀ t q up, opdMode o = 5 → devHeld (aloneEnv s hr false) = false →
          checkDev (aloneEnv s hr false) (devAt s hr o) p.2.2.1 p.2.2.1 false false = .ok (.tally t q up) →
        exec p.1 s = .next (requested s (retire s hr id) hr p.2.1 va ⟨va, none, false⟩ op))

/-- R142, R153, R264: a store to a device address that passes its checks: one to HBM updates a present line and enters
the merging buffer, any other puts a request in flight; the hand goes on. -/
def Obligations.DeviceStores : Prop :=
  ∀ (s : State) (hr : HandRef) (r : XReg) (o : BitVec 22) (g : Glyph) (p : Instr × Nat × List W8) (x : Xlat),
    let i := beadNo hr.br
    let n := p.2.2.length
    let va := (devAt s hr o).toNat % 2 ^ 48
    let put (x : Xlat) : State := requested s (retire s hr id) hr p.2.1 va x (.store p.2.2)
    p ∈ memStores (handAt s hr) hr r o → Ready s hr p.1 g →
      (∀ k off, DevFits s hr o n true false x → regionOf x.pa = .hbm k off → mergeRoom (beadOf s hr) (x.pa / 64) = true →
        exec p.1 s = .next (modBead (retire s hr id) i (fun b => hbmStore b hr.hand.val p.2.1 1 (BitVec.ofNat 48 va) x p.2.2)))
      ∧ (DevFits s hr o n true false x → (∀ k off, regionOf x.pa ≠ .hbm k off) → exec p.1 s = .next (put x))
      ∧ (∀ t q up, opdMode o = 5 → devHeld (aloneEnv s hr false) = false →
          checkDev (aloneEnv s hr false) (devAt s hr o) n n true false = .ok (.tally t q up) →
        exec p.1 s = .next (put ⟨va, none, false⟩))

/-- R104, R129, R157, R269: an atomic on a device address drains and drops its line and puts a request in flight; an
S-slot operation whose operand is not at hand keeps its line open until the operand returns. Where the spec leaves a
point open the statement takes the model's reading of log 27. -/
def Obligations.DeviceOperands : Prop :=
  ∀ (aop : AtomOp) (op : AluOp) (s : State) (hr : HandRef) (o : BitVec 22) (g : Glyph) (x : Xlat),
    let i := beadNo hr.br
    let h := handAt s hr
    let va := (devAt s hr o).toNat % 2 ^ 48
    let dropped (b : Bead) : Bead := match blotFind b (x.pa / 64) with | some k => dropWay b k | none => b
    (DevFits s hr o 8 true true x → Ready s hr (atomGlyph aop hr true o) g →
      exec (atomGlyph aop hr true o) s
        = .next (requested s (modBead (retire s hr id) i (fun b => dropped (startDrain b (x.pa / 64)))) hr 1 va x
            (.atomic aop h.acc (x1x0 h.x0 h.x1))))
    ∧ (DevFits s hr o 8 false false x → looksUp (beadOf s hr) x = false → Ready s hr (aluGlyph op hr true o) g →
      exec (aluGlyph op hr true o) s
        = .next (modHand (requested s (modBead s i (fun b => startDrain (issuedBy b hr.hand) (x.pa / 64))) hr 1 va x
            (.load 8 (.alu op))) i hr.hand.val (opened s hr (successor h h.pc 1 false) .operand)))

/-- R158, R159: the maintenance glyphs clean, invalidate or both the line they name; a BLSW word with a non-zero bit
outside its fields or a set that the blotter has not sets BADOP and does nothing else; BLSW_ALL keeps its line open
for its scan. PREF of a line that is absent, cacheable and in HBM takes a fill entry (R152). Where the spec leaves a
point open the statement takes the model's reading of logs 14 and 57. -/
def Obligations.BlotterGlyphs : Prop :=
  ∀ (s : State) (hr : HandRef) (o : BitVec 22) (g : Glyph) (x : Xlat) (line : Nat),
    let i := beadNo hr.br
    let b := beadOf s hr
    let a := (handAt s hr).acc
    let way := 4 * fld a.toNat 18 8 + fld a.toNat 5 4
    let acts (f : Bead → Bead) : State := modBead (retire s hr id) i f
    let named : Prop := opdMode o = 5 ∧ (devAt s hr o).toNat < 2 ^ 48
      ∧ translate s (beadCtx b) (devAt s hr o).toNat false = some x ∧ line = x.pa / 64
    let finds : Prop := named ∨ (opdMode o ≤ 3 ∧ inBlotter b (localEa (handAt s hr) o).toNat = true
      ∧ maintLine s i (handAt s hr) a o = some line)
    let word (op : Nat) : Prop := pswPl (handAt s hr).psw ≠ 0 ∧ fld a.toNat 1 0 = op
    let legal : Prop := a &&& 0xFFFFFFFFFFF800CC = 0 ∧ fld a.toNat 18 8 < blotSets b
    let bad (b : Bead) : Bead := { b with blot := { b.blot with badop := true } }
    let one (c : Instr) (op : Nat) (clean inval : Bool) : Prop :=
      (Ready s hr c g → word op → legal → (wayAt b way).valid = true →
          exec c s = .next (acts (fun b => maintain b (wayAt b way).line clean inval)))
      ∧ (Ready s hr c g → word op → legal → (wayAt b way).valid = false → exec c s = .next (retire s hr id))
      ∧ (Ready s hr c g → word op → ¬ legal → exec c s = .next (acts bad))
    (finds → Ready s hr (.blcln hr true o) g →
        exec (.blcln hr true o) s = .next (acts (fun b => startDrain b line)))
    ∧ (finds → Ready s hr (.blinv hr true o) g →
        exec (.blinv hr true o) s = .next (acts (fun b => maintain b line false true)))
    ∧ (finds → Ready s hr (.blci hr true o) g →
        exec (.blci hr true o) s = .next (acts (fun b => maintain b line true true)))
    ∧ one (.blswClean hr true o) 0 true false ∧ one (.blswInvalidate hr true o) 1 false true
    ∧ one (.blswCleanInvalidate hr true o) 2 true true
    ∧ (Ready s hr (.blswAll hr true o) g → word 3 → a &&& 0xFFFFFFFFFFF800CC = 0 →
        exec (.blswAll hr true o) s = .next (waiting s hr startDrainAll .scan))
    ∧ (Ready s hr (.blswAll hr true o) g → word 3 → a &&& 0xFFFFFFFFFFF800CC ≠ 0 →
        exec (.blswAll hr true o) s = .next (acts bad))
    ∧ (named → Ready s hr (.pref hr true o) g → looksUp b x = true → blotFind b line = none →
        (∀ f ∈ b.blot.fills, f.line ≠ line) → b.blot.fills.length < 8 →
        exec (.pref hr true o) s
          = .next (demandMiss (acts (fun b => scrubTags b line)) i (devAt s hr o).toNat x false))

/-- R64, R65, R66, R74, R84: hand 0 starts, stops, resumes and kills another hand; ACC becomes 0 where the state of the
other hand admits it, else 1, or 2 for an HRESUME into sentinel level, and the other hand is then untouched. Where
the spec leaves a point open the statement takes the model's reading of log 55. -/
def Obligations.HandControlGlyphs : Prop :=
  ∀ (s : State) (hr : HandRef) (k : Fin 4) (o : BitVec 22) (g : Glyph),
    let x := handAt s hr
    let y := handAt s (siblingAt hr k)
    let tells (code : W64) : State := retire s hr (fun z => { z with acc := code })
    hr.hand = 0 → k ≠ 0 → opdMode o = 4 → opdField o = k.val →
      (Ready s hr (.hstart hr true o) g → y.st = .idle → y.heldFaults = [] →
        exec (.hstart hr true o) s = .next (putHand (tells 0) (beadNo hr.br) k.val
          { dropLine y with st := .running, pc := x.x0 &&& ~~~3, psw := y.psw &&& ~~~3 }))
      ∧ (Ready s hr (.hstart hr true o) g → y.st ≠ .idle → exec (.hstart hr true o) s = .next (tells 1))
      ∧ (Ready s hr (.hstop hr true o) g → (y.st = .running ∨ ∃ w, y.st = .sleeping w) → y.openLine = none → ∃ t,
        exec (.hstop hr true o) s = .next t ∧ (handAt t (siblingAt hr k)).st = .stopped .hstop
        ∧ (handAt t (siblingAt hr k)).save1 = ⟨y.pc, y.psw, 0, 0⟩ ∧ (handAt t hr).acc = 0
        ∧ (∃ n ∈ (beadOf t hr).core.notices, n.source = k.val ∧ n.word1 = y.pc) ∧ t.mem = s.mem)
      ∧ (Ready s hr (.hstop hr true o) g → y.st ≠ .running → (∀ w, y.st ≠ .sleeping w) →
        exec (.hstop hr true o) s = .next (tells 1))
      ∧ (∀ why, Ready s hr (.hresume hr true o) g → y.st = .stopped why → pswPl y.save1.spsw < 2 → y.heldFaults = [] →
        exec (.hresume hr true o) s = .next (putHand (tells 0) (beadNo hr.br) k.val
          { y with st := .running, wake := 5, pc := y.save1.spc &&& ~~~3, psw := pswBack y.psw y.save1.spsw
                   line := [], heldLine := [] }))
      ∧ (∀ why, Ready s hr (.hresume hr true o) g → y.st = .stopped why → 2 ≤ pswPl y.save1.spsw →
        exec (.hresume hr true o) s = .next (tells 2))
      ∧ (Ready s hr (.hresume hr true o) g → (∀ why, y.st ≠ .stopped why) →
        exec (.hresume hr true o) s = .next (tells 1))
      ∧ (Ready s hr (.hkill hr true o) g → y.st ≠ .locked → ∃ t, exec (.hkill hr true o) s = .next t
        ∧ (handAt t (siblingAt hr k)).st = .idle ∧ (handAt t (siblingAt hr k)).staged = none
        ∧ (handAt t (siblingAt hr k)).tsr = 0 ∧ (handAt t (siblingAt hr k)).heldFaults = []
        ∧ (handAt t hr).acc = 0)
      ∧ (Ready s hr (.hkill hr true o) g → y.st = .locked → exec (.hkill hr true o) s = .next (tells 1))

/-- R111, R112, R242, R244, R249: SEND puts one word on its route for one credit; SENDM stages a word for one credit;
SENDL sends what is staged and its own word; RECV takes the oldest word and returns its credit; QPOLL and QCRED read
the counts of an endpoint. Where the spec leaves a point open the statement takes the model's reading of log 15. -/
def Obligations.ScalarQueueGlyphs : Prop :=
  ∀ (s : State) (hr : HandRef) (e : Fin 8) (o : BitVec 22) (g : Glyph),
    let i := beadNo hr.br
    let b := beadOf s hr
    let w : W32 := (handAt s hr).acc.truncate 32
    let ws := match (handAt s hr).staged with | some m => m.words | none => []
    let put (v : W64) : State := retire s hr (fun y => { y with acc := v })
    opdField o = e.val →
      (Ready s hr (.send hr true o) g → SendFits s hr e.val →
        exec (.send hr true o) s
          = .next (sendWords (modBead (retire s hr id) i (fun b => takeSout b e.val)) i e.val [w]))
      ∧ (Ready s hr (.sendm hr true o) g → SendFits s hr e.val → ws.length < 8 →
        exec (.sendm hr true o) s
          = .next (modBead (retire s hr (fun y => { y with staged := some ⟨e, ws ++ [w]⟩ })) i
              (fun b => takeSout b e.val)))
      ∧ (Ready s hr (.sendl hr true o) g → SendFits s hr e.val →
        exec (.sendl hr true o) s
          = .next (sendWords (modBead (retire s hr (fun y => { y with staged := none })) i (fun b => takeSout b e.val))
              i e.val (ws ++ [w])))
      ∧ (∀ v l rest, Ready s hr (.recv hr true o) g → b.ends.sinClosed.getLsbD e.val = false →
          sinWords b e.val = (v, l) :: rest → readable (sinWords b e.val) ≠ 0 →
        exec (.recv hr true o) s
          = .next (returnCredits (modBead (put (v.zeroExtend 64)) i (fun b => { b with ends := { b.ends with
              sin := mapPut b.ends.sin e.val rest } })) .scalar i e.val 1 false))
      ∧ (Ready s hr (.qpoll hr true o) g →
        exec (.qpoll hr true o) s = .next (put (BitVec.ofNat 64 (readable (sinWords b e.val)))))
      ∧ (Ready s hr (.qcred hr true o) g → soutClosed b e.val = true →
        exec (.qcred hr true o) s = .next (put (BitVec.allOnes 64)))
      ∧ (Ready s hr (.qcred hr true o) g → soutClosed b e.val = false →
        exec (.qcred hr true o) s = .next (put (BitVec.ofNat 64 (soutCredits b e.val))))

/-- R242, R249: TOKSEND fills an open, empty out slot, whose token leaves at once where its credit is home; TOKRECV
empties an open in slot into ACC and returns its credit. -/
def Obligations.TokenGlyphs : Prop :=
  ∀ (s : State) (hr : HandRef) (o : BitVec 22) (g : Glyph) (v : W8),
    let i := beadNo hr.br
    let b := beadOf s hr
    let k := opdField o
    let w : W8 := (handAt s hr).acc.truncate 8
    let ends (f : Endpoints → Endpoints) (b : Bead) : Bead := { b with ends := f b.ends }
    let fits : Prop := tokOutOpen b k = true ∧ mapFind b.ends.tout k = none
    (Ready s hr (.toksend hr true o) g → fits → b.ends.toutCred.getLsbD k = false →
      exec (.toksend hr true o) s
        = .next (modBead (retire s hr id) i (ends (fun e => { e with tout := mapPut e.tout k w }))))
    ∧ (Ready s hr (.toksend hr true o) g → fits → b.ends.toutCred.getLsbD k = true →
      exec (.toksend hr true o) s
        = .next (launch (modBead (retire s hr id) i (ends (fun e => { e with
            tout := mapDrop (mapPut e.tout k w) k, toutCred := e.toutCred &&& ~~~(BitVec.ofNat 16 (2 ^ k)) })))
            .control (.ep i k) i k (w.zeroExtend 32) 0 true))
    ∧ (Ready s hr (.tokrecv hr true o) g → tokIsIn b k = true → b.ends.tokClosed.getLsbD k = false →
        mapFind b.ends.tin k = some v →
      exec (.tokrecv hr true o) s
        = .next (returnCredits (modBead (retire s hr (fun y => { y with acc := v.zeroExtend 64 })) i
            (ends (fun e => { e with tin := mapDrop e.tin k }))) .control i k 1 false))

/-- R113, R261, R262: TADD and TINC queue a release raise behind the hand's stores; TWAIT asks for its target and
sleeps, and goes on once its latch says that the target was met; TREAD asks for the value and takes it from the latch.
-/
def Obligations.TallyGlyphs : Prop :=
  ∀ (s : State) (hr : HandRef) (o : BitVec 22) (g : Glyph) (p : Nat),
    let x := handAt s hr
    let target : BitVec 48 := x.acc.truncate 48
    let queued (n : BitVec 48) : State :=
      retire s hr (fun y => { y with raises := y.raises ++ [⟨(beadOf s hr).core.seq, p, n⟩] })
    let asks (k : Bool) (v : BitVec 48) (sat ask : Bool) : TallyLatch := ⟨true, sat, k, BitVec.ofNat 12 p, v, ask⟩
    (TallyNamed s hr o p → Ready s hr (.tadd hr true o) g → x.raises.length < 4 →
        exec (.tadd hr true o) s = .next (queued target))
    ∧ (TallyNamed s hr o p → Ready s hr (.tinc hr true o) g → x.raises.length < 4 →
        exec (.tinc hr true o) s = .next (queued 1))
    ∧ (∀ a, TallyNamed s hr o p → Ready s hr (.twait hr true o) g → x.latch = asks false target true a →
        exec (.twait hr true o) s = .next (retire s hr unlatched))
    ∧ (TallyNamed s hr o p → Ready s hr (.twait hr true o) g → x.latch = {} →
        exec (.twait hr true o) s = .next (asleep s hr .twait (asks false target false true) 0))
    ∧ (TallyNamed s hr o p → Ready s hr (.tread hr true o) g → x.latch = {} → exec (.tread hr true o) s
          = .next (putHand s (beadNo hr.br) hr.hand.val { x with latch := asks true 0 false true }))
    ∧ (∀ v a, TallyNamed s hr o p → Ready s hr (.tread hr true o) g → x.latch = asks true v true a →
        exec (.tread hr true o) s = .next (retire s hr (fun y => { unlatched y with acc := v.zeroExtend 64 })))
    ∧ (∀ c ∈ tallyGlyphs hr o, ∀ t, TallyNo x o t → Ready s hr c g →
        (∀ k, beadCtx (beadOf s hr) = some k → tallyOf s (beadNo hr.br / 256) k t = none) →
        FaultsAs s hr c 0x8104 (BitVec.ofNat 32 t))
    ∧ (∀ c ∈ tallyGlyphs hr o, (∀ t, ¬ TallyNo x o t) → Formed s hr c g → FaultsAs s hr c 0x8101 x.pc)

/-- R111, R237, R238, R240: in a free-mode rod TRPUSH copies 64 bytes to the tail of the own tray and TRPOP the tail's
64 bytes to memory, ACC becoming 0, or 1 where the tray is off, full or empty; TRSTEAL begins its walk of victims. -/
def Obligations.TrayGlyphs : Prop :=
  ∀ (s : State) (hr : HandRef) (o : BitVec 22) (g : Glyph),
    let i := beadNo hr.br
    let b := beadOf s hr
    let a := (localEa (handAt s hr) o).toNat
    let tells (v : W64) : State := retire s hr (fun y => { y with acc := v })
    let head := localAt hr (trayEntry b b.regs.trayTail.toNat)
    let last := localAt hr (trayEntry b (b.regs.trayTail - 1).toNat)
    inFreeRod s i = true →
      (Ready s hr (.trpush hr true o) g → LocalOk s hr a 64 → trayOn b = true → trayCount b < 256 →
          rangeHeld b (trayEntry b b.regs.trayTail.toNat) 64 = false →
        exec (.trpush hr true o) s
          = .next (movedTail (storeBytes (tells 0) head (loadBytes s (localAt hr a) 64)) hr 1))
      ∧ (Ready s hr (.trpush hr true o) g → LocalOk s hr a 64 → (trayOn b = false ∨ 256 ≤ trayCount b) →
        exec (.trpush hr true o) s = .next (tells 1))
      ∧ (Ready s hr (.trpop hr true o) g → LocalFree s hr a 64 → trayOn b = true → trayCount b ≠ 0 →
          parityFind s.parity last 64 = none →
        exec (.trpop hr true o) s
          = .next (movedTail (storeBytes (tells 0) (localAt hr a) (loadBytes s last 64)) hr (-1)))
      ∧ (Ready s hr (.trpop hr true o) g → LocalFree s hr a 64 → (trayOn b = false ∨ trayCount b = 0) →
        exec (.trpop hr true o) s = .next (tells 1))
      ∧ (Ready s hr (.trsteal hr true o) g → LocalFree s hr a 64 →
        exec (.trsteal hr true o) s
          = .next (stealNext (retire s hr id) i hr.hand.val
              ⟨a, [], 0, trayNeighbours s i, fld b.regs.trayCfg.toNat 11 8, 0, none⟩))

/-- R111, R160, R166: QUILL gives its descriptor to the lowest free slot, named in ACC; QUILLST reads the busy and
error bits and clears the error bits. -/
def Obligations.QuillGlyphs : Prop :=
  ∀ (s : State) (hr : HandRef) (o : BitVec 22) (g : Glyph) (k : Nat),
    let i := beadNo hr.br
    let b := beadOf s hr
    let x := handAt s hr
    let a := (localEa x o).toNat
    let d := loadBytes s (localAt hr a) 64
    let slot (n : Nat) : QuillSlot := mapGet (fun _ => {}) b.quills n
    (Ready s hr (.quill hr true o) g → LocalOk s hr a 64 → k < 8 → (slot k).busy = false → (∀ n < k, (slot n).busy = true) →
        heldEntries b + (qRanges d).length ≤ 8 →
        (∀ n ∈ b.nibDrains, ∀ q ∈ drainRange n.desc :: (drainScales n.desc).toList, ∀ r ∈ qRanges d, overlaps r q = false) →
      exec (.quill hr true o) s
        = .next (modBead (retire s hr (fun y => { y with acc := BitVec.ofNat 64 k })) i (fun b => { b with
            quillSeq := b.quillSeq + 1
            quills := mapPut b.quills k { busy := true, desc := d, hand := hr.hand, level := BitVec.ofNat 2 (pswPl x.psw),
                                          order := b.quillSeq, qerr := (slot k).qerr } })))
    ∧ (Ready s hr (.quillst hr true o) g → ∃ v : W64,
        exec (.quillst hr true o) s
          = .next (modBead (retire s hr (fun y => { y with acc := v })) i (fun b => { b with
              quills := b.quills.map (fun p => (p.1, { p.2 with qerr := false })) }))
        ∧ (∀ n < 8, v.getLsbD n = (slot n).busy ∧ v.getLsbD (8 + n) = (slot n).qerr))

/-- R71, R72, R96: the common-word glyphs read and write a word of the bead, a locked word above user level only, and
wake the hands that sleep on it; CSEND adds to a channel of which this hand is the sender, CRECV takes from one of
which it is the receiver, and each sleeps while the channel is full or empty. -/
def Obligations.CommonGlyphs : Prop :=
  ∀ (s : State) (hr : HandRef) (o : BitVec 22) (g : Glyph) (v : W64) (q : List W64),
    let i := beadNo hr.br
    let b := beadOf s hr
    let k := opdField o
    let a := (handAt s hr).acc
    let old := cwOf b k
    let get (w : W64) : State := retire s hr (fun y => { y with acc := w })
    let free : Prop := pswPl (handAt s hr).psw ≠ 0 ∨ b.regs.cwLock.getLsbD k = false
    (Ready s hr (.cwld hr true o) g → exec (.cwld hr true o) s = .next (get (old.zeroExtend 64)))
    ∧ (Ready s hr (.cwst hr true o) g → free →
        exec (.cwst hr true o) s = .next (putCw (retire s hr id) i k (a.truncate 32)))
    ∧ (Ready s hr (.cwadd hr true o) g → free → exec (.cwadd hr true o) s
        = .next (putCw (get (old.zeroExtend 64)) i k (old + a.truncate 32)))
    ∧ (Ready s hr (.cwswp hr true o) g → free → exec (.cwswp hr true o) s
        = .next (putCw (get (old.zeroExtend 64)) i k (a.truncate 32)))
    ∧ (Ready s hr (.csend hr true o) g → chanEn b k = true → chanSrc b k = hr.hand.val → (chanQ b k).length < 2 →
        exec (.csend hr true o) s = .next (modBead (retire s hr id) i (fun b => putChan b k (chanQ b k ++ [a]))))
    ∧ (Ready s hr (.csend hr true o) g → chanEn b k = true → chanSrc b k = hr.hand.val → 2 ≤ (chanQ b k).length →
        exec (.csend hr true o) s
          = .next (asleep s hr .csend (handAt s hr).latch (BitVec.ofNat 8 (2 ^ k))))
    ∧ (Ready s hr (.crecv hr true o) g → chanEn b k = true → chanDst b k = hr.hand.val → chanQ b k = v :: q →
        exec (.crecv hr true o) s = .next (modBead (get v) i (fun b => putChan b k q)))
    ∧ (Ready s hr (.crecv hr true o) g → chanEn b k = true → chanDst b k = hr.hand.val → chanQ b k = [] →
        exec (.crecv hr true o) s
          = .next (asleep s hr .crecv (handAt s hr).latch (BitVec.ofNat 8 (2 ^ k))))

/-- R68, R80, R96, R270: SLEEP retires and its hand sleeps on the common words of its mask; NWAIT goes on where a notice
is queued and sleeps where none is; NPOP stores the oldest notice and removes it; FENCE drains the merging buffer
and keeps its line open for the stores, and the quill slots its kind names, before it. Where the spec leaves a point
open the statement takes the model's reading of log 37. -/
def Obligations.WaitGlyphs : Prop :=
  ∀ (s : State) (hr : HandRef) (o : BitVec 22) (g : Glyph) (n : Notice) (ns : List Notice),
    let i := beadNo hr.br
    let b := beadOf s hr
    let a := (localEa (handAt s hr) o).toNat
    let busy (k : Fin 8) : QuillSlot := mapGet (fun _ => {}) b.quills k.val
    let waits (f : Nat) : List (Fin 8) := (List.finRange 8).filter (fun k =>
      (busy k).busy && (f == 3 || (f == 2 && (busy k).hand == hr.hand)))
    (Ready s hr (.sleep hr true o) g → exec (.sleep hr true o) s
        = .next (retire s hr (fun y => { y with st := .sleeping .sleep, sleepMask := BitVec.ofNat 8 (opdField o) })))
    ∧ (Ready s hr (.nwait hr true o) g → hr.hand = 0 → b.core.notices ≠ [] →
        exec (.nwait hr true o) s = .next (retire s hr id))
    ∧ (Ready s hr (.nwait hr true o) g → hr.hand = 0 → b.core.notices = [] →
        exec (.nwait hr true o) s = .next (asleep s hr .nwait (handAt s hr).latch 0))
    ∧ (Ready s hr (.npop hr true o) g → hr.hand = 0 → b.core.notices = n :: ns → LocalFree s hr a 16 →
        exec (.npop hr true o) s
          = .next (modBead (storeBytes (retire s hr id) (localAt hr a)
              (wordsBytes [n.word0, n.word1, n.word2, n.word3])) i
              (fun b => { b with core := { b.core with notices := ns } })))
    ∧ (∀ f : Fin 4, Ready s hr (.fence hr true o) g → opdField o = f.val →
        exec (.fence hr true o) s = .next (waiting s hr startDrainAll (.fence f b.core.seq (waits f.val))))

/-- R38 to R40, R121 to R123, R132: the lane-wise glyphs apply their operation to every lane of row TA and row TB, or of
TA, TB and TD, write the row of TD with its scale word kept, and add their flags to FSW. In the integer formats
VADD, VSUB and VMUL wrap in each lane with FSW.SAT = 0. Where the spec leaves a point open the statement takes the
model's reading of log 58. -/
def Obligations.LaneGlyphs : Prop :=
  (∀ (op : VOp) (s : State) (hr : HandRef) (o : BitVec 22) (g : Glyph),
      let b := beadOf s hr
      let x := handAt s hr
      let f := tileFmt b (rTd o)
      let r := vRow x o
      let v := rowEval f (rndOf x.fsw) op (vData s hr (rTa o) r) (vData s hr (rTb o) (vRowB x o)) (vData s hr (rTd o) r)
      (∀ k, op = .cmp k → k = rSp o) → Ready s hr (laneGlyph op hr true o) g →
        VFits s hr (laneUse s hr op o) (laneShapes b op o) → laneShapes b op o = true →
          exec (laneGlyph op hr true o) s
            = .next (vDone s hr (rTd o) r v.1 (tileRow b (rTd o) r).scale v.2 (laneUse s hr op o).reads))
  ∧ (∀ (op : VOp) (f : Nat) (r : Rnd) (a b d : Row) (j : Nat), (f = 3 ∨ f = 6) → r.sat = false → j < fmtLanes f →
      let w := fmtBits f
      let n := lane w (rowEval f r op a b d).1 j
      (op = .add → n = (lane w a j + lane w b j) % 2 ^ w)
      ∧ (op = .sub → (n + lane w b j) % 2 ^ w = lane w a j)
      ∧ (op = .mul → n = lane w a j * lane w b j % 2 ^ w)
      ∧ ((op = .add ∨ op = .sub ∨ op = .mul) → (rowEval f r op a b d).2 = 0))

/-- R132, R246: the bitwise glyphs, VMOV with its scale word, and the lane glyphs VGETL, VPUTL and VBCAST. -/
def Obligations.RowGlyphs : Prop :=
  ∀ (s : State) (hr : HandRef) (o : BitVec 22) (g : Glyph),
    let b := beadOf s hr
    let x := handAt s hr
    let e := aloneEnv s hr false
    let r := vRow x o
    let td := vData s hr (rTd o) r
    let ta := vData s hr (rTa o) r
    let tb := vData s hr (rTb o) (vRowB x o)
    let scale := (tileRow b (rTd o) r).scale
    let plain : Bool := !fmtMx (tileFmt b (rTd o)) && tileFmt b (rTa o) == tileFmt b (rTd o)
      && tileFmt b (rTb o) == tileFmt b (rTd o)
    let two := useOf e o true false
    let three := useOf e o true true
    let done (v : Row) (u : VUse) : State := vDone s hr (rTd o) r v scale 0 u.reads
    let fd := tileFmt b (rTd o)
    let fa := tileFmt b (rTa o)
    let k (f : Nat) : Nat := x.x1.toNat % fmtLanes f
    let v (f : Nat) : Nat := x.acc.toNat % 2 ^ fmtBits f
    (Ready s hr (.vand hr true o) g → VFits s hr two plain → plain = true →
        exec (.vand hr true o) s = .next (done (ta &&& tb) two))
    ∧ (Ready s hr (.vor hr true o) g → VFits s hr two plain → plain = true →
        exec (.vor hr true o) s = .next (done (ta ||| tb) two))
    ∧ (Ready s hr (.vxor hr true o) g → VFits s hr two plain → plain = true →
        exec (.vxor hr true o) s = .next (done (ta ^^^ tb) two))
    ∧ (Ready s hr (.vbsl hr true o) g → VFits s hr three plain → plain = true →
        exec (.vbsl hr true o) s = .next (done ((td &&& ta) ||| (~~~td &&& tb)) three))
    ∧ (Ready s hr (.vmov hr true o) g → VFits s hr (useOf e o false false) (fa == fd) → fa = fd →
        exec (.vmov hr true o) s
          = .next (vDone s hr (rTd o) r ta (vRead b (rTa o) r 0).scale 0 (useOf e o false false).reads))
    ∧ (Ready s hr (.vgetl hr true o) g → VFits s hr ⟨[(rTa o, r, 1)], none⟩ (laneable fa) → laneable fa = true →
        exec (.vgetl hr true o) s = .next (takeRows (retire s hr (fun y => { y with
          acc := BitVec.ofNat 64 (lane (fmtBits fa) ta (k fa)) })) (beadNo hr.br) [(rTa o, 0, 1)]))
    ∧ (Ready s hr (.vputl hr true o) g → VFits s hr ⟨[(rTd o, r, 1)], some (rTd o, r)⟩ (laneable fd) →
        laneable fd = true →
        exec (.vputl hr true o) s = .next (vDone s hr (rTd o) r (putLanes (fmtBits fd) td (k fd) [v fd]) scale 0
          [(rTd o, 0, 1)]))
    ∧ (Ready s hr (.vbcast hr true o) g → VFits s hr ⟨[], some (rTd o, r)⟩ (laneable fd) → laneable fd = true →
        exec (.vbcast hr true o) s = .next (vDone s hr (rTd o) r
          (putLanes (fmtBits fd) 0 0 (List.replicate (fmtLanes fd) (v fd))) scale 0 []))

/-- R42, R58, R132 to R134: the special functions, the sum of a row's lanes, the conversions, and the addition and
rounding of accumulator pairs. A special function's result and the element bits of an MX conversion that R39 leaves
open are free values (logs 1 and 2). -/
def Obligations.ConversionGlyphs : Prop :=
  ∀ (fn : SpecialFn) (s : State) (hr : HandRef) (o : BitVec 22) (g : Glyph),
    let b := beadOf s hr
    let x := handAt s hr
    let e := aloneEnv s hr false
    let r := vRow x o
    let rd := rndOf x.fsw
    let fa := tileFmt b (rTa o)
    let fd := tileFmt b (rTd o)
    let w := fmtBits fd
    let td := vData s hr (rTd o) r
    let ta := vData s hr (rTa o) r
    let tb := vData s hr (rTb o) (vRowB x o)
    let scale := (tileRow b (rTd o) r).scale
    let one := useOf e o false false
    let two := useOf e o true false
    let n := min (fmtLanes fa) (fmtLanes fd)
    let sums := iterate (sumPairs rd) 4 ((lanes 32 ta 0 16).map (fun v => (v, (0 : W32))))
    (Ready s hr (specialGlyph fn hr true o) g → VFits s hr one (fa == 0 && fd == 0) → fa = 0 → fd = 0 →
      let l := (lanes 32 ta 0 16).map (fun v => specialEval fn rd.sat (BitVec.ofNat 32 v))
      exec (specialGlyph fn hr true o) s = .next (vDone s hr (rTd o) r
        (BitVec.ofNat 512 (packLanes 32 (l.map (·.1.toNat)))) scale ((l.map (·.2)).foldl (· ||| ·) 0) one.reads))
    ∧ (Ready s hr (.vrsum hr true o) g → VFits s hr ⟨[(rTa o, r, 1)], none⟩ (fa == 0) → fa = 0 →
      exec (.vrsum hr true o) s = .next (takeRows (retire s hr (fun y => { y with
        acc := BitVec.ofNat 64 (sums.headD (0, 0)).1, fsw := y.fsw ||| (sums.headD (0, 0)).2 })) (beadNo hr.br)
        [(rTa o, 0, 1)]))
    ∧ (Ready s hr (.vcadd hr true o) g → VFits s hr two (fa == 0 && tileFmt b (rTb o) == 0 && fd == 0) → fa = 0 →
        tileFmt b (rTb o) = 0 → fd = 0 →
      let l := (List.range 8).map (fun p => pairAdd (pairOf ta p).1 (pairOf ta p).2 (pairOf tb p).1 (pairOf tb p).2)
      exec (.vcadd hr true o) s = .next (vDone s hr (rTd o) r
        (BitVec.ofNat 512 (packLanes 32 (l.flatMap (fun p => [p.1.toNat, p.2.1.toNat])))) scale
        ((l.map (·.2.2)).foldl (· ||| ·) 0) two.reads))
    ∧ (Ready s hr (.vcvt hr true o) g → fmtMx fd = false → rTb o = 0 → rBr o = false →
        rSp o < fmtLanes fa / n → rDp o < fmtLanes fd / n → VFits s hr one true →
      let l := (List.range n).map (fun j => plainEncode fd rd (elemVal fa (vRead b (rTa o) r 0) (rSp o * n + j)))
      exec (.vcvt hr true o) s = .next (vDone (drawn s) hr (rTd o) r
        (putLanes w td (rDp o * n) (l.map (·.1))) scale (flagsOf l) one.reads))
    ∧ (Ready s hr (.vcvt hr true o) g → fmtMx fd = true → fa = 0 → tileFmt b (rTb o) = 0 →
        rSp o = 0 → rDp o < fmtLanes fd / 32 → VFits s hr two true →
      let vs := (List.range 16).map (elemVal 0 (vRead b (rTa o) r 0))
        ++ (List.range 16).map (elemVal 0 (vRead b (rTb o) (vRowB x o) 0))
      let m := mxBlock fd rd.sat (freeElem e) vs
      exec (.vcvt hr true o) s = .next (vDone (drawn s) hr (rTd o) r (putLanes w td (rDp o * 32) m.1)
        (putScale scale (rDp o) m.2.1) m.2.2 two.reads))
    ∧ (Ready s hr (.vcvt hr true o) g → fmtMx fd = true → fa ≠ 0 → rTb o = 0 → rBr o = false →
        rSp o < fmtLanes fa / 32 → rDp o < fmtLanes fd / 32 → VFits s hr one true →
      let vs := (List.range 32).map (fun j => elemVal fa (vRead b (rTa o) r 0) (rSp o * 32 + j))
      let m := mxBlock fd rd.sat (freeElem e) vs
      exec (.vcvt hr true o) s = .next (vDone (drawn s) hr (rTd o) r (putLanes w td (rDp o * 32) m.1)
        (putScale scale (rDp o) m.2.1) m.2.2 one.reads))
    ∧ (Ready s hr (.vcrnd hr true o) g → fmtMx fd = false → rDp o < fmtLanes fd / 8 → fa = 0 →
        VFits s hr (crndUse b x o) true →
      let l := (List.range 8).map (fun p => emitPlain fd rd.sat (pairOf ta p))
      exec (.vcrnd hr true o) s = .next (vDone (drawn s) hr (rTd o) r
        (putLanes w td (rDp o * 8) (l.map (·.1))) scale (flagsOf l) (crndUse b x o).reads))
    ∧ (Ready s hr (.vcrnd hr true o) g → fmtMx fd = true → rDp o < fmtBlocks fd → fa = 0 →
        VFits s hr (crndUse b x o) true →
      let cs := (List.range 32).map (fun k => pairOf (vRead b (rTa o) r (k / 8)).data (k % 8))
      let m := emitBlock fd rd.sat (freeElem e) cs
      exec (.vcrnd hr true o) s = .next (vDone (drawn s) hr (rTd o) r (putLanes w td (rDp o * 32) m.1)
        (putScale scale (rDp o) m.2.1) m.2.2 (crndUse b x o).reads))

/-- R123, R124, R128, R129: TZERO clears a tile the hand may write; TCFG gives a quiet tile its shape, its rows and
scale words becoming zero unless the shape word is unchanged; TLD and TST keep their line open for their transfer, and
the merging-buffer entries of the HBM lines that their rows name start to drain. -/
def Obligations.TileGlyphs : Prop :=
  ∀ (s : State) (hr : HandRef) (o : BitVec 22) (g : Glyph),
    let i := beadNo hr.br
    let b := beadOf s hr
    let x := handAt s hr
    let k := opdField o
    let v : W32 := x.acc.truncate 32 &&& 0xFFFF
    let mine (t : Nat) : Prop := mayWriteTile b hr.hand.val (pswPl x.psw) t = true
    (Ready s hr (.tzero hr true o) g → mine k →
        exec (.tzero hr true o) s = .next (modBead (retire s hr id) i (fun b => zeroTile b k)))
    ∧ (Ready s hr (.tcfg hr true o) g → mine k → tileQuiet b k = true → v &&& 0xF0E0 = 0 → fld v.toNat 11 8 ≤ 0xB →
        v = tcfgOf b k → exec (.tcfg hr true o) s = .next (retire s hr id))
    ∧ (Ready s hr (.tcfg hr true o) g → mine k → tileQuiet b k = true → v &&& 0xF0E0 = 0 → fld v.toNat 11 8 ≤ 0xB →
        v ≠ tcfgOf b k →
        exec (.tcfg hr true o) s = .next (modBead (retire s hr id) i (fun b =>
          zeroTile { b with regs := { b.regs with tcfg := mapPut b.regs.tcfg k v } } k)))
    ∧ (∀ st : Bool, Ready s hr (if st then .tstore hr true o else .tld hr true o) g →
        TransferFits s hr (transferOf x o st) →
        let t := transferOf x o st
        let js := (List.range (tileRows b t.tile.val)).filter (fun j => t.next ≤ j)
        exec (if st then .tstore hr true o else .tld hr true o) s
          = .next (waiting s hr
              (fun b => (spanLines s i t (js.flatMap (allSpans t (tileFmt b t.tile.val)))).foldl startDrain b)
              (.transfer t)))

/-- R50, R73, R135 to R138: NSET and NGET move a group's descriptor; NOPEN clears a group and opens it; NMAC adds the
products of a tile's rows and the weights of its two ranges to a group, and drains it with DRN = 1; NDRN drains a
group. A drain takes what its cells emit and lands later. Where the spec leaves a point open the statement takes the
model's reading of log 26. -/
def Obligations.NibGlyphs : Prop :=
  ∀ (s : State) (hr : HandRef) (o : BitVec 22) (g : Glyph) (k : Fin 4),
    let i := beadNo hr.br
    let b := beadOf s hr
    let x := handAt s hr
    let e := aloneEnv s hr false
    let d := nibDesc b k.val
    let left := nmacLeaves s hr o
    let cell (r n : Nat) : W32 × W32 :=
      ((mapGet (fun _ => ({} : Cell)) left (1024 * k.val + 32 * r + n)).s,
        (mapGet (fun _ => ({} : Cell)) left (1024 * k.val + 32 * r + n)).e)
    let acts (s : State) (c : Option (SMap Cell)) (q : Group) (dr : Option NibDrain) : State :=
      modBead (retire s hr id) i (fun b => putNib b k c q dr)
    (Ready s hr (.nset hr true o) g → opdField o = k.val → NibMay s hr k.val → x.acc &&& ngdReserved = 0 →
        exec (.nset hr true o) s = .next (modBead (retire s hr id) i (fun b =>
          { b with regs := { b.regs with ngd := mapPut b.regs.ngd k.val x.acc } })))
    ∧ (Ready s hr (.nget hr true o) g → opdField o = k.val → NibMay s hr k.val →
        exec (.nget hr true o) s = .next (retire s hr (fun y => { y with acc := d })))
    ∧ (Ready s hr (.nopen hr true o) g → opdField o = k.val → NibMay s hr k.val → NibFree s hr →
        exec (.nopen hr true o) s = .next (acts s (some []) ⟨true, false⟩ none))
    ∧ (Ready s hr (.ndrn hr true o) g → opdField o = k.val → NibMay s hr k.val → NibFree s hr → DrainFits s hr d →
        (nibGroup b k.val).perr = false →
        exec (.ndrn hr true o) s
          = .next (acts (drawn s) none ⟨false, false⟩ (some (drainOf e k.val d (cellsOf b k.val)))))
    ∧ (Ready s hr (.nmac hr true o) g → gGroup o = k.val → NmacFits s hr o → gDrn o = false →
        exec (.nmac hr true o) s = .next (acts (drawn s) (some left) ⟨true, false⟩ none))
    ∧ (Ready s hr (.nmac hr true o) g → gGroup o = k.val → NmacFits s hr o → gDrn o = true → DrainFits s hr d →
        exec (.nmac hr true o) s
          = .next (acts (drawn s) (some left) ⟨false, false⟩ (some (drainOf e k.val d cell))))

/-- R60, R64, R94, R95: a glyph without STOP joins its hand's line, which issues nothing yet, and a hand that is not
Running takes no glyph. A glyph reads registers and memory as they stood before its line, and the line's writes land
together: beside XADDI, which steps an index register, LD reads at the old index register and ST stores to it, and
beside XACC an ADD adds to the old ACC. Where the spec leaves a point open the statement takes the model's reading
of log 28. -/
def Obligations.GlyphLines : Prop :=
  (∀ (s : State) (hr : HandRef) (c : Instr) (g : Glyph), glyphOf c = some g → g.hand = hr →
      (slateRuns s hr.br.slate.val = true → beadExists s (beadNo hr.br) = true → (beadOf s hr).held = false →
          (handAt s hr).st = .running → (handAt s hr).openLine = none → g.stop = false → (handAt s hr).line.length < 5 →
          exec c s = .next (putHand s (beadNo hr.br) hr.hand.val
            { handAt s hr with line := (handAt s hr).line ++ [c] }))
      ∧ ((handAt s hr).st ≠ .running → exec c s = .next s))
  ∧ (∀ (s : State) (hr : HandRef) (r : XReg) (o p : BitVec 22) (ga gc : Glyph) (v : W64),
      let x := handAt s hr
      let a := (localEa x p).toNat
      let step (y : Hand) : Hand := setX y r (xOf x r + imm32 o)
      (ReadyPair s hr (.xaddi hr false r o) (.ld hr true p) ga gc → opdMode p ≤ 3 → LocalOk s hr a 8 →
        exec (.ld hr true p) s
          = .next (retirePair s hr (fun y => { step y with acc := BitVec.ofNat 64 (loadNat s (localAt hr a) 8) })))
      ∧ (ReadyPair s hr (.xaddi hr false r o) (.st hr true p) ga gc → opdMode p ≤ 3 → LocalFree s hr a 8 →
        exec (.st hr true p) s = .next (storeBytes (retirePair s hr step) (localAt hr a) (toBytes 8 x.acc.toNat)))
      ∧ (ReadyPair s hr (.xacc hr false r o) (.add hr true p) ga gc → OperandIs s hr p v →
        aluTraps .add x.psw x.acc v = none →
        exec (.add hr true p) s
          = .next (retirePair s hr (fun y => aluDone .add x.acc v (setX y r (x.acc.truncate 32))))))

/-- R43, R76 to R80, R90, R109: a faulting line has no effect of its own. At user level hands 1 to 3 stop with the
level-1 save set written and a notice posted; hand 0 and keeper level enter the sentinel vector of the cause; at
sentinel level the bead locks up. BRK is the BREAK fault, with a notice of kind 5 and its immediate in SFA. A load
or store of the own folio at an address that its size does not divide raises FBOUND with the EA in SFA (R101). Where
the spec leaves a point open the statement takes the model's reading of logs 59 and 71. -/
def Obligations.FaultEntry : Prop :=
  (∀ (op : AluOp) (s : State) (hr : HandRef) (o : BitVec 22) (g : Glyph) (v : W64) (cause : W8),
      let x := handAt s hr
      let scause : W32 := 0x2100 ||| cause.zeroExtend 32
      Ready s hr (aluGlyph op hr true o) g → OperandIs s hr o v → aluTraps op x.psw x.acc v = some cause →
      (pswPl x.psw = 0 → hr.hand ≠ 0 → Unfaulted s hr → ∃ t, exec (aluGlyph op hr true o) s = .next t
          ∧ handAt t hr
            = { emptied x with st := .stopped .fault, save1 := ⟨x.pc, x.psw, scause, 0⟩ }
          ∧ Noticed (beadOf t hr) hr.hand.val x.pc 0 ∧ t.mem = s.mem)
      ∧ (pswPl x.psw = 1 ∨ (pswPl x.psw = 0 ∧ hr.hand = 0) →
          exec (aluGlyph op hr true o) s = .next (putHand (pointTo s (beadNo hr.br) hr.hand.val) (beadNo hr.br) hr.hand.val
            { emptied x with st := .running, save2 := ⟨x.pc, x.psw, scause, 0⟩
                             psw := (x.psw &&& ~~~0x303) ||| 2, pc := cause.zeroExtend 32 <<< 6 }))
      ∧ (2 ≤ pswPl x.psw → ∃ t, exec (aluGlyph op hr true o) s = .next t
          ∧ (∀ h : Fin 4, (handAt t (siblingAt hr h)).st = .locked)
          ∧ (beadOf t hr).core.lockup = cause.zeroExtend 32 <<< 8 ||| BitVec.ofNat 32 (16 * hr.hand.val) ||| 1
          ∧ (beadOf t hr).ends.sinClosed = 0xFF ∧ (beadOf t hr).ends.vinClosed = 0xF
          ∧ (beadOf t hr).ends.tokClosed = 0xFFFF ∧ (beadOf t hr).ends.soutClosed = 0xFF
          ∧ (beadOf t hr).ends.voutClosed = 0xF ∧ t.mem = s.mem))
  ∧ (∀ (s : State) (hr : HandRef) (o : BitVec 22) (g : Glyph),
      let x := handAt s hr
      let k : W32 := BitVec.ofNat 32 (opdField o)
      Ready s hr (.brk hr true o) g → opdField o < 2 ^ 16 →
        (pswPl x.psw = 0 → hr.hand ≠ 0 → Unfaulted s hr → ∃ t, exec (.brk hr true o) s = .next t
          ∧ (handAt t hr).st = .stopped .brk ∧ (handAt t hr).save1 = ⟨x.pc, x.psw, 0x0000A10D, k⟩
          ∧ (handAt t hr).pc = x.pc ∧ (handAt t hr).psw = x.psw ∧ (handAt t hr).acc = x.acc
          ∧ (∃ n ∈ (beadOf t hr).core.notices, n.source = hr.hand.val ∧ n.word1 = x.pc ∧ n.word2 = k)
          ∧ t.mem = s.mem)
        ∧ (pswPl x.psw < 2 → (pswPl x.psw = 1 ∨ hr.hand = 0) →
          exec (.brk hr true o) s = .next (putHand (pointTo s (beadNo hr.br) hr.hand.val) (beadNo hr.br) hr.hand.val
            { emptied x with
              st := .running, save2 := ⟨x.pc, x.psw, 0x0000A10D, k⟩, psw := (x.psw &&& ~~~0x303) ||| 2
              pc := 0x340 }))
        ∧ (2 ≤ pswPl x.psw → ∃ t, exec (.brk hr true o) s = .next t
          ∧ (∀ h : Fin 4, (handAt t (siblingAt hr h)).st = .locked) ∧ t.mem = s.mem))
  ∧ (∀ (s : State) (hr : HandRef) (r : XReg) (o : BitVec 22) (g : Glyph),
      let x := handAt s hr
      let a := localEa x o
      (∀ p ∈ memLoads hr r o, opdMode o ≤ 3 → Ready s hr p.1 g → a.toNat % p.2.2.1 ≠ 0 →
        FaultsAs s hr p.1 (BitVec.ofNat 32 (0x2000 * p.2.1 + 0x105)) a)
      ∧ (∀ p ∈ memStores x hr r o, opdMode o ≤ 3 → Ready s hr p.1 g → a.toNat % p.2.2.length ≠ 0 →
        FaultsAs s hr p.1 (BitVec.ofNat 32 (0x2000 * p.2.1 + 0x105)) a))

/-- R102: each memory operand form accepts the modes that its letter states, any other mode raises RSVD, and no store
and no address takes an immediate. -/
def Obligations.OperandModes : Prop :=
  ∀ (c : Instr) (s : State) (hr : HandRef) (r : XReg) (o : BitVec 22) (g : Glyph),
    let m := opdMode g.opd
    let rsvd : W32 := BitVec.ofNat 32 (0x2000 * g.slot + 0x101)
    let takes (accepts : Prop) : Prop :=
      (accepts → glyphReserved g = false) ∧ (¬ accepts → FaultsAs s hr c rsvd (handAt s hr).pc)
    Formed s hr c g → g.hand = hr →
      (g.form = .m → takes (m ≤ 3 ∨ m = 5))
      ∧ (g.form = .mk → takes (m ≤ 3 ∨ m = 5 ∨ m = 4))
      ∧ (g.form = .k → takes (m = 4))
      ∧ (c ∈ (memStores (handAt s hr) hr r o).map (·.1) ++ [.xlea hr true r o, .fplea hr true o] → m = 4 →
          FaultsAs s hr c rsvd (handAt s hr).pc)

/-- A step takes the command at the front of the queue and runs it on the state with the rest of the queue. No command of
the table is ever refused or faults: each one, from every state and with all its operands, answers a next state. -/
def Obligations.StepRunsFront : Prop :=
  (∀ (c : Instr) (rest : List Instr) (s : State), s.pending = c :: rest → step s = exec c { s with pending := rest })
  ∧ (∀ (c : Instr) (s : State), ∃ t, exec c s = .next t)

/-- R61, R91, R124, R140, R248, R308, R387: what reset leaves. In every bead hand 0 stands at 0x800 at sentinel level,
the other hands are Idle at user level with HID their own number, the round-robin pointer names hand 3, every tile is
a plain binary32 tile of one row with zeros, every endpoint is closed; the stroke is 16,000 ticks long and the unit is
Off. -/
def Obligations.ResetValues : Prop :=
  ∀ (i h : Nat), i < 1024 → h < 4 →
    let s := State.reset
    let b := getBead s i
    (getHand s i h).st = .idle ∧ (getHand s i h).acc = 0
    ∧ pswPl (getHand s i h).psw = (if h = 0 then 2 else 0) ∧ fld (getHand s i h).psw.toNat 29 28 = h
    ∧ (getHand s i h).pc = (if h = 0 then 0x800 else 0)
    ∧ b.core.lastIssue = 3 ∧ b.regs.nibGrant = 0xFFFF ∧ b.core.notices = [] ∧ b.core.lockup = 0
    ∧ b.ends.sinClosed = 0xFF ∧ b.ends.soutClosed = 0xFF ∧ b.ends.tokClosed = 0xFFFF
    ∧ b.regs.traySeed = BitVec.ofNat 32 (1 + i)
    ∧ (∀ t r, tileRow b t r = {}) ∧ (∀ g, (nibGroup b g).isOpen = false)
    ∧ s.stroke.len = 0x3E80 ∧ s.stroke.cfg = 0x00020430 ∧ s.stroke.st = .off ∧ s.aux.pbudget = 0x8CA
    ∧ s.pins.inReset = true ∧ s.pending = []

/-- The memory that reset leaves is canonical, in the form in which the model lists bytes. Where the spec leaves a point
open the statement takes the model's reading of log 8. -/
def Obligations.ResetMemoryCanonical : Prop := MemOk State.reset

/-- Every step keeps memory canonical: addresses strictly rising, and no byte listed that an unlisted address reads
as. -/
def Obligations.StepKeepsMemory : Prop := ∀ s t : State, MemOk s → step s = .next t → MemOk t

/-- R129, R130, R131, R138: a TLD's remaining rows arrive and its line retires with TSR.ROW 0, a TST's rows are stored;
a row that fails, a local parity error where no page's
segment cures it among them, is taken as a precise fault of slot 3 with TSR.ROW naming it; a nib drain's rows and scales land
and its summary reaches FSW. Rows here are 64-byte rows of the own folio. Where the spec leaves a point open the
statement takes the model's reading of log 61. -/
def Obligations.TransferEvents : Prop :=
  ∀ (s : State) (hr : HandRef) (l : OpenLine) (t : Transfer) (f : GFault) (row : Fin 32) (d : NibDrain)
    (ds : List NibDrain),
    let i := beadNo hr.br
    let b := beadOf s hr
    let x := handAt s hr
    let rows := tileRows b t.tile.val
    let at_ (j : Nat) : Nat := folioBase i + (t.x0.toNat + j * t.x1.toNat) % 2 ^ 32
    let e : Env := ⟨s, i, hr.hand.val, x, l.pc, l.len, l.pc⟩
    let left := (List.range (rows - t.next)).map (t.next + ·)
    let plain : Prop := t.dev = false ∧ t.trn = false ∧ t.lay = false ∧ t.es = 0
      ∧ fmtMx (tileFmt b t.tile.val) = false ∧ boundIn b t.tile.val = none ∧ boundOut b t.tile.val = none ∧ t.snap = []
    let calm : Prop := BeadUp s hr.br ∧ x.openLine = some l ∧ l.why = [.transfer t] ∧ l.effs = [] ∧ l.killed = false
      ∧ l.late = none ∧ x.stopAfter = false ∧ x.heldFaults = []
    let kept : State := putTransfer s i hr.hand.val t
    (calm → plain → (∀ j ∈ left, rowFault e t j = none) → ∃ u, exec (.transferComplete hr) s = .next u
        ∧ handAt u hr = { continueAt { x with tsr := 0 } l.pc l.len false none with heldLine := [], openLine := none }
        ∧ (t.store = false → u.mem = s.mem ∧ ∀ j ∈ left,
            (tileRow (beadOf u hr) t.tile.val j).data = bytesRow (loadBytes s (at_ j) 64))
        ∧ (t.store = true → (beadOf u hr).tiles = b.tiles
            ∧ u.mem = left.foldl (fun m j => memWriteN m (at_ j) (rowBytes (tileRow b t.tile.val j).data)) s.mem))
    ∧ (calm → x.st = .running → pswPl x.psw = 0 → hr.hand ≠ 0 → Unfaulted s hr → row.val = t.next → t.next < rows →
        transferFault kept i hr.hand.val l t = some f → f.log = none → f.abort = false → f.others = [] →
        (f.cause = 6 → t.dev = false ∧ (getSlate s (i / 256)).pg.job = none) →
        ∃ u, exec (.transferRowFault hr row) s = .next u
          ∧ (handAt u hr).st = .stopped .fault ∧ (handAt u hr).tsr = BitVec.ofNat 32 row.val
          ∧ (handAt u hr).openLine = none
          ∧ (handAt u hr).save1 = ⟨l.pc, x.psw, scauseOf ⟨BitVec.ofNat 8 f.cause, 3, false, f.dev,
              BitVec.ofNat 3 l.len, f.sfa⟩, f.sfa⟩)
    ∧ (BeadUp s hr.br → b.nibDrains = d :: ds → ∃ u, exec (.nibDrain hr.br) s = .next u
        ∧ (beadOf u hr).nibDrains = ds
        ∧ u.mem = d.scales.zipIdx.foldl (fun m p => memWriteN m (folioBase i + ngScaleBase d.desc + p.2) [p.1])
            (d.rows.zipIdx.foldl (fun m p => memWriteN m (folioBase i + ngBase d.desc + p.2 * ngPitch d.desc) p.1) s.mem)
        ∧ (getHand u i d.hand.val).fsw = (getHand s i d.hand.val).fsw ||| d.summary)

/-- R66, R67, R68, R80, R81, R83, R270, R159, R411: a sleeping hand whose condition holds runs again with the code of
what woke it; a timer that matches disarms, sets TFIRED, wakes and notifies; an interrupt source sets its PEND bit
once, with a notice where its MASK bit is 1; an imprecise fault is taken by a Running hand and waits at a Stopped
one; a fence and a scan that are done retire their line. Where the spec leaves a point open the statement takes the
model's reading of logs 25 and 36. -/
def Obligations.HandEvents : Prop :=
  ∀ (s : State) (hr : HandRef) (l : OpenLine) (kind : Fin 4) (seq : Nat) (qs : List (Fin 8)) (src : Fin 8)
    (detail sfa : W32) (slot len : BitVec 3) (dev : Bool),
    let i := beadNo hr.br
    let b := beadOf s hr
    let x := handAt s hr
    let h := hr.hand.val
    let wakes (c : BitVec 3) : State := modBead (putHand s i h { x with st := .running, wake := c }) i endSlumber
    let calm (w : Pending) : Prop := x.openLine = some l ∧ l.why = [w] ∧ l.effs = [] ∧ l.killed = false
      ∧ l.late = none ∧ x.stopAfter = false ∧ x.heldFaults = []
    let went : Hand := { continueAt x l.pc l.len false none with heldLine := [], openLine := none }
    let scause : W32 := scauseOf ⟨0x06, slot, true, dev, len, sfa⟩
    BeadUp s hr.br → Unfaulted s hr →
    (x.st = .sleeping .twait → x.latch.valid = true → x.latch.sat = true → x.heldFaults = [] →
        exec (.handWake hr) s = .next (wakes 0))
    ∧ (x.st = .sleeping .nwait → b.core.notices ≠ [] → x.heldFaults = [] → exec (.handWake hr) s = .next (wakes 4))
    ∧ (∀ c : Fin 4, x.st = .sleeping .crecv → x.heldFaults = [] → x.sleepMask.getLsbD c.val = true → chanEn b c.val = true →
        chanDst b c.val = h → chanQ b c.val ≠ [] → exec (.handWake hr) s = .next (wakes 2))
    ∧ (∀ c : Fin 4, x.st = .sleeping .csend → x.heldFaults = [] → x.sleepMask.getLsbD c.val = true → chanEn b c.val = true →
        chanSrc b c.val = h → (chanQ b c.val).length < 2 → exec (.handWake hr) s = .next (wakes 2))
    ∧ (x.tctl.getLsbD 0 = true → x.tcmp ≤ slateTick s i → x.heldFaults = [] → ∃ t, exec (.timerMatch hr) s = .next t
        ∧ (handAt t hr).tctl = (x.tctl &&& ~~~1) ||| 4
        ∧ (x.st = .sleeping .sleep → (handAt t hr).st = (if x.tctl.getLsbD 3 then .running else x.st))
        ∧ (x.tctl.getLsbD 1 = true → x.tctl.getLsbD 2 = false →
            Noticed (beadOf t hr) (4 + h) (x.tcmp.truncate 32) 0))
    ∧ (b.regs.intPend.getLsbD src.val = false → ∃ t, exec (.interruptAssert hr.br src detail) s = .next t
        ∧ (beadOf t hr).regs.intPend = b.regs.intPend ||| BitVec.ofNat 32 (2 ^ src.val)
        ∧ (b.regs.intMask.getLsbD src.val = true → Noticed (beadOf t hr) (8 + src.val) 0 detail)
        ∧ (b.regs.intMask.getLsbD src.val = false → (beadOf t hr).core = b.core))
    ∧ (b.regs.intPend.getLsbD src.val = true → exec (.interruptAssert hr.br src detail) s = .next s)
    ∧ (x.st = .running → x.openLine = none → pswPl x.psw = 0 → h ≠ 0 →
        ∃ t, exec (.impreciseFault hr slot dev len sfa) s = .next t
          ∧ handAt t hr = { emptied x with st := .stopped .fault, save1 := ⟨x.pc, x.psw, scause, sfa⟩ }
          ∧ Noticed (beadOf t hr) h x.pc sfa)
    ∧ (∀ q, x.st = .halted q → exec (.impreciseFault hr slot dev len sfa) s
        = .next (putHand s i h { x with heldFaults := x.heldFaults ++ [⟨0x06, slot, true, dev, len, sfa⟩] }))
    ∧ (∀ k, x.st = .stopped k → exec (.impreciseFault hr slot dev len sfa) s
        = .next (putHand s i h { x with heldFaults := x.heldFaults ++ [⟨0x06, slot, true, dev, len, sfa⟩] }))
    ∧ (x.st = .idle → exec (.impreciseFault hr slot dev len sfa) s = .next s)
    ∧ (calm (.fence kind seq qs) → fenceHolds b h kind.val seq qs = true →
        exec (.fenceComplete hr) s = .next (putHand s i h went))
    ∧ (calm .scan → b.blot.merge = [] → (∀ k : Fin 4, k ≠ hr.hand → (handAt s (siblingAt hr k)).openLine = none) →
        exec (.blswScanEnd hr.br) s
          = .next (putHand (modBead s i (fun b => { b with blot := { b.blot with ways := [] } })) i h went))

/-- R64, R67, R71, R81, R85, R245, R377: writes of the hands' and the bead's registers that do more than store a word.
TCMP disarms its timer; STATE.START runs an Idle hand 0; a MASK bit set over a set PEND bit posts a notice; a
changed channel is emptied and wakes its sleepers; ABORT drops a staged message; HALT and RELEASE halt and release a
hand; a write to a Running or Sleeping hand's registers is discarded with WDISC. Where the spec leaves a point open
the statement takes the model's reading of logs 36 and 60. -/
def Obligations.HandRegisterWrites : Prop :=
  ∀ (s : State) (hr : HandRef) (p : Path) (v : W32) (m : Staged) (hi : Bool) (k : StopKind),
    let i := beadNo hr.br
    let b := beadOf s hr
    let x := handAt s hr
    let h := hr.hand.val
    let o (r : Nat) : Nat := 0x100 + 0x100 * h + r
    let wdisc : State := modBead s i (fun b => { b with regs := { b.regs with hstat := b.regs.hstat ||| 1 } })
    let fits (r : Nat) : Prop := SpaceFits s p hr.br r true
    let field (w : W32) (c : Nat) : Nat := fld w.toNat (8 * c + 7) (8 * c)
    (fits (o (if hi then 0x54 else 0x50)) → (x.st = .idle ∨ x.st = .stopped k) →
        ∃ y, exec (.tcmpWrite p hr hi v) s = .next (putHand s i h y) ∧ y = { x with tcmp := y.tcmp, tctl := x.tctl &&& ~~~1 }
          ∧ (if hi then (y.tcmp >>> 32).truncate 32 = v ∧ (y.tcmp.truncate 32 : W32) = x.tcmp.truncate 32
            else (y.tcmp.truncate 32 : W32) = v ∧ y.tcmp >>> 32 = x.tcmp >>> 32))
    ∧ (fits (o (if hi then 0x54 else 0x50)) → x.st = .running → exec (.tcmpWrite p hr hi v) s = .next wdisc)
    ∧ (fits 0x158 → v.getLsbD 11 = true → (getHand s i 0).st = .idle →
        (getHand s i 0).heldFaults = [] →
        exec (.startHand0 p hr.br v) s = .next (modHand (modBead s i endSlumber) i 0 (fun y => { y with st := .running })))
    ∧ (fits 0x24 → Unfaulted s hr → ∃ t, exec (.beadIntMaskWrite p hr.br v) s = .next t ∧ (beadOf t hr).regs.intMask = v &&& 0xFF
        ∧ ∀ n : Fin 8, v.getLsbD n.val = true → b.regs.intMask.getLsbD n.val = false →
            b.regs.intPend.getLsbD n.val = true → ∃ q ∈ (beadOf t hr).core.notices, q.source = 8 + n.val)
    ∧ (fits 0x10 → (∀ q : Fin 4, (handAt s (siblingAt hr q)).heldFaults = []) → ∃ t, exec (.beadChanCfgWrite p hr.br v) s = .next t
        ∧ (beadOf t hr).regs.chanCfg = v &&& 0x8F8F8F8F
        ∧ (∀ c : Fin 4, chanQ (beadOf t hr) c.val
            = if field b.regs.chanCfg c.val = field (v &&& 0x8F8F8F8F) c.val then chanQ b c.val else [])
        ∧ (∀ c : Fin 4, field b.regs.chanCfg c.val ≠ field (v &&& 0x8F8F8F8F) c.val →
            (x.st = .sleeping .csend ∨ x.st = .sleeping .crecv) → x.sleepMask.getLsbD c.val = true →
            (handAt t hr).st = .running ∧ (handAt t hr).wake = 2))
    ∧ (fits (o 0xA8) → v.getLsbD 31 = true → x.st = .stopped k → x.staged = some m →
        ∃ t, exec (.abortMsg p hr v) s = .next t ∧ handAt t hr = { x with staged := none }
          ∧ mapGet (fun _ => 0) (beadOf t hr).ends.soutCred m.ep.val
            = mapGet (fun _ => 0) b.ends.soutCred m.ep.val + m.words.length)
    ∧ (fits (o 0xA8) → v.getLsbD 31 = true → x.st = .running → exec (.abortMsg p hr v) s = .next wdisc)
    ∧ (fits (o 0xAC) → x.st ≠ .locked → (∀ q, x.st ≠ .halted q) → ∃ t, exec (.haltHand p hr) s = .next t
        ∧ (handAt t hr).st = .halted (haltPrior x) ∧ (handAt t hr).acc = x.acc ∧ (handAt t hr).psw = x.psw
        ∧ (handAt t hr).pc = x.pc)
    ∧ (fits (o 0xAC) → x.st = .halted .idle → exec (.releaseHand p hr) s = .next (putHand s i h { x with st := .idle }))
    ∧ (fits (o 0xAC) → x.st = .halted .running → x.heldFaults = [] →
        exec (.releaseHand p hr) s = .next (putHand s i h { x with st := .running }))
    ∧ (fits (o 0xAC) → x.st = .halted .sleeping →
        exec (.releaseHand p hr) s = .next (putHand s i h { x with st := .sleeping .sleep }))
    ∧ (fits (o 0xAC) → x.st = .halted (.stopped k) →
        exec (.releaseHand p hr) s = .next (putHand s i h { x with st := .stopped k }))

/-- R124, R145, R146, R246, R248: a tile shape word of a quiet tile is taken and its rows become zero if it changes, one
with a reserved FMT is discarded, and one for a tile in use waits; BEAD_VQ_BIND waits likewise; BEAD_QCLOSE closes
endpoints, which lose what they hold; a change of the blotter's SIZE begins a switch, or is refused while an enabled
tray lies in a bank that it would take. Where the spec leaves a point open the statement takes the model's reading
of log 140. -/
def Obligations.BeadRegisterWrites : Prop :=
  ∀ (s : State) (br : BeadRef) (p : Path) (t : Fin 8) (v : W32),
    let i := beadNo br
    let b := beadIn s br
    let held (o : Nat) : State := setHeld s p [.bead i o v]
    let o := 0x80 + 4 * t.val
    let shape : W32 := v &&& 0xF1F
    (SpaceFits s p br o true → fld v.toNat 11 8 ≤ 0xB → tileQuiet b t.val = true → shape = tcfgOf b t.val →
        exec (.beadTcfgWrite p br t v) s = .next (modBead s i id))
    ∧ (SpaceFits s p br o true → fld v.toNat 11 8 ≤ 0xB → tileQuiet b t.val = true → shape ≠ tcfgOf b t.val →
        ∃ u, exec (.beadTcfgWrite p br t v) s = .next u ∧ tcfgOf (beadIn u br) t.val = shape
          ∧ (∀ r < 32, tileRow (beadIn u br) t.val r = {})
          ∧ (∀ q : Fin 8, q ≠ t → tcfgOf (beadIn u br) q.val = tcfgOf b q.val
              ∧ ∀ r < 32, tileRow (beadIn u br) q.val r = tileRow b q.val r))
    ∧ (SpaceFits s p br o true → fld v.toNat 11 8 ≤ 0xB → tileQuiet b t.val = false →
        exec (.beadTcfgWrite p br t v) s = .next (held o))
    ∧ (SpaceFits s p br o true → 0xB < fld v.toNat 11 8 → exec (.beadTcfgWrite p br t v) s = .next (modBead s i id))
    ∧ (SpaceFits s p br 0x520 true → bindQuiet b v = true →
        exec (.beadVqBindWrite p br v) s = .next (modBead s i (fun b => { b with ends := { b.ends with vqBind := v } })))
    ∧ (SpaceFits s p br 0x520 true → bindQuiet b v = false → exec (.beadVqBindWrite p br v) s = .next (held 0x520))
    ∧ (SpaceFits s p br 0x518 true → ∃ u, exec (.beadQcloseWrite p br v) s = .next u
        ∧ (beadIn u br).ends.sinClosed = b.ends.sinClosed ||| v.truncate 8
        ∧ (beadIn u br).ends.vinClosed = b.ends.vinClosed ||| (v >>> 8).truncate 4
        ∧ (∀ e < 8, v.getLsbD e = true → sinWords (beadIn u br) e = [])
        ∧ (∀ e < 4, v.getLsbD (8 + e) = true → vinRows (beadIn u br) e = [])
        ∧ (∀ e < 8, v.getLsbD e = false → sinWords (beadIn u br) e = sinWords b e)
        ∧ (beadIn u br).ends.soutClosed = b.ends.soutClosed)
    ∧ (SpaceFits s p br 0x68 true → b.blot.switching = none → fld v.toNat 2 0 = b.blot.size.toNat → b.blot.size ≤ 4 →
        exec (.beadBlotCfgWrite p br v) s
          = .next (modBead s i (fun b => { b with blot := { b.blot with pf := v.getLsbD 8 } })))
    ∧ (SpaceFits s p br 0x68 true → b.blot.switching = none → blotAsk b v = .switch →
        exec (.beadBlotCfgWrite p br v) s = .next (modBead s i (fun b => { b with blot := { b.blot with
          merge := b.blot.merge.map (fun m => { m with draining := true })
          switching := some (v.truncate 3, v.getLsbD 8) } })))
    ∧ (SpaceFits s p br 0x68 true → b.blot.switching = none → fld v.toNat 2 0 ≤ 4 → b.blot.size.toNat < fld v.toNat 2 0 →
        b.regs.trayCfg.getLsbD 31 = true → trayIn b.regs.trayCfg (fld v.toNat 2 0) = true →
        exec (.beadBlotCfgWrite p br v) s
          = .next (modBead s i (fun b => { b with blot := { b.blot with refused := true } })))

/-- R67, R308, R370, R397, R400, R401: a register write stores its fields' bits; one whose byte enables leave out a byte
is discarded, and so is one to an offset that holds no register; an access that is not granted reads as zero and
counts in SEC_DENY_COUNT. Reading the low word of a counter answers it and latches the upper half. Where the spec
leaves a point open the statement takes the model's reading of log 141. -/
def Obligations.RegisterAccesses : Prop :=
  ∀ (s : State) (br : BeadRef) (p : Path) (a : BitVec 30) (be : BitVec 4) (v : W32) (sl : Fin 4),
    let i := beadNo br
    let base := br.slate.val * 0x4000000 + 0x300000 + br.bead.val * 0x1000
    let write (be : BitVec 4) : Instr := .registerWrite (.ctl p (.addr a)) .good be v
    (SpaceFits s p br 0x08 true → a.toNat = base + 8 → exec (write 0xF) s
        = .next (modBead s i (fun b => { b with regs := { b.regs with commonsBase := v &&& 0x003FF000 } })))
    ∧ (SpaceFits s p br 0x34 true → a.toNat = base + 0x34 →
        exec (write 0xF) s = .next (modBead s i id))
    ∧ (be ≠ 0xF → exec (.registerWrite (.ctl p (.addr a)) .good be v) s = .next s)
    ∧ (deviceUp s = true → heldOf s p = [] → locOf s a.toNat = .reserved → exec (write 0xF) s = .next s)
    ∧ (deviceUp s = true → heldOf s p = [] → locOf s a.toNat = .bead i 0x08 → granted s p (.bead i 0x08) true = false →
        exec (write 0xF) s
          = .next { s with sec := { s.sec with denyCount := satInc s.sec.denyCount } })
    ∧ (SpaceFits s p br 0x38 false → ∃ t, exec (.beadTickLoRead p br) s = .next t
        ∧ lastRead t p = (slateTick s i).truncate 32 ∧ (beadIn t br).core.tickHi = (slateTick s i >>> 32).truncate 32
        ∧ t.mem = s.mem)
    ∧ (deviceUp s = true → heldOf s p = [] → slatePresent s sl.val = true → granted s p (.slate sl.val 0x08) false = true →
        ∃ t, exec (.slateTickLoRead p sl) s = .next t ∧ lastRead t p = (getSlate s sl.val).tick.truncate 32
          ∧ getSlate t sl.val = { getSlate s sl.val with tickHi := ((getSlate s sl.val).tick >>> 32).truncate 32 })
    ∧ (deviceUp s = true → heldOf s p = [] → granted s p (.stroke 0x0C) false = true → ∃ t, exec (.strokeCountLoRead p) s = .next t
        ∧ lastRead t p = s.stroke.count.truncate 32
        ∧ t.stroke = { s.stroke with countHi := (s.stroke.count >>> 32).truncate 8 })

/-- R182, R188, R289, R361, R384: writes that act on a brush, the stroke unit, the lifecycle and the device: an order
pushed joins its brush's queue, FLUSH empties the queue, FENCE and UNFENCE move the stroke unit's state, SEAL and
VOID pend a lifecycle for the next module reset, and WARM resets the device. Where the spec leaves a point open the
statement takes the model's reading of log 144. -/
def Obligations.UnitWrites : Prop :=
  ∀ (s : State) (k : BrushRef) (p : Path) (v : W32),
    let kb := brushNo k
    let b := getBrush s kb
    let words := (List.range 15).map (fun w => mapGet (fun _ => 0) b.stage w) ++ [v]
    (BrushFits s p k 0x13C → b.failed = false → b.queue.length < 16 → ∃ t, exec (.orderPush p k v) s = .next t
        ∧ (getBrush t kb).queue = b.queue ++ [⟨words, entryStatus b words⟩] ∧ t.mem = s.mem)
    ∧ (BrushFits s p k 0x08 → ∃ t, exec (.flush p k) s = .next t ∧ (getBrush t kb).queue = []
        ∧ (getBrush t kb).running = b.running ∧ (getBrush t kb).done = b.done + BitVec.ofNat 32 b.queue.length)
    ∧ (deviceUp s = true → heldOf s p = [] → granted s p (.stroke 4) true = true → s.stroke.st ≠ .fenced → syncSlates s = [] →
        ∃ t, exec (.fenceStroke p) s = .next t ∧ t.stroke.st = .fenced
          ∧ ∀ sl < 4, slatePresent s sl = true → ∀ w < 64, (getWindow t sl w).isOpen = false)
    ∧ (deviceUp s = true → heldOf s p = [] → granted s p (.stroke 4) true = true → s.stroke.st = .fenced →
        ∃ t, exec (.unfence p) s = .next t ∧ t.stroke.st = .acquiring)
    ∧ (deviceUp s = true → heldOf s p = [] → granted s p (.sec 4) true = true → p ≠ .firmware →
        s.sec.lifecycle = .openLc → s.sec.pendingLc = none → ∃ t, exec (.sealLc p) s = .next t
          ∧ t.sec.lifecycle = .openLc ∧ t.sec.pendingLc = some .sealed
          ∧ t.sec.burnt = some (s.sec.dbgKey, s.sec.ppDigest, t.sec.fuseCfg))
    ∧ (deviceUp s = true → heldOf s p = [] → granted s p (.sec 4) true = true → p ≠ .firmware →
        s.sec.lifecycle = .openLc → s.sec.pendingLc = none →
        exec (.voidLc p) s = .next { s with sec := { s.sec with pendingLc := some .voided } })
    ∧ (deviceUp s = true → heldOf s p = [] → granted s p (.sec 4) true = true → s.sec.lifecycle = .sealed →
        exec (.sealLc p) s = .next s ∧ exec (.voidLc p) s = .next s)
    ∧ (deviceUp s = true → heldOf s p = [] → granted s p (.spine 0x300) true = true → s.spine.recovering = false →
        s.spine.warms ≠ 0xFFFF →
        ∃ t, exec (.warm p) s = .next t ∧ t.spine.resetKind = 5 ∧ t.spine.warms = s.spine.warms + 1
          ∧ t.sec.session = none ∧ t.pwr.st = .run ∧ t.vfOn = false
          ∧ (∀ sl < 4, slatePresent s sl = true → (getSlate s sl).failed = false → (getSlate t sl).inReset = true))

/-- R370, R404 to R407: DBG_ACCESS moves one word over JTAG; the debug window reads and writes device memory at its
base; a broadcast write reaches every member's RWB register, and a broadcast read answers the lowest member and sets
DIVERGE where another differs. Where the spec leaves a point open the statement takes the model's reading of logs 48
and 145. -/
def Obligations.DebugAccesses : Prop :=
  ∀ (s : State) (p : Path) (a : BitVec 30) (v : W32) (off : BitVec 20) (bs : List W8) (n : Fin 65) (w : WindowAt)
    (l : Loc) (ls : List Loc),
    let o := a.toNat - 0x10000000
    let da := s.spine.dbgBase.toNat * 2 ^ 20 + off.toNat
    let inHbmFree : Prop := da < 0x008000000000 ∧ slatePresent s (da / 0x1000000000 / 2) = true ∧ dbgMirror s da = none
    let quiet (p : Path) : Prop := deviceUp s = true ∧ heldOf s p = []
    let win : Prop := quiet p ∧ 0x11000000 ≤ a.toNat ∧ a.toNat < 0x16100000 ∧ a.toNat % 4 = 0
      ∧ windowAt s o = some w
    (tapServes s = true → quiet .jtag → locOf s a.toNat = .spine 0x30 → granted s .jtag (.spine 0x30) true = true →
        ∃ t, exec (.dbgAccess (some v) (.addr a)) s = .next t ∧ t.spine.dbgBase = v.truncate 28 ∧ t.tap.ir = 0x22)
    ∧ (tapServes s = true → quiet .jtag → locOf s a.toNat = .spine 0x30 → granted s .jtag (.spine 0x30) false = true →
        ∃ t, exec (.dbgAccess none (.addr a)) s = .next t ∧ t.tap.tdo = s.spine.dbgBase.zeroExtend 32
          ∧ lastRead t .jtag = s.spine.dbgBase.zeroExtend 32 ∧ t.mem = s.mem)
    ∧ (tapServes s = false → exec (.dbgAccess (some v) (.addr a)) s = .next s)
    ∧ (quiet p → inHbmFree → granted s p (.dbgwin off.toNat) true = true → inFirmware s da = false →
        ∃ t, exec (.debugWindowAccess p off (some bs) n) s = .next t ∧ t.mem = memWriteN s.mem da bs)
    ∧ (quiet p → inHbmFree → granted s p (.dbgwin off.toNat) false = true → inFirmware s da = false →
        parityFind s.parity da n.val = none → ∃ t, exec (.debugWindowAccess p off none n) s = .next t
          ∧ t.answers.window = loadBytes s da n.val ∧ t.mem = s.mem)
    ∧ (win → granted s p (.window o) true = true → w.members = [l] → isRwb l = true →
        exec (.broadcastWrite p a v) s = .next (locWrite s p l v))
    ∧ (win → granted s p (.window o) true = true → (∀ l ∈ w.members, isRwb l = false) →
        exec (.broadcastWrite p a v) s = .next s)
    ∧ (win → granted s p (.window o) false = true → w.members = l :: ls →
        (∀ q ∈ w.members, granted s p q false = true) → ∃ t, exec (.broadcastRead p a) s = .next t
          ∧ lastRead t p = locRead s l
          ∧ t.spine.diverge = (s.spine.diverge || ls.any (fun q => locRead s q != locRead s l)) ∧ t.mem = s.mem)

/-- R104, R142, R151, R167, R267, R269: a load's data returns to the register its glyph names, an atomic's old value to
ACC while its home takes the new one; a store is performed at its home before it leaves; the folio controller of
another bead serves a request or refuses it (R144); a fill answers the load that waits for its line. Where the spec
leaves a point open the statement takes the model's reading of logs 85 and 86. -/
def Obligations.RequestEvents : Prop :=
  ∀ (s : State) (hr : HandRef) (n line : Nat) (r : DevReq) (bs : List W8) (size : Nat) (dest : LoadDest) (op : AtomOp)
    (a b : W64) (j off : Nat) (f : Fill),
    let i := beadNo hr.br
    let h := hr.hand.val
    let x := handAt s hr
    let old := BitVec.ofNat 64 (loadNat s r.pa 8)
    let rest : List DevReq := x.reqs.filter (fun q => q.seq != r.seq)
    let toAlu : Prop := ∃ o, dest = .alu o
    let mine : Prop := BeadUp s hr.br ∧ x.reqs[n]? = some r ∧ (∀ q ∈ x.reqs, q.seq = r.seq → q = r) ∧ r.served = none
      ∧ r.refused = false ∧ r.dead = false ∧ r.bad = false ∧ r.mirror = none ∧ reqTurn (beadOf s hr) x r = true
    let hbm : Prop := mine ∧ inHbm r.pa = true ∧ homeRefuses s i r.pa = none ∧ (∀ g ∈ (beadOf s hr).blot.fills, g.line ≠ r.pa / 64)
    let away : Prop := mine ∧ regionOf r.pa = .folio j off ∧ slateRefuses s (some (i / 256)) (j / 256) = none
    (hbm → r.op = .load size dest → ¬ toAlu → parityFind s.parity r.pa size = none →
        ∃ t, exec (.deviceLoadReturn hr n false) s = .next t ∧ t.mem = s.mem
          ∧ handAt t hr = loaded dest (loadBytes s r.pa size) { x with reqs := rest })
    ∧ (hbm → r.op = .atomic op a b → parityFind s.parity r.pa 8 = none →
        ∃ t, exec (.deviceLoadReturn hr n false) s = .next t ∧ handAt t hr = { x with reqs := rest, acc := old }
          ∧ t.mem = memWriteN s.mem r.pa (toBytes 8 (atomSays op old a b).toNat))
    ∧ (hbm → r.op = .store bs → ∃ t, exec (.storeAcknowledge hr n) s = .next t
        ∧ t.mem = memWriteN s.mem r.pa bs ∧ handAt t hr = { x with reqs := rest })
    ∧ (away → r.op = .store bs → folioRefuses s j off bs.length = false →
        ∃ t, exec (.storeAcknowledge hr n) s = .next t ∧ t.mem = memWriteN s.mem r.pa bs
          ∧ handAt t hr = { x with reqs := rest })
    ∧ (away → r.op = .load size dest → folioRefuses s j off size = false → parityFind s.parity r.pa size = none →
        ∃ t, exec (.remoteRequestServe hr n) s = .next t ∧ t.mem = s.mem
          ∧ (handAt t hr).reqs[n]? = some { r with served := some (loadBytes s r.pa size) })
    ∧ (away → r.op = .load size dest → folioRefuses s j off size = true →
        ∃ t, exec (.remoteRequestServe hr n) s = .next t ∧ t.mem = s.mem
          ∧ (handAt t hr).reqs[n]? = some { r with refused := true })
    ∧ (mine → r.op = .load size dest → ¬ toAlu → inHbm r.pa = true → line = r.pa / 64 → r.pa % 64 + size ≤ 64 →
        homeRefuses s i (64 * line) = none →
        (beadOf s hr).blot.fills = [f] → f.line = line → fillWaiters s i line = [(h, r)] → mirrorOf s (64 * line) = none →
        parityFind s.parity (64 * line) 64 = none → (beadOf s hr).blot.size ≠ 0 →
        ∃ t, exec (.blotterFill hr.br line false) s = .next t ∧ t.mem = s.mem
          ∧ handAt t hr = loaded dest (loadBytes s r.pa size) { x with reqs := rest }
          ∧ (beadOf t hr).blot.fills = [])

/-- R146, R151, R154: a merging-buffer entry that is 64 ticks old starts to drain; its acknowledgement writes its masked
bytes, and no others, and frees it, and a first parity failure sends it again; a filled line that no load waits for
enters the blotter; a switch that has ended gives SIZE and PF their new values, with every line invalid and the
banks that leave the blotter zero. Where the spec leaves a point open the statement takes the model's reading of
logs 36 and 84. -/
def Obligations.BlotterEvents : Prop :=
  ∀ (s : State) (br : BeadRef) (line : Nat) (m : MergeEntry) (ms : List MergeEntry) (f : Fill) (size : BitVec 3)
    (pf : Bool), MemOk s →
    let i := beadNo br
    let b := beadIn s br
    let base := folioBase i
    let lo := base + (32 - 2 * b.blot.size.toNat) * 0x10000
    let hi := base + (32 - 2 * size.toNat) * 0x10000
    (BeadUp s br → b.blot.merge = m :: ms → m.line = line → m.draining = false →
        ∃ t, exec (.mergeEntryTimeout br line) s = .next t
          ∧ ∃ ms', (beadIn t br).blot.merge = { m with draining := true } :: ms' ∧ t.mem = s.mem)
    ∧ (BeadUp s br → b.blot.merge = m :: ms → m.line = line → m.draining = true → m.mirror = none → m.data.length = 64 →
        (∀ q ∈ ms, q.seq ≠ m.seq) → drainWaits b m = false → homeRefuses s i (64 * line) = none → ∃ t, exec (.mergeDrainAck br line false) s = .next t
          ∧ (beadIn t br).blot.merge = ms
          ∧ (∀ k < 64, m.mask.getLsbD k = true → some (memRead t.mem (64 * line + k)) = m.data[k]?)
          ∧ (∀ a, (∀ k < 64, m.mask.getLsbD k = true → a ≠ 64 * line + k) → memRead t.mem a = memRead s.mem a))
    ∧ (BeadUp s br → b.blot.merge = [m] → m.line = line → m.draining = true → m.resent = false → drainWaits b m = false →
        homeRefuses s i (64 * line) = none → ∃ t, exec (.mergeDrainAck br line true) s = .next t
          ∧ (beadIn t br).blot.merge = [{ m with resent := true }] ∧ t.mem = s.mem)
    ∧ (BeadUp s br → b.blot.fills = [f] → f.line = line → fillWaiters s i line = [] → b.blot.merge = [] →
        b.blot.size ≠ 0 → blotFind b line = none → mirrorOf s (64 * line) = none →
        parityFind s.parity (64 * line) 64 = none → homeRefuses s i (64 * line) = none →
        ∃ t, exec (.blotterFill br line false) s = .next t
          ∧ (beadIn t br).blot.fills = [] ∧ t.mem = s.mem
          ∧ ∃ k, blotFind (beadIn t br) line = some k ∧ (wayAt (beadIn t br) k).data = loadBytes s (64 * line) 64
            ∧ (wayAt (beadIn t br) k).age = f.age)
    ∧ (BeadUp s br → b.blot.switching = some (size, pf) → switchDrained b size = true → b.blot.size ≤ 4 → size ≤ 4 →
        ∃ t, exec (.blotSwitchEnd br) s = .next t
          ∧ (beadIn t br).blot.size = size ∧ (beadIn t br).blot.pf = pf ∧ (beadIn t br).blot.switching = none
          ∧ (beadIn t br).blot.ways = []
          ∧ (∀ a, memRead t.mem a = if lo ≤ a ∧ a < hi then 0 else memRead s.mem a))

/-- R160 to R165: a descriptor that passes its checks and that no earlier one holds back starts; one whose fields fail
completes with the code of what failed and QERR. A fill writes its 8-byte pattern to every row, a copy of one row
writes the source's bytes; a completed descriptor frees its slot, says how many rows it moved, and raises its
completion tally by 1. Where the spec leaves a point open the statement takes the model's reading of logs 39 and 61. -/
def Obligations.QuillEvents : Prop :=
  ∀ (s : State) (br : BeadRef) (slot : Fin 8) (code p : Nat),
    let i := beadNo br
    let q := quillAt (beadIn s br) slot.val
    let d := q.desc
    let base := folioBase i
    let at_ (j : Nat) : Nat := base + (qDst d + j * (wordAt d 0x14).toNat)
    let plain : Prop := BeadUp s br ∧ q.busy = true ∧ q.started = true ∧ q.rows = 0 ∧ qDdev d = false
      ∧ bitAt (qCtally d) 31 = false ∧ bitAt (qAtally d) 31 = false ∧ qRows d < 2 ^ 24
      ∧ q.fenced = false ∧ quillWaits s i slot.val = false
    let ended (t : State) (rows : Nat) : Prop := ∃ u, quillAt (beadIn t br) slot.val = u ∧ u.busy = false
      ∧ u.err = false ∧ u.ecode = 0 ∧ u.rows = BitVec.ofNat 24 rows
    (BeadUp s br → q.busy = true → q.started = false → quillBlocked (beadIn s br) q = false → quillErrors s i q = [] →
        ∃ t, exec (.quillDescriptorStart br slot) s = .next t ∧ t.mem = s.mem
          ∧ quillAt (beadIn t br) slot.val = { q with started := true, rows := 0 })
    ∧ (BeadUp s br → q.busy = true → q.started = false → quillBlocked (beadIn s br) q = true →
        exec (.quillDescriptorStart br slot) s = .next s)
    ∧ (BeadUp s br → q.busy = true → q.started = false → quillBlocked (beadIn s br) q = false → quillErrors s i q = [code] →
        1 ≤ code → code < 64 → ∃ t, exec (.quillDescriptorStart br slot) s = .next t ∧ t.mem = s.mem
          ∧ (quillAt (beadIn t br) slot.val).busy = false ∧ (quillAt (beadIn t br) slot.val).err = true
          ∧ (quillAt (beadIn t br) slot.val).ecode = BitVec.ofNat 6 code
          ∧ (beadIn t br).regs.intPend.getLsbD intQerr = true)
    ∧ (plain → qKind d = 2 → 0 ≤ qDpitch d → ∃ t, exec (.quillComplete br ⟨slot, false⟩) s = .next t ∧ ended t (qRows d)
        ∧ t.mem = (List.range (qRows d)).foldl (fun m j => memWriteN m (at_ j)
            ((List.range (qRbytes d)).map (fun k => ((qFill d)[k % 8]?).getD 0))) s.mem)
    ∧ (plain → qKind d = 0 → qSdev d = false → qRows d = 1 →
        (qSrc d + qRbytes d ≤ qDst d ∨ qDst d + qRbytes d ≤ qSrc d) →
        parityFind s.parity (base + qSrc d) (qRbytes d) = none → ∃ t, exec (.quillComplete br ⟨slot, false⟩) s = .next t
          ∧ ended t 1 ∧ t.mem = memWriteN s.mem (base + qDst d) (loadBytes s (base + qSrc d) (qRbytes d)))
    ∧ (BeadUp s br → q.busy = true → q.started = true → q.rows = BitVec.ofNat 24 (qDstShape d).1 → (qDstShape d).1 < 2 ^ 24 →
        q.fenced = false → quillWaits s i slot.val = false →
        quillTally s i (i / 256) (qCtally d) = some (some p) → ∃ t, exec (.quillComplete br ⟨slot, false⟩) s = .next t
          ∧ ended t (qDstShape d).1
          ∧ (getSlate t (i / 256)).tallies.raises = (getSlate s (i / 256)).tallies.raises ++ [⟨p, 1⟩])

/-- R233, R239, R240, R242, R243, R248, R249: a unit that arrives at an open in-endpoint joins it, one at a closed
endpoint is discarded with its credit returned under a closure mark, a stale one is counted; a credit raises its
out-endpoint's count once its one sink has freed the entry, and a closure mark closes it; a probe takes the head
entry of its victim's tray or finds it empty, and its answer puts the descriptor and the victim's index where
TRSTEAL asked. Where the spec leaves a point open the statement takes the model's reading of log 36. -/
def Obligations.MeshEvents : Prop :=
  ∀ (s : State) (sl : Fin 4) (hr : HandRef) (n : Nat) (u : QUnit) (c : Credit) (t : Steal) (bs : List W8),
    let x := handAt s hr
    let d := getBead s u.dst
    let left : State := modSlate s sl.val (fun y => { y with units := listDrop y.units n })
    let first : Prop := (getSlate s sl.val).units[n]? = some u ∧ slateRuns s (u.dst / 256) = true
      ∧ ((getSlate s sl.val).units.take n).any (sameRoute u) = false
    let fresh : Prop := u.dst / 256 = sl.val ∧ u.epoch = (getSlate s (u.dst / 256)).pg.epoch
    let v := getBead s t.victim
    let a := folioBase t.victim + trayEntry v v.regs.trayHead.toNat
    (first → fresh → u.net = .scalar → u.dstEp < 8 → d.ends.sinClosed.getLsbD u.dstEp = false →
        ∃ w, exec (.unitArrival sl n) s = .next w
          ∧ sinWords (getBead w u.dst) u.dstEp = sinWords d u.dstEp ++ [(u.word, u.last)])
    ∧ (first → fresh → u.net = .vector → u.dstEp < 4 → d.ends.vinClosed.getLsbD u.dstEp = false →
        ∃ w, exec (.unitArrival sl n) s = .next w
          ∧ vinRows (getBead w u.dst) u.dstEp = vinRows d u.dstEp ++ [u.row])
    ∧ (first → fresh → u.net = .scalar → u.dstEp < 8 → d.ends.sinClosed.getLsbD u.dstEp = true →
        ∃ w, exec (.unitArrival sl n) s = .next w
          ∧ (getBead w u.dst).ends.discard = satInc d.ends.discard
          ∧ sinWords (getBead w u.dst) u.dstEp = sinWords d u.dstEp)
    ∧ (first → u.dst / 256 = sl.val → u.epoch ≠ (getSlate s (u.dst / 256)).pg.epoch →
        ∃ w, exec (.unitArrival sl n) s = .next w ∧ w = countStale left (u.dst / 256) 1)
    ∧ ((getSlate s sl.val).credits[n]? = some c → slateRuns s sl.val = true → c.net = .scalar → c.closure = false →
        (getBead s c.src).ends.freed = [] → routeSets s .scalar hopFuel (.ep c.src c.srcEp) = [[(c.sink, c.sinkEp)]] →
        ∃ w, exec (.creditReturn sl n) s = .next w
          ∧ soutCredits (getBead w c.src) c.srcEp = Nat.min 8 (soutCredits (getBead s c.src) c.srcEp + 1)
          ∧ (getBead w c.src).ends.freed = []
          ∧ (getSlate w sl.val).credits = listDrop (getSlate s sl.val).credits n)
    ∧ ((getSlate s sl.val).credits[n]? = some c → slateRuns s sl.val = true → c.net = .scalar → c.closure = true →
        c.srcEp < 8 → ∃ w, exec (.creditReturn sl n) s = .next w
          ∧ (getBead w c.src).ends.soutClosed.getLsbD c.srcEp = true)
    ∧ (BeadUp s hr.br → x.steal = some t → t.answer = none → t.victim ≠ beadNo hr.br → trayOn v = true → trayCount v ≠ 0 →
        parityFind s.parity a 64 = none → ∃ w, exec (.stealProbe hr) s = .next w
          ∧ (getBead w t.victim).regs.trayHead = v.regs.trayHead + 1
          ∧ handAt w hr = { x with steal := some { t with answer := some (some (loadBytes s a 64)) } })
    ∧ (BeadUp s hr.br → x.steal = some t → t.answer = none → (trayOn v = false ∨ trayCount v = 0) →
        exec (.stealProbe hr) s
          = .next (putHand s (beadNo hr.br) hr.hand.val { x with steal := some { t with answer := some none } }))
    ∧ (BeadUp s hr.br → x.steal = some t → t.answer = some (some bs) →
        exec (.stealAnswer hr) s = .next (putHand (storeBytes s (localAt hr t.ea) bs) (beadNo hr.br) hr.hand.val
          { x with steal := none, acc := BitVec.ofNat 64 (t.victim % 256) }))

/-- R256 to R263, R271, R272: a raise leaves its bead once the stores before it are done, and adds to its tally modulo
2^48; a waiter whose target is met is woken, one whose target is not waits; a wake satisfies its hand's latch. A
context that leaves loses its block; a slumber, a stall and a dump are recorded where the rules say. Where the spec
leaves a point open the statement takes the model's reading of log 36. -/
def Obligations.TallyEvents : Prop :=
  ∀ (s : State) (sl : Fin 4) (hr : HandRef) (n : Nat) (r : Raise) (q : RaiseReq) (qs : List RaiseReq) (w : TallyWakeMsg)
    (ws : List TallyWakeMsg) (c : Fin 64) (base size : Nat),
    let t := sl.val
    let i := beadNo hr.br
    let k := i / 256
    let x := handAt s hr
    let u := (getSlate s t).tallies
    let l := x.latch
    let p := l.tally.toNat
    let b := beadOf s hr
    let wd := (getSlate s t).watch
    (BeadUp s hr.br → x.raises = q :: qs → raiseFree b x q = true → ∃ v, exec (.raiseRelease hr) s = .next v
        ∧ handAt v hr = { x with raises := qs }
        ∧ (getSlate v k).tallies.raises = (getSlate s k).tallies.raises ++ [⟨q.tally, q.amount⟩])
    ∧ (slateRuns s t = true → u.raises[n]? = some r → tallyHeld s t r.tally = true → ∃ v, exec (.tallyRaise sl n) s = .next v
        ∧ tallyValue v t r.tally = tallyValue s t r.tally + r.amount
        ∧ (∀ o, o ≠ r.tally → tallyValue v t o = tallyValue s t o)
        ∧ (getSlate v t).tallies.raises = listDrop u.raises n
        ∧ (∀ y ∈ u.waiters, y.tally = r.tally → ((tallyValue s t r.tally + r.amount) - y.target).toNat < 2 ^ 47 →
            ⟨y.bead, y.hand, y.tally, y.target, none⟩ ∈ (getSlate v t).tallies.wakes ∧ y ∉ (getSlate v t).tallies.waiters))
    ∧ (slateRuns s t = true → u.raises[n]? = some r → tallyHeld s t r.tally = false → ∃ v, exec (.tallyRaise sl n) s = .next v
        ∧ ∀ o, tallyValue v t o = tallyValue s t o)
    ∧ (BeadUp s hr.br → l.valid = true → l.asked = true → l.read = false → tallyHeld s k p = true →
        (tallyValue s k p - l.target).toNat < 2 ^ 47 → ∃ v, exec (.tallyWaitRequest hr) s = .next v
          ∧ (getSlate v k).tallies.wakes = (getSlate s k).tallies.wakes ++ [⟨hr.br.bead, hr.hand, p, l.target, none⟩]
          ∧ handAt v hr = { x with latch := { l with asked := false } })
    ∧ (BeadUp s hr.br → l.valid = true → l.asked = true → l.read = false → tallyHeld s k p = true →
        2 ^ 47 ≤ (tallyValue s k p - l.target).toNat → ∃ v, exec (.tallyWaitRequest hr) s = .next v
          ∧ (getSlate v k).tallies.waiters = (getSlate s k).tallies.waiters.filter (fun y =>
              !(y.bead == hr.br.bead && y.hand == hr.hand)) ++ [⟨hr.br.bead, hr.hand, p, l.target⟩])
    ∧ (BeadUp s hr.br → l.valid = true → l.asked = true → l.read = true → ∃ v, exec (.tallyWaitRequest hr) s = .next v
        ∧ (getSlate v k).tallies.wakes
          = (getSlate s k).tallies.wakes ++ [⟨hr.br.bead, hr.hand, p, l.target, some (tallyValue s k p)⟩])
    ∧ (BeadUp s hr.br → (getSlate s k).tallies.wakes = w :: ws → w.bead = hr.br.bead → w.hand = hr.hand →
        x.st = .sleeping .twait → wakeMeant l w = true → x.heldFaults = [] →
        ∃ v, exec (.tallyWake hr) s = .next v ∧ (getSlate v k).tallies.wakes = ws
          ∧ handAt v hr
            = { x with st := .running, wake := 0, latch := { l with sat := true, target := w.value.getD l.target } })
    ∧ (BeadUp s hr.br → (getSlate s k).tallies.wakes = w :: ws → w.bead = hr.br.bead → w.hand = hr.hand →
        wakeMeant l w = false → ∃ v, exec (.tallyWake hr) s = .next v ∧ (getSlate v k).tallies.wakes = ws
          ∧ handAt v hr = x)
    ∧ (slateRuns s t = true → tallyBlock s t c.val = some (base, size) → contextBusy s t c.val = false →
        blockNeeded s t c.val = true → ∃ v, exec (.contextLeave sl c) s = .next v ∧ tallyBlock v t c.val = none
          ∧ (∀ o, base ≤ o → o < base + size → tallyValue v t o = 0)
          ∧ (∀ y ∈ (getSlate v t).tallies.waiters, y.tally < base ∨ base + size ≤ y.tally))
    ∧ (BeadUp s hr.br → slumbering b = true → b.regs.slumberLimit ≠ 0 → b.regs.slumberDone = false →
        b.regs.slumberLimit.toNat ≤ b.regs.slumberTicks →
        ∃ v, exec (.slumberEvent hr.br) s = .next v ∧ (beadOf v hr).regs.slumberEvent = true
          ∧ (getSlate v k).watch.slumbers = satInc (getSlate s k).watch.slumbers
          ∧ (∀ h : Fin 4, (handAt v (siblingAt hr h)).st = (handAt s (siblingAt hr h)).st)
          ∧ ∃ e ∈ v.ledger.log, e.cause = 0x09)
    ∧ (slateRuns s t = true → wd.stallCfg.getLsbD 31 = true → wd.fired = false → wd.stallCount ≠ 0 →
        (wd.stallCfg.truncate 24 : BitVec 24) ≤ wd.stallCount → ∃ v, exec (.stallWatchdogFire sl) s = .next v ∧ (getSlate v t).watch.fired = true
          ∧ (∀ o ∈ ruledBeads s t, (getBead v o).regs.intPend.getLsbD intStall = true)
          ∧ (wd.stallCfg.getLsbD 30 = true → (getSlate v t).watch.dumpBusy = true)
          ∧ ∃ e ∈ v.ledger.log, e.cause = 0x0A)
    ∧ (slateRuns s t = true → wd.dumpBusy = true → inHbm wd.dumpBase.toNat = true → mirrorOf s wd.dumpBase.toNat = none →
        ∃ v, exec (.dumpComplete sl) s = .next v ∧ (getSlate v t).watch.dumpBusy = false
          ∧ (getSlate v t).watch.dumpDone = true ∧ v.mem = memWriteN s.mem wd.dumpBase.toNat (dumpArea s t))

/-- R224, R226 to R232: an image written to a frame that is neither active nor shadow is held there and is valid exactly
where its checks find no fault; a ruling load ends in the shadow, or is repeated once; a drained page's switch
closes with the next epoch; close leads to the load phase; segments are copied from HBM; and once all is loaded the
page runs, waits for its start entry, or raises LATE where the stroke is too short. Where the spec leaves a point
open the statement takes the model's reading of logs 36 and 47. -/
def Obligations.PageEvents : Prop :=
  ∀ (s : State) (sl : Fin 4) (frame f : Fin 64) (bringup : Bool) (img : List W8) (j : SlateJob) (n : W16) (p : PageDesc)
    (w : Switch) (g : Seg),
    let t := sl.val
    let x := getSlate s t
    let frameOf (q : PageState) (k : Nat) : Frame := mapGet (fun _ => {}) q.frames k
    let image := img.take 0x10000
    let loads : Prop := x.pg.switch = some w ∧ x.pg.phase = .loading ∧ x.rodShifting = 0
    slateRuns s t = true →
    (x.pg.active ≠ some frame → x.pg.shadow ≠ some frame → ∃ u, exec (.frameWrite sl frame bringup img) s = .next u
        ∧ frameOf (getSlate u t).pg frame.val = { valid := (imageFault s t image bringup).isNone, image := image, bringup := bringup }
        ∧ (∀ k, k ≠ frame.val → frameOf (getSlate u t).pg k = frameOf x.pg k) ∧ u.mem = s.mem ∧ u.beads = s.beads)
    ∧ (x.pg.active = some frame ∨ x.pg.shadow = some frame → exec (.frameWrite sl frame bringup img) s = .next s)
    ∧ (∀ again, x.pg.load = some (f, again) → exec (.rulingLoadDone sl true) s
        = .next (modSlate s t (fun x => { x with
            offline := false, pg := { x.pg with shadow := some f, shadowFrame := f, load := none } })))
    ∧ (x.pg.load = some (f, false) → exec (.rulingLoadDone sl false) s
        = .next (modPage s t (fun p => { p with load := some (f, true) })))
    ∧ (x.pg.phase = .running → x.pg.job = some j → j.page.last = false → j.page.next = some n → pageDrained s t = true →
        choosePage s j.book t n.toNat = some p → rodsFreed s t p = true → ∃ u, exec (.pageDrained sl) s = .next u
          ∧ (getSlate u t).pg.phase = .closing ∧ (getSlate u t).pg.epoch = x.pg.epoch + 1
          ∧ (∃ q, (getSlate u t).pg.switch = some q ∧ q.page = p)
          ∧ (getSlate u t).pg.load = (if x.pg.shadow = some p.frame then none else some (p.frame, false)))
    ∧ (x.pg.phase = .closing → x.pg.switch = none → x.pendingSite = none → x.recovering = false →
        exec (.closeEnd sl) s = .next (modPage s t (fun p => { p with circuitsOff := true, phase := .idle })))
    ∧ (x.pg.phase = .closing → x.pg.switch = some w → x.pendingSite = none → x.recovering = false →
        ∃ u, exec (.closeEnd sl) s = .next u ∧ (getSlate u t).pg.phase = .loading ∧ fabricOn u t = false
          ∧ (getSlate u t).pg.switch = some { w with closed := true })
    ∧ (loads → w.closed = true → w.segsDone = false → blotDone s t (pageImage s t w.page) = true → w.page.segs = [] →
        exec (.segmentLoadDone sl) s = .next (modPage s t (fun p => { p with switch := some { w with segsDone := true } })))
    ∧ (loads → w.closed = true → w.segsDone = false → blotDone s t (pageImage s t w.page) = true → w.page.segs = [g] →
        g.len = 64 → segReady s t g = true → (g.kind = 1 → (getBrush s (6 * t + g.target)).waiting = []) → segRefused s t g = false → parityFind s.parity g.src 64 = none →
        ∃ u, exec (.segmentLoadDone sl) s = .next u ∧ u.mem = memWriteN s.mem (segTarget t g) (loadBytes s g.src 64)
          ∧ (getSlate u t).pg.switch = some { w with segsDone := true })
    ∧ (loads → stepsDone s t = true → strokeFits s t = true → localBars s w.page = true →
        exec (.rulingApply sl) s = .next s)
    ∧ (loads → stepsDone s t = true → strokeFits s t = true → localBars s w.page = false → w.page.evstart = true →
        exec (.rulingApply sl) s = .next (modPage s t (fun p => { p with phase := .ready })))
    ∧ (loads → stepsDone s t = true → strokeFits s t = true → localBars s w.page = false → w.page.evstart = false →
        (applyPage s t w.page).2 = false → ∃ u, exec (.rulingApply sl) s = .next u
          ∧ (getSlate u t).pg.phase = .running ∧ (getSlate u t).pg.page = w.page.number
          ∧ (getSlate u t).pg.active = some w.page.frame ∧ (getSlate u t).pg.switch = none)
    ∧ (loads → stepsDone s t = true → strokeFits s t = false → ∃ u, exec (.rulingApply sl) s = .next u
        ∧ u.stroke.late = true ∧ u.slates = s.slates ∧ u.mem = s.mem)

/-- R219 to R223, R179, R182, R236, R351: a transmit endpoint that its release tally allows sends the bytes of its
window; a beat delivered at a gateway is stored in its window; a beat at an in port is written to the ink buffer at
the pointer, which advances by 64 or returns to its base, or joins the order queue; the end of a shift frees its rod
and ends the recovery. Where the spec leaves a point open the statement takes the model's reading of log 81. -/
def Obligations.FabricEvents : Prop :=
  ∀ (s : State) (sl : Fin 4) (c : Fin 128) (e : CircuitEnt) (beat : Row)
    (rest : List (Row × Option (Nat × Nat))) (rod j : Nat) (sh : Fin 16) (k : BrushRef) (port : Fin 4) (r : Row)
    (q : List Row),
    let t := sl.val
    let x := getCircuit s t c.val
    let on : Prop := activeCircuit s t c.val = some e ∧ fabricOn s t = true
    let src := folioBase (gatewayBead t rod) + (e.sbase + x.sent % Nat.max 64 e.slen)
    let dst := folioBase (gatewayBead t rod) + (e.dbase + x.received % Nat.max 64 e.dlen)
    let kb := brushNo k
    let b := getBrush s kb
    let ip : InPort := mapGet (fun _ => {}) b.inPorts port.val
    let waits : Prop := slateRuns s k.slate.val = true ∧ b.zeroing = false ∧ b.failed = false
      ∧ mapGet (fun _ => []) b.inFlight port.val = (beat, none) :: rest
    (on → tapAt e.src = .gateway rod → released s t e x = true → parityFind s.parity src 64 = none →
        ∃ u, exec (.beatSend sl c) s = .next u ∧ u.mem = s.mem
          ∧ getCircuit u t c.val = { x with sent := x.sent + 64, flight := x.flight ++ [(bytesRow (loadBytes s src 64), none)] })
    ∧ (on → tapAt e.src = .gateway rod → released s t e x = false → exec (.beatSend sl c) s = .next s)
    ∧ (on → tapAt e.src = .brush j → mapGet (fun _ => []) (getBrush s (6 * t + j)).outQ e.tx = r :: q →
        ∃ u, exec (.beatSend sl c) s = .next u ∧ u.mem = s.mem
          ∧ getCircuit u t c.val = { x with sent := x.sent + 64, flight := x.flight ++ [(r, none)] }
          ∧ mapGet (fun _ => []) (getBrush u (6 * t + j)).outQ e.tx = q)
    ∧ (on → x.flight = (beat, none) :: rest → tapAt e.dst = .gateway rod → e.arrival = none →
        ∃ u, exec (.beatDeliver sl c) s = .next u ∧ u.mem = memWriteN s.mem dst (rowBytes beat)
          ∧ getCircuit u t c.val = { x with received := x.received + 64, flight := rest })
    ∧ (waits → fld ip.cfg.toNat 1 0 = 1 → ip.cfg.getLsbD 31 = false → ∃ u, exec (.inPortBeat k port) s = .next u
        ∧ u.mem = memWriteN s.mem (inkBase kb + ip.ptr.toNat % 0x100000) (rowBytes beat)
        ∧ mapGet (fun _ => []) (getBrush u kb).inFlight port.val = rest
        ∧ mapGet (fun _ => {}) (getBrush u kb).inPorts port.val
          = { ip with ptr := if (ip.ptr + 64) &&& 0x1FFFC0 = ip.limit then ip.base else (ip.ptr + 64) &&& 0x1FFFC0 })
    ∧ (waits → fld ip.cfg.toNat 1 0 = 2 → b.queue.length < 16 → ∃ u, exec (.inPortBeat k port) s = .next u
        ∧ u.mem = s.mem ∧ mapGet (fun _ => []) (getBrush u kb).inFlight port.val = rest
        ∧ (getBrush u kb).queue.map (·.words) = b.queue.map (·.words) ++ [bytesWords 16 (rowBytes beat)])
    ∧ (slateRuns s t = true → (getSlate s t).rodShifting.getLsbD sh.val = true → (getSlate s t).pg.load = none →
        s.spine.waits = 0 → ∃ u, exec (.shiftEnd sl sh) s = .next u
          ∧ (getSlate u t).rodShifting.getLsbD sh.val = false ∧ (getSlate u t).recovering = false)

/-- R170, R181 to R191: a waiting reservoir write is performed; the head order completes at once with the status that
its checks gave, waits while its conditions do not hold, or starts and adds its products; a drain forms its beats
and closes its group; an order's completion counts, leaves its record and raises its tally by 1; a brush that fails
is fenced, and its Slate's masks say so; the end of zeroing leaves reservoir and ink buffer zero. Where the spec
leaves a point open the statement takes the model's reading of logs 43 and 68. -/
def Obligations.BrushEvents : Prop :=
  ∀ (s : State) (k : BrushRef) (w : TapWrite) (ws : List TapWrite) (o : QueuedOrder) (os : List QueuedOrder)
    (r : RunningOrder) (rs : List RunningOrder) (v c p : Nat),
    let t := k.slate.val
    let kb := brushNo k
    let b := getBrush s kb
    let crecOf (u : State) (ws : List W32) : W64 := mapGet (fun _ => 0) (getBrush u kb).crec (oTag ws % 16)
    let tick := (getSlate s t).tick
    let head : Prop := brushRuns s kb = true ∧ b.queue = o :: os
    let free (n : Nat) : Nat := (Config.freeValue (s.freeCtr + n)).toNat
    let rows := drainBytes free b r.words
    let beats := (rows.1 ++ if splitScales r.words then [rows.2.1] else []).flatMap beatsOf
    let fenced (u : State) : Prop := (getBrush u kb).failed = true ∧ (getBrush u kb).running = []
      ∧ (getSlate u t).brushFailed.getLsbD k.brush.val = true ∧ (getSlate u t).brushAvail.getLsbD k.brush.val = false
    let fails : Prop := brushRuns s kb = true ∧ (getSlate s t).recovering = false ∧ s.spine.waits = 0
    (brushRuns s kb = true → b.zeroing = false → b.waiting = w :: ws → ∃ u, exec (.reservoirWrite k) s = .next u
        ∧ u.mem = memWriteN s.mem w.pa w.data ∧ (getBrush u kb).waiting = ws)
    ∧ (head → o.status ≠ 0 → ∃ u, exec (.orderStart k) s = .next u ∧ (getBrush u kb).queue = os
        ∧ (getBrush u kb).done = b.done + 1 ∧ crecOf u o.words = crecWord o.words 0 o.status tick ∧ u.mem = s.mem)
    ∧ (head → o.status = 0 → orderTallies s kb o.words = false → ∃ u, exec (.orderStart k) s = .next u
        ∧ (getBrush u kb).queue = os ∧ crecOf u o.words = crecWord o.words 0 0x05 tick)
    ∧ (head → o.status = 0 → orderTallies s kb o.words = true → orderReady s kb o.words = false →
        exec (.orderStart k) s = .next s)
    ∧ (head → o.status = 0 → orderTallies s kb o.words = true → orderReady s kb o.words = true →
        startStatus s kb o.words = 0 → oNoadd o.words = false → startError s kb o.words = none →
        ∃ u, exec (.orderStart k) s = .next u ∧ (getBrush u kb).queue = os
          ∧ (getBrush u kb).running = b.running ++ [{ words := o.words, drains := oDrn o.words }]
          ∧ (getBrush u kb).cells = addOrder s kb o.words
          ∧ (oAcu o.words = false → mapGet (fun _ => {}) (getBrush u kb).groups (oGroup o.words) = ⟨true, false⟩)
          ∧ u.mem = s.mem)
    ∧ (brushRuns s kb = true → b.running = [r] → r.drains = true → r.formed = false → oDink r.words = false →
        drainError b r.words = false → ∃ u, exec (.brushDrain k) s = .next u ∧ (getBrush u kb).outQ = spreadBeats b.outQ (oPorts r.words) beats
          ∧ (getBrush u kb).running = [{ r with formed := true, summary := summaryBits rows.2.2 }]
          ∧ mapGet (fun _ => {}) (getBrush u kb).groups (oGroup r.words) = ⟨false, false⟩
          ∧ (getBrush u kb).cells = b.cells ∧ u.mem = s.mem)
    ∧ (brushRuns s kb = true → b.running = r :: rs → beatsGone b r = true → oCtally r.words = some v → brushCtx b = some c →
        tallyOf s t c v = some p → r.status ≠ 0x09 → ∃ u, exec (.orderComplete k) s = .next u
          ∧ (getBrush u kb).running = rs ∧ (getBrush u kb).done = b.done + 1
          ∧ crecOf u r.words = crecWord r.words r.summary r.status tick
          ∧ (getSlate u t).tallies.raises = (getSlate s t).tallies.raises ++ [⟨p, 1⟩] ∧ u.mem = s.mem)
    ∧ (fails → b.running ≠ [] → b.wdog ≠ 0 → ∃ u, exec (.brushWatchdogExpire k) s = .next u ∧ fenced u)
    ∧ (fails → ∃ u, exec (.brushFail k) s = .next u ∧ fenced u)
    ∧ (MemOk s → slateRuns s t = true → b.zeroing = true → ∃ u, exec (.brushZeroingEnd k) s = .next u
        ∧ (getBrush u kb).zeroing = false
        ∧ ∀ a, memRead u.mem a = if (reservoirBase kb ≤ a ∧ a < reservoirBase kb + 0x1000000)
            ∨ (inkBase kb ≤ a ∧ a < inkBase kb + 0x100000) then 0 else memRead s.mem a)

/-- R13, R207, R208, R228, R327 to R332, R342, R343, R358: a job that names what its function does not own ends; an
accepted job whose waits are over is dispatched to an idle Slate, whose switch to its first page begins; a job moves
to another Slate's queue; the end of the last page stages the outcome of its update list; a job commits in ring
order, a flip taking the other buffer and the next generation; and its completion record is written at the ring's
tail. Where the spec leaves a point open the statement takes the model's reading of logs 79 and 106. -/
def Obligations.JobEvents : Prop :=
  ∀ (s : State) (fn : Fin 16) (seq : BitVec 48) (sl : Fin 4) (e : LEntry) (p : PageDesc) (j : SlateJob) (b : Binding)
    (a : Nat) (d : List W32) (ds : List (List W32)),
    let t := sl.val
    let x := getSlate s t
    let f := getFn s fn.val
    let free : Prop := serving s = true ∧ s.pwr.st = .run ∧ s.pwr.moving = false
    let found (n : BitVec 48) : Prop := findEntry s fn.val n.toNat = some e
    let holds (u : State) (n : BitVec 48) (q : LEntry → Prop) : Prop := ∃ y, findEntry u fn.val n.toNat = some y ∧ q y
    let commits : Prop := serving s = true ∧ found seq ∧ e.ended = true ∧ e.state = .running ∧ earlierDone s e = true
    let record := recordWords e.seq e.status 0 ((e.words.drop 4).take 2) s.ledger.epoch 0 (jobCtx e) e.detail e.commitStamp
    let slot := b.cqBus + BitVec.ofNat 64 (32 * (f.cqTail.toNat % 2 ^ b.cqLog))
    let phased (ws : List W32) : List W32 :=
      listSet ws 1 ((ws[1]?).getD 0 ||| flag (phaseBit f.cqTail.toNat b.cqLog) 31)
    (free → found seq → e.state = .accepted → e.ended = false → entryOwned s e = false →
        ∃ u, exec (.jobDispatch fn seq sl) s = .next u ∧ u.mem = s.mem
          ∧ holds u seq (fun y => y = { e with state := .running, ended := true, status := 0x02, outcome := .none, detail := 0 }))
    ∧ (free → found seq → e.state = .accepted → e.ended = false → entryOwned s e = true → slateCanRun s e t = true →
        slateIdle s t (jobCtx e) = true → jobMayStart s e = true → powerHolds s = false → s.stroke.cfg.getLsbD 28 = false →
        takeBlock s t (jobCtx e) ≠ none → firstOn s e t = some p → ∃ u, exec (.jobDispatch fn seq sl) s = .next u
          ∧ holds u seq (fun y => y.state = .dispatched ∧ y.slate = sl ∧ y.page = p.number ∧ y.dispatchStamp = stampNow s)
          ∧ (∃ j, (getSlate u t).pg.job = some j ∧ j.fn = fn ∧ j.seq = seq ∧ j.ctx.val = jobCtx e ∧ j.book = jobBook e
              ∧ j.page = p)
          ∧ (getSlate u t).pg.phase = .draining ∧ (getSlate u t).pg.switch = some { page := p })
    ∧ (serving s = true → found seq → e.state = .accepted → e.ended = false → e.slate ≠ sl → slateCanRun s e t = true →
        exec (.jobSteal fn seq sl) s = .next (modEntry s fn.val seq.toNat (fun y => { y with slate := sl })))
    ∧ (serving s = true → found seq → e.slate = sl → e.ended = false → slateRuns s t = true → x.pg.job = some j →
        j.fn = fn → j.seq = seq → x.pg.phase = .running → j.page.last = true → pageDrained s t = true →
        ∃ u, exec (.jobEnd fn seq 0) s = .next u ∧ u.mem = s.mem
          ∧ holds u seq (fun y => y.ended = true ∧ y.state = .running ∧ y.outcome = (stageOutcome s e).1
              ∧ y.status = (stageOutcome s e).2)
          ∧ (getSlate u t).pg.phase = .idle ∧ (getSlate u t).pg.job = none)
    ∧ (commits → e.busyHeld = false → ∃ u, exec (.jobCommit fn seq) s = .next u ∧ u.mem = s.mem
        ∧ holds u seq (fun y => y.state = .committed ∧ y.commitStamp = stampNow s)
        ∧ (getFn u fn.val).ring = { f.ring with committed := seq } ∧ u.ledger.commits = satInc s.ledger.commits)
    ∧ (commits → MemOk s → e.busyHeld = true → updateList s e = [a] → e.outcome = .flip → mirrorOf s (a + 8) = none →
        mirrorOf s (a + 0x10) = none → ∃ u, exec (.jobCommit fn seq) s = .next u
          ∧ loadNat u (a + 8) 4 % 4 = (loadNat s (a + 8) 4 + 1) % 2
          ∧ loadNat u (a + 0x10) 6 = (loadNat s (a + 0x10) 6 + 1) % 2 ^ 48
          ∧ holds u seq (fun y => y.state = .committed ∧ y.busyHeld = false))
    ∧ (serving s = true → f.bind = some b → cqRoom f b = true → f.dupOut = [] → found (BitVec.ofNat 48 (f.ring.reported.toNat + 1)) →
        f.ring.reported.toNat + 1 < 2 ^ 48 → e.state = .committed → ∃ u, exec (.completionWrite fn) s = .next u
          ∧ (getFn u fn.val).out = f.out ++ [⟨slot, phased record⟩] ∧ (getFn u fn.val).cqTail = f.cqTail + 1
          ∧ (getFn u fn.val).ring.reported = e.seq
          ∧ holds u e.seq (fun y => y.state = .reported ∧ y.record = some f.cqTail))
    ∧ (serving s = true → f.bind = some b → cqRoom f b = true → f.dupOut = d :: ds →
        ∃ u, exec (.completionWrite fn) s = .next u ∧ (getFn u fn.val).out = f.out ++ [⟨slot, phased d⟩]
          ∧ (getFn u fn.val).cqTail = f.cqTail + 1 ∧ (getFn u fn.val).dupOut = ds)

/-- R274 to R278, R286, R288: the pin edge waits for the marker block, and in local operation is enough; one within WINDOW of
its prediction keeps the unit Locked, the sixteenth in a row locks it, a far one slips it, or is passed over for a link edge
within WINDOW where SRC = 2, and one in Free leads to Acquiring; a marker block sets the stroke's length, is answered with
an echo and relayed, and one with a wrong CRC is ignored; a stroke's end raises the count, returns the phase to 0 and
latches every Slate's tick; a stroke without a marker goes on in Flywheel until FLYMAX, then in Free. Where the spec
leaves a point open the statement takes the model's reading of logs 90, 91 and 92. -/
def Obligations.StrokeUnitEvents : Prop :=
  ∀ (s : State) (err link : Int) (port q : Fin 12) (m : Marker) (n : BitVec 40),
    let x := s.stroke
    let e := err + 16 * (s.aux.pinAdj.toNat : Int)
    let near (e : Int) : Prop := e.natAbs ≤ 16 * cfgWindow s
    let fresh : Prop := booted s = true ∧ cfgEn s = true ∧ x.marked = false ∧ x.pinErr = none
    let edge : Prop := fresh ∧ cfgLocal s = false ∧ cfgSrc s ≠ 1
    let came : Stroke := { x with pinErr := some e, marked := true }
    let silent : Prop := booted s = true ∧ cfgEn s = true ∧ x.marked = false
      ∧ ((x.block = none ∧ cfgLocal s = false) ∨ (x.pinErr = none ∧ (cfgLocal s = true ∨ cfgSrc s = 0)))
    let block : Prop := booted s = true ∧ (getPort s port.val).cfg.getLsbD 0 = true
    let ctlOf (u : State) (n : Nat) : List CtlBlock := (getPort u n).ctl
    let age (n : Nat) : Int := 16 * ((m.age.toNat + (getPort s n).delay.toNat : Nat) : Int)
    (edge → x.block = none → exec (.strokePinEdge err) s = .next { s with stroke := { x with pinErr := some e } })
    ∧ (edge → x.block = some (link, x.count) → near e → x.st = .locked ∨ x.st = .flywheel →
        ∃ u, exec (.strokePinEdge err) s = .next u ∧ u.stroke = { came with st := .locked, fly := 0 })
    ∧ (fresh → cfgLocal s = true → near e → x.st = .locked ∨ x.st = .flywheel →
        ∃ u, exec (.strokePinEdge err) s = .next u ∧ u.stroke = { came with st := .locked, fly := 0 })
    ∧ (edge → x.block = some (link, n) → x.st = .locked → ¬ near e → cfgSrc s = 0 →
        ∃ u, exec (.strokePinEdge err) s = .next u ∧ u.stroke.slip = true
          ∧ u.stroke.count = n ∧ u.stroke.st = .locked ∧ u.stroke.marked = true)
    ∧ (edge → x.block = some (link, x.count) → x.st = .locked → ¬ near e → cfgSrc s = 2 → near link →
        ∃ u, exec (.strokePinEdge err) s = .next u ∧ u.stroke = { came with fly := 0 })
    ∧ (edge → x.block = some (link, x.count) → x.st = .acquiring → near e →
        ∃ u, exec (.strokePinEdge err) s = .next u ∧ u.stroke.run = x.run + 1
          ∧ u.stroke.st = if 16 ≤ x.run + 1 then .locked else .acquiring)
    ∧ (edge → x.block = some (link, n) → x.st = .free → cfgSrc s = 0 → exec (.strokePinEdge err) s
        = .next { s with stroke := { came with st := .acquiring, run := 0, fly := 0 } })
    ∧ (block → exec (.markerBlock port false err m) s = .next s)
    ∧ (block → port.val = cfgLport s → cfgEn s = true → cfgLocal s = false → cfgSrc s = 1 → x.st = .locked →
        x.marked = false → x.synth = false → near (err - age port.val) →
        m.stroke = x.count → x.phase.toNat + 64 ≤ m.len.toNat → m.void = false → m.hold = false → m.replay = false →
        ∃ u, exec (.markerBlock port true err m) s = .next u ∧ u.stroke.len = m.len ∧ u.stroke.count = m.stroke
          ∧ u.stroke.st = .locked ∧ u.stroke.marked = true ∧ u.mem = s.mem
          ∧ ((getPort s q.val).cfg.getLsbD 0 = true → (getPort s q.val).cfg.getLsbD 3 = true →
              ∃ e, CtlBlock.ownEcho e ∈ ctlOf u q.val ∧ e.stroke = m.stroke ∧ e.devnum = s.aux.devnum
                ∧ e.lreq.toNat = strokeLreq s % 2 ^ 24))
    ∧ (block → port.val = cfgLport s → cfgEn s = true → cfgLocal s = false → m.stroke = x.count →
        m.len.toNat < x.phase.toNat + 64 → exec (.markerBlock port true err m) s = .next s)
    ∧ (block → port.val ≠ cfgLport s → (getPort s q.val).cfg.getLsbD 0 = true →
        (getPort s q.val).cfg.getLsbD 2 = true → ∃ u, exec (.markerBlock port true err m) s = .next u
          ∧ u.stroke = x ∧ ctlOf u q.val = queueCtl (ctlOf s q.val) (.marker { m with
              hops := m.hops + 1, age := m.age + (getPort s (cfgLport s)).delay.zeroExtend 24 } (getSlate s (q.val / 3)).tick))
    ∧ (deviceUp s = true → x.len.toNat ≤ x.phase.toNat + 1 → ∃ u, exec .strokeEnd s = .next u
        ∧ u.stroke.count = x.count + 1 ∧ u.stroke.phase = 0 ∧ u.stroke.marked = false
        ∧ u.stroke.len = x.lenNext.getD x.len ∧ u.stroke.lenNext = none ∧ u.mem = s.mem
        ∧ ∀ t < 4, slatePresent s t = true → mapGet (fun _ => 0) u.aux.edges t = (getSlate s t).tick)
    ∧ (x.phase.toNat + 1 < x.len.toNat → exec .strokeEnd s = .next s)
    ∧ (silent → x.st = .locked ∨ x.st = .flywheel → x.fly + 1 ≤ cfgFlymax s → exec .syntheticStroke s
        = .next { s with stroke := { x with marked := true, synth := true, flyNow := true, st := .flywheel,
                                            fly := x.fly + 1 } })
    ∧ (silent → x.st = .flywheel → cfgFlymax s < x.fly + 1 → ∃ u, exec .syntheticStroke s = .next u
        ∧ u.stroke.st = .free ∧ u.stroke.loss = true)
    ∧ (silent → x.st = .acquiring → exec .syntheticStroke s
        = .next { s with stroke := { x with marked := true, synth := true, flyNow := true, run := 0 } })
    ∧ (edge → cfgSrc s = 2 → x.block = some (link, x.count) → near link → x.st = .locked →
        ∃ u, exec .syntheticStroke s = .next u ∧ u.stroke = { x with marked := true, fly := 0 })

/-- R280 to R284, R299 to R301: an entry that fires starts the page that waits in phase ready, or raises LATE where none
does; raises a tally of its page's context by its amount; opens a receive or a send window whose port and direction
are free, and raises MISS or LATE where they are not; sets EVENT in a bead's BEAD_INT_PEND. One whose effect lies
beyond the stroke raises LATE. A window that ends short of its flits raises MISS or LATE as it closes. Where the
spec leaves a point open the statement takes the model's reading of log 94. -/
def Obligations.EntryEvents : Prop :=
  ∀ (s : State) (e : Fin 256) (sl : Fin 4) (w : Switch) (c p : Nat) (win : Fin 64),
    let t := sl.val
    let at_ := fld (evWord s e.val 0) 23 0 + 8
    let due (kind : Nat) : Prop := entryOwner s e.val = some t ∧ entryFires s e.val kind t = true ∧ at_ ≤ s.stroke.phase.toNat
      ∧ at_ < s.stroke.len.toNat
    let x := (getSlate s t).pg
    let n := fld (evWord s e.val 2) 15 8
    let v := getWindow s t n
    let port := getPort s (wPort v)
    let opens (kind : Nat) : Prop := due kind ∧ wValid v = true ∧ wPort v ∈ slatePorts t
    let i := 256 * t + fld (evWord s e.val 3) 7 0
    let done : State := { s with aux := { s.aux with fired := e.val :: s.aux.fired } }
    let opened (u : State) : Prop := getWindow u t n = { v with isOpen := true, flits := 0, closesAt := s.stroke.phase.toNat + wLen v }
      ∧ (wSend v = true → (getPort u (wPort v)).sendOpen.isSome = true ∧ (getPort u (wPort v)).recvOpen = port.recvOpen)
      ∧ (wSend v = false → (getPort u (wPort v)).recvOpen.isSome = true ∧ (getPort u (wPort v)).sendOpen = port.sendOpen)
    let turnedAway (u : State) : Prop := u.ports = s.ports ∧ u.slates = s.slates
      ∧ (if wSend v then u.stroke.late = true else u.stroke.miss = true)
    let y := getWindow s t win.val
    let closes : Prop := deviceUp s = true ∧ y.isOpen = true ∧ y.closesAt ≤ s.stroke.phase.toNat
    (due 1 → x.phase = .ready → x.switch = some w → w.replayAt = none → localBars s w.page = false →
        w.page.number.toNat = fld (evWord s e.val 3) 15 0 → (applyPage done t w.page).2 = false →
        ∃ u, exec (.startAPage e) s = .next u ∧ (getSlate u t).pg.phase = .running
          ∧ (getSlate u t).pg.page = w.page.number ∧ (getSlate u t).pg.switch = none)
    ∧ (due 1 → x.phase ≠ .ready → (∀ w, x.switch = some w → w.replayAt = none) →
        ∃ u, exec (.startAPage e) s = .next u ∧ u.stroke.late = true ∧ u.slates = s.slates)
    ∧ (due 2 → pageCtx s t = some c → tallyOf s t c (fld (evWord s e.val 2) 25 16) = some p →
        ∃ u, exec (.releaseATally e) s = .next u
          ∧ tallyValue u t p = tallyValue s t p + BitVec.ofNat 48 (evWord s e.val 3)
          ∧ (∀ q, q ≠ p → tallyValue u t q = tallyValue s t q) ∧ u.aux = done.aux)
    ∧ (opens 3 → (if wSend v then port.sendOpen else port.recvOpen) = none →
        ∃ u, exec (.openASlotWindow e) s = .next u ∧ opened u)
    ∧ (opens 3 → (if wSend v then port.sendOpen else port.recvOpen) ≠ none →
        ∃ u, exec (.openASlotWindow e) s = .next u ∧ turnedAway u)
    ∧ (opens 4 → (if wSend v then port.sendOpen else port.recvOpen) = none →
        ∃ u, exec (.sendADuctusTransfer e) s = .next u ∧ opened u)
    ∧ (opens 4 → (if wSend v then port.sendOpen else port.recvOpen) ≠ none →
        ∃ u, exec (.sendADuctusTransfer e) s = .next u ∧ turnedAway u)
    ∧ (wValid v = false → (due 3 → exec (.openASlotWindow e) s = .next done)
        ∧ (due 4 → exec (.sendADuctusTransfer e) s = .next done))
    ∧ (due 5 → beadExists s i = true → (getBead s i).held = false → (getHand s i 0).heldFaults = [] → (getBead s i).core.lockup.getLsbD 0 = false →
        ∃ u, exec (.raiseAnInterrupt e) s = .next u ∧ (getBead u i).regs.intPend = (getBead s i).regs.intPend ||| 16)
    ∧ (entryOwner s e.val = some t → entryFires s e.val 5 t = true → s.stroke.len.toNat ≤ at_ →
        ∃ u, exec (.raiseAnInterrupt e) s = .next u ∧ u.stroke.late = true ∧ u.beads = s.beads)
    ∧ (closes → wFlits y ≤ y.flits → ∃ u, exec (.windowClose sl win) s = .next u
        ∧ getWindow u t win.val = { y with isOpen := false } ∧ u.stroke = s.stroke)
    ∧ (closes → y.flits < wFlits y → ∃ u, exec (.windowClose sl win) s = .next u
        ∧ getWindow u t win.val = { y with isOpen := false }
        ∧ (if wSend y then u.stroke.late = true else u.stroke.miss = true))

/-- R286 to R288, R292 to R294, R297 to R300, R336: a forwarded flit, or the next flit of an open send window, leaves; a
flit that arrives is delivered, forwarded, or counted in DROP; an aligned link holds 16 credits and ranges with 16
requests, whose median answer sets DELAY; a failed lane is reported and spared, a second one takes the port down; an
echo is relayed; management packets are acknowledged, delivered or acted on, sent again up to three times, and
credits are returned. Where the spec leaves a point open the statement takes the model's reading of logs 96, 97 and
98. -/
def Obligations.DuctusEvents : Prop :=
  ∀ (s : State) (port q : Fin 12) (f : List Row) (fs : List (List Row)) (t : Fin 4) (w : Fin 64) (data : List Row)
    (pkt : MgmtPacket) (m : SentPacket) (seq : W16) (n : BitVec 5) (acks : List MgmtAck) (echo : Echo) (k : BitVec 4)
    (t1 t2 t3 t4 : W64) (lane : Fin 5) (err : Bool),
    let p := port.val
    let x := getPort s p
    let win := getWindow s t.val w.val
    let st := wStream win win.flits
    let buf : List Row := mapGet (fun _ => []) x.sendBuf st
    let deliv : List (Row × Option (Nat × Nat)) := mapGet (fun _ => []) x.delivBuf st
    let beats := (List.range 4).map (fun k => (data[k]?).getD 0)
    let ack : MgmtAck := ⟨pkt.source, pkt.seq⟩
    let served : Prop := serving s = true ∧ portUp s p = true
    let aligned : Prop := portHere s p = true ∧ x.aligned = true
    let d := ((t4 - t1) - (t3 - t2)).toNat / 2
    let even : Prop := ((t4 - t1) - (t3 - t2)).toNat % 2 = 0
    let calm : Prop := s.spine.waits = 0
    let down (u : State) : Prop := (getPort u p).failed = true ∧ (getPort u p).up = false ∧ u.spine.portFailed.getLsbD p = true
    let ranges (y : Port) : Prop := y.up = false ∧ y.delayValid = false ∧ y.measures = [] ∧ y.ranging = []
      ∧ ∀ k < 16, CtlBlock.rangeReq (BitVec.ofNat 4 k) 0 ∈ y.ctl
    (portUp s p = true → x.fwdq = f :: fs →
        exec (.flitSend port) s = .next (putPort s p { x with fwdq := fs, tx := x.tx ++ [f] }))
    ∧ (portUp s p = true → x.fwdq = [] → x.sendOpen = some (t, w) → win.flits < wFlits win → 4 ≤ buf.length →
        ∃ u, exec (.flitSend port) s = .next u ∧ (getPort u p).tx = x.tx ++ [buf.take 4]
          ∧ mapGet (fun _ => []) (getPort u p).sendBuf st = buf.drop 4
          ∧ getWindow u t.val w.val = { win with flits := win.flits + 1 })
    ∧ (portUp s p = true → exec (.flitReceive port .uncorrectable data) s
        = .next (putPort s p { x with uncorr := satInc x.uncorr, drop := satAdd x.drop 1 }))
    ∧ (portUp s p = true → x.recvOpen = none → exec (.flitReceive port .clean data) s
        = .next (putPort s p { x with drop := satAdd x.drop 1 }))
    ∧ (portUp s p = true → x.recvOpen = none → exec (.flitReceive port .corrected data) s
        = .next (putPort s p { x with corr := satInc x.corr, drop := satAdd x.drop 1 }))
    ∧ (portUp s p = true → x.recvOpen = some (t, w) → win.flits < wFlits win → wDlv win = true → wFwd win = false →
        deliv.length + 4 ≤ 32 → ∃ u, exec (.flitReceive port .clean data) s = .next u
          ∧ getWindow u t.val w.val = { win with flits := win.flits + 1 }
          ∧ (mapGet (fun _ => []) (getPort u p).delivBuf st).map (·.1) = deliv.map (·.1) ++ beats
          ∧ (getPort u p).drop = x.drop)
    ∧ (portUp s p = true → x.recvOpen = some (t, w) → win.flits < wFlits win → wDlv win = false → wFwd win = true →
        wFwdPort win = q.val → (getPort s q.val).fwdq.length < 8 → ∃ u, exec (.flitReceive port .clean data) s = .next u
          ∧ getWindow u t.val w.val = { win with flits := win.flits + 1 }
          ∧ (getPort u q.val).fwdq = (getPort s q.val).fwdq ++ [beats])
    ∧ (served → pkt.crcOk = true → x.seen = [] → pkt.dest = s.aux.devnum → pkt.type = 0 →
        ∃ u, exec (.managementPacket port pkt) s = .next u ∧ u.spine.mctpIn = s.spine.mctpIn ++ [pkt.content.take 240]
          ∧ (getPort u p).ctl = queueCtl x.ctl (.credit 1 [ack]) ∧ (getPort u p).seen = [(ack, portTick s p)])
    ∧ (served → pkt.crcOk = true → x.seen = [(ack, portTick s p)] → ∃ u, exec (.managementPacket port pkt) s = .next u
        ∧ u.spine = s.spine ∧ u.stroke = s.stroke ∧ (getPort u p).ctl = queueCtl x.ctl (.credit 1 [ack]))
    ∧ (served → pkt.crcOk = true → x.seen = [] → pkt.dest = s.aux.devnum → pkt.type = 1 → pkt.source = s.aux.masterDev →
        ∃ u, exec (.managementPacket port pkt) s = .next u ∧ u.stroke.st = .fenced)
    ∧ (served → pkt.crcOk = false → ∃ u, exec (.managementPacket port pkt) s = .next u ∧ u.spine = s.spine
        ∧ u.ledger.logIndex = s.ledger.logIndex + 1 ∧ (getPort u p).ctl = queueCtl x.ctl (.credit 1 []))
    ∧ (serving s = true → x.sent = [m] → m.pkt.seq = seq → m.resends < 3 →
        ∃ u, exec (.managementResendTimeout port seq) s = .next u
          ∧ (getPort u p).sent = [{ m with resends := m.resends + 1 }]
          ∧ (getPort u p).mgmtTx ++ (getPort u p).mgmtQ = x.mgmtTx ++ x.mgmtQ ++ [m.pkt])
    ∧ (serving s = true → x.sent = [m] → m.pkt.seq = seq → 3 ≤ m.resends →
        exec (.managementResendTimeout port seq) s = .next (putPort s p { x with sent := [] }))
    ∧ (aligned → x.mgmtQ = [] → ∃ u, exec (.managementCreditBlock ⟨port, true⟩ n acks) s = .next u
        ∧ (getPort u p).credits = Nat.min 16 (x.credits + n.toNat)
        ∧ (∀ m, m ∈ (getPort u p).sent ↔ m ∈ x.sent ∧ ∀ a ∈ acks.take 8, ¬ (a.source = m.pkt.source ∧ a.seq = m.pkt.seq)))
    ∧ (booted s = true → x.cfg.getLsbD 0 = true → x.cfg.getLsbD 2 = true → (getPort s q.val).cfg.getLsbD 0 = true →
        (getPort s q.val).cfg.getLsbD 3 = true → ∃ u, exec (.echoRelay ⟨port, true⟩ echo) s = .next u
          ∧ (getPort u q.val).ctl = queueCtl (getPort s q.val).ctl (.echo echo))
    ∧ (aligned → exec (.rangingRequest ⟨port, true⟩ k t1) s
        = .next (putPort s p { x with ctl := queueCtl x.ctl (.rangeAns k t1 (portTick s p) 0) }))
    ∧ (aligned → mapFind x.ranging k.toNat ≠ none → even → x.measures.length < 15 →
        exec (.rangingAnswer ⟨port, true⟩ k t1 t2 t3 t4) s
          = .next (putPort s p { x with ranging := mapDrop x.ranging k.toNat, measures := d :: x.measures }))
    ∧ (aligned → mapFind x.ranging k.toNat ≠ none → even → x.measures = List.replicate 15 d → calm →
        ∃ u, exec (.rangingAnswer ⟨port, true⟩ k t1 t2 t3 t4) s = .next u ∧ (getPort u p).delay = BitVec.ofNat 16 d
          ∧ (getPort u p).delayValid = true ∧ (getPort u p).up = (!x.failed && x.sparing.isNone)
          ∧ (getPort u p).recovering = false)
    ∧ (aligned → mapFind x.ranging k.toNat ≠ none → exec (.rangingTimeout port k) s = .next (putPort s p { x with
        ctl := x.ctl ++ [.rangeReq k 0] }))
    ∧ (aligned → x.failed = false → x.laneFail = 0 → lane ≠ 4 → x.recovering = false →
        ∃ u, exec (.laneFailure port lane err) s = .next u ∧ u.stroke.recovering = true
          ∧ getPort u p = { x with laneFail := BitVec.ofNat 5 (2 ^ lane.val), up := false, spareSeq := x.spareSeq + 1,
                                   recovering := true, sparing := some (lane, err, x.spareSeq + 1) })
    ∧ (aligned → x.failed = false → x.laneFail ≠ 0 → x.laneFail.getLsbD lane.val = false → calm →
        ∃ u, exec (.laneFailure port lane err) s = .next u ∧ down u)
    ∧ (aligned → x.ackedSpare = none → secondLane x lane = true → calm →
        ∃ u, exec (.sparingBlock ⟨port, true⟩ lane err seq) s = .next u ∧ down u)
    ∧ (aligned → x.ackedSpare = none → secondLane x lane = false →
        ∃ u, exec (.sparingBlock ⟨port, true⟩ lane err seq) s = .next u
        ∧ (getPort u p).spared = BitVec.ofNat 3 lane.val ∧ CtlBlock.sparingAck lane seq ∈ (getPort u p).ctl
        ∧ ranges (getPort u p))
    ∧ (portHere s p = true → x.sparing = some (lane, err, seq) → ∃ u, exec (.sparingAck ⟨port, true⟩ lane seq) s = .next u
        ∧ (getPort u p).spared = BitVec.ofNat 3 lane.val ∧ (getPort u p).sparing = none ∧ ranges (getPort u p))
    ∧ (portHere s p = true → x.cfg.getLsbD 0 = true → x.failed = false → x.aligned = false →
        ∃ u, exec (.linkAlignment port) s = .next u ∧ (getPort u p).aligned = true ∧ (getPort u p).credits = 16
          ∧ ranges (getPort u p))

/-- R346, R350 to R356, R236: a Slate that slips, misses its heartbeat or fails its checker is failed; a bead whose
check wire rises is held while its site is shifted, or the page ends first; a failed stack is marked; re-mirroring
ends; a Scribe that stops is held in reset and rebooted by the other, which takes over, and rejoins as standby once
it passes; with none left the device is Orphan; a failed ledger engine's work goes to firmware. Where the spec
leaves a point open the statement takes the model's reading of logs 99 and 104. -/
def Obligations.RecoveryEvents : Prop :=
  ∀ (s : State) (sl : Fin 4) (rod : Fin 16) (site : Fin 17) (k : Fin 8) (b : Bool) (pos : Nat),
    let t := sl.val
    let i := 256 * t + 16 * rod.val + pos
    let x := getSlate s t
    let failed (u : State) : Prop := (getSlate u t).failed = true ∧ u.spine.slateFailed.getLsbD t = true
      ∧ (getSlate u t).inReset = true
    let marked (u : State) : Prop := mapGet (fun _ => 0) (getSlate u t).rodFailed rod.val
      = rodFailed s t rod.val ||| BitVec.ofNat 17 (2 ^ site.val)
    (slateUp s t = true → ∃ u, exec (.clockSlip sl) s = .next u ∧ failed u)
    ∧ (slateUp s t = true → ∃ u, exec (.slateHeartbeatMissing sl) s = .next u ∧ failed u)
    ∧ (slateUp s t = true → ∃ u, exec (.slateCheckerMismatch sl) s = .next u ∧ failed u)
    ∧ (slateRuns s t = true → (rodFailed s t rod.val).getLsbD site.val = false → posOf s t rod.val site.val = some pos →
        pos < 16 → (getBead s i).held = false → x.recovering = false → x.pg.phase = .idle →
        ∃ u, exec (.beadCheckWire sl rod site .check) s = .next u ∧ marked u ∧ (getSlate u t).recovering = true
          ∧ (getBead u i).held = true ∧ (getSlate u t).rodShifting.getLsbD rod.val = true)
    ∧ (slateRuns s t = true → (rodFailed s t rod.val).getLsbD site.val = false → posOf s t rod.val site.val = some pos →
        pos < 16 → (getBead s i).held = false → x.recovering = false → x.pg.phase = .running →
        ∃ u, exec (.beadCheckWire sl rod site .check) s = .next u ∧ (getSlate u t).pendingSite = some (rod, site)
          ∧ (getSlate u t).recovering = true ∧ (getBead u i).held = true ∧ (getSlate u t).pg.phase = .aborting)
    ∧ (booted s = true → stackWorks s k.val = true → ∃ u, exec (.stackFailure k) s = .next u
        ∧ u.spine.stackFailed = s.spine.stackFailed ||| BitVec.ofNat 8 (2 ^ k.val))
    ∧ (s.spine.exposed = true → s.pins.rails = true → s.pins.inReset = false →
        ∃ u, exec .remirrorDone s = .next u ∧ u.spine.exposed = exposedNow u)
    ∧ (s.spine.exposed = false → exec .remirrorDone s = .next s)
    ∧ (booted s = true → scribeOf s b = .running → scribeOf s (!b) = .running → s.spine.primaryB = b →
        s.spine.failovers ≠ 0xFFFF → ∃ u, exec (.scribeWatchdogExpire b) s = .next u ∧ scribeOf u b = .rebooting
          ∧ scribeOf u (!b) = .running ∧ u.spine.primaryB = (!b) ∧ u.spine.failovers = s.spine.failovers + 1)
    ∧ (booted s = true → scribeOf s b = .running → scribeOf s (!b) = .running → s.spine.primaryB = !b →
        ∃ u, exec (.scribeWatchdogExpire b) s = .next u ∧ scribeOf u b = .rebooting ∧ u.spine.primaryB = (!b)
          ∧ u.spine.failovers = s.spine.failovers)
    ∧ (booted s = true → scribeOf s b = .running → scribeOf s (!b) ≠ .running →
        ∃ u, exec (.scribeWatchdogExpire b) s = .next u ∧ scribeOf u b = .failed ∧ u.spine.orphan = true
          ∧ u.pins.alertN = false)
    ∧ (serving s = true → scribeOf s b = .rebooting → ∃ u, exec (.scribeRebootDone b true) s = .next u
        ∧ scribeOf u b = .running ∧ u.spine.primaryB = s.spine.primaryB)
    ∧ (serving s = true → scribeOf s b = .rebooting →
        exec (.scribeRebootDone b false) s = .next (setScribe s b .failed))
    ∧ (booted s = true → s.ledger.soft = false → ∃ u, exec .ledgerEngineFailure s = .next u ∧ u.ledger.soft = true)

/-- R318 to R320, R322, R359: a request to a BUSY well is discarded and sets OVERRUN, and one with an unknown VERSION
answers BAD_OPCODE, both for every command of the table of opcodes; IDENTIFY, CAPABILITY, LEDGER_QUERY and
ERRLOG_READ answer with what the device holds and change nothing else. Where the spec leaves a point open the
statement takes the model's reading of log 121. -/
def Obligations.WellReports : Prop :=
  ∀ (s : State) (q : CmdReq) (c : Instr) (op : Nat) (e : LEntry),
    let f := q.fn
    let x := getFn s f.val
    let l := s.ledger
    let base := l.fwBase * 0x200000
    let owned (o : Option (Fin 16)) : Nat := ((List.range 64).filter (fun c => (getCtx s c).owner = o)).length
    let still (u : State) : Prop := u.mem = s.mem ∧ u.ledger = s.ledger ∧ u.ctxs = s.ctxs ∧ u.slates = s.slates
    let first := BitVec.ofNat 32 (arg q 0)
    let recs := (l.log.filter (fun r => (r.index - first).toNat < (l.logIndex - first).toNat)).take (arg q 1)
    (IsWellCommand q c op → wellDeaf s = false → x.busy = true →
        exec c s = .next (modFn s f.val (fun x => { x with overrun := true })))
    ∧ (IsWellCommand q c op → wellDeaf s = false → x.busy = false → q.version ≠ 1 →
        ∃ u, exec c s = .next u ∧ Answered u f op q.tag { status := 1 } ∧ still u)
    ∧ (WellFits s q → argsBad q [] = false → ∃ u, exec (.identify q) s = .next u ∧ still u
        ∧ Answered u f 0x01 q.tag ⟨0, 0, bytesWords 4 (partName s)
          ++ [pack [(debugLevel s, 20), (lifeCode s.sec.lifecycle, 16), (f.val, 8), (s.spine.presence.toNat, 0)],
            l.epoch.zeroExtend 32, flag s.sec.imageB 0, s.sec.version, BitVec.ofNat 32 base,
            BitVec.ofNat 32 (base / 2 ^ 32), BitVec.ofNat 32 l.fwPages]⟩)
    ∧ (WellFits s q → argsBad q [] = false → ∃ u, exec (.capability q) s = .next u ∧ still u
        ∧ Answered u f 0x02 q.tag ⟨0, 0,
          [pack [(owned (some f), 16), (owned none, 0)],
            pack ((List.range 4).map (fun t => ((freeFrames s t).length, 8 * t)))]
          ++ (List.range 4).map (fun t => BitVec.ofNat 32 (freePages s t)) ++ [128, 4096, BitVec.ofNat 32 x.bar2Log]⟩)
    ∧ (WellFits s q → argsBad q [whole, hi48] = false → findEntry s f.val (arg48 q 0) = some e →
        ∃ u, exec (.ledgerQuery q) s = .next u ∧ still u
          ∧ Answered u f 0x51 q.tag ⟨0, 0, [pack [(e.status.toNat, 8), (lstateCode e.state, 0)], 0]
            ++ ticketOf s e.seq ++ seqWords x.ring.accepted ++ seqWords x.ring.committed ++ seqWords x.ring.reported⟩)
    ∧ (WellFits s q → argsBad q [whole, hi48] = false → findEntry s f.val (arg48 q 0) = none →
        ∃ u, exec (.ledgerQuery q) s = .next u ∧ still u ∧ Answered u f 0x51 q.tag { status := 6 })
    ∧ (WellFits s q → argsBad q [whole, whole] = false → f = 0 → 1 ≤ arg q 1 → arg q 1 ≤ 7 →
        (l.logIndex - first).toNat < 2 ^ 31 → recs.length < arg q 1 → ∃ u, exec (.errlogRead q) s = .next u ∧ still u
          ∧ Answered u f 0xC0 q.tag ⟨0, 0, [l.logIndex, BitVec.ofNat 32 recs.length, 0, 0] ++ recs.flatMap logWords⟩)

/-- R313 to R316, R322, R323, R325, R326, R330, R334, R375, R384: CTX_CREATE takes the lowest free context, CTX_ATTR
sets its bits, and CTX_DESTROY frees it unless jobs name it; MAP of an HBM page takes a zeroed page, MAP of a folio
names it, and UNMAP removes the pages; BOOK_LOAD of a sound image makes a book and of a faulty one changes nothing;
BOOK_UNLOAD removes it; RING_BIND and RING_UNBIND bind and unbind the rings; CANCEL ends an accepted job. Where the
spec leaves a point open the statement takes the model's reading of logs 119, 120, 124, 125 and 126. -/
def Obligations.WellContexts : Prop :=
  ∀ (s s' : State) (q : CmdReq) (c p t : Nat) (e : LEntry) (b : Book) (img : List W8) (x : Loaded) (fault : BookFault),
    let f := q.fn
    let a := arg q 0
    let n := fld a 5 0
    let vp := arg48 q 2 / 0x200000
    let owns : Prop := WellFits s q ∧ (getCtx s n).owner = some f
    let pageOf (u : State) (v : Nat) : Option PageEnt := mapFind (getCtx u n).pages v
    let maps (kind : Fin 3) (dev : Nat) : PageEnt :=
      { r := bitAt a 16, w := bitAt a 17, cache := bitAt a 18, guard := false, kind := kind, dev := dev }
    let mapArgs : Prop := argsBad q [0x0F0F073F, 0, whole, hi48, whole, 0, whole, hi48] = false ∧ bitAt a 19 = false
      ∧ arg48 q 2 % 0x200000 = 0 ∧ arg q 4 = 1 ∧ vp < 2 ^ 27 ∧ ∀ e ∈ (getCtx s n).pages, e.1 ≠ vp
    let order := (List.range 4).filter (bitAt (fld a 27 24)) ++ (List.range 4).filter (fun t => !bitAt (fld a 27 24) t)
    let s0 := taken s 0x30 q
    let loads : Prop := owns ∧ argsBad q [0x10F3F, 0, whole, hi48, whole] = false ∧ (List.range 4).filter (bitAt (fld a 11 8)) = [t]
      ∧ slatePresent s t = true ∧ bitAt a 16 = false ∧ s.pwr.st = .run ∧ (getSlate s t).failed = false
      ∧ (getSlate s t).inReset = false ∧ ctxBytes s0 n (arg48 q 2) (arg q 4) = some img
    let size (h l : Nat) : Nat := fld a h l
    let sound (m : Nat) : Prop := 4 ≤ m ∧ m ≤ 12
    let r := (getFn s f.val).ring
    (WellFits s q → argsBad q [0x1F] = false → fld a 4 2 ≤ 4 →
        (List.range 64).find? (fun c => (getCtx s c).owner.isNone) = some c → ∃ u, exec (.ctxCreate q) s = .next u
          ∧ getCtx u c = { owner := some f, q := BitVec.ofNat 3 (fld a 4 2), dbgen := bitAt a 1 }
          ∧ (bitAt a 0 = true → ((getFn u f.val).aperture.map (·.val)) = some c)
          ∧ Answered u f 0x10 q.tag { payload := [BitVec.ofNat 32 c] })
    ∧ (WellFits s q → argsBad q [0x1F] = false → fld a 4 2 ≤ 4 → (∀ c < 64, (getCtx s c).owner ≠ none) →
        ∃ u, exec (.ctxCreate q) s = .next u ∧ u.ctxs = s.ctxs ∧ Answered u f 0x10 q.tag { status := 4 })
    ∧ (owns → argsBad q [0x13F] = false → bitAt a 8 = false → ctxJobs s n = [] → ∃ u, exec (.ctxDestroy q) s = .next u
        ∧ (getCtx u n).owner = none ∧ (getCtx u n).pages = [] ∧ Answered u f 0x11 q.tag {})
    ∧ (owns → argsBad q [0x13F] = false → bitAt a 8 = false → ctxJobs s n ≠ [] → ∃ u, exec (.ctxDestroy q) s = .next u
        ∧ u.ctxs = s.ctxs ∧ u.mem = s.mem ∧ Answered u f 0x11 q.tag { status := 5 })
    ∧ (owns → argsBad q [0x33F] = false → ∃ u, exec (.ctxAttr q) s = .next u
        ∧ getCtx u n = { getCtx s n with dbgen := bitAt a 9 }
        ∧ (bitAt a 8 = true → ((getFn u f.val).aperture.map (·.val)) = some n) ∧ Answered u f 0x12 q.tag {})
    ∧ (owns → mapArgs → fld a 10 8 = 1 → targetStart s 1 (arg48 q 6) = true → targetOk s 1 (arg48 q 6 / 0x200000) = true →
        ∃ u, exec (.mapPages q) s = .next u ∧ pageOf u vp = some (maps 1 (arg48 q 6 / 0x200000)) ∧ u.mem = s.mem
          ∧ Answered u f 0x20 q.tag { payload := [1] })
    ∧ (owns → MemOk s → mapArgs → fld a 10 8 = 0 → arg48 q 6 = 0 → s.pwr.st = .run →
        freePage s (order.flatMap (fun t => [2 * t, 2 * t + 1])) = some p → ∃ u, exec (.mapPages q) s = .next u
          ∧ pageOf u vp = some (maps 0 p) ∧ p ∈ u.hbmUsed
          ∧ (∀ o < 0x200000, memRead u.mem (p * 0x200000 + o) = 0) ∧ Answered u f 0x20 q.tag { payload := [1] })
    ∧ (owns → argsBad q [0x3F, 0, whole, hi48, whole] = false → arg48 q 2 % 0x200000 = 0 → arg q 4 ≠ 0 →
        vp + arg q 4 ≤ 2 ^ 27 → s.ledger.entries = [] → s.books = [] → ∃ u, exec (.unmapPages q) s = .next u
          ∧ (∀ v, pageOf u v = if vp ≤ v ∧ v < vp + arg q 4 then none else pageOf s v) ∧ Answered u f 0x21 q.tag {})
    ∧ (loads → bookFault s0 n t img false = none → loadSlates n img false [t] {} s0 = .ok (x, s') →
        ∃ u, exec (.bookLoad q) s = .next u ∧ (∃ y, mapFind u.books (freeBook s') = some y ∧ y.image = img ∧ y.ctx.val = n
            ∧ y.frames = x.frames ∧ y.segs = x.segs ∧ y.copies = x.copies)
          ∧ (getFn u f.val).busy = false ∧ (getFn u f.val).done = true)
    ∧ (loads → bookFault s0 n t img false = some fault → ∃ u, exec (.bookLoad q) s = .next u ∧ u.books = s.books
        ∧ u.mem = s.mem ∧ u.slates = s.slates ∧ Answered u f 0x30 q.tag
          ⟨7, pack [(t, 8), (fault.1, 0)], [BitVec.ofNat 32 fault.2]⟩)
    ∧ (WellFits s q → argsBad q [hi48] = false → mapFind s.books (fld a 15 0) = some b →
        (getCtx s b.ctx.val).owner = some f → s.ledger.entries = [] → ∃ u, exec (.bookUnload q) s = .next u
          ∧ mapFind u.books (fld a 15 0) = none ∧ Answered u f 0x31 q.tag {})
    ∧ (owns → argsBad q [0xFFF3F, 0, whole, hi48, whole, whole, whole, whole, whole, whole] = false → sound (size 11 8) →
        sound (size 15 12) → sound (size 19 16) → arg48 q 2 % 4096 = 0 → (∀ i ∈ [4, 6, 8], arg64 q i % 64 = 0) →
        rangeMapped s n (arg48 q 2) (64 * 2 ^ size 11 8) = true → ∃ u, exec (.ringBind q) s = .next u
          ∧ (∃ y, (getFn u f.val).bind = some y ∧ y.ctx.val = n ∧ y.sqLog = size 11 8 ∧ y.cqLog = size 15 12
              ∧ y.eqLog = size 19 16 ∧ y.sqVa.toNat = arg48 q 2)
          ∧ (getFn u f.val).sqTail = 0 ∧ (getFn u f.val).sqHead = 0 ∧ (getFn u f.val).cqTail = 0 ∧ (getFn u f.val).eqTail = 0
          ∧ (getFn u f.val).ring = r
          ∧ Answered u f 0x40 q.tag { payload := [s.ledger.epoch.zeroExtend 32, 0] ++ seqWords r.next ++ seqWords r.reported })
    ∧ (WellFits s q → argsBad q [] = false → (getFn s f.val).bind ≠ none → ∃ u, exec (.ringUnbind q) s = .next u
        ∧ (getFn u f.val).bind = none ∧ (getFn u f.val).ring = r ∧ u.ledger = s.ledger
        ∧ Answered u f 0x41 q.tag { payload := seqWords r.accepted })
    ∧ (WellFits s q → argsBad q [whole, hi48, whole, hi48] = false → s.ledger.entries = [e] → e.fn = f →
        arg48 q 0 ≤ e.seq.toNat → e.seq.toNat ≤ arg48 q 2 → e.state = .accepted → e.ended = false →
        ∃ u, exec (.cancel q) s = .next u
          ∧ u.ledger.entries = [{ e with state := .running, ended := true, status := 1, outcome := .none, detail := 0 }]
          ∧ Answered u f 0x50 q.tag { payload := [1, 0, 0] })
    ∧ (WellFits s q → argsBad q [whole, hi48, whole, hi48] = false → s.ledger.entries = [e] → e.fn = f →
        arg48 q 0 ≤ e.seq.toNat → e.seq.toNat ≤ arg48 q 2 → committed e.state = true →
        ∃ u, exec (.cancel q) s = .next u ∧ u.ledger = s.ledger ∧ Answered u f 0x50 q.tag { payload := [0, 0, 1] })

/-- R272, R293, R308, R322, R336, R361, R365, R366, R369, R371 to R374, R378, R379, R384: the PF's commands about the
system. STROKE_CONFIG, LINK_CONFIG and LINK_ROUTE write what they name; POWER is refused with its reason, answers at
once in the state asked for, or begins a move whose end answers it; DEBUG_CHALLENGE holds a nonce and DEBUG_UNLOCK
uses it up, opening a session for a good proof alone; DEBUG_CLOSE ends it; the scrub leaves memory zero and grants
Factory; an image that passes its checks is staged and committed; SYNC_DUMP and SLATE_RESET begin, and a Slate's
self-test decides. Where the spec leaves a point open the statement takes the model's reading of logs 127, 129, 130,
131 and 149. -/
def Obligations.WellSystem : Prop :=
  ∀ (s : State) (q : CmdReq) (t : Nat) (n : Nonce) (d : Session) (tag : W32) (f : FwSlot) (k : Nat) (b proof jtag : Bool)
    (img : List W8) (sl : Fin 4) (g : Fin 16),
    let a := arg q 0
    let x := s.sec
    let pf : Prop := WellFits s q ∧ q.fn = 0
    let owns (m : Nat) : Prop := pf ∧ (getCtx s m).owner = some 0
    let tells (u : State) (op : Nat) (r : Rsp) : Prop := Answered u 0 op q.tag r
    let state (u : State) : Prop := u.mem = s.mem ∧ u.beads = s.beads ∧ u.slates = s.slates
    let unlocks (method : Nat) : Prop := pf ∧ a = method ∧ argsBad q ([1, whole] ++ List.replicate 56 whole) = false
      ∧ ((tokenOf q).drop (arg q 1)).all (· == 0) = true ∧ x.session = none ∧ x.scrub = none ∧ x.lifecycle = .sealed
    let token : Prop := unlocks 0 ∧ arg q 1 = 162 ∧ tokClean (tokenOf q) = true ∧ x.nonceWells = some n
      ∧ tokenDenied s (tokenOf q) false = false
    let phrase : Prop := unlocks 1 ∧ 8 ≤ arg q 1 ∧ arg q 1 ≤ 224 ∧ x.fuseCfg.getLsbD 1 = true ∧ x.blocked = false
    let opens (u : State) (level : BitVec 2) : Prop := u.sec.session = some ⟨x.nextSession, level, false⟩
      ∧ u.sec.nextSession = x.nextSession + 1 ∧ tells u 0x81 { payload := [level.zeroExtend 32, x.nextSession.zeroExtend 32] }
    let v (n : Nat) : W32 := BitVec.ofNat 32 (arg q n)
    (pf → argsBad q [0x3F, 0x9F3FFFF0, 0xFFFFFF, 0xFF, whole] = false → a = 6 → ∃ u, exec (.strokeConfig q) s = .next u
        ∧ u.stroke = { s.stroke with lenNext := some ((v 2).truncate 24) } ∧ u.aux = { s.aux with pinAdj := (v 3).truncate 8 }
        ∧ tells u 0x60 { payload := [strokeReg u 0x18, strokeReg u 0x1C] })
    ∧ (pf → argsBad q [0x10FFF, 0x0FFF0FFF, 0x0F0F0F0F, 0x0F0F0F0F, 0x0F0F0F0F] = false → a = 1 → slatePresent s 0 = true →
        bitAt (arg q 2) 0 = true → ∃ u, exec (.linkConfig q) s = .next u ∧ u.aux.devnum.toNat = fld (arg q 1) 11 0
          ∧ u.aux.masterDev.toNat = fld (arg q 1) 27 16 ∧ (getPort u 0).cfg.toNat = fld (arg q 2) 3 0
          ∧ (getFn u 0).done = true)
    ∧ (owns (fld a 5 0) → argsBad q [0x3F, 0, whole, hi48] = false →
        ctxBytes (taken s 0x62 q) (fld a 5 0) (arg48 q 2) 2048 = some img →
        ∃ u, exec (.linkRoute q) s = .next u ∧ u.aux = { s.aux with routes := img } ∧ tells u 0x62 {})
    ∧ (WellFits s q → q.fn ≠ 0 → argsBad q [7] = false → a ≤ 3 → ∃ u, exec (.power q) s = .next u ∧ u.pwr = s.pwr
        ∧ Answered u q.fn 0x70 q.tag { status := 3 })
    ∧ (pf → argsBad q [7] = false → a = 0 → powerRefusal s .run = k → k ≠ 0 → ∃ u, exec (.power q) s = .next u
        ∧ u.pwr = { s.pwr with refuse := BitVec.ofNat 8 k } ∧ tells u 0x70 { status := 8, detail := BitVec.ofNat 32 k })
    ∧ (pf → argsBad q [7] = false → a = 1 → powerRefusal s .hold = 0 → s.pwr.st = .hold → ∃ u, exec (.power q) s = .next u
        ∧ u.pwr = s.pwr ∧ tells u 0x70 { payload := [1] })
    ∧ (pf → argsBad q [7] = false → a = 1 → powerRefusal s .hold = 0 → s.pwr.st = .run → ∃ u, exec (.power q) s = .next u
        ∧ u.pwr = { s.pwr with moving := true, target := .hold, waiter := some (.well 0, q.tag) }
        ∧ (getFn u 0).busy = true ∧ state u)
    ∧ (booted s = true → s.pwr.moving = true → (∀ t < 4, (getSlate s t).selfTest = false) → s.pwr.st = .run →
        s.pwr.target = .hold → s.pwr.waiter = some (.well g, tag) → ∃ u, exec .powerTransitionDone s = .next u
          ∧ u.pwr = { s.pwr with st := .hold, moving := false, waiter := none }
          ∧ Answered u g 0x70 tag { payload := [1] } ∧ state u)
    ∧ (pf → argsBad q [3] = false → a = 1 ∨ a = 2 → ∃ u, exec (.debugChallenge q false) s = .next u ∧ ∃ bs, bs.length = 32
        ∧ u.sec = { x with nonceWells := some ⟨bs, BitVec.ofNat 2 a⟩ } ∧ tells u 0x80 { payload := bytesWords 8 bs })
    ∧ (token → tokenGood s n (tokenOf q) proof = true → tokKind (tokenOf q) = 0 → tokLevel (tokenOf q) ≤ 2 →
        ∃ u, exec (.debugUnlock q false proof) s = .next u ∧ opens u (BitVec.ofNat 2 (tokLevel (tokenOf q)))
          ∧ u.sec.nonceWells = none)
    ∧ (token → tokenGood s n (tokenOf q) proof = true → tokKind (tokenOf q) = 1 →
        ∃ u, exec (.debugUnlock q false proof) s = .next u ∧ u.sec.pendingLc = some .voided ∧ u.sec.session = none
          ∧ tells u 0x81 { detail := 1 })
    ∧ (token → tokenGood s n (tokenOf q) proof = false → ∃ u, exec (.debugUnlock q false proof) s = .next u
        ∧ u.sec = { x with nonceWells := none } ∧ tells u 0x81 { status := 9 })
    ∧ (phrase → ∃ u, exec (.debugUnlock q false true) s = .next u ∧ opens u 1 ∧ u.sec.fails = 0)
    ∧ (phrase → ∃ u, exec (.debugUnlock q false false) s = .next u ∧ u.sec.session = none ∧ u.sec.fails = x.fails + 1
        ∧ u.sec.blocked = (x.fails + 1 == 5) ∧ tells u 0x81 { status := 9 })
    ∧ (pf → argsBad q [0xFFFF] = false → x.session = some d → d.number.toNat = a → a ≠ 0 →
        ∃ u, exec (.debugClose q false) s = .next u ∧ u.sec.session = none ∧ tells u 0x82 {})
    ∧ (exec (.nonceExpire jtag) s = .next { s with sec := if jtag then { x with nonceJtag := none }
        else { x with nonceWells := none } })
    ∧ (x.scrub = some tag → ∃ u, exec .scrubEnd s = .next u ∧ u.mem = [] ∧ u.ctxs = [] ∧ u.books = []
        ∧ u.sec.scrub = none ∧ u.sec.session = some ⟨x.nextSession, 3, true⟩
        ∧ u.tap.rsp = rspWords 0x81 tag { payload := [3, x.nextSession.zeroExtend 32] }
        ∧ ∀ t < 4, slatePresent s t = true → (getSlate u t).pg.frames = [])
    ∧ (owns (fld a 5 0) → argsBad q [0x3F, 0, whole, hi48, whole] = false → arg q 4 ≠ 0 → arg q 4 ≤ 0x1000000 →
        ctxBytes (taken s 0x90 q) (fld a 5 0) (arg48 q 2) (arg q 4) = some img → f = fwImage img b proof →
        fwFault x f = none → ∃ u, exec (.fwStage q b proof) s = .next u ∧ u.sec.staged = some (!x.imageB)
          ∧ fwSlot u.sec (!x.imageB) = f ∧ fwSlot u.sec x.imageB = fwSlot x x.imageB
          ∧ tells u 0x90 { payload := [flag (!x.imageB) 0] })
    ∧ (owns (fld a 5 0) → argsBad q [0x3F, 0, whole, hi48, whole] = false → arg q 4 ≠ 0 → arg q 4 ≤ 0x1000000 →
        ctxBytes (taken s 0x90 q) (fld a 5 0) (arg48 q 2) (arg q 4) = some img → f = fwImage img b proof →
        fwFault x f = some k → ∃ u, exec (.fwStage q b proof) s = .next u ∧ u.sec = x
          ∧ tells u 0x90 { status := 7, detail := BitVec.ofNat 32 k })
    ∧ (pf → argsBad q [1] = false → x.staged = some (bitAt a 0) → f = fwSlot x (bitAt a 0) → fwFault x f = none →
        ∃ u, exec (.fwCommit q) s = .next u ∧ u.sec.selectB = bitAt a 0 ∧ u.sec.staged = none
          ∧ u.sec.minSvn.toNat = (if fwBump f.image then Nat.max x.minSvn.toNat (Nat.min 63 (fwSvn f.image)) else x.minSvn.toNat)
          ∧ (fwBump f.image = false → u.sec.keyRev = x.keyRev) ∧ tells u 0x91 {})
    ∧ (owns (fld a 13 8) → argsBad q [0x3F03, 0, whole, hi48] = false → arg48 q 2 % 0x1000 = 0 →
        arg48 q 2 % 0x200000 + 0x30000 ≤ 0x200000 → hbmOf s (fld a 13 8) (arg48 q 2) = some t →
        slateRuns s (fld a 1 0) = true → (getSlate s (fld a 1 0)).watch.dumpBusy = false → t < 2 ^ 48 →
        ∃ u, exec (.syncDump ⟨q, false⟩) s = .next u ∧ (getSlate u (fld a 1 0)).watch.dumpBusy = true
          ∧ (getSlate u (fld a 1 0)).watch.dumpBase.toNat = t ∧ u.mem = s.mem
          ∧ tells u 0xA0 { payload := [((getSlate s (fld a 1 0)).watch.dumpSeq + 1).zeroExtend 32] })
    ∧ (pf → argsBad q [3] = false → slatePresent s (fld a 1 0) = true → s.pwr.st = .run → s.spine.recovering = false →
        ∃ u, exec (.slateReset q) s = .next u ∧ (getSlate u (fld a 1 0)).inReset = true
          ∧ (getSlate u (fld a 1 0)).selfTest = true ∧ (getSlate u (fld a 1 0)).pg.phase = .idle ∧ (getSlate u (fld a 1 0)).pg.active = none ∧ tells u 0xB0 {})
    ∧ (booted s = true → (getSlate s sl.val).selfTest = true → ∃ u, exec (.slateSelfTestEnd sl true) s = .next u
        ∧ (getSlate u sl.val).inReset = false ∧ (getSlate u sl.val).selfTest = false ∧ (getSlate u sl.val).failed = false
        ∧ u.spine.slateFailed.getLsbD sl.val = false)
    ∧ (booted s = true → (getSlate s sl.val).selfTest = true → s.spine.waits = 0 →
        ∃ u, exec (.slateSelfTestEnd sl false) s = .next u ∧ (getSlate u sl.val).failed = true
          ∧ u.spine.slateFailed.getLsbD sl.val = true)

/-- R309, R310, R312, R316, R317, R326 to R328, R331, R333, R334, R384: a tail write takes the next entry of the ring
into the ledger, halts the ring on a gap or an impossible tail, and resumes a halted one; the head of the completion
ring retires the jobs that it passes, that of the event well makes room for the LOST event; BAR2 reads and writes
what the aperture maps and completes harmlessly elsewhere, a damaged packet is discarded; an AtomicOp leaves its result and answers the old value;
a function-level reset keeps the ring's counts; an unmasked vector that was pending is raised. Where the spec leaves
a point open the statement takes the model's reading of logs 112, 134, 137 and 138. -/
def Obligations.HostCommands : Prop :=
  ∀ (s : State) (fn : Fin 16) (v : W32) (b : Binding) (off : BitVec 48) (bs : List W8) (len : Fin 65) (x : Xlat)
    (op : PcieAtomic) (va vb : W64) (vec : Fin 128) (g : Fin 16),
    let f := fn.val
    let y := getFn s f
    let ws := ringEntry s b y.sqHead.toNat
    let seq : BitVec 48 := BitVec.ofNat 48 (((ws[0]?).getD 0).toNat + fld ((ws[1]?).getD 0).toNat 15 0 * 2 ^ 32)
    let bound : Prop := serving s = true ∧ y.bind = some b
    let one : Prop := bound ∧ v = y.sqHead + 1 ∧ y.dupOut = [] ∧ 4 ≤ b.sqLog
    let at_ (n : Nat) (w : Bool) : Option Xlat := apertureAt s f off n w
    let plain : Prop := x.mirror = none ∧ inHbm x.pa = true
    let n := bs.length
    let old := loadNat s x.pa 8
    let inside (n : Nat) : Prop := deviceUp s = true ∧ inBar2 s f off n = true
    let counts (u : State) (k : Nat) : Prop := (getFn u k).ring = (getFn s k).ring ∧ (getFn u k).aperture = (getFn s k).aperture
      ∧ (getFn u k).bind = none ∧ (getFn u k).busy = false ∧ (getFn u k).msixOn = false
    (one → seq = y.ring.next → seq ≠ 0 → acceptWaits s = false → ∃ u, exec (.wellSqTailWrite fn v) s = .next u
        ∧ (getFn u f).sqTail = v ∧ (getFn u f).sqHead = v ∧ (getFn u f).halt = false
        ∧ (getFn u f).ring = { y.ring with next := y.ring.next + 1, accepted := seq }
        ∧ u.ledger.entries = makeSlot s.ledger.entries ++ [{ fn := fn, seq := seq, words := ws }]
        ∧ (getFn u f).out = y.out ++ [⟨b.rsbBus, seqWords seq ++ [v, s.ledger.epoch.zeroExtend 32]⟩])
    ∧ (one → seq = y.ring.next → seq ≠ 0 → acceptWaits s = true → ∃ u, exec (.wellSqTailWrite fn v) s = .next u
        ∧ (getFn u f).waiting = true ∧ (getFn u f).sqHead = y.sqHead ∧ u.ledger = s.ledger)
    ∧ (one → y.ring.next < seq → ∃ u, exec (.wellSqTailWrite fn v) s = .next u ∧ (getFn u f).halt = true
        ∧ (getFn u f).reason = 1 ∧ (getFn u f).sqHead = y.sqHead ∧ u.ledger = s.ledger)
    ∧ (bound → 2 ^ b.sqLog < (v - y.sqHead).toNat → ∃ u, exec (.wellSqTailWrite fn v) s = .next u
        ∧ (getFn u f).halt = true ∧ (getFn u f).reason = 3 ∧ u.ledger = s.ledger)
    ∧ (bound → ∃ u, exec (.wellCqHeadWrite fn v) s = .next u ∧ (getFn u f).cqHead = v
        ∧ u.ledger.entries = s.ledger.entries.map (fun e => if e.fn = fn ∧ e.state = .reported
            ∧ e.record.any (fun r => r - y.cqHead < v - y.cqHead) then { e with state := .retired } else e))
    ∧ (bound → y.lostOwed = false → ∃ u, exec (.wellEqHeadWrite fn v) s = .next u
        ∧ getFn u f = { y with eqHead := v } ∧ u.mem = s.mem)
    ∧ (bound → y.lostOwed = true → (y.eqTail - v).toNat < 2 ^ b.eqLog → ∃ u, exec (.wellEqHeadWrite fn v) s = .next u
        ∧ (getFn u f).eqHead = v ∧ (getFn u f).eqTail = y.eqTail + 1 ∧ (getFn u f).lostOwed = false
        ∧ (getFn u f).out.length = y.out.length + 1)
    ∧ (inside n → at_ n true = some x → plain → ∃ u, exec (.bar2Access ⟨fn, .good⟩ off (some bs) len) s = .next u
        ∧ u.mem = memWriteN s.mem x.pa bs ∧ u.fns = s.fns)
    ∧ (inside len.val → at_ len.val false = some x → plain → parityFind s.parity x.pa len.val = none →
        ∃ u, exec (.bar2Access ⟨fn, .good⟩ off none len) s = .next u ∧ (getFn u f).read = loadBytes s x.pa len.val ∧ u.mem = s.mem)
    ∧ (inside len.val → at_ len.val false = none → ∃ u, exec (.bar2Access ⟨fn, .good⟩ off none len) s = .next u
        ∧ (getFn u f).read = List.replicate len.val 0 ∧ (y.apFault = none → (getFn u f).apFault = some (false, off))
        ∧ u.mem = s.mem)
    ∧ (inside n → at_ n true = none → ∃ u, exec (.bar2Access ⟨fn, .good⟩ off (some bs) len) s = .next u ∧ u.mem = s.mem
        ∧ (y.apFault = none → (getFn u f).apFault = some (true, off)))
    ∧ (deviceUp s = true → inBar2 s f off len.val = false → ∃ u, exec (.bar2Access ⟨fn, .good⟩ off none len) s = .next u
        ∧ u.answers.unsupported = true ∧ (getFn u f).aer.getLsbD 20 = true ∧ u.mem = s.mem)
    ∧ (deviceUp s = true → ∃ u, exec (.bar2Access ⟨fn, .poisoned⟩ off (some bs) len) s = .next u ∧ u.mem = s.mem
        ∧ (getFn u f).aer.getLsbD 12 = true ∧ u.ledger.logIndex = s.ledger.logIndex + 1)
    ∧ (deviceUp s = true → exec (.bar2Access ⟨fn, .badEcrc⟩ off (some bs) len) s
        = .next (modFn s f (fun x => { x with aer := x.aer ||| 0x00080000 })))
    ∧ (inside 8 → at_ 8 false = some x → at_ 8 true ≠ none → plain → parityFind s.parity x.pa 8 = none →
        ∃ u, exec (.atomicop ⟨fn, .good⟩ off op true va vb) s = .next u
          ∧ u.mem = memWriteN s.mem x.pa (toBytes 8 (match op with
              | .fetchAdd => (BitVec.ofNat 64 old + va).toNat
              | .swap => va.toNat
              | .cas => if BitVec.ofNat 64 old = va then vb.toNat else old))
          ∧ u.answers.atomic = some (BitVec.ofNat 64 old) ∧ u.answers.unsupported = false)
    ∧ (inside 8 → at_ 8 false = some x → at_ 8 true ≠ none → inHbm x.pa = false →
        ∃ u, exec (.atomicop ⟨fn, .good⟩ off op true va vb) s = .next u ∧ u.mem = s.mem ∧ u.answers.unsupported = true)
    ∧ (deviceUp s = true → ∃ u, exec (.functionLevelReset fn) s = .next u ∧ counts u f
        ∧ u.ctxs = s.ctxs ∧ u.mem = s.mem ∧ (f ≠ 0 ∨ s.sec.session = none → u.ledger = s.ledger))
    ∧ (deviceUp s = true → g ≠ 0 → ∃ u, exec .vfEnableClear s = .next u ∧ counts u g.val ∧ u.vfOn = false
        ∧ getFn u 0 = getFn s 0 ∧ u.ledger = s.ledger)
    ∧ (deviceUp s = true → y.pba.getLsbD vec.val = true → ∃ u, exec (.msixUnmask fn vec) s = .next u
        ∧ (getFn u f).raised = y.raised ++ [vec] ∧ (getFn u f).pba.getLsbD vec.val = false
        ∧ (getFn u f).masked.getLsbD vec.val = false ∧ (getFn u f).msixOn = true)
    ∧ (deviceUp s = true → y.pba.getLsbD vec.val = false → ∃ u, exec (.msixUnmask fn vec) s = .next u
        ∧ (getFn u f).raised = y.raised ∧ (getFn u f).pba = y.pba ∧ (getFn u f).masked.getLsbD vec.val = false)

/-- R309, R335, R364, R367 to R370, R380, R388, R389: MCTP carries IDENTIFY, CAPABILITY, ERRLOG_READ, POWER and
SLATE_RESET with PF authority and denies every other opcode, and its control messages are answered; SPDM negotiates versions 1.2 and 1.3 and the
algorithms, answers digests, certificates, challenges and measurements once it has, and ERROR UnsupportedRequest to
what it does not support; PLDM reads the sensors, sets the limit, and stages an image in boot failure; the TAP
answers its instructions and TRST_N holds it. Where the spec leaves a point open the statement takes the model's
reading of logs 4, 49, 50, 132 and 133. -/
def Obligations.SidebandAndTap : Prop :=
  ∀ (s : State) (t : Transport) (q : CmdReq) (op : W16) (off len : W16) (nonce : List W8) (index : W8) (sign tdi slotB : Bool)
    (w : W16) (img : List W8) (d g : Bool),
    let x := getSpdm s t
    let up : Prop := serving s = true
    let ready : Prop := up ∧ x.algorithms = true
    let rsp (u : State) : List W8 := (getSpdm u t).rsp
    let answered (c : Instr) (p : State → Prop) : Prop := ∃ u, exec c s = .next u ∧ u.mem = s.mem ∧ p u
    let quiet : Prop := s.pwr.waiter = none ∧ t ≠ .doe
    let key := transportKey t
    let mctp (u : State) : List W32 := mapGet (fun _ => []) u.answers.mctp key
    let tap : Prop := tapServes s = true
    let image := fwImage img d g
    (up → t ≠ .doe → answered (.mctpMessage t 0 0x02 q) (fun u => mapGet (fun _ => []) u.answers.control key
          = [0, mapGet (fun _ => 0) s.answers.eid key, 0, 0])
        ∧ answered (.mctpMessage t 0 0x05 q) (fun u => mapGet (fun _ => []) u.answers.control key = [0, 3, 0x01, 0x05, 0x7E]))
    ∧ (up → quiet → q.version = 1 → op ∉ ([0x01, 0x02, 0xC0, 0x70, 0xB0] : List W16) →
        answered (.mctpMessage t 0x7E op q) (fun u => mctp u = rspWords op.toNat q.tag { status := 3 }))
    ∧ (up → quiet → q.version = 1 → argsBad q [] = false → answered (.mctpMessage t 0x7E 0x01 q) (fun u =>
        ∃ l, mctp u = rspWords 0x01 q.tag { payload := l } ∧ l.take 4 = bytesWords 4 (partName s)))
    ∧ (up → answered (.getVersion t) (fun u => rsp u = [0x10, 0x04, 0, 0, 0, 2, 0x00, 0x12, 0x00, 0x13]
        ∧ (getSpdm u t).version = none ∧ (getSpdm u t).algorithms = false))
    ∧ (up → answered (.getCapabilities t) (fun u => (getSpdm u t).version = some 0x13
        ∧ (rsp u).take 2 = [0x13, 0x61] ∧ (rsp u)[8]? = some 0x16))
    ∧ (up → x.version = some 0x13 → answered (.negotiateAlgorithms t) (fun u => (getSpdm u t).algorithms = true
        ∧ (rsp u).take 4 = [0x13, 0x63, 0, 0] ∧ (rsp u).length = 36))
    ∧ (up → x.version = none → answered (.negotiateAlgorithms t) (fun u => rsp u = [0x10, 0x7F, 0x04, 0]))
    ∧ (ready → answered (.getDigests t) (fun u => (rsp u).take 4 = [0x13, 0x01, 0, 1] ∧ (rsp u).length = 52))
    ∧ (ready → answered (.getCertificate t off len) (fun u => rsp u = [spdmVer s t, 0x7F, 0x01, 0]
        ∨ (rsp u).take 4 = [0x13, 0x02, 0, 0] ∧ (rsp u).length ≤ 8 + len.toNat))
    ∧ (ready → s.sec.keysErased = false → answered (.challenge t nonce) (fun u =>
        (rsp u).take 4 = [0x13, 0x03, 0, 1] ∧ (rsp u).length = 4 + 48 + 32 + 2 + 8 + 114))
    ∧ (ready → s.sec.keysErased = true → answered (.challenge t nonce) (fun u => rsp u = [spdmVer s t, 0x7F, 0x05, 0]))
    ∧ (ready → index = 0 → answered (.getMeasurements t index false) (fun u => (rsp u).take 5 = [0x13, 0x60, 5, 0, 0]))
    ∧ (ready → 1 ≤ index.toNat → index.toNat ≤ 5 → answered (.getMeasurements t index false) (fun u =>
        (rsp u).take 5 = [0x13, 0x60, 0, 0, 1]
        ∧ ((rsp u).drop 8).take (measBlock s index.toNat).length = measBlock s index.toNat))
    ∧ (ready → 5 < index.toNat → index ≠ 0xFF → answered (.getMeasurements t index sign) (fun u =>
        rsp u = [spdmVer s t, 0x7F, 0x01, 0]))
    ∧ (ready → s.sec.keysErased = true → answered (.getMeasurements t 0xFF true) (fun u =>
        rsp u = [spdmVer s t, 0x7F, 0x05, 0]))
    ∧ (up → answered (.keyExchange t) (fun u => rsp u = [spdmVer s t, 0x7F, 0x07, 0xE4]))
    ∧ (up → answered (.pskExchange t) (fun u => rsp u = [spdmVer s t, 0x7F, 0x07, 0xE6]))
    ∧ (up → answered (.setCertificate t) (fun u => rsp u = [spdmVer s t, 0x7F, 0x07, 0xEE]))
    ∧ (up → answered (.doeDiscovery 0) (fun u => u.answers.doe = [0x01000001])
        ∧ answered (.doeDiscovery 1) (fun u => u.answers.doe = [0x00010001]))
    ∧ (up → answered (.pldmPlatform .readSensors) (fun u =>
        u.answers.pldm = [pwrReg s 0x14, pwrReg s 0x10, pwrReg s 0x18, pwrReg s 0x00]))
    ∧ (up → s.pwr.therm = 0 → s.pwr.reserve ≤ w → answered (.pldmPlatform (.setPowerLimit w)) (fun u =>
        u.pwr = { s.pwr with limit := w } ∧ u.aux.pbudget = w - s.pwr.reserve))
    ∧ (deviceUp s = true → s.pins.bootFailed = true → fwFault s.sec image = none →
        exec (.pldmFirmwareUpdate slotB img d g) s = .next (putSlot s slotB image))
    ∧ (deviceUp s = true → s.pins.bootFailed = false → exec (.pldmFirmwareUpdate slotB img d g) s = .next s)
    ∧ (tap → up → q.version = 1 → op ∉ ([0x80, 0x81, 0x82] : List W16) → answered (.dbgMbox op q d) (fun u =>
        u.tap.rsp = rspWords op.toNat q.tag { status := 1 } ∧ u.tap.ir = 0x21))
    ∧ (tap → up → q.version = 1 → argsBad q [3] = false → arg q 0 = 3 → answered (.dbgMbox 0x80 q d) (fun u =>
        ∃ bs, bs.length = 32 ∧ u.sec = { s.sec with nonceJtag := some ⟨bs, 3⟩ }
          ∧ u.tap.rsp = rspWords 0x80 q.tag { payload := bytesWords 8 bs }))
    ∧ (tap → exec .idcode s = .next { s with tap := { s.tap with ir := 0x01, tdo := idcodeWord s } })
    ∧ (tap → exec (.bypass tdi) s
        = .next { s with tap := { s.tap with ir := 0xFF, tdo := flag s.tap.bypassBit 0, bypassBit := tdi } })
    ∧ (tap → answered (.samplePreload tdi) (fun u => u.tap.ir = 0x02 ∧ u.tap.boundary = tdi ∧ u.tap.driven = s.tap.driven))
    ∧ (tap → 2 ≤ debugLevel s → answered (.extest tdi) (fun u => u.tap.ir = 0x00 ∧ u.tap.driven = some tdi)
        ∧ answered (.intest tdi) (fun u => u.tap.ir = 0x03 ∧ u.tap.driven = none))
    ∧ (tap → debugLevel s < 2 → answered (.extest tdi) (fun u => u.tap.driven = s.tap.driven)
        ∧ answered (.intest tdi) (fun u => u.tap.driven = s.tap.driven))
    ∧ (s.pins.rails = true → exec (.trstN true) s
        = .next { s with tap := { s.tap with ir := 0x01, held := true, bypassBit := false, driven := none } }
        ∧ exec (.trstN false) s = .next { s with tap := { s.tap with held := false } })
    ∧ (s.pins.rails = true → s.tap.held = true → exec .idcode s = .next s ∧ exec (.bypass tdi) s = .next s)

/-- R361, R365, R366, R372, R374, R378, R380, R383 to R392, R395: Warn and Critical reduce the stroke's power budget and
recovery restores it, Critical asserting ALERT_N and forcing Hold; a trip or PWR_EN low takes the rails away, and
power-on starts with empty memory and the next epoch; a module reset keeps HBM, contexts and books, zeroes the rest
and takes up a pending lifecycle; its release boots an image that passes its checks and derives its identity, or boots none; a hot reset and a link
down reset the device warm. Where the spec leaves a point open the statement takes the model's reading of logs 6,
111, 113, 114, 115 and 116. -/
def Obligations.PowerAndResets : Prop :=
  ∀ (s : State) (kind : Bool) (b : Bool) (f : Nat),
    let up : Prop := serving s = true
    let room := s.pwr.limit.toNat - s.pwr.reserve.toNat
    let warm (u : State) (k : BitVec 3) : Prop := u.spine.resetKind = k ∧ u.spine.warms = s.spine.warms + 1
      ∧ u.sec.session = none ∧ u.vfOn = false ∧ u.pwr.st = .run ∧ (getFn u f).bind = none ∧ u.ctxs = s.ctxs ∧ u.books = s.books
      ∧ (s.spine.recovering = false → ∀ t < 4, slatePresent s t = true → (getSlate s t).failed = false →
          (getSlate u t).inReset = true ∧ (getSlate u t).pg.phase = .idle)
      ∧ (s.spine.recovering = true → ∀ t < 4, slatePresent s t = true → (getSlate s t).failed = false →
          u.spine.waits.getLsbD t = true)
    let warms : Prop := deviceUp s = true ∧ s.spine.warms ≠ 0xFFFF
    let off (u : State) : Prop := u.pins.rails = false ∧ u.pins.booted = false ∧ u.pins.alertN = true
      ∧ u.sec.session = none ∧ u.sec.nonceWells = none ∧ u.sec.nonceJtag = none ∧ u.tap = {}
    (up → s.pwr.therm = 0 → ∃ u, exec .thermalWarn s = .next u ∧ u.pwr = { s.pwr with therm := 1 }
        ∧ u.aux.pbudget = BitVec.ofNat 16 (room * 3 / 4))
    ∧ (up → s.pwr.therm ≠ 2 → s.pwr.st = .run → s.pwr.moving = false → syncSlates s = [] →
        ∃ u, exec .thermalCritical s = .next u ∧ u.pins.alertN = false ∧ u.aux.pbudget = BitVec.ofNat 16 (room * 3 / 4)
          ∧ u.pwr = { s.pwr with therm := 2, forced := true, st := .hold, target := .hold })
    ∧ (up → s.pwr.therm = 2 → s.pwr.forced = true → s.pwr.st = .hold → s.pwr.moving = false → s.pins.spineFailed = false →
        s.pins.bootFailed = false → ∃ u, exec .thermalRecover s = .next u ∧ u.pins.alertN = true
          ∧ u.aux.pbudget = BitVec.ofNat 16 (room * 3 / 4)
          ∧ u.pwr = { s.pwr with therm := 1, forced := false, st := .run, target := .run })
    ∧ (up → s.pwr.therm = 1 → s.pwr.forced = false → ∃ u, exec .thermalRecover s = .next u
        ∧ u.pwr = { s.pwr with therm := 0 } ∧ u.aux.pbudget = BitVec.ofNat 16 room)
    ∧ (s.pins.rails = true → ∃ u, exec .thermalTrip s = .next u ∧ off u ∧ u.pins.thermTripN = false)
    ∧ (∃ u, exec .powerOff s = .next u ∧ off u ∧ u.pins.thermTripN = true)
    ∧ (s.pins.rails = false → s.pins.thermTripN = true → ∃ u, exec .powerOn s = .next u ∧ u.mem = [] ∧ u.beads = []
        ∧ u.slates = [] ∧ u.fns = [] ∧ u.ctxs = [] ∧ u.pins = {} ∧ u.ledger = { epoch := s.ledger.epoch + 1 }
        ∧ u.sec.minSvn = s.sec.minSvn ∧ u.sec.keyRev = s.sec.keyRev ∧ u.sec.slotA = s.sec.slotA ∧ u.sec.slotB = s.sec.slotB
        ∧ u.sec.lifecycle = s.sec.pendingLc.getD s.sec.lifecycle ∧ u.sec.keysErased = false)
    ∧ (s.pins.rails = true ∨ s.pins.thermTripN = false → exec .powerOn s = .next s)
    ∧ (MemOk s → s.pins.rails = true → s.ledger.entries = [] → ∃ u, exec (.moduleReset kind) s = .next u
        ∧ (∀ a < 0x008000000000, memRead u.mem a = memRead s.mem a)
        ∧ (∀ i < 1024, ∀ o < 0x200000, memRead u.mem (folioBase i + o) = 0)
        ∧ u.ctxs = s.ctxs ∧ u.books = s.books ∧ u.beads = [] ∧ u.brushes = [] ∧ u.slates = [] ∧ u.ports = []
        ∧ u.pins.inReset = true ∧ u.pins.booted = false ∧ u.spine.resetKind = (if kind then 2 else 1)
        ∧ u.sec.lifecycle = s.sec.pendingLc.getD s.sec.lifecycle ∧ u.sec.pendingLc = none ∧ u.sec.session = none
        ∧ u.sec.denyCount = 0 ∧ u.ledger.epoch = s.ledger.epoch ∧ u.ledger.cfg = 3)
    ∧ (s.pins.rails = true → s.pins.pwrgd = true → s.pins.inReset = true → bootSlot s.sec = some b →
        ∃ u, exec .resetRelease s = .next u ∧ u.pins.inReset = false ∧ u.pins.booted = true ∧ u.ledger.ready = true
          ∧ u.sec.imageB = b ∧ u.sec.fallback = (b != s.sec.selectB) ∧ u.sec.session = standing s.sec.lifecycle
          ∧ u.sec.version.toNat = leAt (fwSlot s.sec b).image 0xC 4 % 2 ^ 32 ∧ u.spine.orphan = false ∧ u.mem = s.mem
          ∧ u.sec.fuseLock = true ∧ (s.sec.keysErased = false → s.sec.lifecycle ≠ .blank →
            u.sec.cdi1 = shake256 ([0x63, 0x64, 0x69] ++ s.sec.uds ++ ((fwSlot s.sec b).image.drop 0x10).take 64
              ++ [BitVec.ofNat 8 (fwSvn (fwSlot s.sec b).image), BitVec.ofNat 8 (fwKey (fwSlot s.sec b).image),
                BitVec.ofNat 8 (lifeCode s.sec.lifecycle)]) 64))
    ∧ (s.pins.rails = true → s.pins.pwrgd = true → s.pins.inReset = true → bootSlot s.sec = none →
        ∃ u, exec .resetRelease s = .next u ∧ u.pins.inReset = false ∧ u.pins.booted = s.pins.booted
          ∧ u.pins.bootFailed = true ∧ u.pins.alertN = false)
    ∧ (warms → ∃ u, exec .hotReset s = .next u ∧ warm u 3)
    ∧ (warms → ∃ u, exec .linkDown s = .next u ∧ warm u 4)
end

