-- ==== Sys2Proof/Laws/SMap.lean ====
section
/-! SUPPORT. Lemmas of finite maps: what an update leaves at its own index and at every other. -/

namespace Sys2Proof.Machine

theorem mapFind_mapPut_same {α : Type} (m : SMap α) (i : Nat) (v : α) : mapFind (mapPut m i v) i = some v := by
  induction m with
  | nil => simp [mapPut, mapFind]
  | cons p m ih =>
    obtain ⟨k, w⟩ := p
    simp only [mapPut]
    split
    · simp [mapFind]
    · split
      · simp [mapFind]
      · next h _ => simp [mapFind, h, ih]

theorem mapFind_mapPut_ne {α : Type} (m : SMap α) (i j : Nat) (v : α) (h : j ≠ i) :
    mapFind (mapPut m i v) j = mapFind m j := by
  induction m with
  | nil => simp [mapPut, mapFind, Ne.symm h]
  | cons p m ih =>
    obtain ⟨k, w⟩ := p
    simp only [mapPut]
    split
    · next e => subst e; simp [mapFind, Ne.symm h]
    · split
      · simp [mapFind, Ne.symm h]
      · simp [mapFind, ih]

@[simp] theorem mapGet_mapPut_same {α : Type} (d : Nat → α) (m : SMap α) (i : Nat) (v : α) :
    mapGet d (mapPut m i v) i = v := by
  simp [mapGet, mapFind_mapPut_same]

theorem mapGet_mapPut_ne {α : Type} (d : Nat → α) (m : SMap α) (i j : Nat) (v : α) (h : j ≠ i) :
    mapGet d (mapPut m i v) j = mapGet d m j := by
  simp [mapGet, mapFind_mapPut_ne m i j v h]

@[simp] theorem mapPut_mapPut_same {α : Type} (m : SMap α) (i : Nat) (v w : α) :
    mapPut (mapPut m i v) i w = mapPut m i w := by
  induction m with
  | nil => simp [mapPut]
  | cons p m ih =>
    obtain ⟨k, u⟩ := p
    simp only [mapPut]
    split
    · simp [mapPut]
    · next h =>
      split
      · simp [mapPut]
      · next h' => simp [mapPut, h, h', ih]

end Sys2Proof.Machine
end

