-- ==== Sys2Proof/Laws/State.lean ====
section
/-! SUPPORT. What each update of the state leaves in each field: true by unfolding, so that no later proof unfolds a record
update. -/

namespace Sys2Proof.Machine

@[simp] theorem putBead_mem (s : State) (i : Nat) (b : Bead) : (putBead s i b).mem = s.mem := rfl
@[simp] theorem putBead_parity (s : State) (i : Nat) (b : Bead) : (putBead s i b).parity = s.parity := rfl
@[simp] theorem putBead_brushes (s : State) (i : Nat) (b : Bead) : (putBead s i b).brushes = s.brushes := rfl
@[simp] theorem putBead_slates (s : State) (i : Nat) (b : Bead) : (putBead s i b).slates = s.slates := rfl
@[simp] theorem putBead_ports (s : State) (i : Nat) (b : Bead) : (putBead s i b).ports = s.ports := rfl
@[simp] theorem putBead_ctxs (s : State) (i : Nat) (b : Bead) : (putBead s i b).ctxs = s.ctxs := rfl
@[simp] theorem putBead_books (s : State) (i : Nat) (b : Bead) : (putBead s i b).books = s.books := rfl
@[simp] theorem putBead_fns (s : State) (i : Nat) (b : Bead) : (putBead s i b).fns = s.fns := rfl
@[simp] theorem putBead_ledger (s : State) (i : Nat) (b : Bead) : (putBead s i b).ledger = s.ledger := rfl
@[simp] theorem putBead_stroke (s : State) (i : Nat) (b : Bead) : (putBead s i b).stroke = s.stroke := rfl
@[simp] theorem putBead_aux (s : State) (i : Nat) (b : Bead) : (putBead s i b).aux = s.aux := rfl
@[simp] theorem putBead_spine (s : State) (i : Nat) (b : Bead) : (putBead s i b).spine = s.spine := rfl
@[simp] theorem putBead_sec (s : State) (i : Nat) (b : Bead) : (putBead s i b).sec = s.sec := rfl
@[simp] theorem putBead_pwr (s : State) (i : Nat) (b : Bead) : (putBead s i b).pwr = s.pwr := rfl
@[simp] theorem putBead_pins (s : State) (i : Nat) (b : Bead) : (putBead s i b).pins = s.pins := rfl
@[simp] theorem putBead_tap (s : State) (i : Nat) (b : Bead) : (putBead s i b).tap = s.tap := rfl
@[simp] theorem putBead_spdm (s : State) (i : Nat) (b : Bead) : (putBead s i b).spdm = s.spdm := rfl
@[simp] theorem putBead_answers (s : State) (i : Nat) (b : Bead) : (putBead s i b).answers = s.answers := rfl
@[simp] theorem putBead_hbmUsed (s : State) (i : Nat) (b : Bead) : (putBead s i b).hbmUsed = s.hbmUsed := rfl
@[simp] theorem putBead_vfOn (s : State) (i : Nat) (b : Bead) : (putBead s i b).vfOn = s.vfOn := rfl
@[simp] theorem putBead_heldAcc (s : State) (i : Nat) (b : Bead) : (putBead s i b).heldAcc = s.heldAcc := rfl
@[simp] theorem putBead_freeCtr (s : State) (i : Nat) (b : Bead) : (putBead s i b).freeCtr = s.freeCtr := rfl
@[simp] theorem putBead_pending (s : State) (i : Nat) (b : Bead) : (putBead s i b).pending = s.pending := rfl

@[simp] theorem modBead_mem (s : State) (i : Nat) (f : Bead → Bead) : (modBead s i f).mem = s.mem := rfl
@[simp] theorem modBead_parity (s : State) (i : Nat) (f : Bead → Bead) : (modBead s i f).parity = s.parity := rfl
@[simp] theorem modBead_brushes (s : State) (i : Nat) (f : Bead → Bead) : (modBead s i f).brushes = s.brushes := rfl
@[simp] theorem modBead_slates (s : State) (i : Nat) (f : Bead → Bead) : (modBead s i f).slates = s.slates := rfl
@[simp] theorem modBead_ports (s : State) (i : Nat) (f : Bead → Bead) : (modBead s i f).ports = s.ports := rfl
@[simp] theorem modBead_ctxs (s : State) (i : Nat) (f : Bead → Bead) : (modBead s i f).ctxs = s.ctxs := rfl
@[simp] theorem modBead_books (s : State) (i : Nat) (f : Bead → Bead) : (modBead s i f).books = s.books := rfl
@[simp] theorem modBead_fns (s : State) (i : Nat) (f : Bead → Bead) : (modBead s i f).fns = s.fns := rfl
@[simp] theorem modBead_ledger (s : State) (i : Nat) (f : Bead → Bead) : (modBead s i f).ledger = s.ledger := rfl
@[simp] theorem modBead_stroke (s : State) (i : Nat) (f : Bead → Bead) : (modBead s i f).stroke = s.stroke := rfl
@[simp] theorem modBead_aux (s : State) (i : Nat) (f : Bead → Bead) : (modBead s i f).aux = s.aux := rfl
@[simp] theorem modBead_spine (s : State) (i : Nat) (f : Bead → Bead) : (modBead s i f).spine = s.spine := rfl
@[simp] theorem modBead_sec (s : State) (i : Nat) (f : Bead → Bead) : (modBead s i f).sec = s.sec := rfl
@[simp] theorem modBead_pwr (s : State) (i : Nat) (f : Bead → Bead) : (modBead s i f).pwr = s.pwr := rfl
@[simp] theorem modBead_pins (s : State) (i : Nat) (f : Bead → Bead) : (modBead s i f).pins = s.pins := rfl
@[simp] theorem modBead_tap (s : State) (i : Nat) (f : Bead → Bead) : (modBead s i f).tap = s.tap := rfl
@[simp] theorem modBead_spdm (s : State) (i : Nat) (f : Bead → Bead) : (modBead s i f).spdm = s.spdm := rfl
@[simp] theorem modBead_answers (s : State) (i : Nat) (f : Bead → Bead) : (modBead s i f).answers = s.answers := rfl
@[simp] theorem modBead_hbmUsed (s : State) (i : Nat) (f : Bead → Bead) : (modBead s i f).hbmUsed = s.hbmUsed := rfl
@[simp] theorem modBead_vfOn (s : State) (i : Nat) (f : Bead → Bead) : (modBead s i f).vfOn = s.vfOn := rfl
@[simp] theorem modBead_heldAcc (s : State) (i : Nat) (f : Bead → Bead) : (modBead s i f).heldAcc = s.heldAcc := rfl
@[simp] theorem modBead_freeCtr (s : State) (i : Nat) (f : Bead → Bead) : (modBead s i f).freeCtr = s.freeCtr := rfl
@[simp] theorem modBead_pending (s : State) (i : Nat) (f : Bead → Bead) : (modBead s i f).pending = s.pending := rfl

@[simp] theorem putHand_mem (s : State) (i h : Nat) (x : Hand) : (putHand s i h x).mem = s.mem := rfl
@[simp] theorem putHand_parity (s : State) (i h : Nat) (x : Hand) : (putHand s i h x).parity = s.parity := rfl
@[simp] theorem putHand_brushes (s : State) (i h : Nat) (x : Hand) : (putHand s i h x).brushes = s.brushes := rfl
@[simp] theorem putHand_slates (s : State) (i h : Nat) (x : Hand) : (putHand s i h x).slates = s.slates := rfl
@[simp] theorem putHand_ports (s : State) (i h : Nat) (x : Hand) : (putHand s i h x).ports = s.ports := rfl
@[simp] theorem putHand_ctxs (s : State) (i h : Nat) (x : Hand) : (putHand s i h x).ctxs = s.ctxs := rfl
@[simp] theorem putHand_books (s : State) (i h : Nat) (x : Hand) : (putHand s i h x).books = s.books := rfl
@[simp] theorem putHand_fns (s : State) (i h : Nat) (x : Hand) : (putHand s i h x).fns = s.fns := rfl
@[simp] theorem putHand_ledger (s : State) (i h : Nat) (x : Hand) : (putHand s i h x).ledger = s.ledger := rfl
@[simp] theorem putHand_stroke (s : State) (i h : Nat) (x : Hand) : (putHand s i h x).stroke = s.stroke := rfl
@[simp] theorem putHand_aux (s : State) (i h : Nat) (x : Hand) : (putHand s i h x).aux = s.aux := rfl
@[simp] theorem putHand_spine (s : State) (i h : Nat) (x : Hand) : (putHand s i h x).spine = s.spine := rfl
@[simp] theorem putHand_sec (s : State) (i h : Nat) (x : Hand) : (putHand s i h x).sec = s.sec := rfl
@[simp] theorem putHand_pwr (s : State) (i h : Nat) (x : Hand) : (putHand s i h x).pwr = s.pwr := rfl
@[simp] theorem putHand_pins (s : State) (i h : Nat) (x : Hand) : (putHand s i h x).pins = s.pins := rfl
@[simp] theorem putHand_tap (s : State) (i h : Nat) (x : Hand) : (putHand s i h x).tap = s.tap := rfl
@[simp] theorem putHand_spdm (s : State) (i h : Nat) (x : Hand) : (putHand s i h x).spdm = s.spdm := rfl
@[simp] theorem putHand_answers (s : State) (i h : Nat) (x : Hand) : (putHand s i h x).answers = s.answers := rfl
@[simp] theorem putHand_hbmUsed (s : State) (i h : Nat) (x : Hand) : (putHand s i h x).hbmUsed = s.hbmUsed := rfl
@[simp] theorem putHand_vfOn (s : State) (i h : Nat) (x : Hand) : (putHand s i h x).vfOn = s.vfOn := rfl
@[simp] theorem putHand_heldAcc (s : State) (i h : Nat) (x : Hand) : (putHand s i h x).heldAcc = s.heldAcc := rfl
@[simp] theorem putHand_freeCtr (s : State) (i h : Nat) (x : Hand) : (putHand s i h x).freeCtr = s.freeCtr := rfl
@[simp] theorem putHand_pending (s : State) (i h : Nat) (x : Hand) : (putHand s i h x).pending = s.pending := rfl

@[simp] theorem modHand_mem (s : State) (i h : Nat) (f : Hand → Hand) : (modHand s i h f).mem = s.mem := rfl
@[simp] theorem modHand_parity (s : State) (i h : Nat) (f : Hand → Hand) : (modHand s i h f).parity = s.parity := rfl
@[simp] theorem modHand_brushes (s : State) (i h : Nat) (f : Hand → Hand) : (modHand s i h f).brushes = s.brushes := rfl
@[simp] theorem modHand_slates (s : State) (i h : Nat) (f : Hand → Hand) : (modHand s i h f).slates = s.slates := rfl
@[simp] theorem modHand_ports (s : State) (i h : Nat) (f : Hand → Hand) : (modHand s i h f).ports = s.ports := rfl
@[simp] theorem modHand_ctxs (s : State) (i h : Nat) (f : Hand → Hand) : (modHand s i h f).ctxs = s.ctxs := rfl
@[simp] theorem modHand_books (s : State) (i h : Nat) (f : Hand → Hand) : (modHand s i h f).books = s.books := rfl
@[simp] theorem modHand_fns (s : State) (i h : Nat) (f : Hand → Hand) : (modHand s i h f).fns = s.fns := rfl
@[simp] theorem modHand_ledger (s : State) (i h : Nat) (f : Hand → Hand) : (modHand s i h f).ledger = s.ledger := rfl
@[simp] theorem modHand_stroke (s : State) (i h : Nat) (f : Hand → Hand) : (modHand s i h f).stroke = s.stroke := rfl
@[simp] theorem modHand_aux (s : State) (i h : Nat) (f : Hand → Hand) : (modHand s i h f).aux = s.aux := rfl
@[simp] theorem modHand_spine (s : State) (i h : Nat) (f : Hand → Hand) : (modHand s i h f).spine = s.spine := rfl
@[simp] theorem modHand_sec (s : State) (i h : Nat) (f : Hand → Hand) : (modHand s i h f).sec = s.sec := rfl
@[simp] theorem modHand_pwr (s : State) (i h : Nat) (f : Hand → Hand) : (modHand s i h f).pwr = s.pwr := rfl
@[simp] theorem modHand_pins (s : State) (i h : Nat) (f : Hand → Hand) : (modHand s i h f).pins = s.pins := rfl
@[simp] theorem modHand_tap (s : State) (i h : Nat) (f : Hand → Hand) : (modHand s i h f).tap = s.tap := rfl
@[simp] theorem modHand_spdm (s : State) (i h : Nat) (f : Hand → Hand) : (modHand s i h f).spdm = s.spdm := rfl
@[simp] theorem modHand_answers (s : State) (i h : Nat) (f : Hand → Hand) : (modHand s i h f).answers = s.answers := rfl
@[simp] theorem modHand_hbmUsed (s : State) (i h : Nat) (f : Hand → Hand) : (modHand s i h f).hbmUsed = s.hbmUsed := rfl
@[simp] theorem modHand_vfOn (s : State) (i h : Nat) (f : Hand → Hand) : (modHand s i h f).vfOn = s.vfOn := rfl
@[simp] theorem modHand_heldAcc (s : State) (i h : Nat) (f : Hand → Hand) : (modHand s i h f).heldAcc = s.heldAcc := rfl
@[simp] theorem modHand_freeCtr (s : State) (i h : Nat) (f : Hand → Hand) : (modHand s i h f).freeCtr = s.freeCtr := rfl
@[simp] theorem modHand_pending (s : State) (i h : Nat) (f : Hand → Hand) : (modHand s i h f).pending = s.pending := rfl

@[simp] theorem putBrush_mem (s : State) (k : Nat) (b : Brush) : (putBrush s k b).mem = s.mem := rfl
@[simp] theorem putBrush_parity (s : State) (k : Nat) (b : Brush) : (putBrush s k b).parity = s.parity := rfl
@[simp] theorem putBrush_beads (s : State) (k : Nat) (b : Brush) : (putBrush s k b).beads = s.beads := rfl
@[simp] theorem putBrush_slates (s : State) (k : Nat) (b : Brush) : (putBrush s k b).slates = s.slates := rfl
@[simp] theorem putBrush_ports (s : State) (k : Nat) (b : Brush) : (putBrush s k b).ports = s.ports := rfl
@[simp] theorem putBrush_ctxs (s : State) (k : Nat) (b : Brush) : (putBrush s k b).ctxs = s.ctxs := rfl
@[simp] theorem putBrush_books (s : State) (k : Nat) (b : Brush) : (putBrush s k b).books = s.books := rfl
@[simp] theorem putBrush_fns (s : State) (k : Nat) (b : Brush) : (putBrush s k b).fns = s.fns := rfl
@[simp] theorem putBrush_ledger (s : State) (k : Nat) (b : Brush) : (putBrush s k b).ledger = s.ledger := rfl
@[simp] theorem putBrush_stroke (s : State) (k : Nat) (b : Brush) : (putBrush s k b).stroke = s.stroke := rfl
@[simp] theorem putBrush_aux (s : State) (k : Nat) (b : Brush) : (putBrush s k b).aux = s.aux := rfl
@[simp] theorem putBrush_spine (s : State) (k : Nat) (b : Brush) : (putBrush s k b).spine = s.spine := rfl
@[simp] theorem putBrush_sec (s : State) (k : Nat) (b : Brush) : (putBrush s k b).sec = s.sec := rfl
@[simp] theorem putBrush_pwr (s : State) (k : Nat) (b : Brush) : (putBrush s k b).pwr = s.pwr := rfl
@[simp] theorem putBrush_pins (s : State) (k : Nat) (b : Brush) : (putBrush s k b).pins = s.pins := rfl
@[simp] theorem putBrush_tap (s : State) (k : Nat) (b : Brush) : (putBrush s k b).tap = s.tap := rfl
@[simp] theorem putBrush_spdm (s : State) (k : Nat) (b : Brush) : (putBrush s k b).spdm = s.spdm := rfl
@[simp] theorem putBrush_answers (s : State) (k : Nat) (b : Brush) : (putBrush s k b).answers = s.answers := rfl
@[simp] theorem putBrush_hbmUsed (s : State) (k : Nat) (b : Brush) : (putBrush s k b).hbmUsed = s.hbmUsed := rfl
@[simp] theorem putBrush_vfOn (s : State) (k : Nat) (b : Brush) : (putBrush s k b).vfOn = s.vfOn := rfl
@[simp] theorem putBrush_heldAcc (s : State) (k : Nat) (b : Brush) : (putBrush s k b).heldAcc = s.heldAcc := rfl
@[simp] theorem putBrush_freeCtr (s : State) (k : Nat) (b : Brush) : (putBrush s k b).freeCtr = s.freeCtr := rfl
@[simp] theorem putBrush_pending (s : State) (k : Nat) (b : Brush) : (putBrush s k b).pending = s.pending := rfl

@[simp] theorem modBrush_mem (s : State) (k : Nat) (f : Brush → Brush) : (modBrush s k f).mem = s.mem := rfl
@[simp] theorem modBrush_parity (s : State) (k : Nat) (f : Brush → Brush) : (modBrush s k f).parity = s.parity := rfl
@[simp] theorem modBrush_beads (s : State) (k : Nat) (f : Brush → Brush) : (modBrush s k f).beads = s.beads := rfl
@[simp] theorem modBrush_slates (s : State) (k : Nat) (f : Brush → Brush) : (modBrush s k f).slates = s.slates := rfl
@[simp] theorem modBrush_ports (s : State) (k : Nat) (f : Brush → Brush) : (modBrush s k f).ports = s.ports := rfl
@[simp] theorem modBrush_ctxs (s : State) (k : Nat) (f : Brush → Brush) : (modBrush s k f).ctxs = s.ctxs := rfl
@[simp] theorem modBrush_books (s : State) (k : Nat) (f : Brush → Brush) : (modBrush s k f).books = s.books := rfl
@[simp] theorem modBrush_fns (s : State) (k : Nat) (f : Brush → Brush) : (modBrush s k f).fns = s.fns := rfl
@[simp] theorem modBrush_ledger (s : State) (k : Nat) (f : Brush → Brush) : (modBrush s k f).ledger = s.ledger := rfl
@[simp] theorem modBrush_stroke (s : State) (k : Nat) (f : Brush → Brush) : (modBrush s k f).stroke = s.stroke := rfl
@[simp] theorem modBrush_aux (s : State) (k : Nat) (f : Brush → Brush) : (modBrush s k f).aux = s.aux := rfl
@[simp] theorem modBrush_spine (s : State) (k : Nat) (f : Brush → Brush) : (modBrush s k f).spine = s.spine := rfl
@[simp] theorem modBrush_sec (s : State) (k : Nat) (f : Brush → Brush) : (modBrush s k f).sec = s.sec := rfl
@[simp] theorem modBrush_pwr (s : State) (k : Nat) (f : Brush → Brush) : (modBrush s k f).pwr = s.pwr := rfl
@[simp] theorem modBrush_pins (s : State) (k : Nat) (f : Brush → Brush) : (modBrush s k f).pins = s.pins := rfl
@[simp] theorem modBrush_tap (s : State) (k : Nat) (f : Brush → Brush) : (modBrush s k f).tap = s.tap := rfl
@[simp] theorem modBrush_spdm (s : State) (k : Nat) (f : Brush → Brush) : (modBrush s k f).spdm = s.spdm := rfl
@[simp] theorem modBrush_answers (s : State) (k : Nat) (f : Brush → Brush) : (modBrush s k f).answers = s.answers := rfl
@[simp] theorem modBrush_hbmUsed (s : State) (k : Nat) (f : Brush → Brush) : (modBrush s k f).hbmUsed = s.hbmUsed := rfl
@[simp] theorem modBrush_vfOn (s : State) (k : Nat) (f : Brush → Brush) : (modBrush s k f).vfOn = s.vfOn := rfl
@[simp] theorem modBrush_heldAcc (s : State) (k : Nat) (f : Brush → Brush) : (modBrush s k f).heldAcc = s.heldAcc := rfl
@[simp] theorem modBrush_freeCtr (s : State) (k : Nat) (f : Brush → Brush) : (modBrush s k f).freeCtr = s.freeCtr := rfl
@[simp] theorem modBrush_pending (s : State) (k : Nat) (f : Brush → Brush) : (modBrush s k f).pending = s.pending := rfl

@[simp] theorem putSlate_mem (s : State) (t : Nat) (x : Slate) : (putSlate s t x).mem = s.mem := rfl
@[simp] theorem putSlate_parity (s : State) (t : Nat) (x : Slate) : (putSlate s t x).parity = s.parity := rfl
@[simp] theorem putSlate_beads (s : State) (t : Nat) (x : Slate) : (putSlate s t x).beads = s.beads := rfl
@[simp] theorem putSlate_brushes (s : State) (t : Nat) (x : Slate) : (putSlate s t x).brushes = s.brushes := rfl
@[simp] theorem putSlate_ports (s : State) (t : Nat) (x : Slate) : (putSlate s t x).ports = s.ports := rfl
@[simp] theorem putSlate_ctxs (s : State) (t : Nat) (x : Slate) : (putSlate s t x).ctxs = s.ctxs := rfl
@[simp] theorem putSlate_books (s : State) (t : Nat) (x : Slate) : (putSlate s t x).books = s.books := rfl
@[simp] theorem putSlate_fns (s : State) (t : Nat) (x : Slate) : (putSlate s t x).fns = s.fns := rfl
@[simp] theorem putSlate_ledger (s : State) (t : Nat) (x : Slate) : (putSlate s t x).ledger = s.ledger := rfl
@[simp] theorem putSlate_stroke (s : State) (t : Nat) (x : Slate) : (putSlate s t x).stroke = s.stroke := rfl
@[simp] theorem putSlate_aux (s : State) (t : Nat) (x : Slate) : (putSlate s t x).aux = s.aux := rfl
@[simp] theorem putSlate_spine (s : State) (t : Nat) (x : Slate) : (putSlate s t x).spine = s.spine := rfl
@[simp] theorem putSlate_sec (s : State) (t : Nat) (x : Slate) : (putSlate s t x).sec = s.sec := rfl
@[simp] theorem putSlate_pwr (s : State) (t : Nat) (x : Slate) : (putSlate s t x).pwr = s.pwr := rfl
@[simp] theorem putSlate_pins (s : State) (t : Nat) (x : Slate) : (putSlate s t x).pins = s.pins := rfl
@[simp] theorem putSlate_tap (s : State) (t : Nat) (x : Slate) : (putSlate s t x).tap = s.tap := rfl
@[simp] theorem putSlate_spdm (s : State) (t : Nat) (x : Slate) : (putSlate s t x).spdm = s.spdm := rfl
@[simp] theorem putSlate_answers (s : State) (t : Nat) (x : Slate) : (putSlate s t x).answers = s.answers := rfl
@[simp] theorem putSlate_hbmUsed (s : State) (t : Nat) (x : Slate) : (putSlate s t x).hbmUsed = s.hbmUsed := rfl
@[simp] theorem putSlate_vfOn (s : State) (t : Nat) (x : Slate) : (putSlate s t x).vfOn = s.vfOn := rfl
@[simp] theorem putSlate_heldAcc (s : State) (t : Nat) (x : Slate) : (putSlate s t x).heldAcc = s.heldAcc := rfl
@[simp] theorem putSlate_freeCtr (s : State) (t : Nat) (x : Slate) : (putSlate s t x).freeCtr = s.freeCtr := rfl
@[simp] theorem putSlate_pending (s : State) (t : Nat) (x : Slate) : (putSlate s t x).pending = s.pending := rfl

@[simp] theorem modSlate_mem (s : State) (t : Nat) (f : Slate → Slate) : (modSlate s t f).mem = s.mem := rfl
@[simp] theorem modSlate_parity (s : State) (t : Nat) (f : Slate → Slate) : (modSlate s t f).parity = s.parity := rfl
@[simp] theorem modSlate_beads (s : State) (t : Nat) (f : Slate → Slate) : (modSlate s t f).beads = s.beads := rfl
@[simp] theorem modSlate_brushes (s : State) (t : Nat) (f : Slate → Slate) : (modSlate s t f).brushes = s.brushes := rfl
@[simp] theorem modSlate_ports (s : State) (t : Nat) (f : Slate → Slate) : (modSlate s t f).ports = s.ports := rfl
@[simp] theorem modSlate_ctxs (s : State) (t : Nat) (f : Slate → Slate) : (modSlate s t f).ctxs = s.ctxs := rfl
@[simp] theorem modSlate_books (s : State) (t : Nat) (f : Slate → Slate) : (modSlate s t f).books = s.books := rfl
@[simp] theorem modSlate_fns (s : State) (t : Nat) (f : Slate → Slate) : (modSlate s t f).fns = s.fns := rfl
@[simp] theorem modSlate_ledger (s : State) (t : Nat) (f : Slate → Slate) : (modSlate s t f).ledger = s.ledger := rfl
@[simp] theorem modSlate_stroke (s : State) (t : Nat) (f : Slate → Slate) : (modSlate s t f).stroke = s.stroke := rfl
@[simp] theorem modSlate_aux (s : State) (t : Nat) (f : Slate → Slate) : (modSlate s t f).aux = s.aux := rfl
@[simp] theorem modSlate_spine (s : State) (t : Nat) (f : Slate → Slate) : (modSlate s t f).spine = s.spine := rfl
@[simp] theorem modSlate_sec (s : State) (t : Nat) (f : Slate → Slate) : (modSlate s t f).sec = s.sec := rfl
@[simp] theorem modSlate_pwr (s : State) (t : Nat) (f : Slate → Slate) : (modSlate s t f).pwr = s.pwr := rfl
@[simp] theorem modSlate_pins (s : State) (t : Nat) (f : Slate → Slate) : (modSlate s t f).pins = s.pins := rfl
@[simp] theorem modSlate_tap (s : State) (t : Nat) (f : Slate → Slate) : (modSlate s t f).tap = s.tap := rfl
@[simp] theorem modSlate_spdm (s : State) (t : Nat) (f : Slate → Slate) : (modSlate s t f).spdm = s.spdm := rfl
@[simp] theorem modSlate_answers (s : State) (t : Nat) (f : Slate → Slate) : (modSlate s t f).answers = s.answers := rfl
@[simp] theorem modSlate_hbmUsed (s : State) (t : Nat) (f : Slate → Slate) : (modSlate s t f).hbmUsed = s.hbmUsed := rfl
@[simp] theorem modSlate_vfOn (s : State) (t : Nat) (f : Slate → Slate) : (modSlate s t f).vfOn = s.vfOn := rfl
@[simp] theorem modSlate_heldAcc (s : State) (t : Nat) (f : Slate → Slate) : (modSlate s t f).heldAcc = s.heldAcc := rfl
@[simp] theorem modSlate_freeCtr (s : State) (t : Nat) (f : Slate → Slate) : (modSlate s t f).freeCtr = s.freeCtr := rfl
@[simp] theorem modSlate_pending (s : State) (t : Nat) (f : Slate → Slate) : (modSlate s t f).pending = s.pending := rfl

@[simp] theorem modPage_mem (s : State) (t : Nat) (f : PageState → PageState) : (modPage s t f).mem = s.mem := rfl
@[simp] theorem modPage_parity (s : State) (t : Nat) (f : PageState → PageState) : (modPage s t f).parity = s.parity := rfl
@[simp] theorem modPage_beads (s : State) (t : Nat) (f : PageState → PageState) : (modPage s t f).beads = s.beads := rfl
@[simp] theorem modPage_brushes (s : State) (t : Nat) (f : PageState → PageState) : (modPage s t f).brushes = s.brushes := rfl
@[simp] theorem modPage_ports (s : State) (t : Nat) (f : PageState → PageState) : (modPage s t f).ports = s.ports := rfl
@[simp] theorem modPage_ctxs (s : State) (t : Nat) (f : PageState → PageState) : (modPage s t f).ctxs = s.ctxs := rfl
@[simp] theorem modPage_books (s : State) (t : Nat) (f : PageState → PageState) : (modPage s t f).books = s.books := rfl
@[simp] theorem modPage_fns (s : State) (t : Nat) (f : PageState → PageState) : (modPage s t f).fns = s.fns := rfl
@[simp] theorem modPage_ledger (s : State) (t : Nat) (f : PageState → PageState) : (modPage s t f).ledger = s.ledger := rfl
@[simp] theorem modPage_stroke (s : State) (t : Nat) (f : PageState → PageState) : (modPage s t f).stroke = s.stroke := rfl
@[simp] theorem modPage_aux (s : State) (t : Nat) (f : PageState → PageState) : (modPage s t f).aux = s.aux := rfl
@[simp] theorem modPage_spine (s : State) (t : Nat) (f : PageState → PageState) : (modPage s t f).spine = s.spine := rfl
@[simp] theorem modPage_sec (s : State) (t : Nat) (f : PageState → PageState) : (modPage s t f).sec = s.sec := rfl
@[simp] theorem modPage_pwr (s : State) (t : Nat) (f : PageState → PageState) : (modPage s t f).pwr = s.pwr := rfl
@[simp] theorem modPage_pins (s : State) (t : Nat) (f : PageState → PageState) : (modPage s t f).pins = s.pins := rfl
@[simp] theorem modPage_tap (s : State) (t : Nat) (f : PageState → PageState) : (modPage s t f).tap = s.tap := rfl
@[simp] theorem modPage_spdm (s : State) (t : Nat) (f : PageState → PageState) : (modPage s t f).spdm = s.spdm := rfl
@[simp] theorem modPage_answers (s : State) (t : Nat) (f : PageState → PageState) : (modPage s t f).answers = s.answers := rfl
@[simp] theorem modPage_hbmUsed (s : State) (t : Nat) (f : PageState → PageState) : (modPage s t f).hbmUsed = s.hbmUsed := rfl
@[simp] theorem modPage_vfOn (s : State) (t : Nat) (f : PageState → PageState) : (modPage s t f).vfOn = s.vfOn := rfl
@[simp] theorem modPage_heldAcc (s : State) (t : Nat) (f : PageState → PageState) : (modPage s t f).heldAcc = s.heldAcc := rfl
@[simp] theorem modPage_freeCtr (s : State) (t : Nat) (f : PageState → PageState) : (modPage s t f).freeCtr = s.freeCtr := rfl
@[simp] theorem modPage_pending (s : State) (t : Nat) (f : PageState → PageState) : (modPage s t f).pending = s.pending := rfl

@[simp] theorem modTally_mem (s : State) (t : Nat) (f : TallyUnit → TallyUnit) : (modTally s t f).mem = s.mem := rfl
@[simp] theorem modTally_parity (s : State) (t : Nat) (f : TallyUnit → TallyUnit) : (modTally s t f).parity = s.parity := rfl
@[simp] theorem modTally_beads (s : State) (t : Nat) (f : TallyUnit → TallyUnit) : (modTally s t f).beads = s.beads := rfl
@[simp] theorem modTally_brushes (s : State) (t : Nat) (f : TallyUnit → TallyUnit) : (modTally s t f).brushes = s.brushes := rfl
@[simp] theorem modTally_ports (s : State) (t : Nat) (f : TallyUnit → TallyUnit) : (modTally s t f).ports = s.ports := rfl
@[simp] theorem modTally_ctxs (s : State) (t : Nat) (f : TallyUnit → TallyUnit) : (modTally s t f).ctxs = s.ctxs := rfl
@[simp] theorem modTally_books (s : State) (t : Nat) (f : TallyUnit → TallyUnit) : (modTally s t f).books = s.books := rfl
@[simp] theorem modTally_fns (s : State) (t : Nat) (f : TallyUnit → TallyUnit) : (modTally s t f).fns = s.fns := rfl
@[simp] theorem modTally_ledger (s : State) (t : Nat) (f : TallyUnit → TallyUnit) : (modTally s t f).ledger = s.ledger := rfl
@[simp] theorem modTally_stroke (s : State) (t : Nat) (f : TallyUnit → TallyUnit) : (modTally s t f).stroke = s.stroke := rfl
@[simp] theorem modTally_aux (s : State) (t : Nat) (f : TallyUnit → TallyUnit) : (modTally s t f).aux = s.aux := rfl
@[simp] theorem modTally_spine (s : State) (t : Nat) (f : TallyUnit → TallyUnit) : (modTally s t f).spine = s.spine := rfl
@[simp] theorem modTally_sec (s : State) (t : Nat) (f : TallyUnit → TallyUnit) : (modTally s t f).sec = s.sec := rfl
@[simp] theorem modTally_pwr (s : State) (t : Nat) (f : TallyUnit → TallyUnit) : (modTally s t f).pwr = s.pwr := rfl
@[simp] theorem modTally_pins (s : State) (t : Nat) (f : TallyUnit → TallyUnit) : (modTally s t f).pins = s.pins := rfl
@[simp] theorem modTally_tap (s : State) (t : Nat) (f : TallyUnit → TallyUnit) : (modTally s t f).tap = s.tap := rfl
@[simp] theorem modTally_spdm (s : State) (t : Nat) (f : TallyUnit → TallyUnit) : (modTally s t f).spdm = s.spdm := rfl
@[simp] theorem modTally_answers (s : State) (t : Nat) (f : TallyUnit → TallyUnit) : (modTally s t f).answers = s.answers := rfl
@[simp] theorem modTally_hbmUsed (s : State) (t : Nat) (f : TallyUnit → TallyUnit) : (modTally s t f).hbmUsed = s.hbmUsed := rfl
@[simp] theorem modTally_vfOn (s : State) (t : Nat) (f : TallyUnit → TallyUnit) : (modTally s t f).vfOn = s.vfOn := rfl
@[simp] theorem modTally_heldAcc (s : State) (t : Nat) (f : TallyUnit → TallyUnit) : (modTally s t f).heldAcc = s.heldAcc := rfl
@[simp] theorem modTally_freeCtr (s : State) (t : Nat) (f : TallyUnit → TallyUnit) : (modTally s t f).freeCtr = s.freeCtr := rfl
@[simp] theorem modTally_pending (s : State) (t : Nat) (f : TallyUnit → TallyUnit) : (modTally s t f).pending = s.pending := rfl

@[simp] theorem putPort_mem (s : State) (p : Nat) (x : Port) : (putPort s p x).mem = s.mem := rfl
@[simp] theorem putPort_parity (s : State) (p : Nat) (x : Port) : (putPort s p x).parity = s.parity := rfl
@[simp] theorem putPort_beads (s : State) (p : Nat) (x : Port) : (putPort s p x).beads = s.beads := rfl
@[simp] theorem putPort_brushes (s : State) (p : Nat) (x : Port) : (putPort s p x).brushes = s.brushes := rfl
@[simp] theorem putPort_slates (s : State) (p : Nat) (x : Port) : (putPort s p x).slates = s.slates := rfl
@[simp] theorem putPort_ctxs (s : State) (p : Nat) (x : Port) : (putPort s p x).ctxs = s.ctxs := rfl
@[simp] theorem putPort_books (s : State) (p : Nat) (x : Port) : (putPort s p x).books = s.books := rfl
@[simp] theorem putPort_fns (s : State) (p : Nat) (x : Port) : (putPort s p x).fns = s.fns := rfl
@[simp] theorem putPort_ledger (s : State) (p : Nat) (x : Port) : (putPort s p x).ledger = s.ledger := rfl
@[simp] theorem putPort_stroke (s : State) (p : Nat) (x : Port) : (putPort s p x).stroke = s.stroke := rfl
@[simp] theorem putPort_aux (s : State) (p : Nat) (x : Port) : (putPort s p x).aux = s.aux := rfl
@[simp] theorem putPort_spine (s : State) (p : Nat) (x : Port) : (putPort s p x).spine = s.spine := rfl
@[simp] theorem putPort_sec (s : State) (p : Nat) (x : Port) : (putPort s p x).sec = s.sec := rfl
@[simp] theorem putPort_pwr (s : State) (p : Nat) (x : Port) : (putPort s p x).pwr = s.pwr := rfl
@[simp] theorem putPort_pins (s : State) (p : Nat) (x : Port) : (putPort s p x).pins = s.pins := rfl
@[simp] theorem putPort_tap (s : State) (p : Nat) (x : Port) : (putPort s p x).tap = s.tap := rfl
@[simp] theorem putPort_spdm (s : State) (p : Nat) (x : Port) : (putPort s p x).spdm = s.spdm := rfl
@[simp] theorem putPort_answers (s : State) (p : Nat) (x : Port) : (putPort s p x).answers = s.answers := rfl
@[simp] theorem putPort_hbmUsed (s : State) (p : Nat) (x : Port) : (putPort s p x).hbmUsed = s.hbmUsed := rfl
@[simp] theorem putPort_vfOn (s : State) (p : Nat) (x : Port) : (putPort s p x).vfOn = s.vfOn := rfl
@[simp] theorem putPort_heldAcc (s : State) (p : Nat) (x : Port) : (putPort s p x).heldAcc = s.heldAcc := rfl
@[simp] theorem putPort_freeCtr (s : State) (p : Nat) (x : Port) : (putPort s p x).freeCtr = s.freeCtr := rfl
@[simp] theorem putPort_pending (s : State) (p : Nat) (x : Port) : (putPort s p x).pending = s.pending := rfl

@[simp] theorem modPort_mem (s : State) (p : Nat) (f : Port → Port) : (modPort s p f).mem = s.mem := rfl
@[simp] theorem modPort_parity (s : State) (p : Nat) (f : Port → Port) : (modPort s p f).parity = s.parity := rfl
@[simp] theorem modPort_beads (s : State) (p : Nat) (f : Port → Port) : (modPort s p f).beads = s.beads := rfl
@[simp] theorem modPort_brushes (s : State) (p : Nat) (f : Port → Port) : (modPort s p f).brushes = s.brushes := rfl
@[simp] theorem modPort_slates (s : State) (p : Nat) (f : Port → Port) : (modPort s p f).slates = s.slates := rfl
@[simp] theorem modPort_ctxs (s : State) (p : Nat) (f : Port → Port) : (modPort s p f).ctxs = s.ctxs := rfl
@[simp] theorem modPort_books (s : State) (p : Nat) (f : Port → Port) : (modPort s p f).books = s.books := rfl
@[simp] theorem modPort_fns (s : State) (p : Nat) (f : Port → Port) : (modPort s p f).fns = s.fns := rfl
@[simp] theorem modPort_ledger (s : State) (p : Nat) (f : Port → Port) : (modPort s p f).ledger = s.ledger := rfl
@[simp] theorem modPort_stroke (s : State) (p : Nat) (f : Port → Port) : (modPort s p f).stroke = s.stroke := rfl
@[simp] theorem modPort_aux (s : State) (p : Nat) (f : Port → Port) : (modPort s p f).aux = s.aux := rfl
@[simp] theorem modPort_spine (s : State) (p : Nat) (f : Port → Port) : (modPort s p f).spine = s.spine := rfl
@[simp] theorem modPort_sec (s : State) (p : Nat) (f : Port → Port) : (modPort s p f).sec = s.sec := rfl
@[simp] theorem modPort_pwr (s : State) (p : Nat) (f : Port → Port) : (modPort s p f).pwr = s.pwr := rfl
@[simp] theorem modPort_pins (s : State) (p : Nat) (f : Port → Port) : (modPort s p f).pins = s.pins := rfl
@[simp] theorem modPort_tap (s : State) (p : Nat) (f : Port → Port) : (modPort s p f).tap = s.tap := rfl
@[simp] theorem modPort_spdm (s : State) (p : Nat) (f : Port → Port) : (modPort s p f).spdm = s.spdm := rfl
@[simp] theorem modPort_answers (s : State) (p : Nat) (f : Port → Port) : (modPort s p f).answers = s.answers := rfl
@[simp] theorem modPort_hbmUsed (s : State) (p : Nat) (f : Port → Port) : (modPort s p f).hbmUsed = s.hbmUsed := rfl
@[simp] theorem modPort_vfOn (s : State) (p : Nat) (f : Port → Port) : (modPort s p f).vfOn = s.vfOn := rfl
@[simp] theorem modPort_heldAcc (s : State) (p : Nat) (f : Port → Port) : (modPort s p f).heldAcc = s.heldAcc := rfl
@[simp] theorem modPort_freeCtr (s : State) (p : Nat) (f : Port → Port) : (modPort s p f).freeCtr = s.freeCtr := rfl
@[simp] theorem modPort_pending (s : State) (p : Nat) (f : Port → Port) : (modPort s p f).pending = s.pending := rfl

@[simp] theorem putCtx_mem (s : State) (c : Nat) (x : Ctx) : (putCtx s c x).mem = s.mem := rfl
@[simp] theorem putCtx_parity (s : State) (c : Nat) (x : Ctx) : (putCtx s c x).parity = s.parity := rfl
@[simp] theorem putCtx_beads (s : State) (c : Nat) (x : Ctx) : (putCtx s c x).beads = s.beads := rfl
@[simp] theorem putCtx_brushes (s : State) (c : Nat) (x : Ctx) : (putCtx s c x).brushes = s.brushes := rfl
@[simp] theorem putCtx_slates (s : State) (c : Nat) (x : Ctx) : (putCtx s c x).slates = s.slates := rfl
@[simp] theorem putCtx_ports (s : State) (c : Nat) (x : Ctx) : (putCtx s c x).ports = s.ports := rfl
@[simp] theorem putCtx_books (s : State) (c : Nat) (x : Ctx) : (putCtx s c x).books = s.books := rfl
@[simp] theorem putCtx_fns (s : State) (c : Nat) (x : Ctx) : (putCtx s c x).fns = s.fns := rfl
@[simp] theorem putCtx_ledger (s : State) (c : Nat) (x : Ctx) : (putCtx s c x).ledger = s.ledger := rfl
@[simp] theorem putCtx_stroke (s : State) (c : Nat) (x : Ctx) : (putCtx s c x).stroke = s.stroke := rfl
@[simp] theorem putCtx_aux (s : State) (c : Nat) (x : Ctx) : (putCtx s c x).aux = s.aux := rfl
@[simp] theorem putCtx_spine (s : State) (c : Nat) (x : Ctx) : (putCtx s c x).spine = s.spine := rfl
@[simp] theorem putCtx_sec (s : State) (c : Nat) (x : Ctx) : (putCtx s c x).sec = s.sec := rfl
@[simp] theorem putCtx_pwr (s : State) (c : Nat) (x : Ctx) : (putCtx s c x).pwr = s.pwr := rfl
@[simp] theorem putCtx_pins (s : State) (c : Nat) (x : Ctx) : (putCtx s c x).pins = s.pins := rfl
@[simp] theorem putCtx_tap (s : State) (c : Nat) (x : Ctx) : (putCtx s c x).tap = s.tap := rfl
@[simp] theorem putCtx_spdm (s : State) (c : Nat) (x : Ctx) : (putCtx s c x).spdm = s.spdm := rfl
@[simp] theorem putCtx_answers (s : State) (c : Nat) (x : Ctx) : (putCtx s c x).answers = s.answers := rfl
@[simp] theorem putCtx_hbmUsed (s : State) (c : Nat) (x : Ctx) : (putCtx s c x).hbmUsed = s.hbmUsed := rfl
@[simp] theorem putCtx_vfOn (s : State) (c : Nat) (x : Ctx) : (putCtx s c x).vfOn = s.vfOn := rfl
@[simp] theorem putCtx_heldAcc (s : State) (c : Nat) (x : Ctx) : (putCtx s c x).heldAcc = s.heldAcc := rfl
@[simp] theorem putCtx_freeCtr (s : State) (c : Nat) (x : Ctx) : (putCtx s c x).freeCtr = s.freeCtr := rfl
@[simp] theorem putCtx_pending (s : State) (c : Nat) (x : Ctx) : (putCtx s c x).pending = s.pending := rfl

@[simp] theorem putFn_mem (s : State) (f : Nat) (x : Fn) : (putFn s f x).mem = s.mem := rfl
@[simp] theorem putFn_parity (s : State) (f : Nat) (x : Fn) : (putFn s f x).parity = s.parity := rfl
@[simp] theorem putFn_beads (s : State) (f : Nat) (x : Fn) : (putFn s f x).beads = s.beads := rfl
@[simp] theorem putFn_brushes (s : State) (f : Nat) (x : Fn) : (putFn s f x).brushes = s.brushes := rfl
@[simp] theorem putFn_slates (s : State) (f : Nat) (x : Fn) : (putFn s f x).slates = s.slates := rfl
@[simp] theorem putFn_ports (s : State) (f : Nat) (x : Fn) : (putFn s f x).ports = s.ports := rfl
@[simp] theorem putFn_ctxs (s : State) (f : Nat) (x : Fn) : (putFn s f x).ctxs = s.ctxs := rfl
@[simp] theorem putFn_books (s : State) (f : Nat) (x : Fn) : (putFn s f x).books = s.books := rfl
@[simp] theorem putFn_ledger (s : State) (f : Nat) (x : Fn) : (putFn s f x).ledger = s.ledger := rfl
@[simp] theorem putFn_stroke (s : State) (f : Nat) (x : Fn) : (putFn s f x).stroke = s.stroke := rfl
@[simp] theorem putFn_aux (s : State) (f : Nat) (x : Fn) : (putFn s f x).aux = s.aux := rfl
@[simp] theorem putFn_spine (s : State) (f : Nat) (x : Fn) : (putFn s f x).spine = s.spine := rfl
@[simp] theorem putFn_sec (s : State) (f : Nat) (x : Fn) : (putFn s f x).sec = s.sec := rfl
@[simp] theorem putFn_pwr (s : State) (f : Nat) (x : Fn) : (putFn s f x).pwr = s.pwr := rfl
@[simp] theorem putFn_pins (s : State) (f : Nat) (x : Fn) : (putFn s f x).pins = s.pins := rfl
@[simp] theorem putFn_tap (s : State) (f : Nat) (x : Fn) : (putFn s f x).tap = s.tap := rfl
@[simp] theorem putFn_spdm (s : State) (f : Nat) (x : Fn) : (putFn s f x).spdm = s.spdm := rfl
@[simp] theorem putFn_answers (s : State) (f : Nat) (x : Fn) : (putFn s f x).answers = s.answers := rfl
@[simp] theorem putFn_hbmUsed (s : State) (f : Nat) (x : Fn) : (putFn s f x).hbmUsed = s.hbmUsed := rfl
@[simp] theorem putFn_vfOn (s : State) (f : Nat) (x : Fn) : (putFn s f x).vfOn = s.vfOn := rfl
@[simp] theorem putFn_heldAcc (s : State) (f : Nat) (x : Fn) : (putFn s f x).heldAcc = s.heldAcc := rfl
@[simp] theorem putFn_freeCtr (s : State) (f : Nat) (x : Fn) : (putFn s f x).freeCtr = s.freeCtr := rfl
@[simp] theorem putFn_pending (s : State) (f : Nat) (x : Fn) : (putFn s f x).pending = s.pending := rfl

@[simp] theorem modFn_mem (s : State) (f : Nat) (g : Fn → Fn) : (modFn s f g).mem = s.mem := rfl
@[simp] theorem modFn_parity (s : State) (f : Nat) (g : Fn → Fn) : (modFn s f g).parity = s.parity := rfl
@[simp] theorem modFn_beads (s : State) (f : Nat) (g : Fn → Fn) : (modFn s f g).beads = s.beads := rfl
@[simp] theorem modFn_brushes (s : State) (f : Nat) (g : Fn → Fn) : (modFn s f g).brushes = s.brushes := rfl
@[simp] theorem modFn_slates (s : State) (f : Nat) (g : Fn → Fn) : (modFn s f g).slates = s.slates := rfl
@[simp] theorem modFn_ports (s : State) (f : Nat) (g : Fn → Fn) : (modFn s f g).ports = s.ports := rfl
@[simp] theorem modFn_ctxs (s : State) (f : Nat) (g : Fn → Fn) : (modFn s f g).ctxs = s.ctxs := rfl
@[simp] theorem modFn_books (s : State) (f : Nat) (g : Fn → Fn) : (modFn s f g).books = s.books := rfl
@[simp] theorem modFn_ledger (s : State) (f : Nat) (g : Fn → Fn) : (modFn s f g).ledger = s.ledger := rfl
@[simp] theorem modFn_stroke (s : State) (f : Nat) (g : Fn → Fn) : (modFn s f g).stroke = s.stroke := rfl
@[simp] theorem modFn_aux (s : State) (f : Nat) (g : Fn → Fn) : (modFn s f g).aux = s.aux := rfl
@[simp] theorem modFn_spine (s : State) (f : Nat) (g : Fn → Fn) : (modFn s f g).spine = s.spine := rfl
@[simp] theorem modFn_sec (s : State) (f : Nat) (g : Fn → Fn) : (modFn s f g).sec = s.sec := rfl
@[simp] theorem modFn_pwr (s : State) (f : Nat) (g : Fn → Fn) : (modFn s f g).pwr = s.pwr := rfl
@[simp] theorem modFn_pins (s : State) (f : Nat) (g : Fn → Fn) : (modFn s f g).pins = s.pins := rfl
@[simp] theorem modFn_tap (s : State) (f : Nat) (g : Fn → Fn) : (modFn s f g).tap = s.tap := rfl
@[simp] theorem modFn_spdm (s : State) (f : Nat) (g : Fn → Fn) : (modFn s f g).spdm = s.spdm := rfl
@[simp] theorem modFn_answers (s : State) (f : Nat) (g : Fn → Fn) : (modFn s f g).answers = s.answers := rfl
@[simp] theorem modFn_hbmUsed (s : State) (f : Nat) (g : Fn → Fn) : (modFn s f g).hbmUsed = s.hbmUsed := rfl
@[simp] theorem modFn_vfOn (s : State) (f : Nat) (g : Fn → Fn) : (modFn s f g).vfOn = s.vfOn := rfl
@[simp] theorem modFn_heldAcc (s : State) (f : Nat) (g : Fn → Fn) : (modFn s f g).heldAcc = s.heldAcc := rfl
@[simp] theorem modFn_freeCtr (s : State) (f : Nat) (g : Fn → Fn) : (modFn s f g).freeCtr = s.freeCtr := rfl
@[simp] theorem modFn_pending (s : State) (f : Nat) (g : Fn → Fn) : (modFn s f g).pending = s.pending := rfl

@[simp] theorem logRecord_mem (s : State) (r : LogRec) : (logRecord s r).mem = s.mem := rfl
@[simp] theorem logRecord_parity (s : State) (r : LogRec) : (logRecord s r).parity = s.parity := rfl
@[simp] theorem logRecord_beads (s : State) (r : LogRec) : (logRecord s r).beads = s.beads := rfl
@[simp] theorem logRecord_brushes (s : State) (r : LogRec) : (logRecord s r).brushes = s.brushes := rfl
@[simp] theorem logRecord_slates (s : State) (r : LogRec) : (logRecord s r).slates = s.slates := rfl
@[simp] theorem logRecord_ports (s : State) (r : LogRec) : (logRecord s r).ports = s.ports := rfl
@[simp] theorem logRecord_ctxs (s : State) (r : LogRec) : (logRecord s r).ctxs = s.ctxs := rfl
@[simp] theorem logRecord_books (s : State) (r : LogRec) : (logRecord s r).books = s.books := rfl
@[simp] theorem logRecord_fns (s : State) (r : LogRec) : (logRecord s r).fns = s.fns := rfl
@[simp] theorem logRecord_stroke (s : State) (r : LogRec) : (logRecord s r).stroke = s.stroke := rfl
@[simp] theorem logRecord_aux (s : State) (r : LogRec) : (logRecord s r).aux = s.aux := rfl
@[simp] theorem logRecord_spine (s : State) (r : LogRec) : (logRecord s r).spine = s.spine := rfl
@[simp] theorem logRecord_sec (s : State) (r : LogRec) : (logRecord s r).sec = s.sec := rfl
@[simp] theorem logRecord_pwr (s : State) (r : LogRec) : (logRecord s r).pwr = s.pwr := rfl
@[simp] theorem logRecord_pins (s : State) (r : LogRec) : (logRecord s r).pins = s.pins := rfl
@[simp] theorem logRecord_tap (s : State) (r : LogRec) : (logRecord s r).tap = s.tap := rfl
@[simp] theorem logRecord_spdm (s : State) (r : LogRec) : (logRecord s r).spdm = s.spdm := rfl
@[simp] theorem logRecord_answers (s : State) (r : LogRec) : (logRecord s r).answers = s.answers := rfl
@[simp] theorem logRecord_hbmUsed (s : State) (r : LogRec) : (logRecord s r).hbmUsed = s.hbmUsed := rfl
@[simp] theorem logRecord_vfOn (s : State) (r : LogRec) : (logRecord s r).vfOn = s.vfOn := rfl
@[simp] theorem logRecord_heldAcc (s : State) (r : LogRec) : (logRecord s r).heldAcc = s.heldAcc := rfl
@[simp] theorem logRecord_freeCtr (s : State) (r : LogRec) : (logRecord s r).freeCtr = s.freeCtr := rfl
@[simp] theorem logRecord_pending (s : State) (r : LogRec) : (logRecord s r).pending = s.pending := rfl

@[simp] theorem freeBits_mem (s : State) : (freeBits s).2.mem = s.mem := rfl
@[simp] theorem freeBits_parity (s : State) : (freeBits s).2.parity = s.parity := rfl
@[simp] theorem freeBits_beads (s : State) : (freeBits s).2.beads = s.beads := rfl
@[simp] theorem freeBits_brushes (s : State) : (freeBits s).2.brushes = s.brushes := rfl
@[simp] theorem freeBits_slates (s : State) : (freeBits s).2.slates = s.slates := rfl
@[simp] theorem freeBits_ports (s : State) : (freeBits s).2.ports = s.ports := rfl
@[simp] theorem freeBits_ctxs (s : State) : (freeBits s).2.ctxs = s.ctxs := rfl
@[simp] theorem freeBits_books (s : State) : (freeBits s).2.books = s.books := rfl
@[simp] theorem freeBits_fns (s : State) : (freeBits s).2.fns = s.fns := rfl
@[simp] theorem freeBits_ledger (s : State) : (freeBits s).2.ledger = s.ledger := rfl
@[simp] theorem freeBits_stroke (s : State) : (freeBits s).2.stroke = s.stroke := rfl
@[simp] theorem freeBits_aux (s : State) : (freeBits s).2.aux = s.aux := rfl
@[simp] theorem freeBits_spine (s : State) : (freeBits s).2.spine = s.spine := rfl
@[simp] theorem freeBits_sec (s : State) : (freeBits s).2.sec = s.sec := rfl
@[simp] theorem freeBits_pwr (s : State) : (freeBits s).2.pwr = s.pwr := rfl
@[simp] theorem freeBits_pins (s : State) : (freeBits s).2.pins = s.pins := rfl
@[simp] theorem freeBits_tap (s : State) : (freeBits s).2.tap = s.tap := rfl
@[simp] theorem freeBits_spdm (s : State) : (freeBits s).2.spdm = s.spdm := rfl
@[simp] theorem freeBits_answers (s : State) : (freeBits s).2.answers = s.answers := rfl
@[simp] theorem freeBits_hbmUsed (s : State) : (freeBits s).2.hbmUsed = s.hbmUsed := rfl
@[simp] theorem freeBits_vfOn (s : State) : (freeBits s).2.vfOn = s.vfOn := rfl
@[simp] theorem freeBits_heldAcc (s : State) : (freeBits s).2.heldAcc = s.heldAcc := rfl
@[simp] theorem freeBits_pending (s : State) : (freeBits s).2.pending = s.pending := rfl

@[simp] theorem getBead_putBead_same (s : State) (i : Nat) (b : Bead) : getBead (putBead s i b) i = b := by
  simp [getBead, putBead]
theorem getBead_putBead_ne (s : State) (i j : Nat) (b : Bead) (h : j ≠ i) : getBead (putBead s i b) j = getBead s j := by
  simp [getBead, putBead, mapGet_mapPut_ne _ _ _ _ _ h]
@[simp] theorem getBrush_putBrush_same (s : State) (k : Nat) (b : Brush) : getBrush (putBrush s k b) k = b := by
  simp [getBrush, putBrush]
theorem getBrush_putBrush_ne (s : State) (k j : Nat) (b : Brush) (h : j ≠ k) :
    getBrush (putBrush s k b) j = getBrush s j := by
  simp [getBrush, putBrush, mapGet_mapPut_ne _ _ _ _ _ h]
@[simp] theorem getSlate_putSlate_same (s : State) (t : Nat) (x : Slate) : getSlate (putSlate s t x) t = x := by
  simp [getSlate, putSlate]
theorem getSlate_putSlate_ne (s : State) (t j : Nat) (x : Slate) (h : j ≠ t) :
    getSlate (putSlate s t x) j = getSlate s j := by
  simp [getSlate, putSlate, mapGet_mapPut_ne _ _ _ _ _ h]
@[simp] theorem getPort_putPort_same (s : State) (p : Nat) (x : Port) : getPort (putPort s p x) p = x := by
  simp [getPort, putPort]
theorem getPort_putPort_ne (s : State) (p j : Nat) (x : Port) (h : j ≠ p) :
    getPort (putPort s p x) j = getPort s j := by
  simp [getPort, putPort, mapGet_mapPut_ne _ _ _ _ _ h]
@[simp] theorem getCtx_putCtx_same (s : State) (c : Nat) (x : Ctx) : getCtx (putCtx s c x) c = x := by
  simp [getCtx, putCtx]
theorem getCtx_putCtx_ne (s : State) (c j : Nat) (x : Ctx) (h : j ≠ c) : getCtx (putCtx s c x) j = getCtx s j := by
  simp [getCtx, putCtx, mapGet_mapPut_ne _ _ _ _ _ h]
@[simp] theorem getFn_putFn_same (s : State) (f : Nat) (x : Fn) : getFn (putFn s f x) f = x := by
  simp [getFn, putFn]
theorem getFn_putFn_ne (s : State) (f j : Nat) (x : Fn) (h : j ≠ f) : getFn (putFn s f x) j = getFn s j := by
  simp [getFn, putFn, mapGet_mapPut_ne _ _ _ _ _ h]

@[simp] theorem handOf_setHand_same (b : Bead) (h : Nat) (x : Hand) : handOf (setHand b h x) h = x := by
  simp [handOf, setHand]
theorem handOf_setHand_ne (b : Bead) (h k : Nat) (x : Hand) (n : k ≠ h) : handOf (setHand b h x) k = handOf b k := by
  simp [handOf, setHand, mapGet_mapPut_ne _ _ _ _ _ n]
@[simp] theorem setHand_setHand_same (b : Bead) (h : Nat) (x y : Hand) : setHand (setHand b h x) h y = setHand b h y := by
  simp [setHand]
@[simp] theorem putBead_putBead_same (s : State) (i : Nat) (b c : Bead) : putBead (putBead s i b) i c = putBead s i c := by
  simp [putBead]
@[simp] theorem getHand_putHand_same (s : State) (i h : Nat) (x : Hand) : getHand (putHand s i h x) i h = x := by
  simp [getHand, putHand]
theorem getHand_putHand_ne (s : State) (i h j k : Nat) (x : Hand) (n : j ≠ i ∨ k ≠ h) :
    getHand (putHand s i h x) j k = getHand s j k := by
  by_cases e : j = i
  · subst e
    simp [getHand, putHand, handOf_setHand_ne _ _ _ _ (n.resolve_left (fun c => c rfl))]
  · simp [getHand, putHand, getBead_putBead_ne _ _ _ _ e]
@[simp] theorem putHand_putHand_same (s : State) (i h : Nat) (x y : Hand) :
    putHand (putHand s i h x) i h y = putHand s i h y := by
  simp [putHand]
@[simp] theorem modHand_putHand (s : State) (i h : Nat) (x : Hand) (f : Hand → Hand) :
    modHand (putHand s i h x) i h f = putHand s i h (f x) := by
  simp [modHand]
@[simp] theorem getHand_modHand_same (s : State) (i h : Nat) (f : Hand → Hand) :
    getHand (modHand s i h f) i h = f (getHand s i h) := by
  simp [modHand]
@[simp] theorem getBead_modBead_same (s : State) (i : Nat) (f : Bead → Bead) :
    getBead (modBead s i f) i = f (getBead s i) := by
  simp [modBead]
@[simp] theorem getBrush_modBrush_same (s : State) (k : Nat) (f : Brush → Brush) :
    getBrush (modBrush s k f) k = f (getBrush s k) := by
  simp [modBrush]
@[simp] theorem getSlate_modSlate_same (s : State) (t : Nat) (f : Slate → Slate) :
    getSlate (modSlate s t f) t = f (getSlate s t) := by
  simp [modSlate]
@[simp] theorem getPort_modPort_same (s : State) (p : Nat) (f : Port → Port) :
    getPort (modPort s p f) p = f (getPort s p) := by
  simp [modPort]
@[simp] theorem getFn_modFn_same (s : State) (f : Nat) (g : Fn → Fn) : getFn (modFn s f g) f = g (getFn s f) := by
  simp [modFn]
@[simp] theorem getBead_putHand_same (s : State) (i h : Nat) (x : Hand) :
    getBead (putHand s i h x) i = setHand (getBead s i) h x := by
  simp [putHand]

end Sys2Proof.Machine
end

