-- ==== Sys2Proof/Laws/Lines.lean ====
section
/-! SUPPORT. What a glyph that stands alone on its line does, by what it evaluates to. -/

namespace Sys2Proof.Machine

/-- Every glyph stands in one of the six slots (R93). -/
theorem glyphOf_slot {c : Instr} {g : Glyph} (h : glyphOf c = some g) : g.slot ≤ 5 := by
  unfold glyphOf at h
  split at h <;> first
    | (injection h with h; subst h; decide)
    | (injection h with h; subst h; simp)
    | cases h

theorem slot_legal (g : Glyph) (h : g.stop = true) (hs : g.slot ≤ 5) : lineLegal [g] = true := by
  simp [lineLegal, lineLegal.rising, lineLegal.single, h, hs]

/-- A line whose effects take nothing finds room (R151, R153, R166, R246). -/
theorem roomStop_none {s : State} {i : Nat} {l : List Eff} (h : l.foldl (effNeeds s i) {} = {}) : roomStop s i l = none := by
  simp [roomStop, h]

theorem alone_not_twice (b : Bead) (g : Glyph) : boundTwice b [g] = none := by
  unfold boundTwice
  by_cases e : g.slot = 2
  · have h3 : (g.slot == 3) = false := by simp [e]
    simp [h3]
  · have h2 : (g.slot == 2) = false := by simp [e]
    simp [h2]

/-- The line of a ready glyph, handed over glyph by glyph, is that glyph alone. -/
theorem issue_alone {s : State} {hr : HandRef} {c : Instr} {g : Glyph} (r : Ready s hr c g) :
    issue hr true c s = (tryLine s (beadNo hr.br) hr.hand.val [(g, some c)]).2 := by
  obtain ⟨hg, hs, hn, h1, h2, h3, h4, h5, h6, h7, h8, h9⟩ := r
  simp only [beadOf, handAt] at *
  simp [issue, h1, h2, h3, h4, h5, h6, runLine, hg]

/-- A ready glyph is judged by what it evaluates to, as the only glyph of its line. -/
theorem issue_ok {s : State} {hr : HandRef} {c : Instr} {g : Glyph} {o : Out} (r : Ready s hr c g)
    (he : evalGlyph (aloneEnv s hr (hasLexit [c])) c = .ok o)
    (hroom : roomStop s (beadNo hr.br) (o.start ++ o.effs) = none) :
    issue hr true c s = lineIssues s (beadNo hr.br) hr.hand.val (handAt s hr).pc 1
      (successor (handAt s hr) (handAt s hr).pc 1 (hasLexit [c])) [c] [(g.slot, o)] := by
  rw [issue_alone r]
  obtain ⟨hg, hs, hn, h1, h2, h3, h4, h5, h6, h7, h8, h9⟩ := r
  simp only [beadOf, handAt] at *
  simp only [aloneEnv, handAt] at he
  simp [tryLine, h7, h8, h9, slot_legal g hs (glyphOf_slot hg), lineResults, hn, he, alone_not_twice, hroom]

/-- A ready glyph that raises one fault takes it, and its line has issued. -/
theorem issue_fault {s : State} {hr : HandRef} {c : Instr} {g : Glyph} {f : GFault} (r : Ready s hr c g)
    (he : evalGlyph (aloneEnv s hr (hasLexit [c])) c = .error (.fault f)) :
    issue hr true c s = glyphFault (pointTo s (beadNo hr.br) hr.hand.val) (beadNo hr.br) hr.hand.val (handAt s hr).pc 1
      g.slot f := by
  rw [issue_alone r]
  obtain ⟨hg, hs, hn, h1, h2, h3, h4, h5, h6, h7, h8, h9⟩ := r
  simp only [beadOf, handAt] at *
  simp only [aloneEnv, handAt] at he
  simp [tryLine, h7, h8, h9, slot_legal g hs (glyphOf_slot hg), lineResults, hn, he, alone_not_twice, isHold, worstFault,
    lineFault]

/-- A ready glyph whose condition does not hold withdraws its line (R96). -/
theorem issue_asleep {s : State} {hr : HandRef} {c : Instr} {g : Glyph} {w : WaitKind} {l : Option TallyLatch}
    (r : Ready s hr c g) (he : evalGlyph (aloneEnv s hr (hasLexit [c])) c = .error (.asleep w l)) :
    issue hr true c s = withdraw s (beadNo hr.br) hr.hand.val w l [c] := by
  rw [issue_alone r]
  obtain ⟨hg, hs, hn, h1, h2, h3, h4, h5, h6, h7, h8, h9⟩ := r
  simp only [beadOf, handAt] at *
  simp only [aloneEnv, handAt] at he
  simp [tryLine, h7, h8, h9, slot_legal g hs (glyphOf_slot hg), lineResults, hn, he, alone_not_twice, isHold]

/-- An effect on the hand of a retired line joins the line's own. -/
@[simp] theorem modHand_retireTo (s : State) (hr : HandRef) (j : Option (W32 × Bool)) (f g : Hand → Hand) :
    modHand (retireTo s hr j f) (beadNo hr.br) hr.hand.val g = retireTo s hr j (fun x => g (f x)) := by
  simp [modHand, retireTo, putHand, getHand]

@[simp] theorem handAt_retireTo (s : State) (hr : HandRef) (j : Option (W32 × Bool)) (f : Hand → Hand) :
    handAt (retireTo s hr j f) hr = f (emptied (continueAt (handAt s hr) (handAt s hr).pc 1 false j)) := by
  simp [handAt, retireTo, getHand]

/-- The pointer of R61 named by a hand reference. -/
theorem pointTo_hand (s : State) (hr : HandRef) :
    pointTo s (beadNo hr.br) hr.hand.val = modBead s (beadNo hr.br) (fun b => issuedBy b hr.hand) := by
  have hf : (⟨hr.hand.val % 4, Nat.mod_lt _ (by decide)⟩ : Fin 4) = hr.hand :=
    Fin.ext (Nat.mod_eq_of_lt hr.hand.isLt)
  simp only [pointTo, hf]

/-- Moving the pointer leaves every hand as it was. -/
@[simp] theorem getHand_pointTo (s : State) (i h k : Nat) : getHand (pointTo s i h) i k = getHand s i k := by
  unfold getHand pointTo
  rw [getBead_modBead_same]
  rfl

/-- A glyph alone on its line that writes `l` and leaves nothing open retires at once. -/
theorem lineIssues_alone (s : State) (hr : HandRef) (c : Instr) (n : Nat) (l : List Eff) (succ : W32)
    (hd : drawsFree c = false) (hx : effLexit l = false) (hl : lostOf l = none) :
    lineIssues s (beadNo hr.br) hr.hand.val (handAt s hr).pc 1 succ [c] [(n, { effs := l })]
      = applyEffs (retireTo s hr (jumpOf l) id) (beadNo hr.br) hr.hand.val (handAt s hr).pc 1
          (successor (handAt s hr) (handAt s hr).pc 1 false) (handAt s hr) false l := by
  have hh : getHand (modBead s (beadNo hr.br) (fun b => issuedBy b hr.hand)) (beadNo hr.br) hr.hand.val
      = handAt s hr := by
    unfold getHand
    rw [getBead_modBead_same]
    rfl
  simp only [lineIssues, pointTo_hand, List.any_cons, List.any_nil, hd, Bool.or_false, Bool.false_eq_true, if_false,
    List.flatMap_cons, List.flatMap_nil, List.filterMap_cons, List.filterMap_nil, List.append_nil, applyEffs,
    List.filter_nil, List.foldl_nil, commitLine, lineEffs, hh, hx, hl]
  simp [retireTo, putHand, modBead, beadOf, emptied]

/-- The same from the glyph's readiness and what it evaluates to. -/
theorem issue_writes {s : State} {hr : HandRef} {c : Instr} {g : Glyph} {l : List Eff} (r : Ready s hr c g)
    (hc : hasLexit [c] = false) (hd : drawsFree c = false) (hx : effLexit l = false) (hl : lostOf l = none)
    (hroom : roomStop s (beadNo hr.br) l = none) (he : evalGlyph (aloneEnv s hr false) c = writes l) :
    issue hr true c s = applyEffs (retireTo s hr (jumpOf l) id) (beadNo hr.br) hr.hand.val (handAt s hr).pc 1
          (successor (handAt s hr) (handAt s hr).pc 1 false) (handAt s hr) false l := by
  have := issue_ok r (o := { effs := l }) (by rw [hc, he]; rfl) (by simpa using hroom)
  rw [this, lineIssues_alone s hr c g.slot l _ hd hx hl]

/-- A ready glyph that writes `l` answers the state that applying `l` to the retired line gives. -/
theorem next_writes {s : State} {hr : HandRef} {c : Instr} {g : Glyph} {l : List Eff} (r : Ready s hr c g)
    (he : evalGlyph (aloneEnv s hr false) c = writes l)
    (hc : hasLexit [c] = false) (hd : drawsFree c = false) (hx : effLexit l = false) (hl : lostOf l = none)
    (hroom : roomStop s (beadNo hr.br) l = none) (t : State)
    (ht : applyEffs (retireTo s hr (jumpOf l) id) (beadNo hr.br) hr.hand.val (handAt s hr).pc 1
          (successor (handAt s hr) (handAt s hr).pc 1 false) (handAt s hr) false l = t) :
    (Host.Outcome.next (issue hr true c s) : Host.Outcome State Fault Refusal) = .next t := by
  rw [issue_writes r hc hd hx hl hroom he, ht]

/-- The checks of a local operand pass where `LocalOk` holds. -/
theorem checkLocal_ok (s : State) (hr : HandRef) (a n : Nat) (lx : Bool)
   (hl : LocalFree s hr a n) : checkLocal (aloneEnv s hr lx) a n n = .ok () := by
  obtain ⟨h1, h2, h3, h4⟩ := hl
  have h1' := h1
  clear h1
  simp [checkLocal, aloneEnv, envBead, envPl] at *
  simp only [beadOf] at *
  simp [Nat.not_le.2 h1', h2, h3, h4]

/-- A local load that passes its checks gives the bytes at its EA. -/
theorem evalLoad_local (s : State) (hr : HandRef) (c : Instr) (o : BitVec 22) (n : Nat) (put : List W8 → Eff)
   (hm : opdMode o ≤ 3) (hl : LocalOk s hr (localEa (handAt s hr) o).toNat n) :
   evalLoad (aloneEnv s hr false) c o n put = writes [put (loadBytes s (localAt hr (localEa (handAt s hr) o).toNat) n)] := by
  obtain ⟨⟨h1, h2, h3, h4⟩, h5⟩ := hl
  have h5' : opdMode o ≠ 5 := by omega
  have h1' : ¬ (2097152 ≤ (localEa (handAt s hr) o).toNat) := Nat.not_le.2 h1
  clear h1
  simp [evalLoad, operandBytes, h5', localLoad, checkLocal, aloneEnv, envBead, envPl] at *
  simp only [beadOf] at *
  simp [Nat.not_le.2 h1', h2, h3, h4, h5, Bind.bind, Except.bind, writes, localAt]

theorem loadBytes_length (s : State) (a n : Nat) : (loadBytes s a n).length = n := by simp [loadBytes, memReadN]

@[simp] theorem toBytes_length (n v : Nat) : (toBytes n v).length = n := by
  induction n generalizing v with
  | zero => rfl
  | succ n ih => simp [toBytes, ih]

/-- A local store that passes its checks writes its bytes at its EA. -/
theorem evalSt_local (s : State) (hr : HandRef) (c : Instr) (o : BitVec 22) (n v : Nat) 
   (hm : opdMode o ≤ 3) (hl : LocalFree s hr (localEa (handAt s hr) o).toNat (toBytes n v).length) :
   evalSt (aloneEnv s hr false) c o (toBytes n v) = writes [.store (localAt hr (localEa (handAt s hr) o).toNat) (toBytes n v)] := by
  have h5' : opdMode o ≠ 5 := by omega
  simp only [evalSt, if_neg h5']
  have := checkLocal_ok s hr _ _ false hl
  simp only [aloneEnv, toBytes_length] at *
  simp [this, Bind.bind, Except.bind, localAt]

end Sys2Proof.Machine
end

