-- ==== Sys2Proof/Laws/Alu.lean ====
section
/-! SUPPORT. What the S-slot operations compute, in the terms of R43, R105 and R107. -/

namespace Sys2Proof.Machine

/-- The PSW bits that a set of flags names. -/
def flagMask (f : FlagSet) : W32 := mN ||| mZ ||| (if f.v.isSome then mV else 0) ||| (if f.c.isSome then mC else 0)

/-- The PSW bits of a set of flags, in place. -/
def flagBits (f : FlagSet) : W32 :=
  (if f.n then mN else 0) ||| (if f.z then mZ else 0) ||| (if f.v = some true then mV else 0)
    ||| (if f.c = some true then mC else 0)

theorem merge_flags (w : W32) (f : FlagSet) : merge32 w (flagMask f) (flagBits f) = withFlags w f := by
  obtain ⟨n, z, v, c⟩ := f
  unfold flagMask flagBits withFlags merge32 mN mZ mV mC
  rcases v with _ | _ | _ <;> rcases c with _ | _ | _ <;> cases n <;> cases z <;> simp [setBitTo] <;>
    (apply BitVec.eq_of_getLsbD_eq; intro i hi; interval_cases i <;> simp)

/-- An exact value does not fit in 64 bits just if wrapping changes it. -/
theorem tooWide_eq (i : Int) (r : W64) (h : r = BitVec.ofInt 64 i) : tooWide i = (r.toInt != i) := by
  subst h
  rw [BitVec.toInt_ofInt, Bool.eq_iff_iff]
  simp only [tooWide, Int.bmod, bne_iff_ne, ne_eq, Bool.or_eq_true, decide_eq_true_eq]
  omega

theorem nz_eq (r : W64) : nzOf r = (if (flagsNZ r).n then mN else 0) ||| (if (flagsNZ r).z then mZ else 0) := by
  have h : r.getLsbD 63 = r.msb := by rw [BitVec.msb_eq_getLsbD_last]
  unfold nzOf flagsNZ
  rw [h]
  by_cases z : r = 0
  · subst z; simp
  · have : (r == 0) = false := by simpa using z
    simp only [this, z, if_false, Bool.false_eq_true]

theorem out_nz (r : W64) : outNZ r = ⟨some r, flagMask (flagsNZ r), flagBits (flagsNZ r), none⟩ := by
  rw [outNZ, nz_eq]
  simp [flagMask, flagBits, flagsNZ]

theorem out_nzc (r : W64) (c : Bool) : outNZC r c
    = ⟨some r, flagMask { flagsNZ r with c := some c }, flagBits { flagsNZ r with c := some c }, none⟩ := by
  rw [outNZC, nz_eq]
  simp [flagMask, flagBits, flagsNZ]

theorem out_nzcv (psw : W32) (r : W64) (c o : Bool) : outNZCV psw r c o
    = ⟨some r, flagMask { flagsNZ r with c := some c, v := some o },
        flagBits { flagsNZ r with c := some c, v := some o }, if o && pswOve psw then some 0x0C else none⟩ := by
  rw [outNZCV, nz_eq]
  cases c <;> cases o <;> simp [flagMask, flagBits, flagsNZ, mN, mZ, mV, mC, BitVec.or_assoc]

theorem add_lt (a v : W64) : decide (2 ^ 64 ≤ a.toNat + v.toNat) = decide ((a + v).toNat < a.toNat) := by
  rw [BitVec.toNat_add, decide_eq_decide]; omega

theorem alu_eq (op : AluOp) (psw : W32) (a v : W64) :
    aluEval op psw a v = ⟨if aluKeepsAcc op then none else some (aluSays op a v).1, flagMask (aluSays op a v).2,
      flagBits (aluSays op a v).2, (aluTraps op psw a v).map BitVec.toNat⟩ := by
  cases op
  case add =>
    rw [aluEval, tooWide_eq _ (a + v) (by simp [BitVec.ofInt_add])]
    simp only [out_nzcv, aluKeepsAcc, aluSays, aluTraps, pswOve, add_lt]
    simp
    all_goals try (split <;> simp_all)
  case sub =>
    rw [aluEval, tooWide_eq _ (a - v) (by rw [← BitVec.toInt_inj]; simp [BitVec.toInt_sub])]
    simp [out_nzcv, aluKeepsAcc, aluSays, aluTraps, pswOve]
    all_goals try (split <;> simp_all)
  case mul =>
    rw [aluEval, tooWide_eq _ (a * v) (by rw [← BitVec.toInt_inj]; simp [BitVec.toInt_mul])]
    simp [out_nzcv, aluKeepsAcc, aluSays, aluTraps, pswOve]
    all_goals try (split <;> simp_all)
  case cmp =>
    rw [aluEval, tooWide_eq _ (a - v) (by rw [← BitVec.toInt_inj]; simp [BitVec.toInt_sub])]
    simp [out_nzcv, aluKeepsAcc, aluSays, aluTraps, pswOve]
  case tst => simp [aluEval, out_nz, aluKeepsAcc, aluSays, aluTraps]
  case and => simp [aluEval, out_nz, aluKeepsAcc, aluSays, aluTraps]
  case or => simp [aluEval, out_nz, aluKeepsAcc, aluSays, aluTraps]
  case xor => simp [aluEval, out_nz, aluKeepsAcc, aluSays, aluTraps]
  case shl => simp [aluEval, out_nzc, aluKeepsAcc, aluSays, aluTraps]
  case shr => simp [aluEval, out_nzc, aluKeepsAcc, aluSays, aluTraps]
  case sar => simp [aluEval, out_nzc, aluKeepsAcc, aluSays, aluTraps]
  case min => simp [aluEval, out_nz, aluKeepsAcc, aluSays, aluTraps, BitVec.sle]
  case max =>
    by_cases h1 : a.toInt ≤ v.toInt <;> by_cases h2 : v.toInt ≤ a.toInt <;> simp [aluEval, out_nz, aluKeepsAcc, aluSays, aluTraps, BitVec.sle, h1, h2]
    · have : a = v := BitVec.toInt_inj.1 (by omega)
      simp [this]
    · omega
  case minu => simp [aluEval, out_nz, aluKeepsAcc, aluSays, aluTraps, BitVec.le_def]
  case maxu =>
    by_cases h1 : a.toNat ≤ v.toNat <;> by_cases h2 : v.toNat ≤ a.toNat <;> simp [aluEval, out_nz, aluKeepsAcc, aluSays, aluTraps, BitVec.le_def, h1, h2]
    · have : a = v := BitVec.toNat_inj.1 (by omega)
      simp [this]
    · omega
  case divu =>
    by_cases h : v = 0
    · subst h; simp [aluEval, divZero, out_nz, aluKeepsAcc, aluSays, aluTraps, pswDze]
      all_goals try (split <;> simp_all)
    · have : BitVec.ofNat 64 (a.toNat / v.toNat) = a / v := by
        rw [← BitVec.toNat_inj]; simp [Nat.mod_eq_of_lt (Nat.lt_of_le_of_lt (Nat.div_le_self a.toNat v.toNat) a.isLt)]
      simp [aluEval, h, out_nz, aluKeepsAcc, aluSays, aluTraps, this]
      all_goals try simp_all
  case remu =>
    by_cases h : v = 0
    · subst h; simp [aluEval, divZero, out_nz, aluKeepsAcc, aluSays, aluTraps, pswDze]
      all_goals try (split <;> simp_all)
    · have : BitVec.ofNat 64 (a.toNat % v.toNat) = a % v := by
        rw [← BitVec.toNat_inj]; simp [Nat.mod_eq_of_lt (Nat.lt_of_le_of_lt (Nat.mod_le a.toNat v.toNat) a.isLt)]
      simp [aluEval, h, out_nz, aluKeepsAcc, aluSays, aluTraps, this]
      all_goals try simp_all
  case div =>
    by_cases h : v = 0
    · subst h; simp [aluEval, divZero, out_nz, aluKeepsAcc, aluSays, aluTraps, pswDze]
      all_goals try (split <;> simp_all)
    · have e : a.sdiv v = BitVec.ofInt 64 (Int.tdiv a.toInt v.toInt) := by
        rw [← BitVec.toInt_inj, BitVec.toInt_sdiv, BitVec.toInt_ofInt]
      simp only [aluEval, h, if_false, tooWide_eq _ (a.sdiv v) e]
      simp [out_nz, aluKeepsAcc, aluSays, aluTraps, h, ← e, pswOve]
      all_goals try (split <;> simp_all)
  case rem =>
    by_cases h : v = 0
    · subst h; simp [aluEval, divZero, out_nz, aluKeepsAcc, aluSays, aluTraps, pswDze]
      all_goals try (split <;> simp_all)
    · have e : a.sdiv v = BitVec.ofInt 64 (Int.tdiv a.toInt v.toInt) := by
        rw [← BitVec.toInt_inj, BitVec.toInt_sdiv, BitVec.toInt_ofInt]
      have e' : a.srem v = BitVec.ofInt 64 (Int.tmod a.toInt v.toInt) := by
        rw [← BitVec.toInt_srem, BitVec.ofInt_toInt]
      simp only [aluEval, h, if_false, tooWide_eq _ (a.sdiv v) e]
      simp [out_nz, aluKeepsAcc, aluSays, aluTraps, h, ← e', pswOve]
      all_goals try (split <;> simp_all)
  case mulhs =>
    have : BitVec.ofInt 64 (a.toInt * v.toInt / 2 ^ 64) = ((a.signExtend 128 * v.signExtend 128) >>> 64).truncate 64 := by
      have e : a.signExtend 128 * v.signExtend 128 = BitVec.ofInt 128 (a.toInt * v.toInt) := by
        rw [BitVec.ofInt_mul]; rfl
      rw [e, ← BitVec.toNat_inj]
      generalize a.toInt * v.toInt = i
      simp [BitVec.toNat_ofInt, Nat.shiftRight_eq_div_pow]
      omega
    simp [aluEval, out_nz, aluKeepsAcc, aluSays, aluTraps] at *
    simp [this]
  case mulhu =>
    have : BitVec.ofNat 64 (a.toNat * v.toNat / 2 ^ 64) = ((a.zeroExtend 128 * v.zeroExtend 128) >>> 64).truncate 64 := by
      rw [← BitVec.toNat_inj]
      have := a.isLt; have := v.isLt
      have : a.toNat * v.toNat < 2^128 := by nlinarith
      simp [Nat.shiftRight_eq_div_pow]
      omega
    simp [aluEval, out_nz, aluKeepsAcc, aluSays, aluTraps] at *
    simp [this]

end Sys2Proof.Machine
end

