-- ==== Sys2Proof/Laws/Mem.lean ====
section
/-! SUPPORT. Lemmas of memory: every operation keeps the canonical form, and what a read finds after a write. -/

namespace Sys2Proof.Machine

/-- The canonical form said of a whole list: addresses strictly rise and no byte is zero. -/
theorem memWf_iff (m : List Host.Cell) :
    memWf m = true ↔ m.Pairwise (fun c d => c.1 < d.1) ∧ ∀ c ∈ m, c.2 ≠ 0 := by
  induction m with
  | nil => simp [memWf]
  | cons c m ih =>
    cases m with
    | nil => simp [memWf]
    | cons d m =>
      simp only [memWf, Bool.and_eq_true, ih, List.pairwise_cons, List.forall_mem_cons, decide_eq_true_eq, bne_iff_ne]
      constructor
      · rintro ⟨⟨h1, h2⟩, ⟨h3, h4⟩, h5, h6⟩
        exact ⟨⟨⟨h2, fun e he => Nat.lt_trans h2 (h3 e he)⟩, h3, h4⟩, h1, h5, h6⟩
      · rintro ⟨⟨⟨h2, -⟩, h3, h4⟩, h1, h5, h6⟩
        exact ⟨⟨h1, h2⟩, ⟨h3, h4⟩, h5, h6⟩

/-- A well-formed list's tail is well-formed, and its head is the lowest address, with a byte that is not zero. -/
theorem memWf_cons {c : Host.Cell} {m : List Host.Cell} :
    memWf (c :: m) = true ↔ (∀ d ∈ m, c.1 < d.1) ∧ c.2 ≠ 0 ∧ memWf m = true := by
  simp only [memWf_iff, List.pairwise_cons, List.forall_mem_cons]
  constructor
  · rintro ⟨⟨h1, h2⟩, h3, h4⟩; exact ⟨h1, h3, h2, h4⟩
  · rintro ⟨h1, h3, h2, h4⟩; exact ⟨⟨h1, h2⟩, h3, h4⟩

/-- A write adds no address but its own. -/
theorem mem_memWrite {m : List Host.Cell} {a : Nat} {b : W8} {c : Host.Cell} (h : c ∈ memWrite m a b) :
    c = (a, b) ∨ c ∈ m := by
  induction m with
  | nil => simp only [memWrite] at h; split at h <;> simp_all
  | cons d m ih =>
    obtain ⟨k, x⟩ := d
    simp only [memWrite] at h
    split at h
    · split at h
      · exact .inr (List.mem_cons_of_mem _ h)
      · rcases List.mem_cons.1 h with h | h
        · exact .inl (by rw [h])
        · exact .inr (List.mem_cons_of_mem _ h)
    · split at h
      · split at h <;> simp_all
      · rcases List.mem_cons.1 h with h | h
        · exact .inr (by simp [h])
        · rcases ih h with h | h
          · exact .inl h
          · exact .inr (by simp [h])

theorem memWf_memWrite {m : List Host.Cell} (a : Nat) (b : W8) (h : memWf m = true) : memWf (memWrite m a b) = true := by
  induction m with
  | nil => simp only [memWrite]; split <;> simp_all [memWf]
  | cons d m ih =>
    obtain ⟨k, x⟩ := d
    obtain ⟨h1, h2, h3⟩ := memWf_cons.1 h
    simp only [memWrite]
    split
    · next e =>
      subst e
      split
      · exact h3
      · next hb => exact memWf_cons.2 ⟨h1, hb, h3⟩
    · next hk =>
      split
      · next hl =>
        split
        · exact h
        · next hb =>
          refine memWf_cons.2 ⟨fun e he => ?_, hb, h⟩
          rcases List.mem_cons.1 he with rfl | he
          · exact hl
          · exact Nat.lt_trans hl (h1 e he)
      · next hl =>
        refine memWf_cons.2 ⟨fun e he => ?_, h2, ih h3⟩
        rcases mem_memWrite he with rfl | he
        · show k < a; omega
        · exact h1 e he

theorem memWf_memWriteN (bs : List W8) : ∀ {m : List Host.Cell} (a : Nat), memWf m = true →
    memWf (memWriteN m a bs) = true := by
  induction bs with
  | nil => intro m a h; exact h
  | cons b bs ih => intro m a h; exact ih (a + 1) (memWf_memWrite a b h)

theorem memWf_memZero {m : List Host.Cell} (lo hi : Nat) (h : memWf m = true) : memWf (memZero m lo hi) = true := by
  rw [memWf_iff] at h ⊢
  exact ⟨h.1.filter _, fun c hc => h.2 c (List.mem_filter.1 hc).1⟩

theorem memOk_storeBytes {s : State} (a : Nat) (bs : List W8) (h : MemOk s) : MemOk (storeBytes s a bs) :=
  memWf_memWriteN bs a h

theorem memOk_zeroRange {s : State} (lo hi : Nat) (h : MemOk s) : MemOk (zeroRange s lo hi) := memWf_memZero lo hi h

/-- Nothing below the first listed address is listed. -/
theorem memRead_below {m : List Host.Cell} {a : Nat} (h : ∀ c ∈ m, a < c.1) : memRead m a = 0 := by
  cases m with
  | nil => rfl
  | cons c m =>
    have hc := h c (by simp)
    simp [memRead, hc, Nat.ne_of_gt hc]

/-- A read after a write to the same address gives the byte written. -/
theorem memRead_memWrite_same {m : List Host.Cell} (a : Nat) (b : W8) (h : memWf m = true) :
    memRead (memWrite m a b) a = b := by
  induction m with
  | nil => simp only [memWrite]; split <;> simp_all [memRead]
  | cons d m ih =>
    obtain ⟨k, x⟩ := d
    obtain ⟨h1, h2, h3⟩ := memWf_cons.1 h
    simp only [memWrite]
    split
    · next e =>
      subst e
      split
      · next hb => rw [hb]; exact memRead_below h1
      · simp [memRead]
    · next hk =>
      split
      · next hl =>
        split
        · next hb => simp [memRead, hk, hl, hb]
        · simp [memRead]
      · next hl => simp [memRead, hk, hl, ih h3]

/-- A write leaves every other address as it was. -/
theorem memRead_memWrite_ne {m : List Host.Cell} (a c : Nat) (b : W8) (h : memWf m = true) (hc : c ≠ a) :
    memRead (memWrite m a b) c = memRead m c := by
  induction m with
  | nil => simp only [memWrite]; split <;> simp [memRead, Ne.symm hc]
  | cons d m ih =>
    obtain ⟨k, x⟩ := d
    obtain ⟨h1, h2, h3⟩ := memWf_cons.1 h
    simp only [memWrite]
    split
    · next e =>
      subst e
      split
      · simp only [memRead, Ne.symm hc, if_false]
        split
        · next hl => exact memRead_below (fun e he => Nat.lt_trans hl (h1 e he))
        · rfl
      · simp [memRead, Ne.symm hc]
    · next hk =>
      split
      · next hl =>
        split
        · rfl
        · simp only [memRead, Ne.symm hc, if_false]
          split
          · next hca => simp [Nat.lt_trans hca hl, Nat.ne_of_gt (Nat.lt_trans hca hl)]
          · rfl
      · simp [memRead, ih h3]

/-- A read outside a run of bytes written is unchanged. -/
theorem memRead_memWriteN_out (bs : List W8) : ∀ {m : List Host.Cell} (a c : Nat), memWf m = true →
    (c < a ∨ a + bs.length ≤ c) → memRead (memWriteN m a bs) c = memRead m c := by
  induction bs with
  | nil => intro m a c _ _; rfl
  | cons b bs ih =>
    intro m a c h hc
    simp only [List.length_cons] at hc
    rw [memWriteN, ih (a + 1) c (memWf_memWrite a b h) (by omega), memRead_memWrite_ne a c b h (by omega)]

/-- A read inside a run of bytes written gives the byte written there. -/
theorem memRead_memWriteN_in (bs : List W8) : ∀ {m : List Host.Cell} (a k : Nat) (hk : k < bs.length), memWf m = true →
    memRead (memWriteN m a bs) (a + k) = bs[k] := by
  induction bs with
  | nil => intro m a k hk; simp at hk
  | cons b bs ih =>
    intro m a k hk h
    rw [memWriteN]
    cases k with
    | zero =>
      rw [memRead_memWriteN_out bs (a + 1) (a + 0) (memWf_memWrite a b h) (by omega)]
      simpa using memRead_memWrite_same a b h
    | succ k =>
      rw [show a + (k + 1) = a + 1 + k by omega, ih (a + 1) k (by simpa using hk) (memWf_memWrite a b h)]
      simp

/-- A read after a range was zeroed. -/
theorem memRead_memZero {m : List Host.Cell} (lo hi a : Nat) (h : memWf m = true) :
    memRead (memZero m lo hi) a = if lo ≤ a ∧ a < hi then 0 else memRead m a := by
  induction m with
  | nil => simp [memZero, memRead]
  | cons d m ih =>
    obtain ⟨k, x⟩ := d
    obtain ⟨h1, h2, h3⟩ := memWf_cons.1 h
    have ih := ih h3
    by_cases hin : lo ≤ k ∧ k < hi
    · rw [show memZero ((k, x) :: m) lo hi = memZero m lo hi by simp [memZero, hin.1, hin.2], ih]
      by_cases ha : a = k
      · subst ha; simp [hin]
      · simp only [memRead, Ne.symm ha, if_false]
        split
        · rfl
        · split
          · next hl => exact memRead_below (fun e he => Nat.lt_trans hl (h1 e he))
          · rfl
    · have e : memZero ((k, x) :: m) lo hi = (k, x) :: memZero m lo hi := by
        simp only [memZero]
        rw [List.filter_cons_of_pos]
        simp only [Bool.not_eq_true', Bool.and_eq_false_iff, decide_eq_false_iff_not]
        omega
      rw [e]
      simp only [memRead]
      split
      · next ha => subst ha; simp [hin]
      · split
        · simp
        · exact ih

end Sys2Proof.Machine
end

