-- ==== Sys2Proof/WellFormed.lean ====
section
/-! DEFINITION. Which commands are well formed: the limits that the spec sets on the operands of a command and that its
operand types do not say. A command that is not well formed stands for nothing that a sender can send. -/

namespace Sys2Proof

/-- A request's arguments lie within the 240 bytes of R319. -/
def CmdReq.wf (q : CmdReq) : Bool := q.args.length ≤ 60

/-- A power of two from 1 to 64. -/
def accessSize (n : Nat) : Bool := [1, 2, 4, 8, 16, 32, 64].contains n

/-- An access of 1 to 64 bytes that stays within 4 KiB (R316; no PCI Express request crosses 4 KiB). -/
def barAccess (off n : Nat) : Bool := 1 ≤ n && n ≤ 64 && off % 4096 + n ≤ 4096

/-- The size of an access: what is written, or how much is read. -/
def accessLen (write : Option (List W8)) (len : Fin 65) : Nat :=
  match write with
  | some bs => bs.length
  | none => len.val

/-- Whether a word of control space is aligned (R401). -/
def CtlPlace.wf : CtlPlace → Bool
  | .addr a => a.toNat % 4 == 0
  | _ => true

/-- Whether a register lies at an aligned word (R317, R401). -/
def RegPlace.wf : RegPlace → Bool
  | .ctl _ a => a.wf
  | .well _ off | .bar4 _ off => off.toNat % 4 == 0
  | _ => true

/-- Whether a command is well formed. -/
def Instr.wf : Instr → Bool
  | .identify q | .capability q | .ctxCreate q | .ctxDestroy q | .ctxAttr q | .mapPages q | .unmapPages q
  | .bookLoad q | .bookUnload q | .ringBind q | .ringUnbind q | .cancel q | .ledgerQuery q | .strokeConfig q
  | .linkConfig q | .linkRoute q | .power q | .fwCommit q | .slateReset q | .errlogRead q => q.wf
  | .syncDump r => r.q.wf
  | .debugChallenge q _ | .debugUnlock q _ _ | .debugClose q _ | .fwStage q _ _ | .dbgMbox _ q _ => q.wf
  | .mctpMessage t _ _ q => q.wf && t != .doe
  | .registerWrite w _ _ _ => w.wf
  | .dbgAccess _ a => a.wf
  | .broadcastWrite _ a _ => a.toNat % 4 == 0 && 0x11000000 ≤ a.toNat && a.toNat < 0x16100000
  | .broadcastRead _ a => a.toNat % 4 == 0 && 0x11000000 ≤ a.toNat && a.toNat < 0x16100000
  | .bar2Access _ off write len => barAccess off.toNat (accessLen write len)
  | .atomicop _ off _ wide _ _ => off.toNat % (if wide then 8 else 4) == 0
  | .debugWindowAccess _ off write len =>
    accessSize (accessLen write len) && off.toNat % accessLen write len == 0
  | .flitReceive _ _ data => data.length == 4
  | .managementPacket _ pkt => pkt.content.length ≤ 240
  | .managementCreditBlock _ _ acks => acks.length ≤ 8
  | .challenge _ nonce => nonce.length == 32
  | .pldmFirmwareUpdate _ image _ _ => image.length ≤ 0x1000000
  | _ => true

end Sys2Proof
end

