-- ==== Sys2Proof/Tests/Slice0.lean ====
section
/-! SUPPORT. Tests: what well-formedness refuses, single steps against values worked out from the spec, and for each
statement a concrete state and operands that meet its hypotheses, clause by clause. -/

namespace Sys2Proof.Tests

open Sys2Proof Sys2Proof.Machine

set_option Elab.async false

/-- The device with its rails up, out of reset, booted and its ledger ready. -/
def up : State := { State.reset with pins := { inReset := false, booted := true }, ledger := { ready := true } }
/-- The device with a debug session at a level. -/
def sess (l : BitVec 2) (s : State) : State := { s with sec := { s.sec with session := some ⟨1, l, false⟩ } }
/-- Bead 0 of Slate 0, its hands 0 and 2, and brush 1 of Slate 0. -/
def br : BeadRef := ⟨0, 0⟩
@[inherit_doc br] def h0 : HandRef := ⟨br, 0⟩
@[inherit_doc br] def h2 : HandRef := ⟨br, 2⟩
@[inherit_doc br] def brush1 : BrushRef := ⟨0, 1⟩
/-- The glyph of a command. -/
def gl (c : Instr) : Glyph := (glyphOf c).getD ⟨h0, true, 0, 0, 0, .z, 0, 0⟩
/-- `Ready` for a glyph command with the glyph it stands for. -/
def Rdy (s : State) (hr : HandRef) (c : Instr) : Prop := Ready s hr c (gl c)
/-- The value of a result or of an outcome, and another value where it has none. -/
def okOr {ε α : Type} (d : α) : Except ε α → α
  | .ok v => v
  | .error _ => d
@[inherit_doc okOr] def nextOr (d : State) : Host.Outcome State Fault Refusal → State
  | .next t => t
  | _ => d
theorem ok_self {ε α : Type} {d : α} {y : Except ε α} (h : y.isOk = true) : y = .ok (okOr d y) := by
  cases y with
  | ok v => rfl
  | error e => cases h
theorem ok_is {ε α : Type} [DecidableEq α] {v : α} {y : Except ε α}
    (h : (match y with | .ok w => decide (w = v) | .error _ => false) = true) : y = .ok v := by
  cases y with
  | ok w => exact congrArg _ (of_decide_eq_true h)
  | error e => cases h
theorem next_self {d : State} {y : Host.Outcome State Fault Refusal}
    (h : (match y with | .next _ => true | _ => false) = true) : y = .next (nextOr d y) := by
  cases y with
  | next t => rfl
  | fault f => cases h
  | refused r => cases h
theorem not_hbm {a : Nat} (h : (match regionOf a with | .hbm _ _ => false | _ => true) = true) :
    ∀ k off, regionOf a ≠ .hbm k off := by
  intro k off e
  rw [e] at h
  cases h

/-- A running device with one hand set. -/
def mk (hr : HandRef) (x : Hand) : State := putHand up (beadNo hr.br) hr.hand.val x
/-- Hand 2 Running at keeper level, at user level with a slice, and hand 0 at keeper level. -/
def keeper : Hand :=
  { st := .running, pc := 0x10000, psw := 0x20000001, x0 := 0x18010, x1 := 7, acc := 0x8123456789ABCDEF, fp := 0x18100 }
@[inherit_doc keeper] def user : Hand := { keeper with psw := 0x20000000, sliceBase := 0x10000, sliceLimit := 0x20000 }
@[inherit_doc keeper] def first : Hand := { keeper with psw := 1 }
/-- A bead changed by a function of its registers, endpoints, core or blotter. -/
def regs (f : BeadRegs → BeadRegs) (s : State) : State := modBead s 0 (fun b => { b with regs := f b.regs })
@[inherit_doc regs] def ends (f : Endpoints → Endpoints) (s : State) : State :=
  modBead s 0 (fun b => { b with ends := f b.ends })
@[inherit_doc regs] def core (f : BeadCore → BeadCore) (s : State) : State :=
  modBead s 0 (fun b => { b with core := f b.core })
@[inherit_doc regs] def blot (f : Blotter → Blotter) (s : State) : State :=
  modBead s 0 (fun b => { b with blot := f b.blot })
/-- Slate 0, its page or its tally unit changed. -/
def slate (f : Slate → Slate) (s : State) : State := modSlate s 0 f
@[inherit_doc slate] def page (f : PageState → PageState) (s : State) : State := modPage s 0 f
@[inherit_doc slate] def tallies (f : TallyUnit → TallyUnit) (s : State) : State :=
  slate (fun x => { x with tallies := f x.tallies }) s
/-- Memory with bytes at an address. -/
def bytesAt (a : Nat) (bs : List W8) (s : State) : State := { s with mem := memWriteN s.mem a bs }
/-- n bytes that differ. -/
def some_ (n : Nat) : List W8 := (List.range n).map (fun k => BitVec.ofNat 8 (7 * k + 129))
/-- Bytes put at an offset of an image. -/
def putW (img : List W8) (o : Nat) (bs : List W8) : List W8 := img.take o ++ bs ++ img.drop (o + bs.length)
/-- Context 3 of function f: HBM pages at 2 MiB (cached) and 4 MiB, and a page of bead 5's folio at 6 MiB; its tallies
are the 64 from physical 64 up. -/
def ctxOf (f : Fin 16) : Ctx :=
  { owner := some f
    pages := [(1, ⟨true, true, true, false, 0, 9, none⟩), (2, ⟨true, true, false, false, 0, 10, none⟩),
      (3, ⟨true, true, false, false, 1, folioBase 5 / 0x200000, none⟩)] }
/-- The device with that context, its tally block at Slate 0, and bead 0 bound to it with a blotter of four banks. -/
def ctxUp (f : Fin 16 := 1) : State :=
  tallies (fun u => { u with map := [(3, 0x80010000)], values := [(70, 5)] }) { up with ctxs := [(3, ctxOf f)] }
@[inherit_doc ctxUp] def dev (x : Hand) : State :=
  modBead (putHand (ctxUp) 0 2 x) 0 (fun b => { b with
    regs := { b.regs with ctx := 0x80000003 }, blot := { b.blot with size := 2, pf := true } })
/-- A bound bead with a way that holds a line. -/
def hit (line : Nat) (s : State) : State :=
  blot (fun b => { b with ways := [(4 * (line % 1024) + 1, { valid := true, line := line, age := 1, data := some_ 64 })] }) s
/-- A blotter whose ways have a parity error in every word. -/
def spoilt (s : State) : State := blot (fun b => { b with ways := b.ways.map (fun w => (w.1, { w.2 with bad := 0xFFFF })) }) s
/-- The line at device address 0x1200040, the second of the context's cached page. -/
def line1 : Nat := 0x1200040 / 64
/-- The translation of the address of hand 2. -/
def xlat (s : State) (o : BitVec 22) (n : Nat) (w a : Bool) : Xlat :=
  match checkDev (aloneEnv s h2 false) (devAt s h2 o) n n w a with
  | .ok (.mem x) => x
  | _ => ⟨0, none, false⟩
/-- Every tile with the same shape word, and rows that differ. -/
def shaped (v : W32) : SMap W32 := (List.range 8).map (fun t => (t, v))
@[inherit_doc shaped] def rows : SMap TileRow :=
  (List.range 32).map (fun k => (k, ⟨BitVec.ofNat 512 ((k + 1) * 0x3F80000040000000400000003F800000), 0x7F7F7F7F⟩))
@[inherit_doc shaped] def tiled (v : W32) (x : Hand := { keeper with x1 := 1 }) : State :=
  modBead (mk h2 x) 0 (fun b => { b with tiles := rows, regs := { b.regs with tcfg := shaped v, tileAlloc := 0x22222222 } })
@[inherit_doc shaped] def tiledBut (v : W32) (t : Nat) (w : W32) : State :=
  regs (fun r => { r with tcfg := mapPut r.tcfg t w }) (tiled v)
/-- An open line that waits. -/
def openFor (w : Pending) : OpenLine := { pc := 0x10000, len := 1, succ := 0x10004, why := [w], effs := [] }
/-- A transfer of tile 3 between the own folio and rows at 0x18000. -/
def move (store : Bool) (next : Nat) (x0 : W32 := 0x18000) : Transfer :=
  ⟨3, store, false, false, false, 0, x0, 64, 0x200040, next, []⟩
/-- A state in which a transfer of a 4-row tile is under way, and a drain. -/
def moving (t : Transfer) : State :=
  modBead (bytesAt (folioBase 0 + 0x18000) (some_ 256) (tiled 0x103 { user with openLine := some (openFor (.transfer t)), tsr := 1 }))
    0 (fun b => { b with nibDrains := [⟨1, 2, 0x1400000200080012, [List.replicate 64 0xAA, List.replicate 64 0xBB], [1, 2], 0x11⟩] })
/-- A gate descriptor of R87 at 0x9000 that leads to 0x1000 with one argument. -/
def gated9 (x : Hand) : State :=
  bytesAt (folioBase 0 + 0x9000) (toBytes 4 0x80011000 ++ toBytes 4 0x80000400)
    (regs (fun r => { r with gateBase := 0x9000, gateCount := 2 }) (mk h2 x))
/-- A bead in a free-mode rod with a tray at 0x14000. -/
def trayed (f : BeadRegs → BeadRegs) : State :=
  slate (fun x => { x with freeMask := 1 }) (bytesAt (folioBase 0 + 0x18040) (some_ 64) (regs f (mk h2 keeper)))
/-- A fill descriptor and its slot, and a copy of one row of 21 bytes. -/
def fillDesc (ctally : Nat := 0) : List W8 :=
  toBytes 8 0 ++ toBytes 8 0x20000 ++ toBytes 4 0 ++ toBytes 4 24 ++ toBytes 4 16 ++ toBytes 4 3 ++ toBytes 4 8
    ++ toBytes 4 ctally ++ toBytes 8 0 ++ toBytes 8 0x1122334455667788 ++ toBytes 8 0 ++ toBytes 8 0
@[inherit_doc fillDesc] def copyDesc : List W8 :=
  toBytes 8 0x18001 ++ toBytes 8 0x20003 ++ toBytes 4 64 ++ toBytes 4 64 ++ toBytes 4 21 ++ toBytes 4 1 ++ toBytes 4 0
    ++ toBytes 4 0 ++ toBytes 8 0 ++ toBytes 8 0 ++ toBytes 8 0 ++ toBytes 8 0
@[inherit_doc fillDesc] def quillSlot (d : List W8) (started : Bool) (rows : BitVec 24 := 0) : QuillSlot :=
  { busy := true, desc := d, hand := 2, level := 1, started := started, rows := rows, order := 5 }
@[inherit_doc fillDesc] def quilled (q : QuillSlot) (more : SMap QuillSlot := []) : State :=
  modBead (bytesAt (folioBase 0 + 0x18000) (some_ 64) (dev keeper)) 0 (fun b => { b with quills := (3, q) :: more, quillSeq := 6 })
/-- A ruling image without records, circuits or components, and a book of it alone, with their CRCs. -/
def rulingImg : List W8 :=
  let b := toBytes 4 1 ++ toBytes 4 0x100 ++ List.replicate 0xF8 0
  putW b 0x1C (toBytes 4 (crc32 (crcImage b 0x1C)).toNat)
@[inherit_doc rulingImg] def bookImg : List W8 :=
  let b := toBytes 4 0x4B4F4F42 ++ toBytes 4 1 ++ toBytes 4 0x10000 ++ toBytes 4 0 ++ toBytes 4 0x40 ++ toBytes 4 0x40
    ++ toBytes 4 0x40 ++ toBytes 4 0x148 ++ List.replicate 32 0 ++ toBytes 4 0x48 ++ toBytes 4 0x100 ++ rulingImg
  putW b 0x20 (toBytes 4 (crc32 (crcImage b 0x20)).toNat)
/-- A page, a job of function 1 on it, and a Slate whose rods are all in free mode with a page state. -/
def pg5 : PageDesc := { number := 2, frame := 5 }
@[inherit_doc pg5] def job5 (p : PageDesc := pg5) : SlateJob := ⟨1, 3, 5, 0, p⟩
@[inherit_doc pg5] def paged (f : PageState → PageState) : State :=
  slate (fun x => { x with freeMask := 0xFFFF, pg := f x.pg }) (bytesAt 0x1200000 (some_ 64) (ctxUp))
/-- A segment of 64 bytes from HBM to bead 7, and a book of three pages with one entry that starts with page 0. -/
def seg7 : Seg := ⟨0x1200000, 0, 7, 0x9000, 64⟩
@[inherit_doc seg7] def book3 : Book :=
  ⟨3, 1, false, putW (putW (putW (putW (List.replicate 0x200 0) 8 [3, 0]) 0xC [1, 0]) 0x10 [0x40, 0, 0, 0, 0, 0, 0, 0, 0xC0, 1])
    0x42 [1], [(0, [0])], [], [], []⟩
/-- A circuit from one tap to another, with release tally 6 and windows of 128 bytes at 0x9000 and 0xA000: the image up to
its circuit table, and its entry. -/
def circuitHead : List W8 :=
  toBytes 4 1 ++ List.replicate 12 0 ++ toBytes 4 1 ++ List.replicate (0xC100 - 20) 0
@[inherit_doc circuitHead] def circuitTail (src dst : Nat) : List W8 :=
  toBytes 4 0x80000000 ++ toBytes 4 (src + dst * 0x100) ++ toBytes 4 0x8006 ++ toBytes 4 0 ++ toBytes 8 0x9000
    ++ toBytes 8 0xA000 ++ toBytes 4 128 ++ toBytes 4 128 ++ List.replicate 24 0
@[inherit_doc circuitHead] def circuitImg (src dst : Nat) : List W8 := circuitHead ++ circuitTail src dst
@[inherit_doc circuitHead] def entOf (src dst : Nat) : CircuitEnt :=
  ⟨true, 0, 0, src % 32, src / 32, dst, 0, some 6, none, 0x9000, 0xA000, 128, 128⟩
@[inherit_doc circuitImg] def circuit (src dst : Nat) (val : BitVec 48) (c : Circuit) : State :=
  bytesAt (folioBase 48 + 0x9000) (some_ 128) { tallies (fun u => { u with values := [(70, val)] }) (paged (fun p => { p with
    active := some 2, job := some (job5), frames := [(2, { valid := true, image := circuitImg src dst })], circuits := [(0, c)] }))
    with brushes := [(1, { outQ := [(0, [1, 2])] })] }
/-- Brush 1 with a context and what a function gives it, and orders by their first words. -/
def brushed (f : Brush → Brush) : State :=
  bytesAt (inkBase 1) (some_ 64) { ctxUp with brushes := [(1, f { ctx := 0x80000003, done := 4 })] }
@[inherit_doc brushed] def order (w0 : Nat) (w11 w12 w13 : Nat := 0) : List W32 :=
  [w0, 0x00050011, 32, 2, 0, 0, 0, 0, 0, 0, 0, w11, w12, w13, 0, 0].map (BitVec.ofNat 32)
@[inherit_doc brushed] def drainOrder : List W32 := order 0x80 0x00300000 0x80060000
/-- A port of brush 1 with a beat on its way. -/
def inPort (cfg ptr : W32) : State :=
  { up with brushes := [(1, { inFlight := [(2, [(77, none), (78, none)])], inPorts := [(2, ⟨cfg, 0x1000, 0x1080, ptr⟩)] })] }
/-- A ledger entry of function 1 for book 0 and context 3, and the device that holds it. -/
def ent (st : LState) : LEntry := { fn := 1, seq := 5, words := [5, 0, 3, 0], state := st }
@[inherit_doc ent] def jobbed (e : LEntry) (g : PageState → PageState := id) : State :=
  { paged (fun p => g { p with frames := [(0, { valid := true })] }) with
    books := [(0, book3)], ledger := { ready := true, entries := [e] }, stroke := { cfg := 0 } }
/-- Rings of function 1, and a device where they are bound. -/
def bnd : Binding := ⟨3, 4, 4, 4, 0x200000, 0x5000, 0x6000, 0x7000⟩
@[inherit_doc bnd] def bound (f : Fn → Fn) (s : State) : State := modFn s 1 (fun x => f { x with bind := some bnd })
/-- Four stroke-unit states. -/
def stroked (f : Stroke → Stroke) : State := { up with stroke := f { cfg := 0x80020430, len := 1000, count := 7 } }
@[inherit_doc stroked] def ports3 (s : State) : State := { s with ports := [(2, { cfg := 1 }), (3, { cfg := 0xB }), (4, { cfg := 5 })] }
@[inherit_doc stroked] def mark : Marker := ⟨0, 5, 7, 2000, false, false, false, 0, 0⟩
/-- Entry 2 of the schedule, in a Locked stroke at phase 500, with window 9 of Slate 0. -/
def entried (w0 w2 w3 : Nat) (win : Window := {}) (ps : SMap Port := []) (g : PageState → PageState := id) : State :=
  { page (fun p => g { p with job := some (job5), windows := [(9, win)] }) (ctxUp) with
    stroke := { st := .locked, cfg := 0x80020430, len := 1000, phase := 500, count := 7 }, ports := ps
    aux := { entries := [(2, [BitVec.ofNat 32 w0, 0x10000, BitVec.ofNat 32 w2, BitVec.ofNat 32 w3])] } }
@[inherit_doc entried] def window (w0 : Nat) (isOpen : Bool := false) (flits : Nat := 0) : Window :=
  { words := [BitVec.ofNat 32 w0, 5, 100], isOpen := isOpen, flits := flits, closesAt := 500 }
/-- Port 2 up, with what a function gives it, and a window. -/
def ported (f : Port → Port) (win : Window := {}) : State :=
  { page (fun p => { p with windows := [(9, win)] }) (slate (fun x => { x with tick := 77 }) up) with
    ports := [(2, f { up := true, aligned := true, cfg := 0xD }), (5, { up := true, aligned := true, cfg := 0xF })] }
@[inherit_doc ported] def pkt : MgmtPacket := ⟨0, 0, 9, 4, 33, true, [1, 2, 3]⟩
/-- A request of a command well, and the device with function 1's or the PF's context. -/
def req (args : List Nat) (fn : Fin 16 := 1) (v : W8 := 1) : CmdReq := ⟨fn, v, 0x77, args.map (BitVec.ofNat 32), {}⟩
@[inherit_doc req] def req0 (args : List Nat) : CmdReq := req args 0
@[inherit_doc req] def pf (f : State → State := id) : State := f (ctxUp 0)
@[inherit_doc req] def secd (f : Sec → Sec) : State :=
  pf (fun s => { s with sec := f { s.sec with lifecycle := .sealed, serial := 0x1234, fuseCfg := 2 } })
/-- A debug token of R371 as request arguments, and its nonce. -/
def token (kind level : Nat) : CmdReq :=
  req0 ([0, 162, 1 + level * 0x100 + kind * 0x10000, 0, 0x1234, 0] ++ List.replicate 8 0x07070707)
@[inherit_doc token] def nonce : Nonce := ⟨List.replicate 32 7, 1⟩
/-- A firmware image with FORMAT 1. -/
def fwBytes : List W8 := toBytes 4 0x4D524946 ++ toBytes 4 1 ++ toBytes 4 0 ++ List.replicate 300 0
/-- A device access of hand 2 in flight to a device address. -/
def flying (op : DevOp) (pa : Nat) (fills : List Fill := []) : State :=
  blot (fun b => { b with size := 1, fills := fills }) (bytesAt 0x1200040 (some_ 64) (mk h2 { user with
    reqs := [⟨3, 0x10000, 1, 1, 0x200040, pa, none, op, none, false, false, false, none⟩] }))
/-- A merging-buffer entry of `line1`, and a bead that holds it. -/
def entry (draining resent : Bool) : MergeEntry := { seq := 4, line := line1, mask := 0x8000000000000F03, data := some_ 64, draining := draining, resent := resent }
@[inherit_doc entry] def merged (f : Blotter → Blotter) : State :=
  blot (fun b => f { b with size := 2 }) (bytesAt 0x1200040 (some_ 64) (mk h2 user))
/-- Bead 0's scalar out-endpoint 3 leads to its in-endpoint 1; what is on its way in Slate 0. -/
def meshed (f : Endpoints → Endpoints) (us : List QUnit) (cs : List Credit) : State :=
  slate (fun x => { x with units := us, credits := cs }) (ends f (regs (fun r => { r with rule := [(2, 0x0B000000)] })
    (modBead (mk h2 user) 0 (fun b => { b with route := [(2, 0x0B000000)] }))))
@[inherit_doc meshed] def opened3 (e : Endpoints) : Endpoints :=
  { e with sinClosed := 0, vinClosed := 0, soutClosed := 0, tokClosed := 0, soutCred := [(3, 5)] }
@[inherit_doc meshed] def qunit (net : Net) (ep : Nat) (epoch : BitVec 2 := 0) : QUnit :=
  { net := net, src := 0, srcEp := 3, dst := 0, dstEp := ep, epoch := epoch, word := 77, row := 99, last := true }
/-- A steal of hand 2 from bead 1, whose tray holds two entries. -/
def steals (t : Steal) : State :=
  modBead (mk h2 { user with steal := some t }) 1 (fun b => { b with regs := { b.regs with trayCfg := 0x80014000, trayTail := 5, trayHead := 3 } })
@[inherit_doc steals] def steal (victim : Nat) (answer : Option (Option (List W8)) := none) : Steal :=
  ⟨0x18040, [], victim, [], 1, 0, answer⟩

theorem circuitHead_length : circuitHead.length = 0xC100 := by
  rw [circuitHead, List.length_append, List.length_replicate]
  rfl

theorem leAt_tail (b : List W8) (k n : Nat) : leAt (circuitHead ++ b) (0xC100 + k) n = leAt b k n := by
  rw [leAt, leAt, ← circuitHead_length, List.drop_length_add_append]

theorem active_circuit (a b : Nat) (v : BitVec 48) (x : Circuit) (h : circuitOf (circuitHead ++ circuitTail a b) 0 = entOf a b) :
    activeCircuit (circuit a b v x) 0 0 = some (entOf a b) := by
  have e : activeImage (circuit a b v x) 0 = circuitHead ++ circuitTail a b := rfl
  have n : imgCircuits (circuitHead ++ circuitTail a b) = 1 := rfl
  simp [activeCircuit, e, circuitsOf, n, h, entOf, List.range, List.range.loop]

theorem circuitOf_img (t : List W8) : circuitOf (circuitHead ++ t) 0 =
    ⟨bitAt (leAt t 0 4) 31, fld (leAt t 0 4) 15 0, fld (leAt t 0 4) 21 16, fld (leAt t 4 4) 4 0, fld (leAt t 4 4) 7 5,
      fld (leAt t 4 4) 12 8, fld (leAt t 4 4) 15 13, if bitAt (leAt t 8 4) 15 then some (fld (leAt t 8 4) 9 0) else none,
      if bitAt (leAt t 8 4) 31 then some (fld (leAt t 8 4) 25 16) else none, leAt t 0x10 8, leAt t 0x18 8, leAt t 0x20 4,
      leAt t 0x24 4⟩ := by
  simp only [circuitOf, circuitAt, Nat.mul_zero, Nat.add_assoc, leAt_tail]

/-! Well-formedness: one ill-formed command for each check, and commands that pass. -/

theorem test_wf_refuses :
    [Instr.identify (req (List.replicate 61 0)), .debugChallenge (req (List.replicate 61 0)) false,
      .mctpMessage .i3c 0x7E 1 (req (List.replicate 61 0)), .mctpMessage .doe 0x7E 1 (req []),
      .registerWrite (.ctl .bar0 (.addr 2)) .good 0xF 0, .registerWrite (.well 0 0x302) .good 0xF 0, .dbgAccess none (.addr 3), .broadcastWrite .bar0 0x11000002 0, .broadcastWrite .bar0 0x10FFFFFC 0,
      .broadcastRead .bar0 0x11000001, .broadcastRead .bar0 0x16100000, .bar2Access ⟨0, .good⟩ 0 (some []) 4, .bar2Access ⟨0, .good⟩ 0 none 0,
      .bar2Access ⟨0, .good⟩ 0 (some (some_ 65)) 4, .bar2Access ⟨0, .good⟩ 0xFFC none 8, .atomicop ⟨0, .good⟩ 4 .cas true 0 0,
      .atomicop ⟨0, .good⟩ 2 .swap false 0 0,
      .debugWindowAccess .jtag 0 none 3, .debugWindowAccess .jtag 4 none 8, .flitReceive 2 .clean [1, 2, 3],
      .managementPacket 2 { pkt with content := some_ 241 }, .managementCreditBlock ⟨2, true⟩ 0 (List.replicate 9 ⟨0, 0⟩),
      .challenge .doe (some_ 31)].all (fun c => !c.wf) = true := by decide +kernel
theorem test_wf_refuses_image : (Instr.pldmFirmwareUpdate false (List.replicate 0x1000001 0) true true).wf = false := by
  rw [Instr.wf, List.length_replicate]
  decide +kernel
theorem test_wf_accepts :
    [Instr.identify (req (List.replicate 60 0)), .mctpMessage .i3c 0x7E 1 (req []), .registerWrite (.ctl .bar0 (.addr 4)) .good 0xF 0,
      .broadcastWrite .bar0 0x160FFFFC 0, .bar2Access ⟨0, .good⟩ 0xFFC none 4, .atomicop ⟨0, .good⟩ 4 .cas false 0 0,
      .debugWindowAccess .jtag 8 none 8, .flitReceive 2 .clean [1, 2, 3, 4], .challenge .doe (some_ 32),
      .xaddi h2 true .x0 0x200008].all Instr.wf = true := by decide +kernel
/-- No row of the opcode table gives bits. -/
theorem test_no_word_is_a_command : decodeTableWord 32 0xFFFFFFFF = none := rfl

/-! Single steps, against the worked examples of the spec. -/

/-- The next state of a command. -/
def after (c : Instr) (s : State) : State := nextOr State.reset (step { s with pending := [c] })
/-- Hand 2 of the example of spec/03 on a reserved glyph, with the first glyph of its line on the way. -/
def emulated : State := mk h2 { user with
  pc := 0x42010, sliceBase := 0x40000, sliceLimit := 0x60000, x0 := 5, line := [.xaddi h2 false .x0 0x200040] }
/-- The line of spec/04's loop up to its LOOPI. -/
def looped : State := mk h2 { user with
  pc := 0x41000, sliceBase := 0x40000, sliceLimit := 0x60000, fp := 0x5F000
  line := [.xlea h2 false .x0 0x12000, .ld h2 false 0x200000] }

/-- Spec/03, "emulating a reserved glyph": the save set, the notice's word 0, and X0 unchanged. -/
theorem test_reserved_glyph_faults :
    let s := after (.add h2 true 0x380000) emulated
    ((handAt s h2).st, (handAt s h2).save1, (handAt s h2).x0, (beadIn s br).core.notices.map (·.word0))
      = (.stopped .fault, ⟨0x42010, 0x20000000, 0x00002201, 0x42010⟩, 5, [0x02012200]) := by decide +kernel
/-- Spec/04, "summing a folio array": its first line opens level 0 over one line, 1,000 times. -/
theorem test_loop_opens :
    let x := handAt (after (.loopi h2 true 0x3E8005) looped) h2
    (x.x0, x.acc, x.pc, pswLd x.psw, loopOf x 0) = (0x48000, 0, 0x4100C, 1, ⟨0x4100C, 0x41014, 1000⟩) := by decide +kernel
/-- R43: 2^63 − 1 plus 1 wraps, sets N and V and clears Z and C. -/
theorem test_add_wraps :
    let x := handAt (after (.add h2 true 0x200001) (mk h2 { user with acc := 0x7FFFFFFFFFFFFFFF })) h2
    (x.acc, fld x.psw.toNat 19 16) = (0x8000000000000000, 0b1010) := by decide +kernel
/-- Spec/02, "three units lost and kept": the cell after its four addends, its binary32 drain and its full-width one. -/
theorem test_cell_keeps_three_units :
    let add (c : W32 × W32) (h : W32) : W32 × W32 := cellAdd c.1 c.2 h 0
    let c := [0x4B800000, 0x3F800000, 0x3F800000, 0x3F800000].foldl add (0, 0)
    c = (0x4B800000, 0x40400000) ∧ (fencode f32 (rne false) (cellVal c.1 c.2)).1 = 0x4B800002
      ∧ (renorm false c.1 c.2).1 = 0x4B800002 ∧ (renorm false c.1 c.2).2.1 = 0xBF800000 := by decide +kernel
/-- Spec/02, "draining one MXFP8 E4M3 block": the elements of 300 and of 5.12 × 2^-9, the scale byte, and NX and UF. -/
theorem test_mx_block :
    let b := mxBlock 7 false (fun _ => 0) (.fin false 300 0 :: .fin false 0x28F5C29 (-32) :: List.replicate 30 (.fin false 0 0))
    (b.1.take 2, b.2.1) = ([0x79, 0x05], 0x7F) := by decide +kernel
/-- Spec/11: 7,200 µJ per stroke under 2,250 W need 5,120 ticks. -/
theorem test_stroke_lreq :
    strokeLreq { page (fun p => { p with phase := .running, job := some (job5)
                                         sched := { p.sched with sync := true, energy := 7200 } }) up with
      aux := { pbudget := 2250 } } = 5120 := by decide +kernel
/-- Spec/14: session 5 at level Control reads as 0x0005_0002 in SEC_DEBUG. -/
theorem test_sec_debug : secReg { up with sec := { up.sec with session := some ⟨5, 2, false⟩ } } 0x08 = 0x00050002 := by
  decide +kernel
/-- Spec/12: the first words of completion record 41 of a 256-entry ring, with its phase bit and SEQ 42. -/
theorem test_completion_word :
    ((writeCompletion { ({} : Fn) with cqTail := 41 } { bnd with cqLog := 8 } [42, 0]).out.map (·.words)) = [[42, 0x80000000]] := by
  decide +kernel
/-- Spec/16: the window at 0x0B05_5068 of BAR0 has beads 80 to 95 of Slate 1 as its members, in order. -/
theorem test_rod_window :
    (windowAt up 0x6055068).map (fun w => w.members) = some ((List.range 16).map (fun k => .bead (256 + 80 + k) 0x68)) := by
  decide +kernel

/-! For each statement, states and operands that meet the hypotheses of its clauses; a statement of two parts has two
theorems. The theorem of `Obligations.X` is `test_meets_X`. -/

theorem test_meets_IndexRegisterGlyphs :
  (let s : State := mk h2 keeper; let hr : HandRef := h2; let r : XReg := .x0; let o : BitVec 22 := 0x200008;
    Rdy s hr (.xaddi hr true r o) ∧
    Rdy s hr (.xmuli hr true r o) ∧
    Rdy s hr (.xandi hr true r o)) ∧
  (let s : State := mk h2 keeper; let hr : HandRef := h2; let o : BitVec 22 := 0x200008;
    Rdy s hr (.fpaddi hr true o)) ∧
  (let s : State := mk h2 keeper; let hr : HandRef := h2; let r : XReg := .x1; let o : BitVec 22 := 0x80010;
    Rdy s hr (.xlea hr true r o)) ∧
  (let s : State := mk h2 keeper; let hr : HandRef := h2; let o : BitVec 22 := 0x80010;
    Rdy s hr (.fplea hr true o)) ∧
  (let s : State := mk h2 keeper; let hr : HandRef := h2; let r : XReg := .x1; let o : BitVec 22 := 0;
    Rdy s hr (.xacc hr true r o)) ∧
  (let s : State := mk h2 keeper; let hr : HandRef := h2; let o : BitVec 22 := 0;
    Rdy s hr (.fpacc hr true o)) := by
  dsimp only [Rdy]
  repeat' first | decide +kernel | constructor

theorem test_meets_LocalLoads :
  (let s : State := mk h2 keeper; let hr : HandRef := h2; let o : BitVec 22 := 0x80010; let x := handAt s hr;
    let a := (localEa x o).toNat;
    opdMode o ≤ 3 ∧ LocalOk s hr a 8 ∧ Rdy s hr (.ld hr true o) ∧
    opdMode o ≤ 3 ∧ LocalOk s hr a 4 ∧ Rdy s hr (.ldw hr true o) ∧
    opdMode o ≤ 3 ∧ LocalOk s hr a 4 ∧ Rdy s hr (.ldwu hr true o) ∧
    opdMode o ≤ 3 ∧ LocalOk s hr a 2 ∧ Rdy s hr (.ldh hr true o) ∧
    opdMode o ≤ 3 ∧ LocalOk s hr a 2 ∧ Rdy s hr (.ldhu hr true o) ∧
    opdMode o ≤ 3 ∧ LocalOk s hr a 1 ∧ Rdy s hr (.ldb hr true o) ∧
    opdMode o ≤ 3 ∧ LocalOk s hr a 1 ∧ Rdy s hr (.ldbu hr true o) ∧
    opdMode o ≤ 3 ∧ LocalOk s hr a 4 ∧ Rdy s hr (.fpld hr true o)) ∧
  (let s : State := mk h2 keeper; let hr : HandRef := h2; let r : XReg := .x0; let o : BitVec 22 := 0x80010;
    let x := handAt s hr; let a := (localEa x o).toNat;
    opdMode o ≤ 3 ∧ LocalOk s hr a 4 ∧ Rdy s hr (.xld hr true r o)) ∧
  (let s : State := mk h2 keeper; let hr : HandRef := h2; let o : BitVec 22 := 0x200010;
    opdMode o = 4 ∧ Rdy s hr (.ld hr true o)) := by
  dsimp only [Rdy]
  repeat' first | decide +kernel | constructor

theorem test_meets_LocalStores :
  (let s : State := mk h2 keeper; let hr : HandRef := h2; let o : BitVec 22 := 0x80010; let x := handAt s hr;
    let a := (localEa x o).toNat; let fits (n : Nat) : Prop := opdMode o ≤ 3 ∧ LocalFree s hr a n;
    fits 8 ∧ Rdy s hr (.st hr true o) ∧ MemOk s ∧
    ((localAt hr a + 8) < localAt hr a ∨ localAt hr a + 8 ≤ (localAt hr a + 8)) ∧ 7 < 8 ∧
    fits 4 ∧ Rdy s hr (.stw hr true o) ∧
    fits 2 ∧ Rdy s hr (.sth hr true o) ∧
    fits 1 ∧ Rdy s hr (.stb hr true o) ∧
    fits 4 ∧ Rdy s hr (.fpst hr true o)) ∧
  (let s : State := mk h2 keeper; let hr : HandRef := h2; let r : XReg := .x0; let o : BitVec 22 := 0x80010;
    let x := handAt s hr; let a := (localEa x o).toNat;
    let fits (n : Nat) : Prop := opdMode o ≤ 3 ∧ LocalFree s hr a n;
    fits 4 ∧ Rdy s hr (.xst hr true r o)) := by
  dsimp only [Rdy]
  repeat' first | decide +kernel | constructor

theorem test_meets_AluGlyphs :
  (let op : AluOp := .div; let s : State := mk h2 keeper; let hr : HandRef := h2; let o : BitVec 22 := 0x27FFFF;
    let v : W64 := -1;
    Rdy s hr (aluGlyph op hr true o) ∧ OperandIs s hr o v ∧ aluTraps op (handAt s hr).psw (handAt s hr).acc v = none) := by
  dsimp only [Rdy]
  repeat' first | decide +kernel | constructor

theorem test_meets_AccumulatorGlyphs :
  (let s : State := mk h2 keeper; let hr : HandRef := h2; let o : BitVec 22 := 0;
    Rdy s hr (.not_ hr true o) ∧
    Rdy s hr (.clz hr true o) ∧
    Rdy s hr (.popc hr true o)) ∧
  (let s : State := mk h2 keeper; let hr : HandRef := h2; let o : BitVec 22 := 0; let x := handAt s hr;
    let least : W64 := BitVec.intMin 64;
    Rdy s hr (.neg hr true o) ∧ (x.acc ≠ least ∨ x.psw.getLsbD 9 = false) ∧
    Rdy s hr (.abs hr true o) ∧ (x.acc ≠ least ∨ x.psw.getLsbD 9 = false)) ∧
  (let s : State := mk h2 keeper; let hr : HandRef := h2; let o : BitVec 22 := 0x200006;
    Rdy s hr (.rget hr true o) ∧
    Rdy s hr (.shlori hr true o)) := by
  dsimp only [Rdy]
  repeat' first | decide +kernel | constructor

theorem test_meets_StatusGlyphs :
  (let s : State := mk h2 keeper; let hr : HandRef := h2; let o : BitVec 22 := 0;
    Rdy s hr (.fswput hr true o)) ∧
  (let s : State := mk h2 {keeper with acc := 0x400000}; let hr : HandRef := h2; let o : BitVec 22 := 0;
    let x := handAt s hr; let a : W32 := x.acc.truncate 32;
    Rdy s hr (.pswput hr true o) ∧ (pswPl x.psw ≠ 0 → pswLd a ≤ 4)) ∧
  (let s : State := mk h2 keeper; let hr : HandRef := h2; let o : BitVec 22 := 0x200010; let x := handAt s hr;
    let k := opdField o; let mayUse : Prop := pswPl x.psw = 2 ∨ (pswPl x.psw = 1 ∧ sentinelOnly k = false);
    Rdy s hr (.crd hr true o) ∧ mayUse ∧ k ≠ 0x38) ∧
  (let s : State := mk h2 keeper; let hr : HandRef := h2; let o : BitVec 22 := 0x200010; let x := handAt s hr;
    let a : W32 := x.acc.truncate 32; let k := opdField o;
    let mayUse : Prop := pswPl x.psw = 2 ∨ (pswPl x.psw = 1 ∧ sentinelOnly k = false);
    Rdy s hr (.cwr hr true o) ∧ mayUse ∧ beadWriteWaits (beadOf s hr) k a = false ∧
    (k = 0x68 → blotAsk (beadOf s hr) a ≠ .switch)) ∧
  (let s : State := mk h2 keeper; let hr : HandRef := h2; let o : BitVec 22 := 0x200038; let x := handAt s hr;
    let k := opdField o; let mayUse : Prop := pswPl x.psw = 2 ∨ (pswPl x.psw = 1 ∧ sentinelOnly k = false);
    Rdy s hr (.crd hr true o) ∧ mayUse ∧ k = 0x38) := by
  dsimp only [Rdy]
  repeat' first | decide +kernel | constructor

theorem test_meets_LocalAtomics :
  (let op : AtomOp := .cas; let s : State := mk h2 keeper; let hr : HandRef := h2; let o : BitVec 22 := 0x80010;
    let x := handAt s hr;
    opdMode o ≤ 3 ∧ LocalOk s hr (localEa x o).toNat 8 ∧ Rdy s hr (atomGlyph op hr true o)) := by
  dsimp only [Rdy]
  repeat' first | decide +kernel | constructor

theorem test_meets_BranchGlyphs :
  (let s : State := mk h2 keeper; let hr : HandRef := h2; let o : BitVec 22 := 0;
    Rdy s hr (.nop hr true o)) ∧
  (let s : State := mk h2 keeper; let hr : HandRef := h2; let o : BitVec 22 := 0; let x := handAt s hr;
    let cond := condHolds x.psw (fld o.toNat 21 18);
    Rdy s hr (.br hr true o) ∧ cond = true ∧
    Rdy s hr (.jr hr true o) ∧ cond = true) ∧
  (let s : State := mk h2 keeper; let hr : HandRef := h2; let o : BitVec 22 := 0; let x := handAt s hr;
    Rdy s hr (.callr hr true o) ∧ LocalFree s hr (x.fp - 8).toNat 8 ∧
    Rdy s hr (.ret hr true o) ∧ LocalOk s hr x.fp.toNat 8 ∧
    Rdy s hr (.call hr true o) ∧ LocalFree s hr (x.fp - 8).toNat 8) ∧
  (let s : State := mk h2 keeper; let hr : HandRef := h2; let o : BitVec 22 := 0x40000; let x := handAt s hr;
    let cond := condHolds x.psw (fld o.toNat 21 18);
    Rdy s hr (.br hr true o) ∧ cond = false ∧
    Rdy s hr (.jr hr true o) ∧ cond = false) := by
  dsimp only [Rdy]
  repeat' first | decide +kernel | constructor

theorem test_meets_LoopGlyphs :
  (let s : State := mk h2 {keeper with acc := 0xFFFFFF}; let hr : HandRef := h2; let o : BitVec 22 := 0x3FF002;
    let x := handAt s hr; let exit : W32 := x.pc + BitVec.ofNat 32 (4 * fld o.toNat 11 0);
    let imm := fld o.toNat 21 12;
    Rdy s hr (.loopi hr true o) ∧ LoopFits x exit ∧ imm ≠ 0) ∧
  (let s : State := mk h2 {keeper with acc := 0xFFFFFF}; let hr : HandRef := h2; let o : BitVec 22 := 0x000002;
    let x := handAt s hr; let exit : W32 := x.pc + BitVec.ofNat 32 (4 * fld o.toNat 11 0);
    let imm := fld o.toNat 21 12;
    Rdy s hr (.loopi hr true o) ∧ LoopFits x exit ∧ imm = 0) ∧
  (let s : State := mk h2 {keeper with acc := 0xFFFFFF}; let hr : HandRef := h2; let o : BitVec 22 := 0x000002;
    let x := handAt s hr; let exit : W32 := x.pc + BitVec.ofNat 32 (4 * fld o.toNat 11 0);
    Rdy s hr (.loop hr true o) ∧ LoopFits x exit ∧ x.acc ≠ 0 ∧ x.acc.toNat < 2 ^ 24) ∧
  (let s : State := mk h2 {keeper with acc := 0}; let hr : HandRef := h2; let o : BitVec 22 := 2;
    let x := handAt s hr; let exit : W32 := x.pc + BitVec.ofNat 32 (4 * fld o.toNat 11 0);
    Rdy s hr (.loop hr true o) ∧ LoopFits x exit ∧ x.acc = 0) ∧
  (let s : State := mk h2 {keeper with psw := 0x20100001}; let hr : HandRef := h2; let o : BitVec 22 := 0;
    let x := handAt s hr;
    Rdy s hr (.lexit hr true o) ∧ 1 ≤ pswLd x.psw ∧ pswLd x.psw = 0 + 1 ∧ (0 = 0 ∨ (loopOf x (0 - 1)).lpe ≠ x.pc + 4)) ∧
  (let s : State := mk h2 keeper; let hr : HandRef := h2; let o : BitVec 22 := 0; let x := handAt s hr;
    Rdy s hr (.lexit hr true o) ∧ pswLd x.psw = 0) := by
  dsimp only [Rdy]
  repeat' first | decide +kernel | constructor

theorem test_meets_LevelGlyphs :
  (let s : State := gated9 user; let hr : HandRef := h2; let o : BitVec 22 := 0x200000;
    let d : List W8 := (loadBytes (gated9 user) (localAt h2 0x9000) 32); let n := opdField o;
    Rdy s hr (.gate hr true o) ∧ GateFits s hr n d) ∧
  (let s : State := mk h2 {keeper with save1 := ⟨0x20000, 0x20000000, 0x01000020, 0x18⟩}; let hr : HandRef := h2;
    let o : BitVec 22 := 0; let x := handAt s hr;
    Rdy s hr (.gret hr true o) ∧ hr.hand ≠ 0 ∧ pswPl x.psw = 1 ∧ fld x.save1.scause.toNat 7 0 = 0x20 ∧
    pswPl x.save1.spsw = 0 ∧
    Rdy s hr (.rete hr true o) ∧ pswPl x.psw = 1 ∧ hr.hand ≠ 0 ∧ pswPl x.save1.spsw = 0) ∧
  (let s : State := mk h2 {keeper with psw := 0x20000002, save2 := ⟨0x20004, 0x207F0301, 0x10, 0⟩};
    let hr : HandRef := h2; let o : BitVec 22 := 0; let x := handAt s hr;
    Rdy s hr (.rete hr true o) ∧ pswPl x.psw = 2 ∧ pswPl x.save2.spsw < 2 ∧ (hr.hand ≠ 0 ∨ pswPl x.save2.spsw = 1)) := by
  dsimp only [Rdy]
  repeat' first | decide +kernel | constructor

theorem test_meets_DeviceLoads :
  (let s : State := dev {user with acc := 0x400000}; let hr : HandRef := h2; let r : XReg := .x0;
    let o : BitVec 22 := 0x280000;
    let p : Instr × Nat × Nat × LoadDest := (.ld h2 true 0x280000, 1, 8, .acc 8 false);
    let x : Xlat := (xlat (dev {user with acc := 0x400000}) 0x280000 8 false false); let b := beadOf s hr;
    p ∈ memLoads hr r o ∧ Rdy s hr p.1 ∧ DevFits s hr o p.2.2.1 false false x ∧ looksUp b x = false) ∧
  (let s : State := dev {user with acc := 0x200040}; let hr : HandRef := h2; let r : XReg := .x0;
    let o : BitVec 22 := 0x280000;
    let p : Instr × Nat × Nat × LoadDest := (.ld h2 true 0x280000, 1, 8, .acc 8 false);
    let x : Xlat := (xlat (dev {user with acc := 0x200040}) 0x280000 8 false false); let b := beadOf s hr;
    p ∈ memLoads hr r o ∧ Rdy s hr p.1 ∧ DevFits s hr o p.2.2.1 false false x ∧ looksUp b x = true ∧
    blotFind b (x.pa / 64) = none ∧ fillRoom b (x.pa / 64) = true) ∧
  (let s : State := hit line1 (dev {user with acc := 0x200078}); let hr : HandRef := h2; let r : XReg := .x0;
    let o : BitVec 22 := 0x280000;
    let p : Instr × Nat × Nat × LoadDest := (.ld h2 true 0x280000, 1, 8, .acc 8 false);
    let x : Xlat := (xlat (hit line1 (dev {user with acc := 0x200078})) 0x280000 8 false false);
    let k : Nat := (4 * (line1 % 1024) + 1); let b := beadOf s hr;
    p ∈ memLoads hr r o ∧ Rdy s hr p.1 ∧ DevFits s hr o p.2.2.1 false false x ∧ looksUp b x = true ∧
    blotFind b (x.pa / 64) = some k ∧ wayBad (wayAt b k) (x.pa % 64) p.2.2.1 = false) ∧
  (let s : State := spoilt (hit line1 (dev {user with acc := 0x200078})); let hr : HandRef := h2; let r : XReg := .x0;
    let o : BitVec 22 := 0x280000;
    let p : Instr × Nat × Nat × LoadDest := (.ld h2 true 0x280000, 1, 8, .acc 8 false);
    let x : Xlat := (xlat (spoilt (hit line1 (dev {user with acc := 0x200078}))) 0x280000 8 false false);
    let k : Nat := (4 * (line1 % 1024) + 1); let b := beadOf s hr;
    p ∈ memLoads hr r o ∧ Rdy s hr p.1 ∧ DevFits s hr o p.2.2.1 false false x ∧ looksUp b x = true ∧
    blotFind b (x.pa / 64) = some k ∧ wayBad (wayAt b k) (x.pa % 64) p.2.2.1 = true ∧ fillRoom b (x.pa / 64) = true) ∧
  (let s : State := dev {user with acc := 0x012000000060}; let hr : HandRef := h2; let r : XReg := .x0;
    let o : BitVec 22 := 0x280000;
    let p : Instr × Nat × Nat × LoadDest := (.ld h2 true 0x280000, 1, 8, .acc 8 false); let t : Nat := 0;
    let q : Nat := 70; let up : Bool := false;
    p ∈ memLoads hr r o ∧ Rdy s hr p.1 ∧ opdMode o = 5 ∧ devHeld (aloneEnv s hr false) = false ∧
    checkDev (aloneEnv s hr false) (devAt s hr o) p.2.2.1 p.2.2.1 false false = .ok (.tally t q up)) := by
  dsimp only [Rdy]
  repeat' first | decide +kernel | exact ok_is (by decide +kernel) | constructor

theorem test_meets_DeviceStores :
  (let s : State := dev {user with acc := 0x200040}; let hr : HandRef := h2; let r : XReg := .x0;
    let o : BitVec 22 := 0x280000;
    let p : Instr × Nat × List W8 := (.st h2 true 0x280000, 1, toBytes 8 (handAt (dev {user with acc := 0x200040}) h2).acc.toNat);
    let x : Xlat := (xlat (dev {user with acc := 0x200040}) 0x280000 8 true false); let k : Nat := 0;
    let off : Nat := 0x1200040; let n := p.2.2.length;
    p ∈ memStores (handAt s hr) hr r o ∧ Rdy s hr p.1 ∧ DevFits s hr o n true false x ∧ regionOf x.pa = .hbm k off ∧
    mergeRoom (beadOf s hr) (x.pa / 64) = true) ∧
  (let s : State := modBead (dev {user with acc := 0x609010}) 5 (fun b => { b with regs := { b.regs with ctx := 0x80000003 } });
    let hr : HandRef := h2; let r : XReg := .x0; let o : BitVec 22 := 0x280000;
    let p : Instr × Nat × List W8 := (.st h2 true 0x280000, 1, toBytes 8 (handAt (modBead (dev {user with acc := 0x609010}) 5 (fun b => { b with regs := { b.regs with ctx := 0x80000003 } })) h2).acc.toNat);
    let x : Xlat := (xlat (modBead (dev {user with acc := 0x609010}) 5 (fun b => { b with regs := { b.regs with ctx := 0x80000003 } })) 0x280000 8 true false);
    let k : Nat := 0; let off : Nat := 0; let n := p.2.2.length;
    p ∈ memStores (handAt s hr) hr r o ∧ Rdy s hr p.1 ∧ DevFits s hr o n true false x ∧
    (∀ k off, regionOf x.pa ≠ .hbm k off)) ∧
  (let s : State := dev {user with acc := 0x012000000068}; let hr : HandRef := h2; let r : XReg := .x0;
    let o : BitVec 22 := 0x280000;
    let p : Instr × Nat × List W8 := (.st h2 true 0x280000, 1, toBytes 8 (handAt (dev {user with acc := 0x012000000068}) h2).acc.toNat);
    let t : Nat := 0; let q : Nat := 70; let up : Bool := true; let n := p.2.2.length;
    p ∈ memStores (handAt s hr) hr r o ∧ Rdy s hr p.1 ∧ opdMode o = 5 ∧ devHeld (aloneEnv s hr false) = false ∧
    checkDev (aloneEnv s hr false) (devAt s hr o) n n true false = .ok (.tally t q up)) := by
  dsimp only [Rdy]
  repeat' first | decide +kernel | exact ok_is (by decide +kernel) | exact not_hbm (by decide +kernel) | constructor

theorem test_meets_DeviceOperands :
  (let aop : AtomOp := .add; let s : State := dev {user with acc := 0x200040}; let hr : HandRef := h2;
    let o : BitVec 22 := 0x280000; let x : Xlat := (xlat (dev {user with acc := 0x200040}) 0x280000 8 true true);
    DevFits s hr o 8 true true x ∧ Rdy s hr (atomGlyph aop hr true o)) ∧
  (let op : AluOp := .div; let s : State := dev {user with acc := 0x400040}; let hr : HandRef := h2;
    let o : BitVec 22 := 0x280000; let x : Xlat := (xlat (dev {user with acc := 0x400040}) 0x280000 8 false false);
    DevFits s hr o 8 false false x ∧ looksUp (beadOf s hr) x = false ∧ Rdy s hr (aluGlyph op hr true o)) := by
  dsimp only [Rdy]
  repeat' first | decide +kernel | constructor

theorem test_meets_BlotterGlyphs :
  (let s : State := dev {keeper with acc := 0x200040}; let hr : HandRef := h2; let o : BitVec 22 := 0x280000;
    let x : Xlat := (xlat (dev {keeper with acc := 0x200040}) 0x280000 1 false false); let line : Nat := line1;
    let i := beadNo hr.br; let b := beadOf s hr; let a := (handAt s hr).acc;
    let named : Prop := opdMode o = 5 ∧ (devAt s hr o).toNat < 2 ^ 48 ∧ translate s (beadCtx b) (devAt s hr o).toNat false = some x ∧ line = x.pa / 64;
    let finds : Prop := named ∨ (opdMode o ≤ 3 ∧ inBlotter b (localEa (handAt s hr) o).toNat = true ∧ maintLine s i (handAt s hr) a o = some line);
    finds ∧ Rdy s hr (.blcln hr true o) ∧
    finds ∧ Rdy s hr (.blinv hr true o) ∧
    finds ∧ Rdy s hr (.blci hr true o)) ∧
  (let s : State := dev {keeper with acc := 0x200040}; let hr : HandRef := h2; let o : BitVec 22 := 0x280000;
    let x : Xlat := (xlat (dev {keeper with acc := 0x200040}) 0x280000 1 false false); let line : Nat := line1;
    let b := beadOf s hr;
    let named : Prop := opdMode o = 5 ∧ (devAt s hr o).toNat < 2 ^ 48 ∧ translate s (beadCtx b) (devAt s hr o).toNat false = some x ∧ line = x.pa / 64;
    named ∧ Rdy s hr (.pref hr true o) ∧ looksUp b x = true ∧ blotFind b line = none ∧
    (∀ f ∈ b.blot.fills, f.line ≠ line) ∧ b.blot.fills.length < 8) ∧
  (let s : State := dev {keeper with acc := 3}; let hr : HandRef := h2; let o : BitVec 22 := 0;
    let a := (handAt s hr).acc; let word (op : Nat) : Prop := pswPl (handAt s hr).psw ≠ 0 ∧ fld a.toNat 1 0 = op;
    Rdy s hr (.blswAll hr true o) ∧ word 3 ∧ a &&& 0xFFFFFFFFFFF800CC = 0) ∧
  (let s : State := dev {keeper with acc := 0xB}; let hr : HandRef := h2; let o : BitVec 22 := 0;
    let a := (handAt s hr).acc; let word (op : Nat) : Prop := pswPl (handAt s hr).psw ≠ 0 ∧ fld a.toNat 1 0 = op;
    Rdy s hr (.blswAll hr true o) ∧ word 3 ∧ a &&& 0xFFFFFFFFFFF800CC ≠ 0) ∧
  (let s : State := blot (fun b => { b with ways := [(0, { valid := true, line := line1, age := 1, data := some_ 64 })] }) (dev {keeper with acc := 0});
    let hr : HandRef := h2; let o : BitVec 22 := 0; let b := beadOf s hr; let a := (handAt s hr).acc;
    let way := 4 * fld a.toNat 18 8 + fld a.toNat 5 4;
    let word (op : Nat) : Prop := pswPl (handAt s hr).psw ≠ 0 ∧ fld a.toNat 1 0 = op;
    let legal : Prop := a &&& 0xFFFFFFFFFFF800CC = 0 ∧ fld a.toNat 18 8 < blotSets b;
    Rdy s hr (.blswClean hr true o) ∧ word 0 ∧ legal ∧ (wayAt b way).valid = true) ∧
  (let s : State := dev {keeper with acc := 0}; let hr : HandRef := h2; let o : BitVec 22 := 0; let b := beadOf s hr;
    let a := (handAt s hr).acc; let way := 4 * fld a.toNat 18 8 + fld a.toNat 5 4;
    let word (op : Nat) : Prop := pswPl (handAt s hr).psw ≠ 0 ∧ fld a.toNat 1 0 = op;
    let legal : Prop := a &&& 0xFFFFFFFFFFF800CC = 0 ∧ fld a.toNat 18 8 < blotSets b;
    Rdy s hr (.blswClean hr true o) ∧ word 0 ∧ legal ∧ (wayAt b way).valid = false) ∧
  (let s : State := dev {keeper with acc := 4}; let hr : HandRef := h2; let o : BitVec 22 := 0; let b := beadOf s hr;
    let a := (handAt s hr).acc; let word (op : Nat) : Prop := pswPl (handAt s hr).psw ≠ 0 ∧ fld a.toNat 1 0 = op;
    let legal : Prop := a &&& 0xFFFFFFFFFFF800CC = 0 ∧ fld a.toNat 18 8 < blotSets b;
    Rdy s hr (.blswClean hr true o) ∧ word 0 ∧ ¬ legal) ∧
  (let s : State := blot (fun b => { b with ways := [(0, { valid := true, line := line1, age := 1, data := some_ 64 })] }) (dev {keeper with acc := 1});
    let hr : HandRef := h2; let o : BitVec 22 := 0; let b := beadOf s hr; let a := (handAt s hr).acc;
    let way := 4 * fld a.toNat 18 8 + fld a.toNat 5 4;
    let word (op : Nat) : Prop := pswPl (handAt s hr).psw ≠ 0 ∧ fld a.toNat 1 0 = op;
    let legal : Prop := a &&& 0xFFFFFFFFFFF800CC = 0 ∧ fld a.toNat 18 8 < blotSets b;
    Rdy s hr (.blswInvalidate hr true o) ∧ word 1 ∧ legal ∧ (wayAt b way).valid = true) ∧
  (let s : State := dev {keeper with acc := 1}; let hr : HandRef := h2; let o : BitVec 22 := 0; let b := beadOf s hr;
    let a := (handAt s hr).acc; let way := 4 * fld a.toNat 18 8 + fld a.toNat 5 4;
    let word (op : Nat) : Prop := pswPl (handAt s hr).psw ≠ 0 ∧ fld a.toNat 1 0 = op;
    let legal : Prop := a &&& 0xFFFFFFFFFFF800CC = 0 ∧ fld a.toNat 18 8 < blotSets b;
    Rdy s hr (.blswInvalidate hr true o) ∧ word 1 ∧ legal ∧ (wayAt b way).valid = false) ∧
  (let s : State := dev {keeper with acc := 5}; let hr : HandRef := h2; let o : BitVec 22 := 0; let b := beadOf s hr;
    let a := (handAt s hr).acc; let word (op : Nat) : Prop := pswPl (handAt s hr).psw ≠ 0 ∧ fld a.toNat 1 0 = op;
    let legal : Prop := a &&& 0xFFFFFFFFFFF800CC = 0 ∧ fld a.toNat 18 8 < blotSets b;
    Rdy s hr (.blswInvalidate hr true o) ∧ word 1 ∧ ¬ legal) ∧
  (let s : State := blot (fun b => { b with ways := [(0, { valid := true, line := line1, age := 1, data := some_ 64 })] }) (dev {keeper with acc := 2});
    let hr : HandRef := h2; let o : BitVec 22 := 0; let b := beadOf s hr; let a := (handAt s hr).acc;
    let way := 4 * fld a.toNat 18 8 + fld a.toNat 5 4;
    let word (op : Nat) : Prop := pswPl (handAt s hr).psw ≠ 0 ∧ fld a.toNat 1 0 = op;
    let legal : Prop := a &&& 0xFFFFFFFFFFF800CC = 0 ∧ fld a.toNat 18 8 < blotSets b;
    Rdy s hr (.blswCleanInvalidate hr true o) ∧ word 2 ∧ legal ∧ (wayAt b way).valid = true) ∧
  (let s : State := dev {keeper with acc := 2}; let hr : HandRef := h2; let o : BitVec 22 := 0; let b := beadOf s hr;
    let a := (handAt s hr).acc; let way := 4 * fld a.toNat 18 8 + fld a.toNat 5 4;
    let word (op : Nat) : Prop := pswPl (handAt s hr).psw ≠ 0 ∧ fld a.toNat 1 0 = op;
    let legal : Prop := a &&& 0xFFFFFFFFFFF800CC = 0 ∧ fld a.toNat 18 8 < blotSets b;
    Rdy s hr (.blswCleanInvalidate hr true o) ∧ word 2 ∧ legal ∧ (wayAt b way).valid = false) ∧
  (let s : State := dev {keeper with acc := 6}; let hr : HandRef := h2; let o : BitVec 22 := 0; let b := beadOf s hr;
    let a := (handAt s hr).acc; let word (op : Nat) : Prop := pswPl (handAt s hr).psw ≠ 0 ∧ fld a.toNat 1 0 = op;
    let legal : Prop := a &&& 0xFFFFFFFFFFF800CC = 0 ∧ fld a.toNat 18 8 < blotSets b;
    Rdy s hr (.blswCleanInvalidate hr true o) ∧ word 2 ∧ ¬ legal) := by
  dsimp only [Rdy]
  repeat' first | decide +kernel | constructor

theorem test_meets_HandControlGlyphs :
  (let s : State := putHand (mk h0 first) 0 2 { user with st := .idle }; let hr : HandRef := h0; let k : Fin 4 := 2;
    let o : BitVec 22 := 0x200002; let y := handAt s (siblingAt hr k);
    hr.hand = 0 ∧ k ≠ 0 ∧ opdMode o = 4 ∧ opdField o = k.val ∧ Rdy s hr (.hstart hr true o) ∧ y.st = .idle ∧
    hr.hand = 0 ∧ k ≠ 0 ∧ opdMode o = 4 ∧ opdField o = k.val ∧ Rdy s hr (.hstop hr true o) ∧ y.st ≠ .running ∧
    (∀ w, y.st ≠ .sleeping w)) ∧
  (let s : State := putHand (mk h0 first) 0 2 user; let hr : HandRef := h0; let k : Fin 4 := 2;
    let o : BitVec 22 := 0x200002; let y := handAt s (siblingAt hr k);
    hr.hand = 0 ∧ k ≠ 0 ∧ opdMode o = 4 ∧ opdField o = k.val ∧ Rdy s hr (.hstart hr true o) ∧ y.st ≠ .idle ∧
    hr.hand = 0 ∧ k ≠ 0 ∧ opdMode o = 4 ∧ opdField o = k.val ∧ Rdy s hr (.hstop hr true o) ∧
    (y.st = .running ∨ ∃ w, y.st = .sleeping w) ∧ y.openLine = none ∧
    hr.hand = 0 ∧ k ≠ 0 ∧ opdMode o = 4 ∧ opdField o = k.val ∧ Rdy s hr (.hresume hr true o) ∧
    (∀ why, y.st ≠ .stopped why) ∧
    hr.hand = 0 ∧ k ≠ 0 ∧ opdMode o = 4 ∧ opdField o = k.val ∧ Rdy s hr (.hkill hr true o) ∧ y.st ≠ .locked) ∧
  (let s : State := putHand (mk h0 first) 0 2 { user with st := .stopped .fault }; let hr : HandRef := h0;
    let k : Fin 4 := 2; let o : BitVec 22 := 0x200002; let y := handAt s (siblingAt hr k);
    hr.hand = 0 ∧ k ≠ 0 ∧ opdMode o = 4 ∧ opdField o = k.val ∧ Rdy s hr (.hresume hr true o) ∧
    y.st = .stopped .fault ∧ pswPl y.save1.spsw < 2 ∧ y.heldFaults = []) ∧
  (let s : State := putHand (mk h0 first) 0 2 { user with st := .stopped .fault, save1 := ⟨0, 2, 0, 0⟩ };
    let hr : HandRef := h0; let k : Fin 4 := 2; let o : BitVec 22 := 0x200002; let y := handAt s (siblingAt hr k);
    hr.hand = 0 ∧ k ≠ 0 ∧ opdMode o = 4 ∧ opdField o = k.val ∧ Rdy s hr (.hresume hr true o) ∧
    y.st = .stopped .fault ∧ 2 ≤ pswPl y.save1.spsw) ∧
  (let s : State := putHand (mk h0 first) 0 2 { user with st := .locked }; let hr : HandRef := h0;
    let k : Fin 4 := 2; let o : BitVec 22 := 0x200002; let y := handAt s (siblingAt hr k);
    hr.hand = 0 ∧ k ≠ 0 ∧ opdMode o = 4 ∧ opdField o = k.val ∧ Rdy s hr (.hkill hr true o) ∧ y.st = .locked) := by
  dsimp only [Rdy]
  repeat' first | decide +kernel | (intro w; cases w <;> decide +kernel) | constructor

theorem test_meets_ScalarQueueGlyphs :
  (let s : State := ends (fun e => { opened3 e with sin := [(3, [(7, false), (8, true)])] }) (mk h2 user);
    let hr : HandRef := h2; let e : Fin 8 := 3; let o : BitVec 22 := 0x200003;
    opdField o = e.val ∧ Rdy s hr (.send hr true o) ∧ SendFits s hr e.val ∧
    opdField o = e.val ∧ Rdy s hr (.sendl hr true o) ∧ SendFits s hr e.val ∧
    opdField o = e.val ∧ Rdy s hr (.qpoll hr true o)) ∧
  (let s : State := ends (fun e => { opened3 e with sin := [(3, [(7, false), (8, true)])] }) (mk h2 user);
    let hr : HandRef := h2; let e : Fin 8 := 3; let o : BitVec 22 := 0x200003;
    let ws := match (handAt s hr).staged with | some m => m.words | none => [];
    opdField o = e.val ∧ Rdy s hr (.sendm hr true o) ∧ SendFits s hr e.val ∧ ws.length < 8) ∧
  (let s : State := ends (fun e => { opened3 e with sin := [(3, [(7, false), (8, true)])] }) (mk h2 user);
    let hr : HandRef := h2; let e : Fin 8 := 3; let o : BitVec 22 := 0x200003; let v : W32 := 7;
    let l : Bool := false; let rest : List (W32 × Bool) := [(8, true)]; let b := beadOf s hr;
    opdField o = e.val ∧ Rdy s hr (.recv hr true o) ∧ b.ends.sinClosed.getLsbD e.val = false ∧
    sinWords b e.val = (v, l) :: rest ∧ readable (sinWords b e.val) ≠ 0) ∧
  (let s : State := ends (fun e => { opened3 e with sin := [(3, [(7, false), (8, true)])] }) (mk h2 user);
    let hr : HandRef := h2; let e : Fin 8 := 3; let o : BitVec 22 := 0x200003; let b := beadOf s hr;
    opdField o = e.val ∧ Rdy s hr (.qcred hr true o) ∧ soutClosed b e.val = false) ∧
  (let s : State := mk h2 user; let hr : HandRef := h2; let e : Fin 8 := 3; let o : BitVec 22 := 0x200003;
    let b := beadOf s hr;
    opdField o = e.val ∧ Rdy s hr (.qcred hr true o) ∧ soutClosed b e.val = true) := by
  dsimp only [Rdy]
  repeat' first | decide +kernel | constructor

theorem test_meets_TokenGlyphs :
  (let s : State := ends (fun e => opened3 e) (mk h2 user); let hr : HandRef := h2; let o : BitVec 22 := 0x200003;
    let b := beadOf s hr; let k := opdField o;
    let fits : Prop := tokOutOpen b k = true ∧ mapFind b.ends.tout k = none;
    Rdy s hr (.toksend hr true o) ∧ fits ∧ b.ends.toutCred.getLsbD k = false) ∧
  (let s : State := ends (fun e => { opened3 e with toutCred := 8 }) (mk h2 user); let hr : HandRef := h2;
    let o : BitVec 22 := 0x200003; let b := beadOf s hr; let k := opdField o;
    let fits : Prop := tokOutOpen b k = true ∧ mapFind b.ends.tout k = none;
    Rdy s hr (.toksend hr true o) ∧ fits ∧ b.ends.toutCred.getLsbD k = true) ∧
  (let s : State := ends (fun e => { opened3 e with tin := [(3, 9)] }) (regs (fun r => { r with rule := [(1, 8)] }) (mk h2 user));
    let hr : HandRef := h2; let o : BitVec 22 := 0x200003; let v : W8 := 9; let b := beadOf s hr;
    let k := opdField o;
    Rdy s hr (.tokrecv hr true o) ∧ tokIsIn b k = true ∧ b.ends.tokClosed.getLsbD k = false ∧
    mapFind b.ends.tin k = some v) := by
  dsimp only [Rdy]
  repeat' first | decide +kernel | constructor

theorem test_meets_TallyGlyphs :
  (let s : State := dev {user with latch := {}}; let hr : HandRef := h2; let o : BitVec 22 := 0x200006;
    let p : Nat := 70; let x := handAt s hr;
    TallyNamed s hr o p ∧ Rdy s hr (.tadd hr true o) ∧ x.raises.length < 4 ∧
    TallyNamed s hr o p ∧ Rdy s hr (.tinc hr true o) ∧ x.raises.length < 4 ∧
    TallyNamed s hr o p ∧ Rdy s hr (.twait hr true o) ∧ x.latch = {} ∧
    TallyNamed s hr o p ∧ Rdy s hr (.tread hr true o) ∧ x.latch = {}) ∧
  (let s : State := dev {user with latch := ⟨true, true, false, 70, 0x456789ABCDEF, true⟩}; let hr : HandRef := h2;
    let o : BitVec 22 := 0x200006; let p : Nat := 70; let v : BitVec 48 := 0; let a : Bool := true;
    let x := handAt s hr; let target : BitVec 48 := x.acc.truncate 48;
    let asks (k : Bool) (v : BitVec 48) (sat ask : Bool) : TallyLatch := ⟨true, sat, k, BitVec.ofNat 12 p, v, ask⟩;
    TallyNamed s hr o p ∧ Rdy s hr (.twait hr true o) ∧ x.latch = asks false target true a) ∧
  (let s : State := dev {user with latch := ⟨true, true, true, 70, 12, true⟩}; let hr : HandRef := h2;
    let o : BitVec 22 := 0x200006; let p : Nat := 70; let v : BitVec 48 := 12; let a : Bool := true;
    let x := handAt s hr;
    let asks (k : Bool) (v : BitVec 48) (sat ask : Bool) : TallyLatch := ⟨true, sat, k, BitVec.ofNat 12 p, v, ask⟩;
    TallyNamed s hr o p ∧ Rdy s hr (.tread hr true o) ∧ x.latch = asks true v true a) ∧
  (let s : State := dev {user with latch := {}}; let hr : HandRef := h2; let o : BitVec 22 := 0x200040;
    let g : Glyph := (gl (.tread h2 true 0x200040)); let c : Instr := .tread h2 true 0x200040; let t : Nat := 64;
    let x := handAt s hr;
    c ∈ tallyGlyphs hr o ∧ TallyNo x o t ∧ Ready s hr c g ∧
    (∀ k, beadCtx (beadOf s hr) = some k → tallyOf s (beadNo hr.br / 256) k t = none)) ∧
  (let s : State := mk h2 user; let hr : HandRef := h2; let o : BitVec 22 := 0x200440;
    let g : Glyph := (gl (.tinc h2 true 0x200440)); let c : Instr := .tinc h2 true 0x200440; let t : Nat := 0;
    let x := handAt s hr;
    c ∈ tallyGlyphs hr o ∧ (∀ t, ¬ TallyNo x o t) ∧ Formed s hr c g) := by
  dsimp only [Rdy]
  repeat' first | decide +kernel | (intro t h; rcases h with h | h | h <;> first | exact absurd h.1 (by decide +kernel) | exact absurd h.2.1 (by decide +kernel)) | (intro k e; cases e <;> decide +kernel) | constructor

theorem test_meets_TrayGlyphs :
  (let s : State := trayed (fun r => { r with trayCfg := 0x80014000, trayTail := 0x102, trayHead := 3 });
    let hr : HandRef := h2; let o : BitVec 22 := 0x80030; let i := beadNo hr.br; let b := beadOf s hr;
    let a := (localEa (handAt s hr) o).toNat;
    inFreeRod s i = true ∧ Rdy s hr (.trpush hr true o) ∧ LocalOk s hr a 64 ∧ trayOn b = true ∧ trayCount b < 256 ∧
    rangeHeld b (trayEntry b b.regs.trayTail.toNat) 64 = false) ∧
  (let s : State := trayed (fun r => { r with trayCfg := 0x80014000, trayTail := 0x103, trayHead := 3 });
    let hr : HandRef := h2; let o : BitVec 22 := 0x80030; let i := beadNo hr.br; let b := beadOf s hr;
    let a := (localEa (handAt s hr) o).toNat;
    inFreeRod s i = true ∧ Rdy s hr (.trpush hr true o) ∧ LocalOk s hr a 64 ∧ (trayOn b = false ∨ 256 ≤ trayCount b)) ∧
  (let s : State := trayed (fun r => { r with trayCfg := 0x80014000, trayTail := 4, trayHead := 3 });
    let hr : HandRef := h2; let o : BitVec 22 := 0x80030; let i := beadNo hr.br; let b := beadOf s hr;
    let a := (localEa (handAt s hr) o).toNat; let last := localAt hr (trayEntry b (b.regs.trayTail - 1).toNat);
    inFreeRod s i = true ∧ Rdy s hr (.trpop hr true o) ∧ LocalFree s hr a 64 ∧ trayOn b = true ∧ trayCount b ≠ 0 ∧
    parityFind s.parity last 64 = none) ∧
  (let s : State := trayed (fun r => { r with trayCfg := 0x80014000, trayTail := 3, trayHead := 3 });
    let hr : HandRef := h2; let o : BitVec 22 := 0x80030; let i := beadNo hr.br; let b := beadOf s hr;
    let a := (localEa (handAt s hr) o).toNat;
    inFreeRod s i = true ∧ Rdy s hr (.trpop hr true o) ∧ LocalFree s hr a 64 ∧ (trayOn b = false ∨ trayCount b = 0)) ∧
  (let s : State := trayed (fun r => r); let hr : HandRef := h2; let o : BitVec 22 := 0x80030; let i := beadNo hr.br;
    let a := (localEa (handAt s hr) o).toNat;
    inFreeRod s i = true ∧ Rdy s hr (.trsteal hr true o) ∧ LocalFree s hr a 64) := by
  dsimp only [Rdy]
  repeat' first | decide +kernel | constructor

theorem test_meets_QuillGlyphs :
  (let s : State := bytesAt (folioBase 0 + 0x18040) copyDesc (modBead (mk h2 keeper) 0 (fun b => { b with quills := [(0, quillSlot copyDesc true)] }));
    let hr : HandRef := h2; let o : BitVec 22 := 0x80030; let k : Nat := 1; let b := beadOf s hr;
    let x := handAt s hr; let a := (localEa x o).toNat; let d := loadBytes s (localAt hr a) 64;
    let slot (n : Nat) : QuillSlot := mapGet (fun _ => {}) b.quills n;
    Rdy s hr (.quill hr true o) ∧ LocalOk s hr a 64 ∧ k < 8 ∧ (slot k).busy = false ∧
    (∀ n < k, (slot n).busy = true) ∧ heldEntries b + (qRanges d).length ≤ 8) ∧
  (let s : State := bytesAt (folioBase 0 + 0x18040) copyDesc (modBead (mk h2 keeper) 0 (fun b => { b with quills := [(0, quillSlot copyDesc true)] }));
    let hr : HandRef := h2; let o : BitVec 22 := 0;
    Rdy s hr (.quillst hr true o)) := by
  dsimp only [Rdy]
  repeat' first | decide +kernel | constructor

theorem test_meets_CommonGlyphs :
  (let s : State := regs (fun r => { r with chanCfg := 0 }) (core (fun c => { c with chan := [(2, [])] }) (mk h2 keeper));
    let hr : HandRef := h2; let o : BitVec 22 := 0x200002;
    Rdy s hr (.cwld hr true o)) ∧
  (let s : State := regs (fun r => { r with chanCfg := 0 }) (core (fun c => { c with chan := [(2, [])] }) (mk h2 keeper));
    let hr : HandRef := h2; let o : BitVec 22 := 0x200002; let b := beadOf s hr; let k := opdField o;
    let free : Prop := pswPl (handAt s hr).psw ≠ 0 ∨ b.regs.cwLock.getLsbD k = false;
    Rdy s hr (.cwst hr true o) ∧ free ∧
    Rdy s hr (.cwadd hr true o) ∧ free ∧
    Rdy s hr (.cwswp hr true o) ∧ free) ∧
  (let s : State := regs (fun r => { r with chanCfg := 0x00820000 }) (core (fun c => { c with chan := [(2, [5])] }) (mk h2 keeper));
    let hr : HandRef := h2; let o : BitVec 22 := 0x200002; let b := beadOf s hr; let k := opdField o;
    Rdy s hr (.csend hr true o) ∧ chanEn b k = true ∧ chanSrc b k = hr.hand.val ∧ (chanQ b k).length < 2) ∧
  (let s : State := regs (fun r => { r with chanCfg := 0x00820000 }) (core (fun c => { c with chan := [(2, [5, 6])] }) (mk h2 keeper));
    let hr : HandRef := h2; let o : BitVec 22 := 0x200002; let b := beadOf s hr; let k := opdField o;
    Rdy s hr (.csend hr true o) ∧ chanEn b k = true ∧ chanSrc b k = hr.hand.val ∧ 2 ≤ (chanQ b k).length) ∧
  (let s : State := regs (fun r => { r with chanCfg := 0x00880000 }) (core (fun c => { c with chan := [(2, [5, 6])] }) (mk h2 keeper));
    let hr : HandRef := h2; let o : BitVec 22 := 0x200002; let v : W64 := 5; let q : List W64 := [6];
    let b := beadOf s hr; let k := opdField o;
    Rdy s hr (.crecv hr true o) ∧ chanEn b k = true ∧ chanDst b k = hr.hand.val ∧ chanQ b k = v :: q) ∧
  (let s : State := regs (fun r => { r with chanCfg := 0x00880000 }) (core (fun c => { c with chan := [(2, [])] }) (mk h2 keeper));
    let hr : HandRef := h2; let o : BitVec 22 := 0x200002; let b := beadOf s hr; let k := opdField o;
    Rdy s hr (.crecv hr true o) ∧ chanEn b k = true ∧ chanDst b k = hr.hand.val ∧ chanQ b k = []) := by
  dsimp only [Rdy]
  repeat' first | decide +kernel | constructor

theorem test_meets_WaitGlyphs :
  (let s : State := core (fun c => { c with notices := [⟨1, 2, 3, 4, 5⟩] }) (mk h0 first); let hr : HandRef := h0;
    let o : BitVec 22 := 0x200000;
    Rdy s hr (.sleep hr true o)) ∧
  (let s : State := core (fun c => { c with notices := [⟨1, 2, 3, 4, 5⟩] }) (mk h0 first); let hr : HandRef := h0;
    let o : BitVec 22 := 0; let b := beadOf s hr;
    Rdy s hr (.nwait hr true o) ∧ hr.hand = 0 ∧ b.core.notices ≠ []) ∧
  (let s : State := core (fun c => { c with notices := [⟨1, 2, 3, 4, 5⟩] }) (mk h0 first); let hr : HandRef := h0;
    let o : BitVec 22 := 0x80000; let n : Notice := ⟨1, 2, 3, 4, 5⟩; let ns : List Notice := [];
    let b := beadOf s hr; let a := (localEa (handAt s hr) o).toNat;
    Rdy s hr (.npop hr true o) ∧ hr.hand = 0 ∧ b.core.notices = n :: ns ∧ LocalFree s hr a 16) ∧
  (let s : State := core (fun c => { c with notices := [⟨1, 2, 3, 4, 5⟩] }) (mk h0 first); let hr : HandRef := h0;
    let o : BitVec 22 := 0x200002;
    Rdy s hr (.fence hr true o) ∧ opdField o = (2 : Fin 4).val) ∧
  (let s : State := mk h0 first; let hr : HandRef := h0; let o : BitVec 22 := 0; let b := beadOf s hr;
    Rdy s hr (.nwait hr true o) ∧ hr.hand = 0 ∧ b.core.notices = []) := by
  dsimp only [Rdy]
  repeat' first | decide +kernel | constructor

theorem test_meets_LaneGlyphs1 :
  (let op : VOp := .fma; let s : State := tiled 0x1F; let hr : HandRef := h2; let o : BitVec 22 := 0x184000;
    let b := beadOf s hr;
    (∀ k, op = .cmp k → k = rSp o) ∧ Rdy s hr (laneGlyph op hr true o) ∧
    VFits s hr (laneUse s hr op o) (laneShapes b op o) ∧ laneShapes b op o = true) := by
  dsimp only [Rdy]
  repeat' first | decide +kernel | (intro k e; cases e <;> decide +kernel) | constructor

theorem test_meets_LaneGlyphs2 :
  (let f : Nat := 3; let r : Rnd := ⟨0, false⟩; let j : Nat := 15;
    (f = 3 ∨ f = 6) ∧ r.sat = false ∧ j < fmtLanes f) := by
  dsimp only [Rdy]
  repeat' first | decide +kernel | constructor

theorem test_meets_RowGlyphs :
  (let s : State := tiled 0x11F; let hr : HandRef := h2; let o : BitVec 22 := 0x184000; let b := beadOf s hr;
    let e := aloneEnv s hr false;
    let plain : Bool := !fmtMx (tileFmt b (rTd o)) && tileFmt b (rTa o) == tileFmt b (rTd o) && tileFmt b (rTb o) == tileFmt b (rTd o);
    let two := useOf e o true false;
    Rdy s hr (.vand hr true o) ∧ VFits s hr two plain ∧ plain = true ∧
    Rdy s hr (.vor hr true o) ∧ VFits s hr two plain ∧ plain = true ∧
    Rdy s hr (.vxor hr true o) ∧ VFits s hr two plain ∧ plain = true) ∧
  (let s : State := tiled 0x11F; let hr : HandRef := h2; let o : BitVec 22 := 0x184000; let b := beadOf s hr;
    let e := aloneEnv s hr false;
    let plain : Bool := !fmtMx (tileFmt b (rTd o)) && tileFmt b (rTa o) == tileFmt b (rTd o) && tileFmt b (rTb o) == tileFmt b (rTd o);
    let three := useOf e o true true;
    Rdy s hr (.vbsl hr true o) ∧ VFits s hr three plain ∧ plain = true) ∧
  (let s : State := tiled 0x11F; let hr : HandRef := h2; let o : BitVec 22 := 0x190000; let b := beadOf s hr;
    let e := aloneEnv s hr false; let fd := tileFmt b (rTd o); let fa := tileFmt b (rTa o);
    Rdy s hr (.vmov hr true o) ∧ VFits s hr (useOf e o false false) (fa == fd) ∧ fa = fd) ∧
  (let s : State := tiled 0x11F; let hr : HandRef := h2; let o : BitVec 22 := 0x050000; let b := beadOf s hr;
    let x := handAt s hr; let r := vRow x o; let fa := tileFmt b (rTa o);
    Rdy s hr (.vgetl hr true o) ∧ VFits s hr ⟨[(rTa o, r, 1)], none⟩ (laneable fa) ∧ laneable fa = true) ∧
  (let s : State := tiled 0x11F; let hr : HandRef := h2; let o : BitVec 22 := 0x180000; let b := beadOf s hr;
    let x := handAt s hr; let r := vRow x o; let fd := tileFmt b (rTd o);
    Rdy s hr (.vputl hr true o) ∧ VFits s hr ⟨[(rTd o, r, 1)], some (rTd o, r)⟩ (laneable fd) ∧ laneable fd = true ∧
    Rdy s hr (.vbcast hr true o) ∧ VFits s hr ⟨[], some (rTd o, r)⟩ (laneable fd) ∧ laneable fd = true) := by
  dsimp only [Rdy]
  repeat' first | decide +kernel | constructor

theorem test_meets_ConversionGlyphs :
  (let fn : SpecialFn := .exp; let s : State := tiled 0x1F; let hr : HandRef := h2; let o : BitVec 22 := 0x190000;
    let b := beadOf s hr; let e := aloneEnv s hr false; let fa := tileFmt b (rTa o); let fd := tileFmt b (rTd o);
    let one := useOf e o false false;
    Rdy s hr (specialGlyph fn hr true o) ∧ VFits s hr one (fa == 0 && fd == 0) ∧ fa = 0 ∧ fd = 0) ∧
  (let s : State := tiled 0x1F; let hr : HandRef := h2; let o : BitVec 22 := 0x050000; let b := beadOf s hr;
    let x := handAt s hr; let r := vRow x o; let fa := tileFmt b (rTa o);
    Rdy s hr (.vrsum hr true o) ∧ VFits s hr ⟨[(rTa o, r, 1)], none⟩ (fa == 0) ∧ fa = 0) ∧
  (let s : State := tiled 0x1F; let hr : HandRef := h2; let o : BitVec 22 := 0x184000; let b := beadOf s hr;
    let e := aloneEnv s hr false; let fa := tileFmt b (rTa o); let fd := tileFmt b (rTd o);
    let two := useOf e o true false;
    Rdy s hr (.vcadd hr true o) ∧ VFits s hr two (fa == 0 && tileFmt b (rTb o) == 0 && fd == 0) ∧ fa = 0 ∧
    tileFmt b (rTb o) = 0 ∧ fd = 0) ∧
  (let s : State := tiledBut 0x1F 3 0x11F; let hr : HandRef := h2; let o : BitVec 22 := 0x190000;
    let b := beadOf s hr; let e := aloneEnv s hr false; let fa := tileFmt b (rTa o); let fd := tileFmt b (rTd o);
    let one := useOf e o false false; let n := min (fmtLanes fa) (fmtLanes fd);
    Rdy s hr (.vcvt hr true o) ∧ fmtMx fd = false ∧ rTb o = 0 ∧ rBr o = false ∧ rSp o < fmtLanes fa / n ∧
    rDp o < fmtLanes fd / n ∧ VFits s hr one true) ∧
  (let s : State := tiledBut 0x1F 3 0x71F; let hr : HandRef := h2; let o : BitVec 22 := 0x1A4000;
    let b := beadOf s hr; let e := aloneEnv s hr false; let fa := tileFmt b (rTa o); let fd := tileFmt b (rTd o);
    let two := useOf e o true false;
    Rdy s hr (.vcvt hr true o) ∧ fmtMx fd = true ∧ fa = 0 ∧ tileFmt b (rTb o) = 0 ∧ rSp o = 0 ∧
    rDp o < fmtLanes fd / 32 ∧ VFits s hr two true) ∧
  (let s : State := tiledBut 0x81F 3 0x71F; let hr : HandRef := h2; let o : BitVec 22 := 0x190000;
    let b := beadOf s hr; let e := aloneEnv s hr false; let fa := tileFmt b (rTa o); let fd := tileFmt b (rTd o);
    let one := useOf e o false false;
    Rdy s hr (.vcvt hr true o) ∧ fmtMx fd = true ∧ fa ≠ 0 ∧ rTb o = 0 ∧ rBr o = false ∧ rSp o < fmtLanes fa / 32 ∧
    rDp o < fmtLanes fd / 32 ∧ VFits s hr one true) ∧
  (let s : State := tiledBut 0x1F 3 0x11F; let hr : HandRef := h2; let o : BitVec 22 := 0x190000;
    let b := beadOf s hr; let x := handAt s hr; let fa := tileFmt b (rTa o); let fd := tileFmt b (rTd o);
    Rdy s hr (.vcrnd hr true o) ∧ fmtMx fd = false ∧ rDp o < fmtLanes fd / 8 ∧ fa = 0 ∧
    VFits s hr (crndUse b x o) true) ∧
  (let s : State := tiledBut 0x1F 3 0x71F; let hr : HandRef := h2; let o : BitVec 22 := 0x190000;
    let b := beadOf s hr; let x := handAt s hr; let fa := tileFmt b (rTa o); let fd := tileFmt b (rTd o);
    Rdy s hr (.vcrnd hr true o) ∧ fmtMx fd = true ∧ rDp o < fmtBlocks fd ∧ fa = 0 ∧ VFits s hr (crndUse b x o) true) := by
  dsimp only [Rdy]
  repeat' first | decide +kernel | constructor

theorem test_meets_TileGlyphs :
  (let s : State := tiled 0x11F { keeper with acc := 0x11F, x0 := 0x18000, x1 := 64 }; let hr : HandRef := h2;
    let o : BitVec 22 := 0x200003; let b := beadOf s hr; let x := handAt s hr; let k := opdField o;
    let mine (t : Nat) : Prop := mayWriteTile b hr.hand.val (pswPl x.psw) t = true;
    Rdy s hr (.tzero hr true o) ∧ mine k) ∧
  (let s : State := tiled 0x11F { keeper with acc := 0x11F, x0 := 0x18000, x1 := 64 }; let hr : HandRef := h2;
    let o : BitVec 22 := 0x200003; let b := beadOf s hr; let x := handAt s hr; let k := opdField o;
    let v : W32 := x.acc.truncate 32 &&& 0xFFFF;
    let mine (t : Nat) : Prop := mayWriteTile b hr.hand.val (pswPl x.psw) t = true;
    Rdy s hr (.tcfg hr true o) ∧ mine k ∧ tileQuiet b k = true ∧ v &&& 0xF0E0 = 0 ∧ fld v.toNat 11 8 ≤ 0xB ∧
    v = tcfgOf b k) ∧
  (let s : State := tiled 0x11F { keeper with acc := 0xB1F, x0 := 0x18000, x1 := 64 }; let hr : HandRef := h2;
    let o : BitVec 22 := 0x200003; let b := beadOf s hr; let x := handAt s hr; let k := opdField o;
    let v : W32 := x.acc.truncate 32 &&& 0xFFFF;
    let mine (t : Nat) : Prop := mayWriteTile b hr.hand.val (pswPl x.psw) t = true;
    Rdy s hr (.tcfg hr true o) ∧ mine k ∧ tileQuiet b k = true ∧ v &&& 0xF0E0 = 0 ∧ fld v.toNat 11 8 ≤ 0xB ∧
    v ≠ tcfgOf b k) ∧
  (let s : State := tiled 0x11F { keeper with acc := 0x11F, x0 := 0x18000, x1 := 64 }; let hr : HandRef := h2;
    let o : BitVec 22 := 0x180000; let x := handAt s hr;
    Rdy s hr (if false then .tstore hr true o else .tld hr true o) ∧ TransferFits s hr (transferOf x o false)) := by
  dsimp only [Rdy]
  repeat' first | decide +kernel | constructor

theorem test_meets_NibGlyphs :
  (let s : State := modBead (tiled 0x103 { keeper with x0 := 0x18000, x1 := 0x1C000, acc := 0x20 }) 0 (fun b => { b with regs := { b.regs with ngd := [(1, 0x1400000210000C11)] }, nibGroups := [(1, ⟨true, false⟩)] });
    let hr : HandRef := h2; let o : BitVec 22 := 0x200001; let k : Fin 4 := 1; let x := handAt s hr;
    Rdy s hr (.nset hr true o) ∧ opdField o = k.val ∧ NibMay s hr k.val ∧ x.acc &&& ngdReserved = 0) ∧
  (let s : State := modBead (tiled 0x103 { keeper with x0 := 0x18000, x1 := 0x1C000, acc := 0x20 }) 0 (fun b => { b with regs := { b.regs with ngd := [(1, 0x1400000210000C11)] }, nibGroups := [(1, ⟨true, false⟩)] });
    let hr : HandRef := h2; let o : BitVec 22 := 0x200001; let k : Fin 4 := 1;
    Rdy s hr (.nget hr true o) ∧ opdField o = k.val ∧ NibMay s hr k.val ∧
    Rdy s hr (.nopen hr true o) ∧ opdField o = k.val ∧ NibMay s hr k.val ∧ NibFree s hr) ∧
  (let s : State := modBead (tiled 0x103 { keeper with x0 := 0x18000, x1 := 0x1C000, acc := 0x20 }) 0 (fun b => { b with regs := { b.regs with ngd := [(1, 0x1400000210000C11)] }, nibGroups := [(1, ⟨true, false⟩)] });
    let hr : HandRef := h2; let o : BitVec 22 := 0x200001; let k : Fin 4 := 1; let b := beadOf s hr;
    let d := nibDesc b k.val;
    Rdy s hr (.ndrn hr true o) ∧ opdField o = k.val ∧ NibMay s hr k.val ∧ NibFree s hr ∧ DrainFits s hr d ∧
    (nibGroup b k.val).perr = false) ∧
  (let s : State := modBead (tiled 0x103 { keeper with x0 := 0x18000, x1 := 0x1C000, acc := 0x20 }) 0 (fun b => { b with regs := { b.regs with ngd := [(1, 0x1400000210000C11)] }, nibGroups := [(1, ⟨true, false⟩)] });
    let hr : HandRef := h2; let o : BitVec 22 := 0x30000; let k : Fin 4 := 1;
    Rdy s hr (.nmac hr true o) ∧ gGroup o = k.val ∧ NmacFits s hr o ∧ gDrn o = false) ∧
  (let s : State := modBead (tiled 0x103 { keeper with x0 := 0x18000, x1 := 0x1C000, acc := 0x20 }) 0 (fun b => { b with regs := { b.regs with ngd := [(1, 0x1400000210000C11)] }, nibGroups := [(1, ⟨true, false⟩)] });
    let hr : HandRef := h2; let o : BitVec 22 := 0x38000; let k : Fin 4 := 1; let b := beadOf s hr;
    let d := nibDesc b k.val;
    Rdy s hr (.nmac hr true o) ∧ gGroup o = k.val ∧ NmacFits s hr o ∧ gDrn o = true ∧ DrainFits s hr d) := by
  dsimp only [Rdy]
  repeat' first | decide +kernel | constructor

theorem test_meets_GlyphLines1 :
  (let s : State := mk h2 keeper; let hr : HandRef := h2; let c : Instr := .xaddi h2 false .x0 0x200008;
    let g : Glyph := (gl (.xaddi h2 false .x0 0x200008));
    glyphOf c = some g ∧ g.hand = hr ∧ slateRuns s hr.br.slate.val = true ∧ beadExists s (beadNo hr.br) = true ∧
    (beadOf s hr).held = false ∧ (handAt s hr).st = .running ∧ (handAt s hr).openLine = none ∧ g.stop = false ∧
    (handAt s hr).line.length < 5) ∧
  (let s : State := mk h2 { keeper with st := .idle }; let hr : HandRef := h2;
    let c : Instr := .xaddi h2 false .x0 0x200008; let g : Glyph := (gl (.xaddi h2 false .x0 0x200008));
    glyphOf c = some g ∧ g.hand = hr ∧ (handAt s hr).st ≠ .running) := by
  dsimp only [Rdy]
  repeat' first | decide +kernel | constructor

theorem test_meets_GlyphLines2 :
  (let s : State := mk h2 { keeper with line := [.xaddi h2 false .x0 0x200008] }; let hr : HandRef := h2;
    let r : XReg := .x0; let o : BitVec 22 := 0x200008; let p : BitVec 22 := 0x80010;
    let ga : Glyph := (gl (.xaddi h2 false .x0 0x200008)); let gc : Glyph := (gl (.ld h2 true 0x80010));
    let x := handAt s hr; let a := (localEa x p).toNat;
    ReadyPair s hr (.xaddi hr false r o) (.ld hr true p) ga gc ∧ opdMode p ≤ 3 ∧ LocalOk s hr a 8) ∧
  (let s : State := mk h2 { keeper with line := [.xaddi h2 false .x0 0x200008] }; let hr : HandRef := h2;
    let r : XReg := .x0; let o : BitVec 22 := 0x200008; let p : BitVec 22 := 0x80010;
    let ga : Glyph := (gl (.xaddi h2 false .x0 0x200008)); let gc : Glyph := (gl (.st h2 true 0x80010));
    let x := handAt s hr; let a := (localEa x p).toNat;
    ReadyPair s hr (.xaddi hr false r o) (.st hr true p) ga gc ∧ opdMode p ≤ 3 ∧ LocalFree s hr a 8) ∧
  (let s : State := mk h2 { keeper with line := [.xacc h2 false .x0 0] }; let hr : HandRef := h2;
    let r : XReg := .x0; let o : BitVec 22 := 0; let p : BitVec 22 := 0x200005;
    let ga : Glyph := (gl (.xacc h2 false .x0 0)); let gc : Glyph := (gl (.add h2 true 0x200005)); let v : W64 := 5;
    let x := handAt s hr;
    ReadyPair s hr (.xacc hr false r o) (.add hr true p) ga gc ∧ OperandIs s hr p v ∧
    aluTraps .add x.psw x.acc v = none) := by
  dsimp only [Rdy]
  repeat' first | decide +kernel | constructor

theorem test_meets_FaultEntry1 :
  (let op : AluOp := .add; let s : State := mk h2 { user with psw := 0x20000300, acc := 0x7FFFFFFFFFFFFFFF };
    let hr : HandRef := h2; let o : BitVec 22 := 0x200001; let v : W64 := 1; let cause : W8 := 0x0C;
    let x := handAt s hr;
    Rdy s hr (aluGlyph op hr true o) ∧ OperandIs s hr o v ∧ aluTraps op x.psw x.acc v = some cause ∧
    pswPl x.psw = 0 ∧ hr.hand ≠ 0 ∧ Unfaulted s hr) ∧
  (let op : AluOp := .add; let s : State := mk h0 { user with psw := 0x300, acc := 0x7FFFFFFFFFFFFFFF };
    let hr : HandRef := h0; let o : BitVec 22 := 0x200001; let v : W64 := 1; let cause : W8 := 0x0C;
    let x := handAt s hr;
    Rdy s hr (aluGlyph op hr true o) ∧ OperandIs s hr o v ∧ aluTraps op x.psw x.acc v = some cause ∧
    (pswPl x.psw = 1 ∨ (pswPl x.psw = 0 ∧ hr.hand = 0))) ∧
  (let op : AluOp := .add; let s : State := mk h2 { user with psw := 0x20000302, acc := 0x7FFFFFFFFFFFFFFF };
    let hr : HandRef := h2; let o : BitVec 22 := 0x200001; let v : W64 := 1; let cause : W8 := 0x0C;
    let x := handAt s hr;
    Rdy s hr (aluGlyph op hr true o) ∧ OperandIs s hr o v ∧ aluTraps op x.psw x.acc v = some cause ∧ 2 ≤ pswPl x.psw) := by
  dsimp only [Rdy]
  repeat' first | decide +kernel | constructor

theorem test_meets_FaultEntry2 :
  (let s : State := mk h2 { user with psw := 0x20000300, acc := 0x7FFFFFFFFFFFFFFF }; let hr : HandRef := h2;
    let o : BitVec 22 := 0x20FFFF; let x := handAt s hr;
    Rdy s hr (.brk hr true o) ∧ opdField o < 2 ^ 16 ∧ pswPl x.psw = 0 ∧ hr.hand ≠ 0 ∧ Unfaulted s hr) ∧
  (let s : State := mk h0 { user with psw := 0x300, acc := 0x7FFFFFFFFFFFFFFF }; let hr : HandRef := h0;
    let o : BitVec 22 := 0x20FFFF; let x := handAt s hr;
    Rdy s hr (.brk hr true o) ∧ opdField o < 2 ^ 16 ∧ pswPl x.psw < 2 ∧ (pswPl x.psw = 1 ∨ hr.hand = 0)) ∧
  (let s : State := mk h2 { user with psw := 0x20000302 }; let hr : HandRef := h2;
    let o : BitVec 22 := 0x20FFFF; let x := handAt s hr;
    Rdy s hr (.brk hr true o) ∧ opdField o < 2 ^ 16 ∧ 2 ≤ pswPl x.psw) := by
  dsimp only [Rdy]
  repeat' first | decide +kernel | constructor

theorem test_meets_FaultEntry3 :
  (let s : State := mk h2 user; let hr : HandRef := h2; let r : XReg := .x0; let o : BitVec 22 := 0x80009;
    let p : Instr × Nat × Nat × LoadDest := (.ld h2 true 0x80009, 1, 8, .acc 8 false); let x := handAt s hr;
    let a := localEa x o;
    p ∈ memLoads hr r o ∧ opdMode o ≤ 3 ∧ Rdy s hr p.1 ∧ a.toNat % p.2.2.1 ≠ 0) ∧
  (let s : State := mk h2 user; let hr : HandRef := h2; let r : XReg := .x0; let o : BitVec 22 := 0x80009;
    let g : Glyph := (gl (.st h2 true 0x80009));
    let q : Instr × Nat × List W8 := (.st h2 true 0x80009, 1, toBytes 8 (handAt (mk h2 user) h2).acc.toNat);
    let x := handAt s hr; let a := localEa x o;
    q ∈ memStores x hr r o ∧ opdMode o ≤ 3 ∧ Ready s hr q.1 g ∧ a.toNat % q.2.2.length ≠ 0) := by
  dsimp only [Rdy]
  repeat' first | decide +kernel | constructor

theorem test_meets_OperandModes :
  (let c : Instr := .ld h2 true 0x80010; let s : State := mk h2 user; let hr : HandRef := h2;
    let g : Glyph := (gl (.ld h2 true 0x80010));
    Formed s hr c g ∧ g.hand = hr ∧ g.form = .mk) ∧
  (let c : Instr := .stw h2 true 0x300000; let s : State := mk h2 user; let hr : HandRef := h2;
    let g : Glyph := (gl (.stw h2 true 0x300000));
    Formed s hr c g ∧ g.hand = hr ∧ g.form = .m) ∧
  (let c : Instr := .xaddi h2 true .x0 0x80010; let s : State := mk h2 user; let hr : HandRef := h2;
    let g : Glyph := (gl (.xaddi h2 true .x0 0x80010));
    Formed s hr c g ∧ g.hand = hr ∧ g.form = .k) ∧
  (let c : Instr := .st h2 true 0x200010; let s : State := mk h2 user; let hr : HandRef := h2; let r : XReg := .x0;
    let o : BitVec 22 := 0x200010; let g : Glyph := (gl (.st h2 true 0x200010)); let m := opdMode g.opd;
    Formed s hr c g ∧ g.hand = hr ∧
    c ∈ (memStores (handAt s hr) hr r o).map (·.1) ++ [.xlea hr true r o, .fplea hr true o] ∧ m = 4) := by
  dsimp only [Rdy]
  repeat' first | decide +kernel | constructor

theorem test_meets_StepRunsFront :
  (let c : Instr := .powerOff; let rest : List Instr := []; let s : State := { up with pending := [.powerOff] };
    s.pending = c :: rest) := by
  dsimp only [Rdy]
  repeat' first | decide +kernel | constructor

theorem test_meets_ResetValues :
  (let i : Nat := 0; let h : Nat := 0;
    i < 1024 ∧ h < 4) ∧
  (let i : Nat := 1023; let h : Nat := 3;
    i < 1024 ∧ h < 4) := by
  dsimp only [Rdy]
  repeat' first | decide +kernel | constructor

theorem test_meets_StepKeepsMemory :
  (let s : State := { mk h2 keeper with pending := [.st h2 true 0x80010] };
    let t : State := nextOr up (step { mk h2 keeper with pending := [.st h2 true 0x80010] });
    MemOk s ∧ step s = .next t) := by
  dsimp only [Rdy]
  repeat' first | decide +kernel | exact next_self (by decide +kernel) | constructor

theorem test_meets_TransferEvents :
  (let s : State := moving (move false 0); let hr : HandRef := h2;
    let l : OpenLine := openFor (.transfer (move false 0)); let t : Transfer := (move false 0);
    let d : NibDrain := ⟨1, 2, 0x1400000200080012, [List.replicate 64 0xAA, List.replicate 64 0xBB], [1, 2], 0x11⟩;
    let ds : List NibDrain := []; let i := beadNo hr.br; let b := beadOf s hr; let x := handAt s hr;
    let rows := tileRows b t.tile.val; let e : Env := ⟨s, i, hr.hand.val, x, l.pc, l.len, l.pc⟩;
    let left := (List.range (rows - t.next)).map (t.next + ·);
    let plain : Prop := t.dev = false ∧ t.trn = false ∧ t.lay = false ∧ t.es = 0 ∧ fmtMx (tileFmt b t.tile.val) = false ∧ boundIn b t.tile.val = none ∧ boundOut b t.tile.val = none ∧ t.snap = [];
    let calm : Prop := BeadUp s hr.br ∧ x.openLine = some l ∧ l.why = [.transfer t] ∧ l.effs = [] ∧ l.killed = false ∧ l.late = none ∧ x.stopAfter = false ∧ x.heldFaults = [];
    calm ∧ plain ∧ (∀ j ∈ left, rowFault e t j = none) ∧ BeadUp s hr.br ∧ b.nibDrains = d :: ds) ∧
  (let s : State := moving (move false 1 0x30000); let hr : HandRef := h2;
    let l : OpenLine := openFor (.transfer (move false 1 0x30000)); let t : Transfer := (move false 1 0x30000);
    let f : GFault := { cause := 5, sfa := 0x30040 }; let row : Fin 32 := 1; let i := beadNo hr.br;
    let b := beadOf s hr; let x := handAt s hr; let rows := tileRows b t.tile.val;
    let e : Env := ⟨s, i, hr.hand.val, x, l.pc, l.len, l.pc⟩;
    let calm : Prop := BeadUp s hr.br ∧ x.openLine = some l ∧ l.why = [.transfer t] ∧ l.effs = [] ∧ l.killed = false ∧ l.late = none ∧ x.stopAfter = false ∧ x.heldFaults = [];
    let kept : State := putTransfer s i hr.hand.val t;
    calm ∧ x.st = .running ∧ pswPl x.psw = 0 ∧ hr.hand ≠ 0 ∧ Unfaulted s hr ∧ row.val = t.next ∧ t.next < rows ∧
    transferFault kept i hr.hand.val l t = some f ∧ f.log = none ∧ f.abort = false ∧ f.others = [] ∧
    (f.cause = 6 → t.dev = false ∧ (getSlate s (i / 256)).pg.job = none)) := by
  dsimp only [Rdy]
  repeat' first | decide +kernel | constructor

theorem test_meets_HandEvents :
  (let s : State := mk h2 { user with st := .sleeping .twait, latch := ⟨true, true, false, 1, 1, false⟩ };
    let hr : HandRef := h2; let src : Fin 8 := 2; let b := beadOf s hr; let x := handAt s hr;
    BeadUp s hr.br ∧ Unfaulted s hr ∧ x.st = .sleeping .twait ∧ x.latch.valid = true ∧ x.latch.sat = true ∧ x.heldFaults = [] ∧
    b.regs.intPend.getLsbD src.val = false) ∧
  (let s : State := core (fun c => { c with notices := [⟨1, 2, 3, 4, 5⟩] }) (mk h2 { user with st := .sleeping .nwait });
    let hr : HandRef := h2; let b := beadOf s hr; let x := handAt s hr;
    BeadUp s hr.br ∧ Unfaulted s hr ∧ x.st = .sleeping .nwait ∧ b.core.notices ≠ [] ∧ x.heldFaults = []) ∧
  (let s : State := regs (fun r => { r with chanCfg := 0x00880000 }) (core (fun c => { c with chan := [(2, [4])] }) (mk h2 { user with st := .sleeping .crecv, sleepMask := 4 }));
    let hr : HandRef := h2; let b := beadOf s hr; let x := handAt s hr; let h := hr.hand.val;
    BeadUp s hr.br ∧ Unfaulted s hr ∧ x.st = .sleeping .crecv ∧ x.heldFaults = [] ∧ x.sleepMask.getLsbD (2 : Fin 4).val = true ∧
    chanEn b (2 : Fin 4).val = true ∧ chanDst b (2 : Fin 4).val = h ∧ chanQ b (2 : Fin 4).val ≠ []) ∧
  (let s : State := regs (fun r => { r with chanCfg := 0x00820000 }) (core (fun c => { c with chan := [(2, [4])] }) (mk h2 { user with st := .sleeping .csend, sleepMask := 4 }));
    let hr : HandRef := h2; let b := beadOf s hr; let x := handAt s hr; let h := hr.hand.val;
    BeadUp s hr.br ∧ Unfaulted s hr ∧ x.st = .sleeping .csend ∧ x.heldFaults = [] ∧ x.sleepMask.getLsbD (2 : Fin 4).val = true ∧
    chanEn b (2 : Fin 4).val = true ∧ chanSrc b (2 : Fin 4).val = h ∧ (chanQ b (2 : Fin 4).val).length < 2) ∧
  (let s : State := mk h2 { user with st := .sleeping .sleep, tctl := 0xB }; let hr : HandRef := h2;
    let i := beadNo hr.br; let x := handAt s hr;
    BeadUp s hr.br ∧ Unfaulted s hr ∧ x.tctl.getLsbD 0 = true ∧ x.tcmp ≤ slateTick s i ∧ x.heldFaults = []) ∧
  (let s : State := regs (fun r => { r with intPend := 4 }) (mk h2 user); let hr : HandRef := h2;
    let src : Fin 8 := 2; let b := beadOf s hr; let x := handAt s hr; let h := hr.hand.val;
    BeadUp s hr.br ∧ Unfaulted s hr ∧ b.regs.intPend.getLsbD src.val = true ∧ x.st = .running ∧ x.openLine = none ∧ pswPl x.psw = 0 ∧
    h ≠ 0) ∧
  (let s : State := mk h2 { user with st := .stopped .brk }; let hr : HandRef := h2; let x := handAt s hr;
    BeadUp s hr.br ∧ Unfaulted s hr ∧ x.st = .stopped .brk) ∧
  (let s : State := mk h2 { user with st := .halted .idle }; let hr : HandRef := h2; let x := handAt s hr;
    BeadUp s hr.br ∧ Unfaulted s hr ∧ x.st = .halted .idle) ∧
  (let s : State := mk h2 { user with st := .idle }; let hr : HandRef := h2; let x := handAt s hr;
    BeadUp s hr.br ∧ Unfaulted s hr ∧ x.st = .idle) ∧
  (let s : State := mk h2 { user with openLine := some (openFor (.fence 2 3 [1])) }; let hr : HandRef := h2;
    let l : OpenLine := openFor (.fence 2 3 [1]); let kind : Fin 4 := 2; let seq : Nat := 3;
    let qs : List (Fin 8) := [1]; let b := beadOf s hr; let x := handAt s hr; let h := hr.hand.val;
    let calm (w : Pending) : Prop := x.openLine = some l ∧ l.why = [w] ∧ l.effs = [] ∧ l.killed = false ∧ l.late = none ∧ x.stopAfter = false ∧ x.heldFaults = [];
    BeadUp s hr.br ∧ Unfaulted s hr ∧ calm (.fence kind seq qs) ∧ fenceHolds b h kind.val seq qs = true) ∧
  (let s : State := mk h2 { user with openLine := some (openFor .scan) }; let hr : HandRef := h2;
    let l : OpenLine := openFor .scan; let b := beadOf s hr; let x := handAt s hr;
    let calm (w : Pending) : Prop := x.openLine = some l ∧ l.why = [w] ∧ l.effs = [] ∧ l.killed = false ∧ l.late = none ∧ x.stopAfter = false ∧ x.heldFaults = [];
    BeadUp s hr.br ∧ Unfaulted s hr ∧ calm .scan ∧ b.blot.merge = [] ∧
    (∀ k : Fin 4, k ≠ hr.hand → (handAt s (siblingAt hr k)).openLine = none)) := by
  dsimp only [Rdy]
  repeat' first | decide +kernel | constructor

theorem test_meets_HandRegisterWrites :
  (let s : State := mk h2 { user with st := .idle }; let hr : HandRef := h2; let p : Path := .firmware;
    let v : W32 := 0x80000800; let hi : Bool := true; let k : StopKind := .brk; let i := beadNo hr.br;
    let x := handAt s hr; let h := hr.hand.val; let o (r : Nat) : Nat := 0x100 + 0x100 * h + r;
    let fits (r : Nat) : Prop := SpaceFits s p hr.br r true;
    fits (o (if hi then 0x54 else 0x50)) ∧ (x.st = .idle ∨ x.st = .stopped k) ∧ fits 0x158 ∧ v.getLsbD 11 = true ∧
    (getHand s i 0).st = .idle ∧ (getHand s i 0).heldFaults = [] ∧ fits 0x24 ∧ Unfaulted s hr ∧ fits 0x10 ∧
    (∀ q : Fin 4, (handAt s (siblingAt hr q)).heldFaults = []) ∧ fits (o 0xAC) ∧ x.st ≠ .locked ∧ (∀ q, x.st ≠ .halted q)) ∧
  (let s : State := mk h2 { user with acc := 0 }; let hr : HandRef := h2; let p : Path := .firmware;
    let v : W32 := 0x80000800; let hi : Bool := true; let x := handAt s hr; let h := hr.hand.val;
    let o (r : Nat) : Nat := 0x100 + 0x100 * h + r; let fits (r : Nat) : Prop := SpaceFits s p hr.br r true;
    fits (o (if hi then 0x54 else 0x50)) ∧ x.st = .running ∧ fits (o 0xA8) ∧ v.getLsbD 31 = true) ∧
  (let s : State := mk h2 { user with st := .stopped .brk, staged := some ⟨3, [1, 2]⟩ }; let hr : HandRef := h2;
    let p : Path := .firmware; let v : W32 := 0x80000800; let m : Staged := ⟨3, [1, 2]⟩; let k : StopKind := .brk;
    let x := handAt s hr; let h := hr.hand.val; let o (r : Nat) : Nat := 0x100 + 0x100 * h + r;
    let fits (r : Nat) : Prop := SpaceFits s p hr.br r true;
    fits (o 0xA8) ∧ v.getLsbD 31 = true ∧ x.st = .stopped k ∧ x.staged = some m) ∧
  (let s : State := mk h2 { user with st := .halted .idle }; let hr : HandRef := h2; let p : Path := .firmware;
    let x := handAt s hr; let h := hr.hand.val; let o (r : Nat) : Nat := 0x100 + 0x100 * h + r;
    let fits (r : Nat) : Prop := SpaceFits s p hr.br r true;
    fits (o 0xAC) ∧ x.st = .halted .idle) ∧
  (let s : State := mk h2 { user with st := .halted .running }; let hr : HandRef := h2; let p : Path := .firmware;
    let x := handAt s hr; let h := hr.hand.val; let o (r : Nat) : Nat := 0x100 + 0x100 * h + r;
    let fits (r : Nat) : Prop := SpaceFits s p hr.br r true;
    fits (o 0xAC) ∧ x.st = .halted .running ∧ x.heldFaults = []) ∧
  (let s : State := mk h2 { user with st := .halted .sleeping }; let hr : HandRef := h2; let p : Path := .firmware;
    let x := handAt s hr; let h := hr.hand.val; let o (r : Nat) : Nat := 0x100 + 0x100 * h + r;
    let fits (r : Nat) : Prop := SpaceFits s p hr.br r true;
    fits (o 0xAC) ∧ x.st = .halted .sleeping) ∧
  (let s : State := mk h2 { user with st := .halted (.stopped .brk) }; let hr : HandRef := h2;
    let p : Path := .firmware; let k : StopKind := .brk; let x := handAt s hr; let h := hr.hand.val;
    let o (r : Nat) : Nat := 0x100 + 0x100 * h + r; let fits (r : Nat) : Prop := SpaceFits s p hr.br r true;
    fits (o 0xAC) ∧ x.st = .halted (.stopped k)) := by
  dsimp only [Rdy]
  repeat' first | decide +kernel | (intro q; cases q <;> first | decide +kernel | (rename_i w; cases w <;> decide +kernel)) | constructor

theorem test_meets_BeadRegisterWrites :
  (let s : State := tiled 0x11F; let br : BeadRef := br; let p : Path := .firmware; let t : Fin 8 := 3;
    let v : W32 := 0x11F; let b := beadIn s br; let o := 0x80 + 4 * t.val; let shape : W32 := v &&& 0xF1F;
    SpaceFits s p br o true ∧ fld v.toNat 11 8 ≤ 0xB ∧ tileQuiet b t.val = true ∧ shape = tcfgOf b t.val ∧
    SpaceFits s p br 0x520 true ∧ bindQuiet b v = true ∧ SpaceFits s p br 0x518 true) ∧
  (let s : State := tiled 0x11F; let br : BeadRef := br; let p : Path := .firmware; let t : Fin 8 := 3;
    let v : W32 := 0xB1F; let b := beadIn s br; let o := 0x80 + 4 * t.val; let shape : W32 := v &&& 0xF1F;
    SpaceFits s p br o true ∧ fld v.toNat 11 8 ≤ 0xB ∧ tileQuiet b t.val = true ∧ shape ≠ tcfgOf b t.val) ∧
  (let s : State := modBead (tiled 0x11F) 0 (fun b => setHand b 1 { user with openLine := some (openFor (.transfer (move false 0))) });
    let br : BeadRef := br; let p : Path := .firmware; let t : Fin 8 := 3; let v : W32 := 0x11F;
    let b := beadIn s br; let o := 0x80 + 4 * t.val;
    SpaceFits s p br o true ∧ fld v.toNat 11 8 ≤ 0xB ∧ tileQuiet b t.val = false) ∧
  (let s : State := modBead (tiled 0x11F) 0 (fun b => setHand b 1 { user with openLine := some (openFor (.transfer (move false 0))) });
    let br : BeadRef := br; let p : Path := .firmware; let v : W32 := 0xB; let b := beadIn s br;
    SpaceFits s p br 0x520 true ∧ bindQuiet b v = false ∧ SpaceFits s p br 0x68 true ∧ b.blot.switching = none ∧
    blotAsk b v = .switch) ∧
  (let s : State := modBead (tiled 0x11F) 0 (fun b => setHand b 1 { user with openLine := some (openFor (.transfer (move false 0))) });
    let br : BeadRef := br; let p : Path := .firmware; let t : Fin 8 := 3; let v : W32 := 0xC00;
    let b := beadIn s br; let o := 0x80 + 4 * t.val;
    SpaceFits s p br o true ∧ 0xB < fld v.toNat 11 8 ∧ SpaceFits s p br 0x68 true ∧ b.blot.switching = none ∧
    fld v.toNat 2 0 = b.blot.size.toNat ∧ b.blot.size ≤ 4) ∧
  (let s : State := regs (fun r => { r with trayCfg := 0x801C0000 }) (blot (fun b => { b with size := 1 }) (mk h2 user));
    let br : BeadRef := br; let p : Path := .firmware; let v : W32 := 4; let b := beadIn s br;
    SpaceFits s p br 0x68 true ∧ b.blot.switching = none ∧ fld v.toNat 2 0 ≤ 4 ∧
    b.blot.size.toNat < fld v.toNat 2 0 ∧ b.regs.trayCfg.getLsbD 31 = true ∧
    trayIn b.regs.trayCfg (fld v.toNat 2 0) = true) := by
  dsimp only [Rdy]
  repeat' first | decide +kernel | constructor

theorem test_meets_RegisterAccesses :
  (let s : State := up; let br : BeadRef := br; let p : Path := .firmware; let a : BitVec 30 := 0x300008;
    let sl : Fin 4 := 0; let base := br.slate.val * 0x4000000 + 0x300000 + br.bead.val * 0x1000;
    SpaceFits s p br 0x08 true ∧ a.toNat = base + 8 ∧ SpaceFits s p br 0x38 false ∧ deviceUp s = true ∧ heldOf s p = [] ∧
    slatePresent s sl.val = true ∧ granted s p (.slate sl.val 0x08) false = true ∧
    granted s p (.stroke 0x0C) false = true) ∧
  (let s : State := up; let br : BeadRef := br; let p : Path := .firmware; let a : BitVec 30 := 0x300034;
    let base := br.slate.val * 0x4000000 + 0x300000 + br.bead.val * 0x1000;
    SpaceFits s p br 0x34 true ∧ a.toNat = base + 0x34) ∧
  (let s : State := up; let br : BeadRef := br; let p : Path := .bar0; let a : BitVec 30 := 0x300008;
    let be : BitVec 4 := 7; let i := beadNo br;
    be ≠ 0xF ∧ deviceUp s = true ∧ heldOf s p = [] ∧ locOf s a.toNat = .bead i 0x08 ∧ granted s p (.bead i 0x08) true = false) ∧
  (let s : State := up; let p : Path := .bar0; let a : BitVec 30 := 0x3FFFFFF0;
    deviceUp s = true ∧ heldOf s p = [] ∧ locOf s a.toNat = .reserved) := by
  dsimp only [Rdy]
  repeat' first | decide +kernel | constructor

theorem test_meets_UnitWrites :
  (let s : State := up; let k : BrushRef := brush1; let p : Path := .firmware; let kb := brushNo k;
    let b := getBrush s kb;
    BrushFits s p k 0x13C ∧ b.failed = false ∧ b.queue.length < 16 ∧ BrushFits s p k 0x08 ∧ deviceUp s = true ∧ heldOf s p = [] ∧
    granted s p (.stroke 4) true = true ∧ s.stroke.st ≠ .fenced ∧ syncSlates s = [] ∧
    granted s p (.spine 0x300) true = true ∧ s.spine.recovering = false ∧ s.spine.warms ≠ 0xFFFF) ∧
  (let s : State := { up with stroke := { st := .fenced } }; let p : Path := .firmware;
    deviceUp s = true ∧ heldOf s p = [] ∧ granted s p (.stroke 4) true = true ∧ s.stroke.st = .fenced) ∧
  (let s : State := sess 2 up; let p : Path := .jtag;
    deviceUp s = true ∧ heldOf s p = [] ∧ granted s p (.sec 4) true = true ∧ p ≠ .firmware ∧ s.sec.lifecycle = .openLc ∧
    s.sec.pendingLc = none) ∧
  (let s : State := { up with sec := { up.sec with lifecycle := .sealed, session := some ⟨1, 2, false⟩ } };
    let p : Path := .jtag;
    deviceUp s = true ∧ heldOf s p = [] ∧ granted s p (.sec 4) true = true ∧ s.sec.lifecycle = .sealed) := by
  dsimp only [Rdy]
  repeat' first | decide +kernel | constructor

theorem test_meets_DebugAccesses :
  (let s : State := { sess 2 up with spine := { up.spine with dbgBase := 0x100, groups := [(0, 2)] } };
    let a : BitVec 30 := 0x10000030;
    let quiet (p : Path) : Prop := deviceUp s = true ∧ heldOf s p = [];
    tapServes s = true ∧ quiet .jtag ∧ locOf s a.toNat = .spine 0x30 ∧
    granted s .jtag (.spine 0x30) true = true ∧ granted s .jtag (.spine 0x30) false = true) ∧
  (let s : State := { up with tap := { held := true } };
    tapServes s = false) ∧
  (let s : State := { sess 2 up with spine := { up.spine with dbgBase := 0x100, groups := [(0, 2)] } };
    let p : Path := .firmware; let a : BitVec 30 := 0x12000024;
    let w : WindowAt := ((windowAt ({ sess 2 up with spine := { up.spine with dbgBase := 0x100, groups := [(0, 2)] } }) (0x12000024 - 0x10000000)).getD ⟨0, []⟩);
    let l : Loc := (((windowAt ({ sess 2 up with spine := { up.spine with dbgBase := 0x100, groups := [(0, 2)] } }) (0x12000024 - 0x10000000)).getD ⟨0, []⟩).members.headD .reserved);
    let ls : List Loc := ((windowAt ({ sess 2 up with spine := { up.spine with dbgBase := 0x100, groups := [(0, 2)] } }) (0x12000024 - 0x10000000)).getD ⟨0, []⟩).members.tail;
    let o := a.toNat - 0x10000000;
    let quiet (p : Path) : Prop := deviceUp s = true ∧ heldOf s p = [];
    let win : Prop := quiet p ∧ 0x11000000 ≤ a.toNat ∧ a.toNat < 0x16100000 ∧ a.toNat % 4 = 0 ∧ windowAt s o = some w;
    win ∧ granted s p (.window o) true = true ∧ w.members = [l] ∧ isRwb l = true ∧
    granted s p (.window o) false = true ∧ w.members = l :: ls ∧ (∀ q ∈ w.members, granted s p q false = true)) ∧
  (let s : State := { sess 2 up with spine := { up.spine with dbgBase := 0x100, groups := [(0, 2)] } };
    let p : Path := .firmware; let a : BitVec 30 := 0x11000000;
    let w : WindowAt := ((windowAt ({ sess 2 up with spine := { up.spine with dbgBase := 0x100, groups := [(0, 2)] } }) (0x11000000 - 0x10000000)).getD ⟨0, []⟩);
    let l : Loc := (((windowAt ({ sess 2 up with spine := { up.spine with dbgBase := 0x100, groups := [(0, 2)] } }) (0x11000000 - 0x10000000)).getD ⟨0, []⟩).members.headD .reserved);
    let o := a.toNat - 0x10000000;
    let quiet (p : Path) : Prop := deviceUp s = true ∧ heldOf s p = [];
    let win : Prop := quiet p ∧ 0x11000000 ≤ a.toNat ∧ a.toNat < 0x16100000 ∧ a.toNat % 4 = 0 ∧ windowAt s o = some w;
    win ∧ granted s p (.window o) true = true ∧ (∀ l ∈ w.members, isRwb l = false)) ∧
  (let s : State := { sess 2 up with spine := { up.spine with dbgBase := 0x40000 } }; let p : Path := .firmware;
    let off : BitVec 20 := 0x100; let n : Fin 65 := 8; let da := s.spine.dbgBase.toNat * 2 ^ 20 + off.toNat;
    let inHbmFree : Prop := da < 0x008000000000 ∧ slatePresent s (da / 0x1000000000 / 2) = true ∧ dbgMirror s da = none;
    let quiet (p : Path) : Prop := deviceUp s = true ∧ heldOf s p = [];
    quiet p ∧ inHbmFree ∧ granted s p (.dbgwin off.toNat) true = true ∧ inFirmware s da = false ∧
    granted s p (.dbgwin off.toNat) false = true ∧ parityFind s.parity da n.val = none) := by
  dsimp only [Rdy]
  repeat' first | decide +kernel | constructor

theorem test_meets_RequestEvents :
  (let s : State := flying (.load 8 (.acc 8 false)) 0x1200048 []; let hr : HandRef := h2; let n : Nat := 0; let i := beadNo hr.br;
    let r : DevReq := ⟨3, 0x10000, 1, 1, 0x200040, 0x1200048, none, .load 8 (.acc 8 false), none, false, false, false, none⟩;
    let size : Nat := 8; let dest : LoadDest := (.acc 8 false); let x := handAt s hr;
    let toAlu : Prop := ∃ o, dest = .alu o;
    let mine : Prop := BeadUp s hr.br ∧ x.reqs[n]? = some r ∧ (∀ q ∈ x.reqs, q.seq = r.seq → q = r) ∧ r.served = none ∧ r.refused = false ∧ r.dead = false ∧ r.bad = false ∧ r.mirror = none ∧ reqTurn (beadOf s hr) x r = true;
    let hbm : Prop := mine ∧ inHbm r.pa = true ∧ homeRefuses s i r.pa = none ∧ (∀ g ∈ (beadOf s hr).blot.fills, g.line ≠ r.pa / 64);
    hbm ∧ r.op = .load size dest ∧ ¬ toAlu ∧ parityFind s.parity r.pa size = none) ∧
  (let s : State := flying (.atomic .add 5 0) 0x1200048 []; let hr : HandRef := h2; let n : Nat := 0; let i := beadNo hr.br;
    let r : DevReq := ⟨3, 0x10000, 1, 1, 0x200040, 0x1200048, none, .atomic .add 5 0, none, false, false, false, none⟩;
    let op : AtomOp := .add; let a : W64 := 5; let b : W64 := 0; let x := handAt s hr;
    let mine : Prop := BeadUp s hr.br ∧ x.reqs[n]? = some r ∧ (∀ q ∈ x.reqs, q.seq = r.seq → q = r) ∧ r.served = none ∧ r.refused = false ∧ r.dead = false ∧ r.bad = false ∧ r.mirror = none ∧ reqTurn (beadOf s hr) x r = true;
    let hbm : Prop := mine ∧ inHbm r.pa = true ∧ homeRefuses s i r.pa = none ∧ (∀ g ∈ (beadOf s hr).blot.fills, g.line ≠ r.pa / 64);
    hbm ∧ r.op = .atomic op a b ∧ parityFind s.parity r.pa 8 = none) ∧
  (let s : State := flying (.store [1, 2, 3, 4]) 0x1200048 []; let hr : HandRef := h2; let n : Nat := 0; let i := beadNo hr.br;
    let r : DevReq := ⟨3, 0x10000, 1, 1, 0x200040, 0x1200048, none, .store [1, 2, 3, 4], none, false, false, false, none⟩;
    let bs : List W8 := [1, 2, 3, 4]; let x := handAt s hr;
    let mine : Prop := BeadUp s hr.br ∧ x.reqs[n]? = some r ∧ (∀ q ∈ x.reqs, q.seq = r.seq → q = r) ∧ r.served = none ∧ r.refused = false ∧ r.dead = false ∧ r.bad = false ∧ r.mirror = none ∧ reqTurn (beadOf s hr) x r = true;
    let hbm : Prop := mine ∧ inHbm r.pa = true ∧ homeRefuses s i r.pa = none ∧ (∀ g ∈ (beadOf s hr).blot.fills, g.line ≠ r.pa / 64);
    hbm ∧ r.op = .store bs) ∧
  (let s : State := flying (.store [1, 2, 3, 4]) (folioBase 5 + 0x9000) []; let hr : HandRef := h2; let n : Nat := 0;
    let r : DevReq := ⟨3, 0x10000, 1, 1, 0x200040, (folioBase 5 + 0x9000), none, .store [1, 2, 3, 4], none, false, false, false, none⟩;
    let bs : List W8 := [1, 2, 3, 4]; let j : Nat := 5; let off : Nat := 0x9000; let i := beadNo hr.br;
    let x := handAt s hr;
    let mine : Prop := BeadUp s hr.br ∧ x.reqs[n]? = some r ∧ (∀ q ∈ x.reqs, q.seq = r.seq → q = r) ∧ r.served = none ∧ r.refused = false ∧ r.dead = false ∧ r.bad = false ∧ r.mirror = none ∧ reqTurn (beadOf s hr) x r = true;
    let away : Prop := mine ∧ regionOf r.pa = .folio j off ∧ slateRefuses s (some (i / 256)) (j / 256) = none;
    away ∧ r.op = .store bs ∧ folioRefuses s j off bs.length = false) ∧
  (let s : State := flying (.load 8 (.acc 8 false)) (folioBase 5 + 0x9000) []; let hr : HandRef := h2;
    let n : Nat := 0;
    let r : DevReq := ⟨3, 0x10000, 1, 1, 0x200040, (folioBase 5 + 0x9000), none, .load 8 (.acc 8 false), none, false, false, false, none⟩;
    let size : Nat := 8; let dest : LoadDest := (.acc 8 false); let j : Nat := 5; let off : Nat := 0x9000;
    let i := beadNo hr.br; let x := handAt s hr;
    let mine : Prop := BeadUp s hr.br ∧ x.reqs[n]? = some r ∧ (∀ q ∈ x.reqs, q.seq = r.seq → q = r) ∧ r.served = none ∧ r.refused = false ∧ r.dead = false ∧ r.bad = false ∧ r.mirror = none ∧ reqTurn (beadOf s hr) x r = true;
    let away : Prop := mine ∧ regionOf r.pa = .folio j off ∧ slateRefuses s (some (i / 256)) (j / 256) = none;
    away ∧ r.op = .load size dest ∧ folioRefuses s j off size = false ∧ parityFind s.parity r.pa size = none) ∧
  (let s : State := flying (.load 8 (.acc 8 false)) (folioBase 5 + 0x10) []; let hr : HandRef := h2;
    let n : Nat := 0;
    let r : DevReq := ⟨3, 0x10000, 1, 1, 0x200040, (folioBase 5 + 0x10), none, .load 8 (.acc 8 false), none, false, false, false, none⟩;
    let size : Nat := 8; let dest : LoadDest := (.acc 8 false); let j : Nat := 5; let off : Nat := 0x10;
    let i := beadNo hr.br; let x := handAt s hr;
    let mine : Prop := BeadUp s hr.br ∧ x.reqs[n]? = some r ∧ (∀ q ∈ x.reqs, q.seq = r.seq → q = r) ∧ r.served = none ∧ r.refused = false ∧ r.dead = false ∧ r.bad = false ∧ r.mirror = none ∧ reqTurn (beadOf s hr) x r = true;
    let away : Prop := mine ∧ regionOf r.pa = .folio j off ∧ slateRefuses s (some (i / 256)) (j / 256) = none;
    away ∧ r.op = .load size dest ∧ folioRefuses s j off size = true) ∧
  (let s : State := flying (.load 8 (.acc 8 false)) 0x1200048 [⟨line1, 1⟩]; let hr : HandRef := h2; let n : Nat := 0;
    let line : Nat := (0x1200048 / 64);
    let r : DevReq := ⟨3, 0x10000, 1, 1, 0x200040, 0x1200048, none, .load 8 (.acc 8 false), none, false, false, false, none⟩;
    let size : Nat := 8; let dest : LoadDest := (.acc 8 false); let f : Fill := ⟨line1, 1⟩; let i := beadNo hr.br;
    let h := hr.hand.val; let x := handAt s hr; let toAlu : Prop := ∃ o, dest = .alu o;
    let mine : Prop := BeadUp s hr.br ∧ x.reqs[n]? = some r ∧ (∀ q ∈ x.reqs, q.seq = r.seq → q = r) ∧ r.served = none ∧ r.refused = false ∧ r.dead = false ∧ r.bad = false ∧ r.mirror = none ∧ reqTurn (beadOf s hr) x r = true;
    mine ∧ r.op = .load size dest ∧ ¬ toAlu ∧ inHbm r.pa = true ∧ line = r.pa / 64 ∧ r.pa % 64 + size ≤ 64 ∧ homeRefuses s i (64 * line) = none ∧
    (beadOf s hr).blot.fills = [f] ∧ f.line = line ∧ fillWaiters s i line = [(h, r)] ∧
    mirrorOf s (64 * line) = none ∧ parityFind s.parity (64 * line) 64 = none ∧ (beadOf s hr).blot.size ≠ 0) := by
  dsimp only [Rdy]
  repeat' first | decide +kernel | (intro e; cases e with | intro o e => cases e) | constructor

theorem test_meets_BlotterEvents :
  (let s : State := merged (fun b => { b with merge := [entry false false] }); let br : BeadRef := br;
    let line : Nat := line1; let m : MergeEntry := (entry false false); let ms : List MergeEntry := [];
    let b := beadIn s br;
    MemOk s ∧ BeadUp s br ∧ b.blot.merge = m :: ms ∧ m.line = line ∧ m.draining = false) ∧
  (let s : State := merged (fun b => { b with merge := [entry true false] }); let br : BeadRef := br;
    let line : Nat := line1; let m : MergeEntry := (entry true false); let ms : List MergeEntry := []; let i := beadNo br;
    let b := beadIn s br;
    MemOk s ∧ BeadUp s br ∧ b.blot.merge = m :: ms ∧ m.line = line ∧ m.draining = true ∧ m.mirror = none ∧
    m.data.length = 64 ∧ (∀ q ∈ ms, q.seq ≠ m.seq) ∧ drainWaits b m = false ∧ homeRefuses s i (64 * line) = none ∧ b.blot.merge = [m] ∧ m.resent = false) ∧
  (let s : State := merged (fun b => { b with fills := [⟨line1, 2⟩] }); let br : BeadRef := br;
    let line : Nat := line1; let f : Fill := ⟨line1, 2⟩; let i := beadNo br; let b := beadIn s br;
    MemOk s ∧ BeadUp s br ∧ b.blot.fills = [f] ∧ f.line = line ∧ fillWaiters s i line = [] ∧ b.blot.merge = [] ∧
    b.blot.size ≠ 0 ∧ blotFind b line = none ∧ mirrorOf s (64 * line) = none ∧
    parityFind s.parity (64 * line) 64 = none ∧ homeRefuses s i (64 * line) = none) ∧
  (let s : State := merged (fun b => { b with switching := some (4, true) }); let br : BeadRef := br;
    let size : BitVec 3 := 4; let pf : Bool := true; let b := beadIn s br;
    MemOk s ∧ BeadUp s br ∧ b.blot.switching = some (size, pf) ∧ switchDrained b size = true ∧ b.blot.size ≤ 4 ∧
    size ≤ 4) := by
  dsimp only [Rdy]
  repeat' first | decide +kernel | constructor

theorem test_meets_QuillEvents :
  (let s : State := quilled (quillSlot copyDesc false); let br : BeadRef := br; let slot : Fin 8 := 3;
    let i := beadNo br; let q := quillAt (beadIn s br) slot.val;
    BeadUp s br ∧ q.busy = true ∧ q.started = false ∧ quillBlocked (beadIn s br) q = false ∧ quillErrors s i q = []) ∧
  (let s : State := quilled (quillSlot fillDesc false) [(4, { quillSlot fillDesc true with order := 2 })];
    let br : BeadRef := br; let slot : Fin 8 := 3; let q := quillAt (beadIn s br) slot.val;
    BeadUp s br ∧ q.busy = true ∧ q.started = false ∧ quillBlocked (beadIn s br) q = true) ∧
  (let s : State := quilled (quillSlot (fillDesc 0x80000077) false); let br : BeadRef := br; let slot : Fin 8 := 3;
    let code : Nat := 3; let i := beadNo br; let q := quillAt (beadIn s br) slot.val;
    BeadUp s br ∧ q.busy = true ∧ q.started = false ∧ quillBlocked (beadIn s br) q = false ∧
    quillErrors s i q = [code] ∧ 1 ≤ code ∧ code < 64) ∧
  (let s : State := quilled (quillSlot fillDesc true); let br : BeadRef := br; let slot : Fin 8 := 3;
    let i := beadNo br; let q := quillAt (beadIn s br) slot.val; let d := q.desc;
    let plain : Prop := BeadUp s br ∧ q.busy = true ∧ q.started = true ∧ q.rows = 0 ∧ qDdev d = false ∧ bitAt (qCtally d) 31 = false ∧ bitAt (qAtally d) 31 = false ∧ qRows d < 2 ^ 24 ∧ q.fenced = false ∧ quillWaits s i slot.val = false;
    plain ∧ qKind d = 2 ∧ 0 ≤ qDpitch d) ∧
  (let s : State := quilled (quillSlot copyDesc true); let br : BeadRef := br; let slot : Fin 8 := 3;
    let i := beadNo br; let q := quillAt (beadIn s br) slot.val; let d := q.desc; let base := folioBase i;
    let plain : Prop := BeadUp s br ∧ q.busy = true ∧ q.started = true ∧ q.rows = 0 ∧ qDdev d = false ∧ bitAt (qCtally d) 31 = false ∧ bitAt (qAtally d) 31 = false ∧ qRows d < 2 ^ 24 ∧ q.fenced = false ∧ quillWaits s i slot.val = false;
    plain ∧ qKind d = 0 ∧ qSdev d = false ∧ qRows d = 1 ∧
    (qSrc d + qRbytes d ≤ qDst d ∨ qDst d + qRbytes d ≤ qSrc d) ∧
    parityFind s.parity (base + qSrc d) (qRbytes d) = none) ∧
  (let s : State := quilled (quillSlot (fillDesc 0x80000006) true 3); let br : BeadRef := br; let slot : Fin 8 := 3;
    let p : Nat := 70; let i := beadNo br; let q := quillAt (beadIn s br) slot.val; let d := q.desc;
    BeadUp s br ∧ q.busy = true ∧ q.started = true ∧ q.rows = BitVec.ofNat 24 (qDstShape d).1 ∧
    (qDstShape d).1 < 2 ^ 24 ∧ q.fenced = false ∧ quillWaits s i slot.val = false ∧
    quillTally s i (i / 256) (qCtally d) = some (some p)) := by
  dsimp only [Rdy]
  repeat' first | decide +kernel | constructor

theorem test_meets_MeshEvents :
  (let s : State := meshed opened3 [qunit .scalar 1] []; let sl : Fin 4 := 0; let n : Nat := 0;
    let u : QUnit := (qunit .scalar 1); let d := getBead s u.dst;
    let first : Prop := (getSlate s sl.val).units[n]? = some u ∧ slateRuns s (u.dst / 256) = true ∧ ((getSlate s sl.val).units.take n).any (sameRoute u) = false;
    let fresh : Prop := u.dst / 256 = sl.val ∧ u.epoch = (getSlate s (u.dst / 256)).pg.epoch;
    first ∧ fresh ∧ u.net = .scalar ∧ u.dstEp < 8 ∧ d.ends.sinClosed.getLsbD u.dstEp = false) ∧
  (let s : State := meshed opened3 [qunit .vector 1] []; let sl : Fin 4 := 0; let n : Nat := 0;
    let u : QUnit := (qunit .vector 1); let d := getBead s u.dst;
    let first : Prop := (getSlate s sl.val).units[n]? = some u ∧ slateRuns s (u.dst / 256) = true ∧ ((getSlate s sl.val).units.take n).any (sameRoute u) = false;
    let fresh : Prop := u.dst / 256 = sl.val ∧ u.epoch = (getSlate s (u.dst / 256)).pg.epoch;
    first ∧ fresh ∧ u.net = .vector ∧ u.dstEp < 4 ∧ d.ends.vinClosed.getLsbD u.dstEp = false) ∧
  (let s : State := meshed id [qunit .scalar 1] []; let sl : Fin 4 := 0; let n : Nat := 0;
    let u : QUnit := (qunit .scalar 1); let d := getBead s u.dst;
    let first : Prop := (getSlate s sl.val).units[n]? = some u ∧ slateRuns s (u.dst / 256) = true ∧ ((getSlate s sl.val).units.take n).any (sameRoute u) = false;
    let fresh : Prop := u.dst / 256 = sl.val ∧ u.epoch = (getSlate s (u.dst / 256)).pg.epoch;
    first ∧ fresh ∧ u.net = .scalar ∧ u.dstEp < 8 ∧ d.ends.sinClosed.getLsbD u.dstEp = true) ∧
  (let s : State := meshed id [qunit .scalar 1 2] []; let sl : Fin 4 := 0; let n : Nat := 0;
    let u : QUnit := (qunit .scalar 1 2);
    let first : Prop := (getSlate s sl.val).units[n]? = some u ∧ slateRuns s (u.dst / 256) = true ∧ ((getSlate s sl.val).units.take n).any (sameRoute u) = false;
    first ∧ u.dst / 256 = sl.val ∧ u.epoch ≠ (getSlate s (u.dst / 256)).pg.epoch) ∧
  (let s : State := meshed opened3 [] [⟨.scalar, 0, 3, 0, 1, false⟩]; let sl : Fin 4 := 0; let n : Nat := 0;
    let c : Credit := ⟨.scalar, 0, 3, 0, 1, false⟩;
    (getSlate s sl.val).credits[n]? = some c ∧ slateRuns s sl.val = true ∧ c.net = .scalar ∧ c.closure = false ∧
    (getBead s c.src).ends.freed = [] ∧ routeSets s .scalar hopFuel (.ep c.src c.srcEp) = [[(c.sink, c.sinkEp)]]) ∧
  (let s : State := meshed opened3 [] [⟨.scalar, 0, 3, 0, 1, true⟩]; let sl : Fin 4 := 0; let n : Nat := 0;
    let c : Credit := ⟨.scalar, 0, 3, 0, 1, true⟩;
    (getSlate s sl.val).credits[n]? = some c ∧ slateRuns s sl.val = true ∧ c.net = .scalar ∧ c.closure = true ∧
    c.srcEp < 8) ∧
  (let s : State := steals (steal 1); let hr : HandRef := h2; let t : Steal := (steal 1); let x := handAt s hr;
    let v := getBead s t.victim; let a := folioBase t.victim + trayEntry v v.regs.trayHead.toNat;
    BeadUp s hr.br ∧ x.steal = some t ∧ t.answer = none ∧ t.victim ≠ beadNo hr.br ∧ trayOn v = true ∧
    trayCount v ≠ 0 ∧ parityFind s.parity a 64 = none) ∧
  (let s : State := steals (steal 2); let hr : HandRef := h2; let t : Steal := (steal 2); let x := handAt s hr;
    let v := getBead s t.victim;
    BeadUp s hr.br ∧ x.steal = some t ∧ t.answer = none ∧ (trayOn v = false ∨ trayCount v = 0)) ∧
  (let s : State := steals (steal 1 (some (some (some_ 64)))); let hr : HandRef := h2;
    let t : Steal := (steal 1 (some (some (some_ 64)))); let bs : List W8 := (some_ 64); let x := handAt s hr;
    BeadUp s hr.br ∧ x.steal = some t ∧ t.answer = some (some bs)) := by
  dsimp only [Rdy]
  repeat' first | decide +kernel | constructor

theorem test_meets_TallyEvents :
  (let s : State := dev {user with raises := [⟨0, 70, 5⟩]}; let hr : HandRef := h2; let q : RaiseReq := ⟨0, 70, 5⟩;
    let qs : List RaiseReq := []; let x := handAt s hr; let b := beadOf s hr;
    BeadUp s hr.br ∧ x.raises = q :: qs ∧ raiseFree b x q = true) ∧
  (let s : State := tallies (fun u => { u with raises := [⟨70, 1⟩] }) (dev user); let sl : Fin 4 := 0;
    let n : Nat := 0; let r : Raise := ⟨70, 1⟩; let t := sl.val; let u := (getSlate s t).tallies;
    slateRuns s t = true ∧ u.raises[n]? = some r ∧ tallyHeld s t r.tally = true) ∧
  (let s : State := tallies (fun u => { u with raises := [⟨700, 1⟩] }) (dev user); let sl : Fin 4 := 0;
    let n : Nat := 0; let r : Raise := ⟨700, 1⟩; let t := sl.val; let u := (getSlate s t).tallies;
    slateRuns s t = true ∧ u.raises[n]? = some r ∧ tallyHeld s t r.tally = false) ∧
  (let s : State := dev {user with latch := ⟨true, false, false, 70, 5, true⟩}; let hr : HandRef := h2;
    let i := beadNo hr.br; let k := i / 256; let x := handAt s hr; let l := x.latch; let p := l.tally.toNat;
    BeadUp s hr.br ∧ l.valid = true ∧ l.asked = true ∧ l.read = false ∧ tallyHeld s k p = true ∧
    (tallyValue s k p - l.target).toNat < 2 ^ 47) ∧
  (let s : State := dev {user with latch := ⟨true, false, false, 70, 6, true⟩}; let hr : HandRef := h2;
    let i := beadNo hr.br; let k := i / 256; let x := handAt s hr; let l := x.latch; let p := l.tally.toNat;
    BeadUp s hr.br ∧ l.valid = true ∧ l.asked = true ∧ l.read = false ∧ tallyHeld s k p = true ∧
    2 ^ 47 ≤ (tallyValue s k p - l.target).toNat) ∧
  (let s : State := dev {user with latch := ⟨true, false, true, 70, 6, true⟩}; let hr : HandRef := h2;
    let x := handAt s hr; let l := x.latch;
    BeadUp s hr.br ∧ l.valid = true ∧ l.asked = true ∧ l.read = true) ∧
  (let s : State := tallies (fun u => { u with wakes := [⟨0, 2, 70, 5, none⟩] }) (dev { user with st := .sleeping .twait, latch := ⟨true, false, false, 70, 5, false⟩ });
    let hr : HandRef := h2; let w : TallyWakeMsg := ⟨0, 2, 70, 5, none⟩; let ws : List TallyWakeMsg := [];
    let i := beadNo hr.br; let k := i / 256; let x := handAt s hr; let l := x.latch;
    BeadUp s hr.br ∧ (getSlate s k).tallies.wakes = w :: ws ∧ w.bead = hr.br.bead ∧ w.hand = hr.hand ∧
    x.st = .sleeping .twait ∧ wakeMeant l w = true ∧ x.heldFaults = []) ∧
  (let s : State := tallies (fun u => { u with wakes := [⟨0, 2, 70, 5, none⟩] }) (dev { user with latch := ⟨true, false, false, 70, 6, false⟩ });
    let hr : HandRef := h2; let w : TallyWakeMsg := ⟨0, 2, 70, 5, none⟩; let ws : List TallyWakeMsg := [];
    let i := beadNo hr.br; let k := i / 256; let x := handAt s hr; let l := x.latch;
    BeadUp s hr.br ∧ (getSlate s k).tallies.wakes = w :: ws ∧ w.bead = hr.br.bead ∧ w.hand = hr.hand ∧
    wakeMeant l w = false) ∧
  (let s : State := regs (fun r => { r with slumberLimit := 9, slumberTicks := 9 }) (dev { user with st := .sleeping .twait });
    let hr : HandRef := h2; let b := beadOf s hr;
    BeadUp s hr.br ∧ slumbering b = true ∧ b.regs.slumberLimit ≠ 0 ∧ b.regs.slumberDone = false ∧
    b.regs.slumberLimit.toNat ≤ b.regs.slumberTicks) ∧
  (let s : State := { tallies (fun u => { u with map := [(3, 0x80010000), (9, 0x80100004), (10, 0x80200004), (11, 0x80300004)] }) (jobbed { ent .accepted with words := [5, 0, 4, 0] }) with ctxs := [(3, ctxOf 1), (4, { owner := some 1, q := 4 })] };
    let sl : Fin 4 := 0; let c : Fin 64 := 3; let base : Nat := 64; let size : Nat := 64; let t := sl.val;
    slateRuns s t = true ∧ tallyBlock s t c.val = some (base, size) ∧ contextBusy s t c.val = false ∧
    blockNeeded s t c.val = true) ∧
  (let s : State := slate (fun x => { x with watch := { x.watch with stallCfg := 0xC0010000, stallCount := 0x10000 } }) (ends (fun e => { e with soutClosed := 0 }) (mk h2 { user with heldLine := [.send h2 true 0x200003] }));
    let sl : Fin 4 := 0; let t := sl.val; let wd := (getSlate s t).watch;
    slateRuns s t = true ∧ wd.stallCfg.getLsbD 31 = true ∧ wd.fired = false ∧ wd.stallCount ≠ 0 ∧
    (wd.stallCfg.truncate 24 : BitVec 24) ≤ wd.stallCount) ∧
  (let s : State := slate (fun x => { x with watch := { x.watch with dumpBusy := true, dumpBase := 0x1200000 } }) (dev user);
    let sl : Fin 4 := 0; let t := sl.val; let wd := (getSlate s t).watch;
    slateRuns s t = true ∧ wd.dumpBusy = true ∧ inHbm wd.dumpBase.toNat = true ∧ mirrorOf s wd.dumpBase.toNat = none) := by
  dsimp only [Rdy]
  repeat' first | decide +kernel | constructor

theorem test_meets_PageEvents :
  (let s : State := paged (fun p => p); let sl : Fin 4 := 0; let frame : Fin 64 := 3; let t := sl.val;
    let x := getSlate s t;
    slateRuns s t = true ∧ x.pg.active ≠ some frame ∧ x.pg.shadow ≠ some frame) ∧
  (let s : State := paged (fun p => { p with active := some 3 }); let sl : Fin 4 := 0; let frame : Fin 64 := 3;
    let t := sl.val; let x := getSlate s t;
    slateRuns s t = true ∧ (x.pg.active = some frame ∨ x.pg.shadow = some frame)) ∧
  (let s : State := paged (fun p => { p with load := some (3, false) }); let sl : Fin 4 := 0; let f : Fin 64 := 3;
    let t := sl.val; let x := getSlate s t;
    slateRuns s t = true ∧ x.pg.load = some (f, false) ∧ x.pg.load = some (f, false)) ∧
  (let s : State := { paged (fun p => { p with phase := .running, job := some (job5 { pg5 with next := some 1 }), frames := [(0, { valid := true })] }) with books := [(0, book3)] };
    let sl : Fin 4 := 0; let j : SlateJob := (job5 { pg5 with next := some 1 }); let n : W16 := 1;
    let p : PageDesc := ((choosePage { paged (fun p => { p with phase := .running, job := some (job5 { pg5 with next := some 1 }), frames := [(0, { valid := true })] }) with books := [(0, book3)] } 0 0 1).getD pg5);
    let t := sl.val; let x := getSlate s t;
    slateRuns s t = true ∧ x.pg.phase = .running ∧ x.pg.job = some j ∧ j.page.last = false ∧ j.page.next = some n ∧
    pageDrained s t = true ∧ choosePage s j.book t n.toNat = some p ∧ rodsFreed s t p = true) ∧
  (let s : State := paged (fun p => { p with phase := .closing }); let sl : Fin 4 := 0; let t := sl.val;
    let x := getSlate s t;
    slateRuns s t = true ∧ x.pg.phase = .closing ∧ x.pg.switch = none ∧ x.pendingSite = none ∧ x.recovering = false) ∧
  (let s : State := paged (fun p => { p with phase := .closing, switch := some { page := pg5 } });
    let sl : Fin 4 := 0; let w : Switch := { page := pg5 }; let t := sl.val; let x := getSlate s t;
    slateRuns s t = true ∧ x.pg.phase = .closing ∧ x.pg.switch = some w ∧ x.pendingSite = none ∧ x.recovering = false) ∧
  (let s : State := paged (fun p => { p with phase := .loading, switch := some { page := pg5, closed := true } });
    let sl : Fin 4 := 0; let w : Switch := { page := pg5, closed := true }; let t := sl.val; let x := getSlate s t;
    let loads : Prop := x.pg.switch = some w ∧ x.pg.phase = .loading ∧ x.rodShifting = 0;
    slateRuns s t = true ∧ loads ∧ w.closed = true ∧ w.segsDone = false ∧
    blotDone s t (pageImage s t w.page) = true ∧ w.page.segs = []) ∧
  (let s : State := paged (fun p => { p with phase := .loading, switch := some { page := { pg5 with segs := [seg7] }, closed := true } });
    let sl : Fin 4 := 0; let w : Switch := { page := { pg5 with segs := [seg7] }, closed := true };
    let g : Seg := seg7; let t := sl.val; let x := getSlate s t;
    let loads : Prop := x.pg.switch = some w ∧ x.pg.phase = .loading ∧ x.rodShifting = 0;
    slateRuns s t = true ∧ loads ∧ w.closed = true ∧ w.segsDone = false ∧
    blotDone s t (pageImage s t w.page) = true ∧ w.page.segs = [g] ∧ g.len = 64 ∧ segReady s t g = true ∧
    (g.kind = 1 → (getBrush s (6 * t + g.target)).waiting = []) ∧ segRefused s t g = false ∧ parityFind s.parity g.src 64 = none) ∧
  (let s : State := paged (fun p => { p with phase := .loading, shadow := some 5, switch := some { page := { pg5 with evstart := true }, closed := true, segsDone := true } });
    let sl : Fin 4 := 0;
    let w : Switch := { page := { pg5 with evstart := true }, closed := true, segsDone := true }; let t := sl.val;
    let x := getSlate s t; let loads : Prop := x.pg.switch = some w ∧ x.pg.phase = .loading ∧ x.rodShifting = 0;
    slateRuns s t = true ∧ loads ∧ stepsDone s t = true ∧ strokeFits s t = true ∧ localBars s w.page = false ∧
    w.page.evstart = true) ∧
  (let s : State := paged (fun p => { p with phase := .loading, shadow := some 5, job := some (job5), switch := some { page := pg5, closed := true, segsDone := true } });
    let sl : Fin 4 := 0; let w : Switch := { page := pg5, closed := true, segsDone := true }; let t := sl.val;
    let x := getSlate s t; let loads : Prop := x.pg.switch = some w ∧ x.pg.phase = .loading ∧ x.rodShifting = 0;
    slateRuns s t = true ∧ loads ∧ stepsDone s t = true ∧ strokeFits s t = true ∧ localBars s w.page = false ∧
    w.page.evstart = false ∧     (applyPage s t w.page).2 = false) ∧
  (let s : State := bytesAt 0x1300000 [0, 1, 0, 0, 0xFF, 0xFF, 0xFF, 0xFF] { paged (fun p => { p with phase := .loading, shadow := some 5, job := some (job5), switch := some { page := { pg5 with sched := 0x1300000 }, closed := true, segsDone := true } }) with stroke := { len := 100 } };
    let sl : Fin 4 := 0;
    let w : Switch := { page := { pg5 with sched := 0x1300000 }, closed := true, segsDone := true }; let t := sl.val;
    let x := getSlate s t; let loads : Prop := x.pg.switch = some w ∧ x.pg.phase = .loading ∧ x.rodShifting = 0;
    slateRuns s t = true ∧ loads ∧ stepsDone s t = true ∧ strokeFits s t = false) ∧
  (let s : State := bytesAt 0x1300000 [0, 1, 0, 0, 0, 0, 0, 0, 1, 0, 0, 0] { paged (fun p => { p with phase := .loading, shadow := some 5, job := some (job5), switch := some { page := { pg5 with sched := 0x1300000 }, closed := true, segsDone := true } }) with stroke := { cfg := 0x10020430, len := 0x3E80 } };
    let sl : Fin 4 := 0;
    let w : Switch := { page := { pg5 with sched := 0x1300000 }, closed := true, segsDone := true }; let t := sl.val;
    let x := getSlate s t; let loads : Prop := x.pg.switch = some w ∧ x.pg.phase = .loading ∧ x.rodShifting = 0;
    slateRuns s t = true ∧ loads ∧ stepsDone s t = true ∧ strokeFits s t = true ∧ localBars s w.page = true) := by
  dsimp only [Rdy]
  repeat' first | decide +kernel | constructor

theorem test_meets_FabricEvents :
  (let s : State := circuit 5 2 64 {}; let sl : Fin 4 := 0; let c : Fin 128 := 0; let e : CircuitEnt := (entOf 5 2);
    let rod : Nat := 3; let t := sl.val; let x := getCircuit s t c.val;
    let on : Prop := activeCircuit s t c.val = some e ∧ fabricOn s t = true;
    let src := folioBase (gatewayBead t rod) + (e.sbase + x.sent % Nat.max 64 e.slen);
    on ∧ tapAt e.src = .gateway rod ∧ released s t e x = true ∧ parityFind s.parity src 64 = none) ∧
  (let s : State := circuit 5 2 63 {}; let sl : Fin 4 := 0; let c : Fin 128 := 0; let e : CircuitEnt := (entOf 5 2);
    let rod : Nat := 3; let t := sl.val; let x := getCircuit s t c.val;
    let on : Prop := activeCircuit s t c.val = some e ∧ fabricOn s t = true;
    on ∧ tapAt e.src = .gateway rod ∧ released s t e x = false) ∧
  (let s : State := circuit 4 2 64 {}; let sl : Fin 4 := 0; let c : Fin 128 := 0; let e : CircuitEnt := (entOf 4 2);
    let j : Nat := 1; let r : Row := 1; let q : List Row := [2]; let t := sl.val;
    let on : Prop := activeCircuit s t c.val = some e ∧ fabricOn s t = true;
    on ∧ tapAt e.src = .brush j ∧ mapGet (fun _ => []) (getBrush s (6 * t + j)).outQ e.tx = r :: q) ∧
  (let s : State := circuit 5 2 64 { flight := [(1, none)] }; let sl : Fin 4 := 0; let c : Fin 128 := 0;
    let e : CircuitEnt := (entOf 5 2); let beat : Row := 1; let rest : List (Row × Option (Nat × Nat)) := [];
    let rod : Nat := 1; let t := sl.val; let x := getCircuit s t c.val;
    let on : Prop := activeCircuit s t c.val = some e ∧ fabricOn s t = true;
    on ∧ x.flight = (beat, none) :: rest ∧ tapAt e.dst = .gateway rod ∧ e.arrival = none) ∧
  (let s : State := inPort 1 0x1040; let beat : Row := 77;
    let rest : List (Row × Option (Nat × Nat)) := [(78, none)]; let k : BrushRef := brush1; let port : Fin 4 := 2;
    let kb := brushNo k; let b := getBrush s kb; let ip : InPort := mapGet (fun _ => {}) b.inPorts port.val;
    let waits : Prop := slateRuns s k.slate.val = true ∧ b.zeroing = false ∧ b.failed = false ∧ mapGet (fun _ => []) b.inFlight port.val = (beat, none) :: rest;
    waits ∧ fld ip.cfg.toNat 1 0 = 1 ∧ ip.cfg.getLsbD 31 = false) ∧
  (let s : State := inPort 2 0; let beat : Row := 77; let rest : List (Row × Option (Nat × Nat)) := [(78, none)];
    let k : BrushRef := brush1; let port : Fin 4 := 2; let kb := brushNo k; let b := getBrush s kb;
    let ip : InPort := mapGet (fun _ => {}) b.inPorts port.val;
    let waits : Prop := slateRuns s k.slate.val = true ∧ b.zeroing = false ∧ b.failed = false ∧ mapGet (fun _ => []) b.inFlight port.val = (beat, none) :: rest;
    waits ∧ fld ip.cfg.toNat 1 0 = 2 ∧ b.queue.length < 16) ∧
  (let s : State := slate (fun x => { x with rodShifting := 1, recovering := true }) up; let sl : Fin 4 := 0;
    let sh : Fin 16 := 0; let t := sl.val;
    slateRuns s t = true ∧ (getSlate s t).rodShifting.getLsbD sh.val = true ∧ (getSlate s t).pg.load = none ∧
    s.spine.waits = 0) := by
  have a := active_circuit 5 2 64 {} (by rw [circuitOf_img]; decide +kernel)
  have b := active_circuit 5 2 63 {} (by rw [circuitOf_img]; decide +kernel)
  have c := active_circuit 4 2 64 {} (by rw [circuitOf_img]; decide +kernel)
  have d := active_circuit 5 2 64 { flight := [(1, none)] } (by rw [circuitOf_img]; decide +kernel)
  refine ⟨⟨⟨a, ?_⟩, ?_⟩, ⟨⟨b, ?_⟩, ?_⟩, ⟨⟨c, ?_⟩, ?_⟩, ⟨⟨d, ?_⟩, ?_⟩, ?_⟩
  all_goals repeat' first | decide +kernel | constructor

theorem test_meets_BrushEvents :
  (let s : State := brushed (fun b => { b with waiting := [{ pa := reservoirBase 1 + 64, data := [1, 2] }] });
    let k : BrushRef := brush1; let w : TapWrite := { pa := reservoirBase 1 + 64, data := [1, 2] }; let ws : List TapWrite := [];
    let t := k.slate.val; let kb := brushNo k; let b := getBrush s kb;
    let fails : Prop := brushRuns s kb = true ∧ (getSlate s t).recovering = false ∧ s.spine.waits = 0;
    brushRuns s kb = true ∧ b.zeroing = false ∧ b.waiting = w :: ws ∧ fails) ∧
  (let s : State := brushed (fun b => { b with queue := [⟨order 0, 3⟩] }); let k : BrushRef := brush1;
    let o : QueuedOrder := ⟨order 0, 3⟩; let os : List QueuedOrder := []; let kb := brushNo k;
    let b := getBrush s kb; let head : Prop := brushRuns s kb = true ∧ b.queue = o :: os;
    head ∧ o.status ≠ 0) ∧
  (let s : State := brushed (fun b => { b with queue := [⟨order 0 0 0 0x80000366, 0⟩] }); let k : BrushRef := brush1;
    let o : QueuedOrder := ⟨order 0 0 0 0x80000366, 0⟩; let os : List QueuedOrder := []; let kb := brushNo k;
    let b := getBrush s kb; let head : Prop := brushRuns s kb = true ∧ b.queue = o :: os;
    head ∧ o.status = 0 ∧ orderTallies s kb o.words = false) ∧
  (let s : State := brushed (fun b => { b with queue := [⟨order 0, 0⟩], zeroing := true });
    let k : BrushRef := brush1; let o : QueuedOrder := ⟨order 0, 0⟩; let os : List QueuedOrder := [];
    let t := k.slate.val; let kb := brushNo k; let b := getBrush s kb;
    let head : Prop := brushRuns s kb = true ∧ b.queue = o :: os;
    head ∧ o.status = 0 ∧ orderTallies s kb o.words = true ∧ orderReady s kb o.words = false ∧ MemOk s ∧
    slateRuns s t = true ∧ b.zeroing = true) ∧
  (let s : State := brushed (fun b => { b with queue := [⟨order 0, 0⟩] }); let k : BrushRef := brush1;
    let o : QueuedOrder := ⟨order 0, 0⟩; let os : List QueuedOrder := []; let kb := brushNo k;
    let b := getBrush s kb; let head : Prop := brushRuns s kb = true ∧ b.queue = o :: os;
    head ∧ o.status = 0 ∧ orderTallies s kb o.words = true ∧ orderReady s kb o.words = true ∧
    startStatus s kb o.words = 0 ∧ oNoadd o.words = false ∧ startError s kb o.words = none) ∧
  (let s : State := brushed (fun b => { b with running := [{ words := drainOrder, drains := true }], groups := [(0, ⟨true, false⟩)] });
    let k : BrushRef := brush1; let r : RunningOrder := { words := drainOrder, drains := true };
    let t := k.slate.val; let kb := brushNo k; let b := getBrush s kb;
    let fails : Prop := brushRuns s kb = true ∧ (getSlate s t).recovering = false ∧ s.spine.waits = 0;
    brushRuns s kb = true ∧ b.running = [r] ∧ r.drains = true ∧ r.formed = false ∧ oDink r.words = false ∧ drainError b r.words = false ∧ fails ∧
    b.running ≠ [] ∧ b.wdog ≠ 0) ∧
  (let s : State := brushed (fun b => { b with running := [{ words := drainOrder, drains := true, formed := true }] });
    let k : BrushRef := brush1; let r : RunningOrder := { words := drainOrder, drains := true, formed := true };
    let rs : List RunningOrder := []; let v : Nat := 6; let c : Nat := 3; let p : Nat := 70; let t := k.slate.val;
    let kb := brushNo k; let b := getBrush s kb;
    brushRuns s kb = true ∧ b.running = r :: rs ∧ beatsGone b r = true ∧ oCtally r.words = some v ∧
    brushCtx b = some c ∧ tallyOf s t c v = some p ∧ r.status ≠ 0x09) := by
  dsimp only [Rdy]
  repeat' first | decide +kernel | constructor

theorem test_meets_JobEvents :
  (let s : State := jobbed { ent .accepted with words := [5, 0, 7, 0] }; let fn : Fin 16 := 1;
    let seq : BitVec 48 := 5; let e : LEntry := { ent .accepted with words := [5, 0, 7, 0] };
    let free : Prop := serving s = true ∧ s.pwr.st = .run ∧ s.pwr.moving = false;
    let found (n : BitVec 48) : Prop := findEntry s fn.val n.toNat = some e;
    free ∧ found seq ∧ e.state = .accepted ∧ e.ended = false ∧ entryOwned s e = false) ∧
  (let s : State := jobbed (ent .accepted); let fn : Fin 16 := 1; let seq : BitVec 48 := 5; let sl : Fin 4 := 0;
    let e : LEntry := (ent .accepted);
    let p : PageDesc := ((firstOn (jobbed (ent .accepted)) (ent .accepted) 0).getD pg5); let t := sl.val;
    let free : Prop := serving s = true ∧ s.pwr.st = .run ∧ s.pwr.moving = false;
    let found (n : BitVec 48) : Prop := findEntry s fn.val n.toNat = some e;
    free ∧ found seq ∧ e.state = .accepted ∧ e.ended = false ∧ entryOwned s e = true ∧ slateCanRun s e t = true ∧
    slateIdle s t (jobCtx e) = true ∧ jobMayStart s e = true ∧ powerHolds s = false ∧
    s.stroke.cfg.getLsbD 28 = false ∧ takeBlock s t (jobCtx e) ≠ none ∧ firstOn s e t = some p) ∧
  (let s : State := jobbed { ent .accepted with slate := 2 }; let fn : Fin 16 := 1; let seq : BitVec 48 := 5;
    let sl : Fin 4 := 0; let e : LEntry := { ent .accepted with slate := 2 }; let t := sl.val;
    let found (n : BitVec 48) : Prop := findEntry s fn.val n.toNat = some e;
    serving s = true ∧ found seq ∧ e.state = .accepted ∧ e.ended = false ∧ e.slate ≠ sl ∧ slateCanRun s e t = true) ∧
  (let s : State := jobbed (ent .running) (fun p => { p with phase := .running, job := some (job5 { pg5 with last := true }) });
    let fn : Fin 16 := 1; let seq : BitVec 48 := 5; let sl : Fin 4 := 0; let e : LEntry := (ent .running);
    let j : SlateJob := ⟨1, 3, 5, 0, { pg5 with last := true }⟩; let t := sl.val; let x := getSlate s t;
    let found (n : BitVec 48) : Prop := findEntry s fn.val n.toNat = some e;
    serving s = true ∧ found seq ∧ e.slate = sl ∧ e.ended = false ∧ slateRuns s t = true ∧ x.pg.job = some j ∧
    j.fn = fn ∧ j.seq = seq ∧ x.pg.phase = .running ∧ j.page.last = true ∧ pageDrained s t = true) ∧
  (let s : State := jobbed { ent .running with ended := true }; let fn : Fin 16 := 1; let seq : BitVec 48 := 5;
    let e : LEntry := { ent .running with ended := true };
    let found (n : BitVec 48) : Prop := findEntry s fn.val n.toNat = some e;
    let commits : Prop := serving s = true ∧ found seq ∧ e.ended = true ∧ e.state = .running ∧ earlierDone s e = true;
    commits ∧ e.busyHeld = false) ∧
  (let s : State := { jobbed ({ ent .running with ended := true, busyHeld := true, outcome := .flip, words := [5, 0, 3, 0, 0, 0, 0x210000, 0] }) with books := [(0, { book3 with image := putW book3.image 0x1C8 [1] })] };
    let fn : Fin 16 := 1; let seq : BitVec 48 := 5;
    let e : LEntry := ({ ent .running with ended := true, busyHeld := true, outcome := .flip, words := [5, 0, 3, 0, 0, 0, 0x210000, 0] });
    let a : Nat := 0x1210000; let found (n : BitVec 48) : Prop := findEntry s fn.val n.toNat = some e;
    let commits : Prop := serving s = true ∧ found seq ∧ e.ended = true ∧ e.state = .running ∧ earlierDone s e = true;
    commits ∧ MemOk s ∧ e.busyHeld = true ∧ updateList s e = [a] ∧ e.outcome = .flip ∧ mirrorOf s (a + 8) = none ∧
    mirrorOf s (a + 0x10) = none) ∧
  (let s : State := bound (fun x => { x with cqTail := 19, cqHead := 4, ring := { x.ring with reported := 4 } }) (jobbed (ent .committed));
    let fn : Fin 16 := 1; let e : LEntry := (ent .committed); let b : Binding := bnd; let f := getFn s fn.val;
    let found (n : BitVec 48) : Prop := findEntry s fn.val n.toNat = some e;
    serving s = true ∧ f.bind = some b ∧ cqRoom f b = true ∧ f.dupOut = [] ∧
    found (BitVec.ofNat 48 (f.ring.reported.toNat + 1)) ∧ f.ring.reported.toNat + 1 < 2 ^ 48 ∧ e.state = .committed) ∧
  (let s : State := bound (fun x => { x with dupOut := [[1, 2, 3, 4, 5, 6, 7, 8]] }) (jobbed (ent .committed));
    let fn : Fin 16 := 1; let b : Binding := bnd; let d : List W32 := [1, 2, 3, 4, 5, 6, 7, 8];
    let ds : List (List W32) := []; let f := getFn s fn.val;
    serving s = true ∧ f.bind = some b ∧ cqRoom f b = true ∧ f.dupOut = d :: ds) := by
  dsimp only [Rdy]
  repeat' first | decide +kernel | constructor

theorem test_meets_StrokeUnitEvents :
  (let s : State := stroked (fun x => { x with st := .locked }); let x := s.stroke;
    let fresh : Prop := booted s = true ∧ cfgEn s = true ∧ x.marked = false ∧ x.pinErr = none;
    let edge : Prop := fresh ∧ cfgLocal s = false ∧ cfgSrc s ≠ 1;
    let silent : Prop := booted s = true ∧ cfgEn s = true ∧ x.marked = false ∧ ((x.block = none ∧ cfgLocal s = false) ∨ (x.pinErr = none ∧ (cfgLocal s = true ∨ cfgSrc s = 0)));
    edge ∧ x.block = none ∧ silent ∧ (x.st = .locked ∨ x.st = .flywheel) ∧ x.fly + 1 ≤ cfgFlymax s ∧
    x.phase.toNat + 1 < x.len.toNat) ∧
  (let s : State := stroked (fun x => { x with st := .flywheel, block := some (0, 7) }); let x := s.stroke;
    let err : Int := -64; let link : Int := 0; let e := err + 16 * (s.aux.pinAdj.toNat : Int);
    let near (e : Int) : Prop := e.natAbs ≤ 16 * cfgWindow s;
    let fresh : Prop := booted s = true ∧ cfgEn s = true ∧ x.marked = false ∧ x.pinErr = none;
    let edge : Prop := fresh ∧ cfgLocal s = false ∧ cfgSrc s ≠ 1;
    edge ∧ x.block = some (link, x.count) ∧ near e ∧ (x.st = .locked ∨ x.st = .flywheel)) ∧
  (let s : State := stroked (fun x => { x with cfg := 0x90020430, st := .locked }); let x := s.stroke;
    let err : Int := 64; let e := err + 16 * (s.aux.pinAdj.toNat : Int);
    let near (e : Int) : Prop := e.natAbs ≤ 16 * cfgWindow s;
    let fresh : Prop := booted s = true ∧ cfgEn s = true ∧ x.marked = false ∧ x.pinErr = none;
    fresh ∧ cfgLocal s = true ∧ near e ∧ (x.st = .locked ∨ x.st = .flywheel)) ∧
  (let s : State := stroked (fun x => { x with st := .locked, block := some (0, 9) }); let x := s.stroke;
    let err : Int := 65; let link : Int := 0; let n : BitVec 40 := 9; let e := err + 16 * (s.aux.pinAdj.toNat : Int);
    let near (e : Int) : Prop := e.natAbs ≤ 16 * cfgWindow s;
    let fresh : Prop := booted s = true ∧ cfgEn s = true ∧ x.marked = false ∧ x.pinErr = none;
    let edge : Prop := fresh ∧ cfgLocal s = false ∧ cfgSrc s ≠ 1;
    edge ∧ x.block = some (link, n) ∧ x.st = .locked ∧ ¬ near e ∧ cfgSrc s = 0) ∧
  (let s : State := stroked (fun x => { x with cfg := 0x80220430, st := .locked, block := some (-64, 7) }); let x := s.stroke;
    let err : Int := 65; let link : Int := -64; let e := err + 16 * (s.aux.pinAdj.toNat : Int);
    let near (e : Int) : Prop := e.natAbs ≤ 16 * cfgWindow s;
    let fresh : Prop := booted s = true ∧ cfgEn s = true ∧ x.marked = false ∧ x.pinErr = none;
    let edge : Prop := fresh ∧ cfgLocal s = false ∧ cfgSrc s ≠ 1;
    edge ∧ x.block = some (link, x.count) ∧ x.st = .locked ∧ ¬ near e ∧ cfgSrc s = 2 ∧ near link) ∧
  (let s : State := stroked (fun x => { x with st := .acquiring, run := 15, block := some (0, 7) }); let x := s.stroke;
    let err : Int := -64; let link : Int := 0; let e := err + 16 * (s.aux.pinAdj.toNat : Int);
    let near (e : Int) : Prop := e.natAbs ≤ 16 * cfgWindow s;
    let fresh : Prop := booted s = true ∧ cfgEn s = true ∧ x.marked = false ∧ x.pinErr = none;
    let edge : Prop := fresh ∧ cfgLocal s = false ∧ cfgSrc s ≠ 1;
    edge ∧ x.block = some (link, x.count) ∧ x.st = .acquiring ∧ near e) ∧
  (let s : State := stroked (fun x => { x with st := .free, block := some (5, 9) }); let x := s.stroke;
    let link : Int := 5; let n : BitVec 40 := 9; let fresh : Prop := booted s = true ∧ cfgEn s = true ∧ x.marked = false ∧ x.pinErr = none;
    let edge : Prop := fresh ∧ cfgLocal s = false ∧ cfgSrc s ≠ 1;
    edge ∧ x.block = some (link, n) ∧ x.st = .free ∧ cfgSrc s = 0) ∧
  (let s : State := ports3 (stroked (fun x => { x with cfg := 0x82120430, st := .locked, phase := 936 }));
    let port : Fin 12 := 2; let q : Fin 12 := 3; let m : Marker := mark; let err : Int := 64; let x := s.stroke;
    let near (e : Int) : Prop := e.natAbs ≤ 16 * cfgWindow s;
    let block : Prop := booted s = true ∧ (getPort s port.val).cfg.getLsbD 0 = true;
    let age (n : Nat) : Int := 16 * ((m.age.toNat + (getPort s n).delay.toNat : Nat) : Int);
    block ∧ port.val = cfgLport s ∧ cfgEn s = true ∧ cfgLocal s = false ∧ cfgSrc s = 1 ∧ x.st = .locked ∧
    x.marked = false ∧ x.synth = false ∧ near (err - age port.val) ∧ m.stroke = x.count ∧ x.phase.toNat + 64 ≤ m.len.toNat ∧
    m.void = false ∧ m.hold = false ∧ m.replay = false ∧ (getPort s q.val).cfg.getLsbD 0 = true ∧
    (getPort s q.val).cfg.getLsbD 3 = true) ∧
  (let s : State := ports3 (stroked (fun x => { x with cfg := 0x82120430, st := .locked, len := 0x3E80, phase := 1937 }));
    let port : Fin 12 := 2; let m : Marker := mark; let x := s.stroke;
    let block : Prop := booted s = true ∧ (getPort s port.val).cfg.getLsbD 0 = true;
    block ∧ port.val = cfgLport s ∧ cfgEn s = true ∧ cfgLocal s = false ∧ m.stroke = x.count ∧
    m.len.toNat < x.phase.toNat + 64) ∧
  (let s : State := ports3 (stroked (fun x => { x with cfg := 0x81120430, st := .locked })); let port : Fin 12 := 2;
    let q : Fin 12 := 4;
    let block : Prop := booted s = true ∧ (getPort s port.val).cfg.getLsbD 0 = true;
    block ∧ port.val ≠ cfgLport s ∧ (getPort s q.val).cfg.getLsbD 0 = true ∧ (getPort s q.val).cfg.getLsbD 2 = true) ∧
  (let s : State := stroked (fun x => { x with st := .locked, phase := 999 }); let x := s.stroke;
    deviceUp s = true ∧ x.len.toNat ≤ x.phase.toNat + 1) ∧
  (let s : State := stroked (fun x => { x with st := .flywheel, fly := 2 }); let x := s.stroke;
    let silent : Prop := booted s = true ∧ cfgEn s = true ∧ x.marked = false ∧ ((x.block = none ∧ cfgLocal s = false) ∨ (x.pinErr = none ∧ (cfgLocal s = true ∨ cfgSrc s = 0)));
    silent ∧ x.st = .flywheel ∧ cfgFlymax s < x.fly + 1) ∧
  (let s : State := stroked (fun x => { x with st := .acquiring }); let x := s.stroke;
    let silent : Prop := booted s = true ∧ cfgEn s = true ∧ x.marked = false ∧ ((x.block = none ∧ cfgLocal s = false) ∨ (x.pinErr = none ∧ (cfgLocal s = true ∨ cfgSrc s = 0)));
    silent ∧ x.st = .acquiring) ∧
  (let s : State := stroked (fun x => { x with cfg := 0x80220430, st := .locked, block := some (64, 7) }); let x := s.stroke;
    let link : Int := 64; let near (e : Int) : Prop := e.natAbs ≤ 16 * cfgWindow s;
    let fresh : Prop := booted s = true ∧ cfgEn s = true ∧ x.marked = false ∧ x.pinErr = none;
    let edge : Prop := fresh ∧ cfgLocal s = false ∧ cfgSrc s ≠ 1;
    edge ∧ cfgSrc s = 2 ∧ x.block = some (link, x.count) ∧ near link ∧ x.st = .locked) := by
  dsimp only [Rdy]
  repeat' first | decide +kernel | constructor

theorem test_meets_EntryEvents :
  (let s : State := entried 492 1 2 {} [] (fun p => { p with phase := .ready, switch := some { page := pg5 } });
    let e : Fin 256 := 2; let sl : Fin 4 := 0; let w : Switch := { page := pg5 }; let t := sl.val;
    let at_ := fld (evWord s e.val 0) 23 0 + 8;
    let due (kind : Nat) : Prop := entryOwner s e.val = some t ∧ entryFires s e.val kind t = true ∧ at_ ≤ s.stroke.phase.toNat ∧ at_ < s.stroke.len.toNat;
    let x := (getSlate s t).pg; let done : State := { s with aux := { s.aux with fired := e.val :: s.aux.fired } };
    due 1 ∧ x.phase = .ready ∧ x.switch = some w ∧ w.replayAt = none ∧ localBars s w.page = false ∧
    w.page.number.toNat = fld (evWord s e.val 3) 15 0 ∧ (applyPage done t w.page).2 = false) ∧
  (let s : State := entried 492 1 2; let e : Fin 256 := 2; let sl : Fin 4 := 0; let w : Switch := { page := pg5 };
    let t := sl.val; let at_ := fld (evWord s e.val 0) 23 0 + 8;
    let due (kind : Nat) : Prop := entryOwner s e.val = some t ∧ entryFires s e.val kind t = true ∧ at_ ≤ s.stroke.phase.toNat ∧ at_ < s.stroke.len.toNat;
    let x := (getSlate s t).pg;
    due 1 ∧ x.phase ≠ .ready ∧ (∀ w, x.switch = some w → w.replayAt = none)) ∧
  (let s : State := entried 480 0x60002 0xFFFFFFFF; let e : Fin 256 := 2; let sl : Fin 4 := 0; let c : Nat := 3;
    let p : Nat := 70; let t := sl.val; let at_ := fld (evWord s e.val 0) 23 0 + 8;
    let due (kind : Nat) : Prop := entryOwner s e.val = some t ∧ entryFires s e.val kind t = true ∧ at_ ≤ s.stroke.phase.toNat ∧ at_ < s.stroke.len.toNat;
    due 2 ∧ pageCtx s t = some c ∧ tallyOf s t c (fld (evWord s e.val 2) 25 16) = some p) ∧
  (let s : State := entried 480 0x0903 0 (window 0x80000002); let e : Fin 256 := 2; let sl : Fin 4 := 0;
    let t := sl.val; let at_ := fld (evWord s e.val 0) 23 0 + 8;
    let due (kind : Nat) : Prop := entryOwner s e.val = some t ∧ entryFires s e.val kind t = true ∧ at_ ≤ s.stroke.phase.toNat ∧ at_ < s.stroke.len.toNat;
    let n := fld (evWord s e.val 2) 15 8; let v := getWindow s t n; let port := getPort s (wPort v);
    let opens (kind : Nat) : Prop := due kind ∧ wValid v = true ∧ wPort v ∈ slatePorts t;
    opens 3 ∧ (if wSend v then port.sendOpen else port.recvOpen) = none) ∧
  (let s : State := entried 480 0x0903 0 (window 0x80000002) [(2, { recvOpen := some (1, 1) })];
    let e : Fin 256 := 2; let sl : Fin 4 := 0; let t := sl.val; let at_ := fld (evWord s e.val 0) 23 0 + 8;
    let due (kind : Nat) : Prop := entryOwner s e.val = some t ∧ entryFires s e.val kind t = true ∧ at_ ≤ s.stroke.phase.toNat ∧ at_ < s.stroke.len.toNat;
    let n := fld (evWord s e.val 2) 15 8; let v := getWindow s t n; let port := getPort s (wPort v);
    let opens (kind : Nat) : Prop := due kind ∧ wValid v = true ∧ wPort v ∈ slatePorts t;
    opens 3 ∧ (if wSend v then port.sendOpen else port.recvOpen) ≠ none) ∧
  (let s : State := entried 480 0x0904 0 (window 0x80000012); let e : Fin 256 := 2; let sl : Fin 4 := 0;
    let t := sl.val; let at_ := fld (evWord s e.val 0) 23 0 + 8;
    let due (kind : Nat) : Prop := entryOwner s e.val = some t ∧ entryFires s e.val kind t = true ∧ at_ ≤ s.stroke.phase.toNat ∧ at_ < s.stroke.len.toNat;
    let n := fld (evWord s e.val 2) 15 8; let v := getWindow s t n; let port := getPort s (wPort v);
    let opens (kind : Nat) : Prop := due kind ∧ wValid v = true ∧ wPort v ∈ slatePorts t;
    opens 4 ∧ (if wSend v then port.sendOpen else port.recvOpen) = none) ∧
  (let s : State := entried 480 0x0904 0 (window 0x80000012) [(2, { sendOpen := some (1, 1) })];
    let e : Fin 256 := 2; let sl : Fin 4 := 0; let t := sl.val; let at_ := fld (evWord s e.val 0) 23 0 + 8;
    let due (kind : Nat) : Prop := entryOwner s e.val = some t ∧ entryFires s e.val kind t = true ∧ at_ ≤ s.stroke.phase.toNat ∧ at_ < s.stroke.len.toNat;
    let n := fld (evWord s e.val 2) 15 8; let v := getWindow s t n; let port := getPort s (wPort v);
    let opens (kind : Nat) : Prop := due kind ∧ wValid v = true ∧ wPort v ∈ slatePorts t;
    opens 4 ∧ (if wSend v then port.sendOpen else port.recvOpen) ≠ none) ∧
  (let s : State := entried 480 0x0903 0 (window 2); let e : Fin 256 := 2; let sl : Fin 4 := 0;
    let t := sl.val; let at_ := fld (evWord s e.val 0) 23 0 + 8;
    let due (kind : Nat) : Prop := entryOwner s e.val = some t ∧ entryFires s e.val kind t = true ∧ at_ ≤ s.stroke.phase.toNat ∧ at_ < s.stroke.len.toNat;
    let n := fld (evWord s e.val 2) 15 8; let v := getWindow s t n;
    wValid v = false ∧ due 3) ∧
  (let s : State := entried 480 0x0904 0 (window 0x12); let e : Fin 256 := 2; let sl : Fin 4 := 0;
    let t := sl.val; let at_ := fld (evWord s e.val 0) 23 0 + 8;
    let due (kind : Nat) : Prop := entryOwner s e.val = some t ∧ entryFires s e.val kind t = true ∧ at_ ≤ s.stroke.phase.toNat ∧ at_ < s.stroke.len.toNat;
    let n := fld (evWord s e.val 2) 15 8; let v := getWindow s t n;
    wValid v = false ∧ due 4) ∧
  (let s : State := entried 480 5 3; let e : Fin 256 := 2; let sl : Fin 4 := 0; let t := sl.val;
    let at_ := fld (evWord s e.val 0) 23 0 + 8;
    let due (kind : Nat) : Prop := entryOwner s e.val = some t ∧ entryFires s e.val kind t = true ∧ at_ ≤ s.stroke.phase.toNat ∧ at_ < s.stroke.len.toNat;
    let i := 256 * t + fld (evWord s e.val 3) 7 0;
    due 5 ∧ beadExists s i = true ∧ (getBead s i).held = false ∧ (getHand s i 0).heldFaults = [] ∧
    (getBead s i).core.lockup.getLsbD 0 = false) ∧
  (let s : State := entried 992 5 3; let e : Fin 256 := 2; let sl : Fin 4 := 0; let t := sl.val;
    let at_ := fld (evWord s e.val 0) 23 0 + 8;
    entryOwner s e.val = some t ∧ entryFires s e.val 5 t = true ∧ s.stroke.len.toNat ≤ at_) ∧
  (let s : State := entried 0 0 0 (window 0x80000012 true 5); let sl : Fin 4 := 0; let win : Fin 64 := 9;
    let t := sl.val; let y := getWindow s t win.val;
    let closes : Prop := deviceUp s = true ∧ y.isOpen = true ∧ y.closesAt ≤ s.stroke.phase.toNat;
    closes ∧ wFlits y ≤ y.flits) ∧
  (let s : State := entried 0 0 0 (window 0x80000012 true 4); let sl : Fin 4 := 0; let win : Fin 64 := 9;
    let t := sl.val; let y := getWindow s t win.val;
    let closes : Prop := deviceUp s = true ∧ y.isOpen = true ∧ y.closesAt ≤ s.stroke.phase.toNat;
    closes ∧ y.flits < wFlits y) := by
  dsimp only [Rdy]
  repeat' first | decide +kernel | constructor

theorem test_meets_DuctusEvents :
  (let s : State := ported (fun x => { x with fwdq := [[1, 2, 3, 4]] }); let port : Fin 12 := 2; let q : Fin 12 := 5;
    let f : List Row := [1, 2, 3, 4]; let fs : List (List Row) := []; let pkt : MgmtPacket := pkt;
    let lane : Fin 5 := 1; let p := port.val; let x := getPort s p;
    let served : Prop := serving s = true ∧ portUp s p = true;
    let aligned : Prop := portHere s p = true ∧ x.aligned = true;
    portUp s p = true ∧ x.fwdq = f :: fs ∧ x.recvOpen = none ∧ served ∧ pkt.crcOk = true ∧ x.seen = [] ∧
    pkt.dest = s.aux.devnum ∧ pkt.type = 0 ∧ aligned ∧ x.mgmtQ = [] ∧ booted s = true ∧ x.cfg.getLsbD 0 = true ∧
    x.cfg.getLsbD 2 = true ∧ (getPort s q.val).cfg.getLsbD 0 = true ∧ (getPort s q.val).cfg.getLsbD 3 = true ∧
    x.failed = false ∧ x.laneFail = 0 ∧ lane ≠ 4 ∧ x.recovering = false ∧ x.ackedSpare = none ∧
    secondLane x lane = false) ∧
  (let s : State := ported (fun x => { x with sendOpen := some (0, 9), sendBuf := [(0, [1, 2, 3, 4, 5])] }) (window 0x80000012 true 4);
    let port : Fin 12 := 2; let t : Fin 4 := 0; let w : Fin 64 := 9; let p := port.val; let x := getPort s p;
    let win := getWindow s t.val w.val; let st := wStream win win.flits;
    let buf : List Row := mapGet (fun _ => []) x.sendBuf st;
    portUp s p = true ∧ x.fwdq = [] ∧ x.sendOpen = some (t, w) ∧ win.flits < wFlits win ∧ 4 ≤ buf.length) ∧
  (let s : State := ported (fun x => { x with recvOpen := some (0, 9) }) (window 0x80000082 true 4);
    let port : Fin 12 := 2; let t : Fin 4 := 0; let w : Fin 64 := 9; let p := port.val; let x := getPort s p;
    let win := getWindow s t.val w.val; let st := wStream win win.flits;
    let deliv : List (Row × Option (Nat × Nat)) := mapGet (fun _ => []) x.delivBuf st;
    portUp s p = true ∧ x.recvOpen = some (t, w) ∧ win.flits < wFlits win ∧ wDlv win = true ∧ wFwd win = false ∧
    deliv.length + 4 ≤ 32) ∧
  (let s : State := ported (fun x => { x with recvOpen := some (0, 9) }) (window 0x80000542 true 4);
    let port : Fin 12 := 2; let q : Fin 12 := 5; let t : Fin 4 := 0; let w : Fin 64 := 9; let p := port.val;
    let x := getPort s p; let win := getWindow s t.val w.val;
    portUp s p = true ∧ x.recvOpen = some (t, w) ∧ win.flits < wFlits win ∧ wDlv win = false ∧ wFwd win = true ∧
    wFwdPort win = q.val ∧ (getPort s q.val).fwdq.length < 8) ∧
  (let s : State := ported (fun x => { x with seen := [(⟨9, 33⟩, 77)] }); let port : Fin 12 := 2;
    let pkt : MgmtPacket := pkt; let p := port.val; let x := getPort s p; let ack : MgmtAck := ⟨pkt.source, pkt.seq⟩;
    let served : Prop := serving s = true ∧ portUp s p = true;
    served ∧ pkt.crcOk = true ∧ x.seen = [(ack, portTick s p)]) ∧
  (let s : State := { ported (fun x => { x with up := true }) with aux := { masterDev := 9 } };
    let port : Fin 12 := 2; let pkt : MgmtPacket := { pkt with type := 1 }; let p := port.val; let x := getPort s p;
    let served : Prop := serving s = true ∧ portUp s p = true;
    served ∧ pkt.crcOk = true ∧ x.seen = [] ∧ pkt.dest = s.aux.devnum ∧ pkt.type = 1 ∧ pkt.source = s.aux.masterDev) ∧
  (let s : State := ported (fun x => { x with up := true }); let port : Fin 12 := 2;
    let pkt : MgmtPacket := { pkt with crcOk := false }; let p := port.val;
    let served : Prop := serving s = true ∧ portUp s p = true;
    served ∧ pkt.crcOk = false) ∧
  (let s : State := ported (fun x => { x with sent := [⟨pkt, 2⟩] }); let port : Fin 12 := 2;
    let m : SentPacket := ⟨pkt, 2⟩; let seq : W16 := 33; let p := port.val; let x := getPort s p;
    serving s = true ∧ x.sent = [m] ∧ m.pkt.seq = seq ∧ m.resends < 3) ∧
  (let s : State := ported (fun x => { x with sent := [⟨pkt, 3⟩] }); let port : Fin 12 := 2;
    let m : SentPacket := ⟨pkt, 3⟩; let seq : W16 := 33; let p := port.val; let x := getPort s p;
    serving s = true ∧ x.sent = [m] ∧ m.pkt.seq = seq ∧ 3 ≤ m.resends) ∧
  (let s : State := ported (fun x => { x with ranging := [(3, 5)] }); let port : Fin 12 := 2; let k : BitVec 4 := 3;
    let t1 : W64 := 100; let t2 : W64 := 150; let t3 : W64 := 160; let t4 : W64 := 210; let p := port.val;
    let x := getPort s p; let aligned : Prop := portHere s p = true ∧ x.aligned = true;
    let even : Prop := ((t4 - t1) - (t3 - t2)).toNat % 2 = 0;
    aligned ∧ mapFind x.ranging k.toNat ≠ none ∧ even ∧ x.measures.length < 15) ∧
  (let s : State := ported (fun x => { x with ranging := [(3, 5)], measures := List.replicate 15 50 });
    let port : Fin 12 := 2; let k : BitVec 4 := 3; let t1 : W64 := 100; let t2 : W64 := 150; let t3 : W64 := 160;
    let t4 : W64 := 210; let p := port.val; let x := getPort s p;
    let aligned : Prop := portHere s p = true ∧ x.aligned = true; let d := ((t4 - t1) - (t3 - t2)).toNat / 2;
    let even : Prop := ((t4 - t1) - (t3 - t2)).toNat % 2 = 0;
    aligned ∧ mapFind x.ranging k.toNat ≠ none ∧ even ∧ x.measures = List.replicate 15 d ∧
    s.spine.waits = 0) ∧
  (let s : State := ported (fun x => { x with laneFail := 4 }); let port : Fin 12 := 2; let lane : Fin 5 := 1;
    let p := port.val; let x := getPort s p; let aligned : Prop := portHere s p = true ∧ x.aligned = true;
    aligned ∧ x.failed = false ∧ x.laneFail ≠ 0 ∧ x.laneFail.getLsbD lane.val = false ∧
    s.spine.waits = 0 ∧ x.ackedSpare = none ∧ secondLane x lane = true) ∧
  (let s : State := ported (fun x => { x with sparing := some (1, true, 33) }); let port : Fin 12 := 2;
    let seq : W16 := 33; let lane : Fin 5 := 1; let err : Bool := true; let p := port.val; let x := getPort s p;
    portHere s p = true ∧ x.sparing = some (lane, err, seq)) ∧
  (let s : State := ported (fun x => { x with up := false, aligned := false }); let port : Fin 12 := 2;
    let p := port.val; let x := getPort s p;
    portHere s p = true ∧ x.cfg.getLsbD 0 = true ∧ x.failed = false ∧ x.aligned = false) := by
  dsimp only [Rdy]
  repeat' first | decide +kernel | constructor

theorem test_meets_RecoveryEvents :
  (let s : State := up; let sl : Fin 4 := 0; let rod : Fin 16 := 2; let site : Fin 17 := 3; let k : Fin 8 := 5;
    let b : Bool := false; let pos : Nat := 3; let t := sl.val; let i := 256 * t + 16 * rod.val + pos;
    let x := getSlate s t;
    slateUp s t = true ∧ slateRuns s t = true ∧ (rodFailed s t rod.val).getLsbD site.val = false ∧
    posOf s t rod.val site.val = some pos ∧ pos < 16 ∧ (getBead s i).held = false ∧ x.recovering = false ∧
    x.pg.phase = .idle ∧ booted s = true ∧ stackWorks s k.val = true ∧ s.spine.exposed = false ∧
    scribeOf s b = .running ∧ scribeOf s (!b) = .running ∧ s.spine.primaryB = b ∧ s.spine.failovers ≠ 0xFFFF ∧
    s.ledger.soft = false) ∧
  (let s : State := page (fun p => { p with phase := .running }) up; let sl : Fin 4 := 0; let rod : Fin 16 := 2;
    let site : Fin 17 := 3; let pos : Nat := 3; let t := sl.val; let i := 256 * t + 16 * rod.val + pos;
    let x := getSlate s t;
    slateRuns s t = true ∧ (rodFailed s t rod.val).getLsbD site.val = false ∧ posOf s t rod.val site.val = some pos ∧
    pos < 16 ∧ (getBead s i).held = false ∧ x.recovering = false ∧ x.pg.phase = .running) ∧
  (let s : State := { up with spine := { exposed := true } };
    s.spine.exposed = true ∧ s.pins.rails = true ∧ s.pins.inReset = false) ∧
  (let s : State := { up with spine := { primaryB := true } }; let b : Bool := false;
    booted s = true ∧ scribeOf s b = .running ∧ scribeOf s (!b) = .running ∧ s.spine.primaryB = !b) ∧
  (let s : State := { up with spine := { scribeB := .failed } }; let b : Bool := false;
    booted s = true ∧ scribeOf s b = .running ∧ scribeOf s (!b) ≠ .running) ∧
  (let s : State := { up with spine := { scribeA := .rebooting } }; let b : Bool := false;
    serving s = true ∧ scribeOf s b = .rebooting) := by
  dsimp only [Rdy]
  repeat' first | decide +kernel | constructor

theorem test_meets_WellReports :
  (let s : State := modFn up 1 (fun x => { x with busy := true }); let q : CmdReq := (req []);
    let c : Instr := .identify (req []); let op : Nat := 1; let f := q.fn; let x := getFn s f.val;
    IsWellCommand q c op ∧ wellDeaf s = false ∧ x.busy = true) ∧
  (let s : State := up; let q : CmdReq := (req [] 1 2); let c : Instr := .identify (req [] 1 2); let op : Nat := 1;
    let f := q.fn; let x := getFn s f.val;
    IsWellCommand q c op ∧ wellDeaf s = false ∧ x.busy = false ∧ q.version ≠ 1) ∧
  (let s : State := up; let q : CmdReq := (req []); let f := q.fn;
    WellFits s q ∧ argsBad q [] = false ∧ argsBad q [whole, hi48] = false ∧ findEntry s f.val (arg48 q 0) = none) ∧
  (let s : State := { jobbed (ent .running) with ledger := { ready := true, entries := [ent .running], log := [{ index := 1, cause := 3, severity := 1 }, { index := 2, cause := 3, severity := 1 }], logIndex := 3 } };
    let q : CmdReq := (req [5, 0]); let e : LEntry := (ent .running); let f := q.fn;
    WellFits s q ∧ argsBad q [whole, hi48] = false ∧ findEntry s f.val (arg48 q 0) = some e) ∧
  (let s : State := { jobbed (ent .running) with ledger := { ready := true, entries := [ent .running], log := [{ index := 1, cause := 3, severity := 1 }, { index := 2, cause := 3, severity := 1 }], logIndex := 3 } };
    let q : CmdReq := (req0 [1, 7]); let f := q.fn; let l := s.ledger; let first := BitVec.ofNat 32 (arg q 0);
    let recs := (l.log.filter (fun r => (r.index - first).toNat < (l.logIndex - first).toNat)).take (arg q 1);
    WellFits s q ∧ argsBad q [whole, whole] = false ∧ f = 0 ∧ 1 ≤ arg q 1 ∧ arg q 1 ≤ 7 ∧
    (l.logIndex - first).toNat < 2 ^ 31 ∧ recs.length < arg q 1) := by
  dsimp only [Rdy]
  repeat' first | decide +kernel | constructor

set_option maxRecDepth 100000 in
theorem test_meets_WellContexts :
  (let s : State := ctxUp; let q : CmdReq := (req [0x13]); let c : Nat := 0; let a := arg q 0;
    WellFits s q ∧ argsBad q [0x1F] = false ∧ fld a 4 2 ≤ 4 ∧
    (List.range 64).find? (fun c => (getCtx s c).owner.isNone) = some c) ∧
  (let s : State := { up with ctxs := (List.range 64).map (fun k => (k, { owner := some 1 })) };
    let q : CmdReq := (req [3]); let c : Nat := 0; let f := q.fn; let a := arg q 0; let n := fld a 5 0;
    let owns : Prop := WellFits s q ∧ (getCtx s n).owner = some f;
    WellFits s q ∧ argsBad q [0x1F] = false ∧ fld a 4 2 ≤ 4 ∧ (∀ c < 64, (getCtx s c).owner ≠ none) ∧ owns ∧
    argsBad q [0x13F] = false ∧ bitAt a 8 = false ∧ ctxJobs s n = [] ∧ argsBad q [0x33F] = false) ∧
  (let s : State := { ctxUp with ledger := { ready := true, entries := [ent .accepted] } };
    let q : CmdReq := (req [3]); let f := q.fn; let a := arg q 0; let n := fld a 5 0;
    let owns : Prop := WellFits s q ∧ (getCtx s n).owner = some f;
    owns ∧ argsBad q [0x13F] = false ∧ bitAt a 8 = false ∧ ctxJobs s n ≠ []) ∧
  (let s : State := ctxUp;
    let q : CmdReq := (req [0x70103, 0, 0x800000, 0, 1, 0, 1099526307840 % 2 ^ 32, 1099526307840 / 2 ^ 32]);
    let e : LEntry := (ent .accepted); let f := q.fn; let a := arg q 0; let n := fld a 5 0;
    let vp := arg48 q 2 / 0x200000; let owns : Prop := WellFits s q ∧ (getCtx s n).owner = some f;
    let mapArgs : Prop := argsBad q [0x0F0F073F, 0, whole, hi48, whole, 0, whole, hi48] = false ∧ bitAt a 19 = false ∧ arg48 q 2 % 0x200000 = 0 ∧ arg q 4 = 1 ∧ vp < 2 ^ 27 ∧ ∀ e ∈ (getCtx s n).pages, e.1 ≠ vp;
    owns ∧ mapArgs ∧ fld a 10 8 = 1 ∧ targetStart s 1 (arg48 q 6) = true ∧ targetOk s 1 (arg48 q 6 / 0x200000) = true) ∧
  (let s : State := ctxUp; let q : CmdReq := (req [0x70003, 0, 0x800000, 0, 1, 0, 0, 0]); let p : Nat := 512;
    let t : Nat := 0; let e : LEntry := (ent .accepted); let f := q.fn; let a := arg q 0; let n := fld a 5 0;
    let vp := arg48 q 2 / 0x200000; let owns : Prop := WellFits s q ∧ (getCtx s n).owner = some f;
    let mapArgs : Prop := argsBad q [0x0F0F073F, 0, whole, hi48, whole, 0, whole, hi48] = false ∧ bitAt a 19 = false ∧ arg48 q 2 % 0x200000 = 0 ∧ arg q 4 = 1 ∧ vp < 2 ^ 27 ∧ ∀ e ∈ (getCtx s n).pages, e.1 ≠ vp;
    let order := (List.range 4).filter (bitAt (fld a 27 24)) ++ (List.range 4).filter (fun t => !bitAt (fld a 27 24) t);
    owns ∧ MemOk s ∧ mapArgs ∧ fld a 10 8 = 0 ∧ arg48 q 6 = 0 ∧ s.pwr.st = .run ∧
    freePage s (order.flatMap (fun t => [2 * t, 2 * t + 1])) = some p) ∧
  (let s : State := ctxUp; let q : CmdReq := (req [3, 0, 0x200000, 0, 0x7FFFFFF]); let f := q.fn; let a := arg q 0;
    let n := fld a 5 0; let vp := arg48 q 2 / 0x200000;
    let owns : Prop := WellFits s q ∧ (getCtx s n).owner = some f;
    owns ∧ argsBad q [0x3F, 0, whole, hi48, whole] = false ∧ arg48 q 2 % 0x200000 = 0 ∧ arg q 4 ≠ 0 ∧
    vp + arg q 4 ≤ 2 ^ 27 ∧ s.ledger.entries = [] ∧ s.books = []) ∧
  (let s : State := bytesAt 0x1200000 bookImg (ctxUp);
    let s' : State := (okOr ({}, up) (loadSlates 3 bookImg false [0] {} (taken (bytesAt 0x1200000 bookImg (ctxUp)) 0x30 (req [0x103, 0, 0x200000, 0, 0x148])))).2;
    let q : CmdReq := (req [0x103, 0, 0x200000, 0, 0x148]); let t : Nat := 0; let img : List W8 := bookImg;
    let x : Loaded := (okOr ({}, up) (loadSlates 3 bookImg false [0] {} (taken (bytesAt 0x1200000 bookImg (ctxUp)) 0x30 (req [0x103, 0, 0x200000, 0, 0x148])))).1;
    let f := q.fn; let a := arg q 0; let n := fld a 5 0;
    let owns : Prop := WellFits s q ∧ (getCtx s n).owner = some f; let s0 := taken s 0x30 q;
    let loads : Prop := owns ∧ argsBad q [0x10F3F, 0, whole, hi48, whole] = false ∧ (List.range 4).filter (bitAt (fld a 11 8)) = [t] ∧ slatePresent s t = true ∧ bitAt a 16 = false ∧ s.pwr.st = .run ∧ (getSlate s t).failed = false ∧ (getSlate s t).inReset = false ∧ ctxBytes s0 n (arg48 q 2) (arg q 4) = some img;
    loads ∧ bookFault s0 n t img false = none ∧ loadSlates n img false [t] {} s0 = .ok (x, s')) ∧
  (let s : State := bytesAt 0x1200000 (putW bookImg 4 [2]) (ctxUp);
    let q : CmdReq := (req [0x103, 0, 0x200000, 0, 0x148]); let t : Nat := 0;
    let img : List W8 := (putW bookImg 4 [2]); let fault : BookFault := (1, 4); let f := q.fn; let a := arg q 0;
    let n := fld a 5 0; let owns : Prop := WellFits s q ∧ (getCtx s n).owner = some f; let s0 := taken s 0x30 q;
    let loads : Prop := owns ∧ argsBad q [0x10F3F, 0, whole, hi48, whole] = false ∧ (List.range 4).filter (bitAt (fld a 11 8)) = [t] ∧ slatePresent s t = true ∧ bitAt a 16 = false ∧ s.pwr.st = .run ∧ (getSlate s t).failed = false ∧ (getSlate s t).inReset = false ∧ ctxBytes s0 n (arg48 q 2) (arg q 4) = some img;
    loads ∧ bookFault s0 n t img false = some fault) ∧
  (let s : State := { ctxUp with books := [(9, ⟨3, 1, false, [], [], [], [], []⟩)] }; let q : CmdReq := (req [9]);
    let b : Book := ⟨3, 1, false, [], [], [], [], []⟩; let f := q.fn; let a := arg q 0;
    WellFits s q ∧ argsBad q [hi48] = false ∧ mapFind s.books (fld a 15 0) = some b ∧
    (getCtx s b.ctx.val).owner = some f ∧ s.ledger.entries = []) ∧
  (let s : State := ctxUp; let q : CmdReq := (req [0xC4C03, 0, 0x200000, 0, 0x1000, 0, 0x2000, 0, 0x3000, 0]);
    let f := q.fn; let a := arg q 0; let n := fld a 5 0;
    let owns : Prop := WellFits s q ∧ (getCtx s n).owner = some f; let size (h l : Nat) : Nat := fld a h l;
    let sound (m : Nat) : Prop := 4 ≤ m ∧ m ≤ 12;
    owns ∧ argsBad q [0xFFF3F, 0, whole, hi48, whole, whole, whole, whole, whole, whole] = false ∧
    sound (size 11 8) ∧ sound (size 15 12) ∧ sound (size 19 16) ∧ arg48 q 2 % 4096 = 0 ∧
    (∀ i ∈ [4, 6, 8], arg64 q i % 64 = 0) ∧ rangeMapped s n (arg48 q 2) (64 * 2 ^ size 11 8) = true) ∧
  (let s : State := bound id ctxUp; let q : CmdReq := (req []); let f := q.fn;
    WellFits s q ∧ argsBad q [] = false ∧ (getFn s f.val).bind ≠ none) ∧
  (let s : State := { ctxUp with ledger := { ready := true, entries := [ent .accepted] } };
    let q : CmdReq := (req [5, 0, 5, 0]); let e : LEntry := (ent .accepted); let f := q.fn;
    WellFits s q ∧ argsBad q [whole, hi48, whole, hi48] = false ∧ s.ledger.entries = [e] ∧ e.fn = f ∧
    arg48 q 0 ≤ e.seq.toNat ∧ e.seq.toNat ≤ arg48 q 2 ∧ e.state = .accepted ∧ e.ended = false) ∧
  (let s : State := { ctxUp with ledger := { ready := true, entries := [ent .reported] } };
    let q : CmdReq := (req [5, 0, 5, 0]); let e : LEntry := (ent .reported); let f := q.fn;
    WellFits s q ∧ argsBad q [whole, hi48, whole, hi48] = false ∧ s.ledger.entries = [e] ∧ e.fn = f ∧
    arg48 q 0 ≤ e.seq.toNat ∧ e.seq.toNat ≤ arg48 q 2 ∧ committed e.state = true) := by
  dsimp only [Rdy]
  repeat' first | decide +kernel | exact ok_self (by decide +kernel) | constructor

set_option maxRecDepth 100000 in
theorem test_meets_WellSystem :
  (let s : State := pf; let q : CmdReq := (req0 [6, 0, 0x1234, 0x56]); let a := arg q 0;
    let pf : Prop := WellFits s q ∧ q.fn = 0;
    pf ∧ argsBad q [0x3F, 0x9F3FFFF0, 0xFFFFFF, 0xFF, whole] = false ∧ a = 6) ∧
  (let s : State := pf; let q : CmdReq := (req0 [3, 0, 0x200000, 0]); let img : List W8 := (List.replicate 2048 0);
    let a := arg q 0; let pf : Prop := WellFits s q ∧ q.fn = 0;
    let owns (m : Nat) : Prop := pf ∧ (getCtx s m).owner = some 0;
    owns (fld a 5 0) ∧ argsBad q [0x3F, 0, whole, hi48] = false ∧
    ctxBytes (taken s 0x62 q) (fld a 5 0) (arg48 q 2) 2048 = some img) ∧
  (let s : State := ctxUp; let q : CmdReq := (req [3]); let a := arg q 0;
    WellFits s q ∧ q.fn ≠ 0 ∧ argsBad q [7] = false ∧ a ≤ 3) ∧
  (let s : State := { pf with pwr := { moving := true } }; let q : CmdReq := (req0 [0]); let k : Nat := 6;
    let a := arg q 0; let pf : Prop := WellFits s q ∧ q.fn = 0;
    pf ∧ argsBad q [7] = false ∧ a = 0 ∧ powerRefusal s .run = k ∧ k ≠ 0 ∧ argsBad q [3] = false ∧
    slatePresent s (fld a 1 0) = true ∧ s.pwr.st = .run ∧ s.spine.recovering = false) ∧
  (let s : State := { pf with pwr := { st := .hold } }; let q : CmdReq := (req0 [1]); let a := arg q 0;
    let pf : Prop := WellFits s q ∧ q.fn = 0;
    pf ∧ argsBad q [7] = false ∧ a = 1 ∧ powerRefusal s .hold = 0 ∧ s.pwr.st = .hold ∧ argsBad q [3] = false ∧
    (a = 1 ∨ a = 2)) ∧
  (let s : State := pf; let q : CmdReq := (req0 [1]); let a := arg q 0; let pf : Prop := WellFits s q ∧ q.fn = 0;
    pf ∧ argsBad q [7] = false ∧ a = 1 ∧ powerRefusal s .hold = 0 ∧ s.pwr.st = .run) ∧
  (let s : State := { pf with pwr := { moving := true, target := .hold, waiter := some (.well 0, 0x55) } };
    let t : Nat := 0; let tag : W32 := 0x55; let g : Fin 16 := 0;
    booted s = true ∧ s.pwr.moving = true ∧ (∀ t < 4, (getSlate s t).selfTest = false) ∧ s.pwr.st = .run ∧
    s.pwr.target = .hold ∧ s.pwr.waiter = some (.well g, tag)) ∧
  (let s : State := secd (fun x => { x with nonceWells := some nonce }); let q : CmdReq := (token 0 1);
    let n : Nonce := nonce; let proof : Bool := true; let a := arg q 0; let x := s.sec;
    let pf : Prop := WellFits s q ∧ q.fn = 0;
    let unlocks (method : Nat) : Prop := pf ∧ a = method ∧ argsBad q ([1, whole] ++ List.replicate 56 whole) = false ∧ ((tokenOf q).drop (arg q 1)).all (· == 0) = true ∧ x.session = none ∧ x.scrub = none ∧ x.lifecycle = .sealed;
    let token : Prop := unlocks 0 ∧ arg q 1 = 162 ∧ tokClean (tokenOf q) = true ∧ x.nonceWells = some n ∧ tokenDenied s (tokenOf q) false = false;
    token ∧ tokenGood s n (tokenOf q) proof = true ∧ tokKind (tokenOf q) = 0 ∧ tokLevel (tokenOf q) ≤ 2) ∧
  (let s : State := secd (fun x => { x with nonceWells := some nonce }); let q : CmdReq := (token 1 1);
    let n : Nonce := nonce; let proof : Bool := true; let a := arg q 0; let x := s.sec;
    let pf : Prop := WellFits s q ∧ q.fn = 0;
    let unlocks (method : Nat) : Prop := pf ∧ a = method ∧ argsBad q ([1, whole] ++ List.replicate 56 whole) = false ∧ ((tokenOf q).drop (arg q 1)).all (· == 0) = true ∧ x.session = none ∧ x.scrub = none ∧ x.lifecycle = .sealed;
    let token : Prop := unlocks 0 ∧ arg q 1 = 162 ∧ tokClean (tokenOf q) = true ∧ x.nonceWells = some n ∧ tokenDenied s (tokenOf q) false = false;
    token ∧ tokenGood s n (tokenOf q) proof = true ∧ tokKind (tokenOf q) = 1) ∧
  (let s : State := secd (fun x => { x with nonceWells := some nonce }); let q : CmdReq := (token 0 2);
    let n : Nonce := nonce; let proof : Bool := true; let a := arg q 0; let x := s.sec;
    let pf : Prop := WellFits s q ∧ q.fn = 0;
    let unlocks (method : Nat) : Prop := pf ∧ a = method ∧ argsBad q ([1, whole] ++ List.replicate 56 whole) = false ∧ ((tokenOf q).drop (arg q 1)).all (· == 0) = true ∧ x.session = none ∧ x.scrub = none ∧ x.lifecycle = .sealed;
    let token : Prop := unlocks 0 ∧ arg q 1 = 162 ∧ tokClean (tokenOf q) = true ∧ x.nonceWells = some n ∧ tokenDenied s (tokenOf q) false = false;
    token ∧ tokenGood s n (tokenOf q) proof = false) ∧
  (let s : State := secd (fun x => { x with fails := 4 }); let q : CmdReq := (req0 [1, 8, 3, 4]); let a := arg q 0;
    let x := s.sec; let pf : Prop := WellFits s q ∧ q.fn = 0;
    let unlocks (method : Nat) : Prop := pf ∧ a = method ∧ argsBad q ([1, whole] ++ List.replicate 56 whole) = false ∧ ((tokenOf q).drop (arg q 1)).all (· == 0) = true ∧ x.session = none ∧ x.scrub = none ∧ x.lifecycle = .sealed;
    let phrase : Prop := unlocks 1 ∧ 8 ≤ arg q 1 ∧ arg q 1 ≤ 224 ∧ x.fuseCfg.getLsbD 1 = true ∧ x.blocked = false;
    pf ∧ argsBad q [0x10FFF, 0x0FFF0FFF, 0x0F0F0F0F, 0x0F0F0F0F, 0x0F0F0F0F] = false ∧ a = 1 ∧
    slatePresent s 0 = true ∧ bitAt (arg q 2) 0 = true ∧ phrase) ∧
  (let s : State := secd (fun x => { x with session := some ⟨7, 1, false⟩ }); let q : CmdReq := (req0 [7]);
    let d : Session := ⟨7, 1, false⟩; let a := arg q 0; let x := s.sec; let pf : Prop := WellFits s q ∧ q.fn = 0;
    pf ∧ argsBad q [0xFFFF] = false ∧ x.session = some d ∧ d.number.toNat = a ∧ a ≠ 0) ∧
  (let s : State := secd (fun x => { x with scrub := some 0x55 }); let tag : W32 := 0x55; let x := s.sec;
    x.scrub = some tag) ∧
  (let s : State := bytesAt 0x1200000 fwBytes (pf); let q : CmdReq := (req0 [3, 0, 0x200000, 0, 312]);
    let f : FwSlot := (fwImage fwBytes true true); let b : Bool := true; let proof : Bool := true;
    let img : List W8 := fwBytes; let a := arg q 0; let x := s.sec; let pf : Prop := WellFits s q ∧ q.fn = 0;
    let owns (m : Nat) : Prop := pf ∧ (getCtx s m).owner = some 0;
    owns (fld a 5 0) ∧ argsBad q [0x3F, 0, whole, hi48, whole] = false ∧ arg q 4 ≠ 0 ∧ arg q 4 ≤ 0x1000000 ∧
    ctxBytes (taken s 0x90 q) (fld a 5 0) (arg48 q 2) (arg q 4) = some img ∧ f = fwImage img b proof ∧
    fwFault x f = none) ∧
  (let s : State := bytesAt 0x1200000 fwBytes (pf); let q : CmdReq := (req0 [3, 0, 0x200000, 0, 312]);
    let f : FwSlot := (fwImage fwBytes false true); let k : Nat := 3; let b : Bool := false;
    let proof : Bool := true; let img : List W8 := fwBytes; let a := arg q 0; let x := s.sec;
    let pf : Prop := WellFits s q ∧ q.fn = 0; let owns (m : Nat) : Prop := pf ∧ (getCtx s m).owner = some 0;
    owns (fld a 5 0) ∧ argsBad q [0x3F, 0, whole, hi48, whole] = false ∧ arg q 4 ≠ 0 ∧ arg q 4 ≤ 0x1000000 ∧
    ctxBytes (taken s 0x90 q) (fld a 5 0) (arg48 q 2) (arg q 4) = some img ∧ f = fwImage img b proof ∧
    fwFault x f = some k) ∧
  (let s : State := { pf with sec := { up.sec with staged := some true, slotB := fwImage fwBytes true true } };
    let q : CmdReq := (req0 [1]); let f : FwSlot := (fwImage fwBytes true true); let a := arg q 0; let x := s.sec;
    let pf : Prop := WellFits s q ∧ q.fn = 0;
    pf ∧ argsBad q [1] = false ∧ x.staged = some (bitAt a 0) ∧ f = fwSlot x (bitAt a 0) ∧ fwFault x f = none) ∧
  (let s : State := pf; let q : CmdReq := (req0 [0x301, 0, 0x200000, 0]); let t : Nat := 0x1200000; let a := arg q 0;
    let pf : Prop := WellFits s q ∧ q.fn = 0; let owns (m : Nat) : Prop := pf ∧ (getCtx s m).owner = some 0;
    owns (fld a 13 8) ∧ argsBad q [0x3F03, 0, whole, hi48] = false ∧ arg48 q 2 % 0x1000 = 0 ∧
    arg48 q 2 % 0x200000 + 0x30000 ≤ 0x200000 ∧ hbmOf s (fld a 13 8) (arg48 q 2) = some t ∧
    slateRuns s (fld a 1 0) = true ∧ (getSlate s (fld a 1 0)).watch.dumpBusy = false ∧ t < 2 ^ 48) ∧
  (let s : State := slate (fun x => { x with selfTest := true, inReset := true }) (pf); let sl : Fin 4 := 0;
    booted s = true ∧ (getSlate s sl.val).selfTest = true ∧ s.spine.waits = 0) := by
  dsimp only [Rdy]
  repeat' first | decide +kernel | constructor

theorem test_meets_HostCommands :
  (let s : State := bound (fun x => { x with sqHead := 1, aperture := some 3, ring := { x.ring with next := 9 } }) (bytesAt 0x1200040 [9] (ctxUp));
    let fn : Fin 16 := 1; let v : W32 := 2; let b : Binding := bnd; let off : BitVec 48 := 0x200040;
    let bs : List W8 := [1, 2, 3, 4, 5, 6, 7, 8]; let len : Fin 65 := 8;
    let x : Xlat := ((apertureAt (bound (fun x => { x with sqHead := 1, aperture := some 3, ring := { x.ring with next := 9 } }) (bytesAt 0x1200040 [9] (ctxUp))) 1 0x200040 8 false).getD ⟨0, none, false⟩);
    let vec : Fin 128 := 5; let g : Fin 16 := 1; let f := fn.val; let y := getFn s f;
    let ws := ringEntry s b y.sqHead.toNat;
    let seq : BitVec 48 := BitVec.ofNat 48 (((ws[0]?).getD 0).toNat + fld ((ws[1]?).getD 0).toNat 15 0 * 2 ^ 32);
    let bound : Prop := serving s = true ∧ y.bind = some b;
    let one : Prop := bound ∧ v = y.sqHead + 1 ∧ y.dupOut = [] ∧ 4 ≤ b.sqLog;
    let at_ (n : Nat) (w : Bool) : Option Xlat := apertureAt s f off n w;
    let plain : Prop := x.mirror = none ∧ inHbm x.pa = true; let n := bs.length;
    let inside (n : Nat) : Prop := deviceUp s = true ∧ inBar2 s f off n = true;
    one ∧ seq = y.ring.next ∧ seq ≠ 0 ∧ acceptWaits s = false ∧ bound ∧ y.lostOwed = false ∧ inside n ∧
    at_ n true = some x ∧ plain ∧ inside len.val ∧ at_ len.val false = some x ∧ parityFind s.parity x.pa len.val = none ∧
    inside 8 ∧ at_ 8 false = some x ∧ at_ 8 true ≠ none ∧ parityFind s.parity x.pa 8 = none ∧ g ≠ 0 ∧
    y.pba.getLsbD vec.val = false) ∧
  (let s : State := { bound (fun x => { x with sqHead := 1, aperture := some 3, ring := { x.ring with next := 9 } }) (bytesAt 0x1200040 [9] (ctxUp)) with pwr := { st := .hold } };
    let fn : Fin 16 := 1; let v : W32 := 2; let b : Binding := bnd; let f := fn.val; let y := getFn s f;
    let ws := ringEntry s b y.sqHead.toNat;
    let seq : BitVec 48 := BitVec.ofNat 48 (((ws[0]?).getD 0).toNat + fld ((ws[1]?).getD 0).toNat 15 0 * 2 ^ 32);
    let bound : Prop := serving s = true ∧ y.bind = some b;
    let one : Prop := bound ∧ v = y.sqHead + 1 ∧ y.dupOut = [] ∧ 4 ≤ b.sqLog;
    one ∧ seq = y.ring.next ∧ seq ≠ 0 ∧ acceptWaits s = true) ∧
  (let s : State := bound (fun x => { x with sqHead := 1, aperture := some 3, ring := { x.ring with next := 8 } }) (bytesAt 0x1200040 [9] (ctxUp));
    let fn : Fin 16 := 1; let v : W32 := 2; let b : Binding := bnd; let f := fn.val; let y := getFn s f;
    let ws := ringEntry s b y.sqHead.toNat;
    let seq : BitVec 48 := BitVec.ofNat 48 (((ws[0]?).getD 0).toNat + fld ((ws[1]?).getD 0).toNat 15 0 * 2 ^ 32);
    let bound : Prop := serving s = true ∧ y.bind = some b;
    let one : Prop := bound ∧ v = y.sqHead + 1 ∧ y.dupOut = [] ∧ 4 ≤ b.sqLog;
    one ∧ y.ring.next < seq) ∧
  (let s : State := bound (fun x => { x with sqHead := 1, aperture := some 3, ring := { x.ring with next := 9 } }) (bytesAt 0x1200040 [9] (ctxUp));
    let fn : Fin 16 := 1; let v : W32 := 18; let b : Binding := bnd; let f := fn.val; let y := getFn s f;
    let bound : Prop := serving s = true ∧ y.bind = some b;
    bound ∧ 2 ^ b.sqLog < (v - y.sqHead).toNat) ∧
  (let s : State := bound (fun x => { x with lostOwed := true, eqTail := 17 }) (ctxUp); let fn : Fin 16 := 1;
    let v : W32 := 2; let b : Binding := bnd; let off : BitVec 48 := 0x200040;
    let bs : List W8 := [1, 2, 3, 4, 5, 6, 7, 8]; let len : Fin 65 := 8; let f := fn.val; let y := getFn s f;
    let bound : Prop := serving s = true ∧ y.bind = some b;
    let at_ (n : Nat) (w : Bool) : Option Xlat := apertureAt s f off n w; let n := bs.length;
    let inside (n : Nat) : Prop := deviceUp s = true ∧ inBar2 s f off n = true;
    bound ∧ y.lostOwed = true ∧ (y.eqTail - v).toNat < 2 ^ b.eqLog ∧ inside len.val ∧ at_ len.val false = none ∧
    inside n ∧ at_ n true = none) ∧
  (let s : State := up; let fn : Fin 16 := 0; let off : BitVec 48 := 0xFFFFFFFFFFF8; let len : Fin 65 := 8; let f := fn.val;
    deviceUp s = true ∧ inBar2 s f off len.val = false) ∧
  (let s : State := modBead (bound (fun x => { x with sqHead := 1, aperture := some 3, ring := { x.ring with next := 9 } }) (bytesAt 0x1200040 [9] (ctxUp))) 5 (fun b => { b with regs := { b.regs with ctx := 0x80000003 } });
    let fn : Fin 16 := 1; let off : BitVec 48 := 0x609010;
    let x : Xlat := ((apertureAt (modBead (bound (fun x => { x with sqHead := 1, aperture := some 3, ring := { x.ring with next := 9 } }) (bytesAt 0x1200040 [9] (ctxUp))) 5 (fun b => { b with regs := { b.regs with ctx := 0x80000003 } })) 1 0x609010 8 false).getD ⟨0, none, false⟩);
    let f := fn.val; let at_ (n : Nat) (w : Bool) : Option Xlat := apertureAt s f off n w;
    let inside (n : Nat) : Prop := deviceUp s = true ∧ inBar2 s f off n = true;
    inside 8 ∧ at_ 8 false = some x ∧ at_ 8 true ≠ none ∧ inHbm x.pa = false) ∧
  (let s : State := modFn up 1 (fun x => { x with pba := 0x20 }); let fn : Fin 16 := 1; let vec : Fin 128 := 5;
    let f := fn.val; let y := getFn s f;
    deviceUp s = true ∧ y.pba.getLsbD vec.val = true) := by
  dsimp only [Rdy]
  repeat' first | decide +kernel | constructor

theorem test_meets_SidebandAndTap :
  (let s : State := up; let t : Transport := .i3c; let q : CmdReq := (req []); let op : W16 := 0x30;
    let w : W16 := 2000; let x := getSpdm s t; let up : Prop := serving s = true;
    let quiet : Prop := s.pwr.waiter = none ∧ t ≠ .doe; let tap : Prop := tapServes s = true;
    up ∧ t ≠ .doe ∧ quiet ∧ q.version = 1 ∧ op ∉ ([0x01, 0x02, 0xC0, 0x70, 0xB0] : List W16) ∧ argsBad q [] = false ∧
    x.version = none ∧ s.pwr.therm = 0 ∧ s.pwr.reserve ≤ w ∧ deviceUp s = true ∧ s.pins.bootFailed = false ∧ tap ∧
    op ∉ ([0x80, 0x81, 0x82] : List W16) ∧ debugLevel s < 2 ∧ s.pins.rails = true) ∧
  (let s : State := { up with spdm := [(0, { version := some 0x13 })] }; let t : Transport := .i3c;
    let x := getSpdm s t; let up : Prop := serving s = true;
    up ∧ x.version = some 0x13) ∧
  (let s : State := { up with spdm := [(0, { version := some 0x13, algorithms := true })] };
    let t : Transport := .i3c; let index : W8 := 0; let x := getSpdm s t; let up : Prop := serving s = true;
    let ready : Prop := up ∧ x.algorithms = true;
    ready ∧ s.sec.keysErased = false ∧ index = 0) ∧
  (let s : State := { up with spdm := [(0, { version := some 0x13, algorithms := true })] };
    let t : Transport := .i3c; let index : W8 := 5; let x := getSpdm s t; let up : Prop := serving s = true;
    let ready : Prop := up ∧ x.algorithms = true;
    ready ∧ 1 ≤ index.toNat ∧ index.toNat ≤ 5) ∧
  (let s : State := { up with spdm := [(0, { version := some 0x13, algorithms := true })] };
    let t : Transport := .i3c; let index : W8 := 6; let x := getSpdm s t; let up : Prop := serving s = true;
    let ready : Prop := up ∧ x.algorithms = true;
    ready ∧ 5 < index.toNat ∧ index ≠ 0xFF) ∧
  (let s : State := { up with spdm := [(0, { version := some 0x13, algorithms := true })], sec := { up.sec with keysErased := true } };
    let t : Transport := .i3c; let x := getSpdm s t; let up : Prop := serving s = true;
    let ready : Prop := up ∧ x.algorithms = true;
    ready ∧ s.sec.keysErased = true) ∧
  (let s : State := { up with pins := { up.pins with bootFailed := true } }; let img : List W8 := fwBytes;
    let d : Bool := true; let g : Bool := true; let image := fwImage img d g;
    deviceUp s = true ∧ s.pins.bootFailed = true ∧ fwFault s.sec image = none) ∧
  (let s : State := up; let q : CmdReq := (req [3]); let up : Prop := serving s = true;
    let tap : Prop := tapServes s = true;
    tap ∧ up ∧ q.version = 1 ∧ argsBad q [3] = false ∧ arg q 0 = 3) ∧
  (let s : State := sess 2 up; let tap : Prop := tapServes s = true;
    tap ∧ 2 ≤ debugLevel s) ∧
  (let s : State := { up with tap := { held := true } };
    s.pins.rails = true ∧ s.tap.held = true) := by
  dsimp only [Rdy]
  repeat' first | decide +kernel | constructor

theorem test_meets_PowerAndResets :
  (let s : State := up; let up : Prop := serving s = true;
    let warms : Prop := deviceUp s = true ∧ s.spine.warms ≠ 0xFFFF;
    up ∧ s.pwr.therm = 0 ∧ s.pwr.therm ≠ 2 ∧ s.pwr.st = .run ∧ s.pwr.moving = false ∧ syncSlates s = [] ∧
    s.pins.rails = true ∧ (s.pins.rails = true ∨ s.pins.thermTripN = false) ∧ MemOk s ∧ s.ledger.entries = [] ∧ warms) ∧
  (let s : State := { up with pwr := { therm := 2, forced := true, st := .hold } };
    let up : Prop := serving s = true;
    up ∧ s.pwr.therm = 2 ∧ s.pwr.forced = true ∧ s.pwr.st = .hold ∧ s.pwr.moving = false ∧
    s.pins.spineFailed = false ∧ s.pins.bootFailed = false) ∧
  (let s : State := { up with pwr := { therm := 1 } }; let up : Prop := serving s = true;
    up ∧ s.pwr.therm = 1 ∧ s.pwr.forced = false) ∧
  (let s : State := { up with pins := { up.pins with rails := false } };
    s.pins.rails = false ∧ s.pins.thermTripN = true) ∧
  (let s : State := { up with pins := { up.pins with inReset := true } }; let b : Bool := false;
    s.pins.rails = true ∧ s.pins.pwrgd = true ∧ s.pins.inReset = true ∧ bootSlot s.sec = some b ∧
    s.sec.keysErased = false ∧ s.sec.lifecycle ≠ .blank) ∧
  (let s : State := { up with pins := { up.pins with inReset := true }, sec := {} };
    s.pins.rails = true ∧ s.pins.pwrgd = true ∧ s.pins.inReset = true ∧ bootSlot s.sec = none) := by
  dsimp only [Rdy]
  repeat' first | decide +kernel | constructor

end Sys2Proof.Tests
end

/-! SUPPORT. Proofs of the statements of family 00: doorbells, BAR2, AtomicOps, function resets and MSI-X (O58). -/

section HostCommandProofs

namespace Sys2Proof.Machine

/-! Functions of the state. -/

theorem getFn_modFn_ne (s : State) {f j : Nat} (g : Fn → Fn) (h : j ≠ f) : getFn (modFn s f g) j = getFn s j :=
  getFn_putFn_ne s f j _ h

@[simp] theorem modFn_modFn_same (s : State) (f : Nat) (g h : Fn → Fn) :
    modFn (modFn s f g) f h = modFn s f (fun x => h (g x)) := by
  simp [modFn, putFn, getFn]

@[simp] theorem serving_modFn (s : State) (f : Nat) (g : Fn → Fn) : serving (modFn s f g) = serving s := rfl

@[simp] theorem acceptWaits_modFn (s : State) (f : Nat) (g : Fn → Fn) : acceptWaits (modFn s f g) = acceptWaits s := rfl

/-- A translation depends on the contexts and on the bindings of beads and brushes alone (R314). -/
theorem translate_congr {s t : State} (hc : t.ctxs = s.ctxs) (hb : t.beads = s.beads) (hk : t.brushes = s.brushes)
    (c : Option Nat) (va : Nat) (w : Bool) : translate t c va w = translate s c va w := by
  have h1 : getCtx t = getCtx s := by funext i; rw [getCtx, getCtx, hc]
  have h2 : getBead t = getBead s := by funext i; rw [getBead, getBead, hb]
  have h3 : getBrush t = getBrush s := by funext i; rw [getBrush, getBrush, hk]
  unfold translate
  rw [h1, h2, h3]

theorem hbmOf_congr {s t : State} (hc : t.ctxs = s.ctxs) (hb : t.beads = s.beads) (hk : t.brushes = s.brushes)
    (c va : Nat) : hbmOf t c va = hbmOf s c va := by
  rw [hbmOf, hbmOf, translate_congr hc hb hk]

theorem ctxBytes_congr {s t : State} (hc : t.ctxs = s.ctxs) (hb : t.beads = s.beads) (hk : t.brushes = s.brushes)
    (hm : t.mem = s.mem) (c va n : Nat) : ctxBytes t c va n = ctxBytes s c va n := by
  have h1 : hbmOf t = hbmOf s := funext fun c => funext fun va => hbmOf_congr hc hb hk c va
  have h2 : loadBytes t = loadBytes s := by funext a n; rw [loadBytes, loadBytes, hm]
  rw [ctxBytes, ctxBytes, h1, h2]

@[simp] theorem ringEntry_modFn (s : State) (f : Nat) (g : Fn → Fn) (b : Binding) (n : Nat) :
    ringEntry (modFn s f g) b n = ringEntry s b n := by
  rw [ringEntry, ringEntry, ctxBytes_congr (modFn_ctxs s f g) (modFn_beads s f g) (modFn_brushes s f g) (modFn_mem s f g)]

/-! Events (R333): what they leave of a function, and that they touch the functions alone. -/

/-- A function without what a posted event may change: its event well, its vectors and its writes to host memory. -/
def apartFromEvents (x : Fn) : Fn :=
  { x with out := [], eqTail := 0, eqLost := 0, lostOwed := false, raised := [], pba := 0 }

theorem raiseVector_apart (x : Fn) (v : Fin 128) : apartFromEvents (raiseVector x v) = apartFromEvents x := by
  unfold raiseVector
  split <;> rfl

theorem writeEvent_apart (x : Fn) (b : Binding) (e : EventRec) : apartFromEvents (writeEvent x b e) = apartFromEvents x :=
  raiseVector_apart _ _

theorem payLost_apart (x : Fn) (e : EventRec) : apartFromEvents (payLost x e) = apartFromEvents x := by
  unfold payLost
  split
  · split
    · exact writeEvent_apart x _ _
    · rfl
  · rfl

theorem deliverEvent_apart (x : Fn) (e : EventRec) : apartFromEvents (deliverEvent x e) = apartFromEvents x := by
  unfold deliverEvent
  split
  · rfl
  · simp only
    split
    · rw [writeEvent_apart, payLost_apart]
    · exact payLost_apart x e

/-- An event may change the functions, and nothing else. -/
theorem sendEvent_frame (s : State) (about : Nat) (e : EventRec) : ∃ l, sendEvent s about e = { s with fns := l } := by
  unfold sendEvent
  induction List.range 16 generalizing s with
  | nil => exact ⟨s.fns, rfl⟩
  | cons f fs ih =>
    rw [List.foldl_cons]
    split
    · obtain ⟨l, hl⟩ := ih (modFn s f (fun x => deliverEvent x e))
      exact ⟨l, hl⟩
    · exact ih s

theorem getFn_sendEvent_apart (s : State) (about : Nat) (e : EventRec) (j : Nat) :
    apartFromEvents (getFn (sendEvent s about e) j) = apartFromEvents (getFn s j) := by
  unfold sendEvent
  induction List.range 16 generalizing s with
  | nil => rfl
  | cons f fs ih =>
    rw [List.foldl_cons, ih]
    split
    · by_cases h : j = f
      · subst h
        rw [getFn_modFn_same, deliverEvent_apart]
      · rw [getFn_modFn_ne s _ h]
    · rfl

/-- Posting an event draws its severity and may change the functions. -/
theorem postEvent_frame (s : State) (kind about slate ctx : Nat) (detail : List W32) :
    ∃ l, postEvent s kind about slate ctx detail = { s with fns := l, freeCtr := s.freeCtr + 1 } :=
  sendEvent_frame (freeBits s).2 _ _

@[simp] theorem postEvent_mem (s : State) (kind about slate ctx : Nat) (detail : List W32) :
    (postEvent s kind about slate ctx detail).mem = s.mem := by
  obtain ⟨l, h⟩ := postEvent_frame s kind about slate ctx detail
  rw [h]

@[simp] theorem postEvent_ctxs (s : State) (kind about slate ctx : Nat) (detail : List W32) :
    (postEvent s kind about slate ctx detail).ctxs = s.ctxs := by
  obtain ⟨l, h⟩ := postEvent_frame s kind about slate ctx detail
  rw [h]

@[simp] theorem postEvent_ledger (s : State) (kind about slate ctx : Nat) (detail : List W32) :
    (postEvent s kind about slate ctx detail).ledger = s.ledger := by
  obtain ⟨l, h⟩ := postEvent_frame s kind about slate ctx detail
  rw [h]

theorem getFn_postEvent_apart (s : State) (kind about slate ctx : Nat) (detail : List W32) (j : Nat) :
    apartFromEvents (getFn (postEvent s kind about slate ctx detail) j) = apartFromEvents (getFn s j) :=
  getFn_sendEvent_apart (freeBits s).2 _ _ j

/-! The submission ring (R326 to R328). -/

/-- The sequence number that the words of a ring entry give (R326). -/
def entrySeq (ws : List W32) : BitVec 48 :=
  BitVec.ofNat 48 (((ws[0]?).getD 0).toNat + fld ((ws[1]?).getD 0).toNat 15 0 * 2 ^ 32)

/-- A halt records itself and its reason, and reports an event (R327). -/
theorem getFn_haltRing_apart (s : State) (f reason ctx : Nat) (seq : BitVec 48) :
    apartFromEvents (getFn (haltRing s f reason ctx seq) f)
      = apartFromEvents { getFn s f with halt := true, reason := BitVec.ofNat 8 reason } := by
  unfold haltRing
  rw [getFn_postEvent_apart, getFn_modFn_same]

@[simp] theorem haltRing_ledger (s : State) (f reason ctx : Nat) (seq : BitVec 48) :
    (haltRing s f reason ctx seq).ledger = s.ledger :=
  postEvent_ledger _ _ _ _ _ _

theorem haltRing_halt (s : State) (f reason ctx : Nat) (seq : BitVec 48) :
    (getFn (haltRing s f reason ctx seq) f).halt = true :=
  congrArg Fn.halt (getFn_haltRing_apart s f reason ctx seq)

theorem haltRing_reason (s : State) (f reason ctx : Nat) (seq : BitVec 48) :
    (getFn (haltRing s f reason ctx seq) f).reason = BitVec.ofNat 8 reason :=
  congrArg Fn.reason (getFn_haltRing_apart s f reason ctx seq)

theorem haltRing_sqHead (s : State) (f reason ctx : Nat) (seq : BitVec 48) :
    (getFn (haltRing s f reason ctx seq) f).sqHead = (getFn s f).sqHead :=
  have h := congrArg Fn.sqHead (getFn_haltRing_apart s f reason ctx seq)
  h

theorem takeEntries_caught_up (fn : Fin 16) (b : Binding) (n : Nat) {s : State}
    (h : (getFn s fn.val).sqHead = (getFn s fn.val).sqTail) : takeEntries fn b n s = s := by
  cases n with
  | zero => rfl
  | succ n => simp [takeEntries, h]

theorem takeEntries_accepts (fn : Fin 16) (b : Binding) (n : Nat) {s : State} {ws : List W32}
    (hne : (getFn s fn.val).sqHead ≠ (getFn s fn.val).sqTail)
    (hws : ringEntry s b (getFn s fn.val).sqHead.toNat = ws)
    (hseq : entrySeq ws = (getFn s fn.val).ring.next) (h0 : entrySeq ws ≠ 0) (hacc : acceptWaits s = false) :
    takeEntries fn b (n + 1) s = takeEntries fn b n (acceptJob s fn ws (entrySeq ws)) := by
  subst hws
  unfold entrySeq at *
  simp only [takeEntries, if_neg hne, if_neg h0, if_pos hseq, hacc]
  rw [if_neg (by rw [hseq]; exact BitVec.lt_irrefl _)]
  rfl

theorem takeEntries_waits (fn : Fin 16) (b : Binding) (n : Nat) {s : State} {ws : List W32}
    (hne : (getFn s fn.val).sqHead ≠ (getFn s fn.val).sqTail)
    (hws : ringEntry s b (getFn s fn.val).sqHead.toNat = ws)
    (hseq : entrySeq ws = (getFn s fn.val).ring.next) (h0 : entrySeq ws ≠ 0) (hacc : acceptWaits s = true) :
    takeEntries fn b (n + 1) s = modFn s fn.val (fun x => { x with waiting := true }) := by
  subst hws
  unfold entrySeq at *
  simp only [takeEntries, if_neg hne, if_neg h0, if_pos hseq, hacc]
  rw [if_neg (by rw [hseq]; exact BitVec.lt_irrefl _)]
  rfl

theorem takeEntries_gap (fn : Fin 16) (b : Binding) (n : Nat) {s : State} {ws : List W32}
    (hne : (getFn s fn.val).sqHead ≠ (getFn s fn.val).sqTail)
    (hws : ringEntry s b (getFn s fn.val).sqHead.toNat = ws) (hgap : (getFn s fn.val).ring.next < entrySeq ws) :
    takeEntries fn b (n + 1) s = haltRing s fn.val 1 b.ctx.val (entrySeq ws) := by
  subst hws
  have h0 : entrySeq (ringEntry s b (getFn s fn.val).sqHead.toNat) ≠ 0 := fun h => by
    rw [h] at hgap
    exact absurd hgap (by simp)
  unfold entrySeq at *
  simp only [takeEntries, if_neg hne, if_neg h0, if_pos hgap]

theorem takeBatches_caught_up (fn : Fin 16) (b : Binding) (n : Nat) {s : State}
    (h : (getFn s fn.val).sqHead = (getFn s fn.val).sqTail) : takeBatches fn b n s = s := by
  cases n with
  | zero => rfl
  | succ n => simp [takeBatches, takeEntries_caught_up fn b 64 h]

/-- A batch that takes no entry is the last one (R328). -/
theorem takeBatches_stays (fn : Fin 16) (b : Binding) (n : Nat) {s u : State} (hu : takeEntries fn b 64 s = u)
    (h : (getFn u fn.val).sqHead = (getFn s fn.val).sqHead) : takeBatches fn b (n + 1) s = u := by
  simp [takeBatches, hu, h]

/-- A batch that takes the last entry ends with the status block (R328). -/
theorem takeBatches_finishes (fn : Fin 16) (b : Binding) (n : Nat) {s u : State} (hu : takeEntries fn b 64 s = u)
    (hne : (getFn u fn.val).sqHead ≠ (getFn s fn.val).sqHead)
    (hlast : (getFn u fn.val).sqHead = (getFn u fn.val).sqTail) :
    takeBatches fn b (n + 1) s = writeStatus u fn.val b := by
  have hst : (getFn (writeStatus u fn.val b) fn.val).sqHead = (getFn (writeStatus u fn.val b) fn.val).sqTail := by
    simpa [writeStatus] using hlast
  simp [takeBatches, hu, hne, takeBatches_caught_up fn b n hst]

/-- A function whose tail has just been written: its ring resumes (R327). -/
def resumed (v : W32) (x : Fn) : Fn := { x with sqTail := v, halt := false, reason := 0, waiting := false }

/-- A possible tail is stored and the ring served (R317, R327). -/
theorem writeSqTail_serves {s : State} {fn : Fin 16} {v : W32} {b : Binding} (hs : serving s = true)
    (hb : (getFn s fn.val).bind = some b) (hv : (v - (getFn s fn.val).sqHead).toNat ≤ 2 ^ b.sqLog) :
    writeSqTail s fn v = takeBatches fn b (2 ^ b.sqLog / 64 + 1) (modFn s fn.val (resumed v)) := by
  simp [writeSqTail, hb, hs, Nat.not_lt.2 hv, serveRing, -BitVec.toNat_sub]
  rfl

/-- An impossible tail halts the ring (R327). -/
theorem writeSqTail_beyond {s : State} {fn : Fin 16} {v : W32} {b : Binding} (hs : serving s = true)
    (hb : (getFn s fn.val).bind = some b) (hv : 2 ^ b.sqLog < (v - (getFn s fn.val).sqHead).toNat) :
    writeSqTail s fn v
      = haltRing (modFn s fn.val (fun x => { x with sqTail := v, halt := false, reason := 0 })) fn.val 3 b.ctx.val 0 := by
  simp [writeSqTail, hb, hs, hv, -BitVec.toNat_sub]

/-! The tail write, by what its entry is (R327, R328, R334). -/

/-- A function whose ring has given up an entry of a sequence number to the ledger (R327). -/
def entryTaken (seq : BitVec 48) (x : Fn) : Fn :=
  { x with sqHead := x.sqHead + 1, accShown := seq, ring := { x.ring with next := x.ring.next + 1, accepted := seq } }

@[simp] theorem getFn_acceptJob (s : State) (fn : Fin 16) (ws : List W32) (seq : BitVec 48) :
    getFn (acceptJob s fn ws seq) fn.val = entryTaken seq (getFn s fn.val) :=
  getFn_modFn_same _ _ _

@[simp] theorem acceptJob_ledger (s : State) (fn : Fin 16) (ws : List W32) (seq : BitVec 48) :
    (acceptJob s fn ws seq).ledger
      = { s.ledger with entries := makeSlot s.ledger.entries ++ [{ fn := fn, seq := seq, words := ws }] } := rfl

/-- The status block joins the function's writes to host memory (R328). -/
@[simp] theorem getFn_writeStatus (s : State) (f : Nat) (b : Binding) :
    getFn (writeStatus s f b) f = { getFn s f with out := (getFn s f).out
      ++ [⟨b.rsbBus, seqWords (getFn s f).ring.accepted ++ [(getFn s f).sqHead, s.ledger.epoch.zeroExtend 32]⟩] } :=
  getFn_modFn_same _ _ _

@[simp] theorem writeStatus_ledger (s : State) (f : Nat) (b : Binding) : (writeStatus s f b).ledger = s.ledger := rfl

section TailOfOneEntry
variable {s : State} {fn : Fin 16} {b : Binding} {ws : List W32}

/-- A tail one past the head is no further than the ring's size. -/
theorem tail_one_fits (h : W32) (k : Nat) : (h + 1 - h).toNat ≤ 2 ^ k := by
  have e : h + 1 - h = 1 := by bv_omega
  rw [e]
  exact Nat.one_le_two_pow

theorem succ_ne_self (h : W32) : h + 1 ≠ h := by bv_omega

theorem resumed_behind (s : State) (f : Nat) (v : W32) (h : v = (getFn s f).sqHead + 1) :
    (getFn (modFn s f (resumed v)) f).sqHead ≠ (getFn (modFn s f (resumed v)) f).sqTail := by
  rw [getFn_modFn_same, h]
  exact (succ_ne_self _).symm

/-- The next entry of the ring, in sequence, goes into the ledger, and the status block is written. -/
theorem writeSqTail_accepts {v : W32} (hs : serving s = true) (hb : (getFn s fn.val).bind = some b)
    (hv : v = (getFn s fn.val).sqHead + 1) (hws : ringEntry s b (getFn s fn.val).sqHead.toNat = ws)
    (hseq : entrySeq ws = (getFn s fn.val).ring.next) (h0 : entrySeq ws ≠ 0) (hacc : acceptWaits s = false) :
    writeSqTail s fn v = writeStatus (acceptJob (modFn s fn.val (resumed v)) fn ws (entrySeq ws)) fn.val b := by
  have htake : takeEntries fn b 64 (modFn s fn.val (resumed v)) = _ :=
    takeEntries_accepts fn b 63 (ws := ws) (resumed_behind s fn.val v hv) (by simp [resumed, hws])
      (by simpa [resumed] using hseq) h0 (by simpa using hacc)
  have hlast : (entryTaken (entrySeq ws) (resumed v (getFn s fn.val))).sqHead
      = (entryTaken (entrySeq ws) (resumed v (getFn s fn.val))).sqTail := hv.symm
  rw [takeEntries_caught_up fn b 63 (by simpa using hlast)] at htake
  rw [writeSqTail_serves hs hb (by rw [hv]; exact tail_one_fits _ _)]
  exact takeBatches_finishes fn b _ htake (by simp [resumed, entryTaken]) (by simpa using hlast)

/-- The next entry of the ring waits at its head while acceptance waits. -/
theorem writeSqTail_waits {v : W32} (hs : serving s = true) (hb : (getFn s fn.val).bind = some b)
    (hv : v = (getFn s fn.val).sqHead + 1) (hws : ringEntry s b (getFn s fn.val).sqHead.toNat = ws)
    (hseq : entrySeq ws = (getFn s fn.val).ring.next) (h0 : entrySeq ws ≠ 0) (hacc : acceptWaits s = true) :
    writeSqTail s fn v = modFn s fn.val (fun x => { resumed v x with waiting := true }) := by
  have htake : takeEntries fn b 64 (modFn s fn.val (resumed v)) = _ :=
    takeEntries_waits fn b 63 (ws := ws) (resumed_behind s fn.val v hv) (by simp [resumed, hws])
      (by simpa [resumed] using hseq) h0 (by simpa using hacc)
  rw [modFn_modFn_same] at htake
  rw [writeSqTail_serves hs hb (by rw [hv]; exact tail_one_fits _ _)]
  exact takeBatches_stays fn b _ htake (by simp)

/-- A gap in the sequence halts the ring. -/
theorem writeSqTail_gap {v : W32} (hs : serving s = true) (hb : (getFn s fn.val).bind = some b)
    (hv : v = (getFn s fn.val).sqHead + 1) (hws : ringEntry s b (getFn s fn.val).sqHead.toNat = ws)
    (hgap : (getFn s fn.val).ring.next < entrySeq ws) :
    writeSqTail s fn v = haltRing (modFn s fn.val (resumed v)) fn.val 1 b.ctx.val (entrySeq ws) := by
  have htake : takeEntries fn b 64 (modFn s fn.val (resumed v)) = _ :=
    takeEntries_gap fn b 63 (ws := ws) (resumed_behind s fn.val v hv) (by simp [resumed, hws])
      (by simpa [resumed] using hgap)
  rw [writeSqTail_serves hs hb (by rw [hv]; exact tail_one_fits _ _)]
  exact takeBatches_stays fn b _ htake (haltRing_sqHead _ _ _ _ _)

end TailOfOneEntry

/-! The heads of the completion ring and the event well (R331, R333). -/

/-- The completion head is stored, and the jobs whose record it passes are Retired (R331). -/
theorem writeCqHead_retires {s : State} {fn : Fin 16} {b : Binding} (v : W32) (hs : serving s = true)
    (hb : (getFn s fn.val).bind = some b) :
    writeCqHead s fn v = { modFn s fn.val (fun x => { x with cqHead := v }) with
      ledger := { s.ledger with entries := s.ledger.entries.map (fun e => if e.fn = fn ∧ e.state = .reported
            ∧ e.record.any (fun r => r - (getFn s fn.val).cqHead < v - (getFn s fn.val).cqHead)
            then { e with state := .retired } else e) } } := by
  unfold writeCqHead
  simp only [hb, hs, Option.isNone_some, Bool.not_true, Bool.or_self, Bool.false_eq_true, if_false, modFn_ledger]
  congr 3
  funext e
  cases e.record <;> rfl

/-- With no LOST event owed, nothing is paid (R333). -/
theorem payLost_none {x : Fn} (e : EventRec) (h : x.lostOwed = false) : payLost x e = x := by
  unfold payLost
  split
  · rw [h, Bool.false_and, if_neg Bool.false_ne_true]
  · rfl

/-- With room in the event well, the LOST event owed is written (R333). -/
theorem payLost_owed {x : Fn} {b : Binding} (e : EventRec) (hb : x.bind = some b) (h : x.lostOwed = true)
    (hr : eqRoom x b 1 = true) :
    payLost x e = { writeEvent x b { kind := 0x0B, severity := e.severity, stamp := e.stamp, detail := [x.eqLost] } with
      lostOwed := false } := by
  simp [payLost, hb, h, hr]

theorem raiseVector_out (x : Fn) (v : Fin 128) : (raiseVector x v).out = x.out := by
  unfold raiseVector
  split <;> rfl

theorem raiseVector_eqTail (x : Fn) (v : Fin 128) : (raiseVector x v).eqTail = x.eqTail := by
  unfold raiseVector
  split <;> rfl

theorem writeEvent_eqTail (x : Fn) (b : Binding) (e : EventRec) : (writeEvent x b e).eqTail = x.eqTail + 1 :=
  raiseVector_eqTail _ _

theorem writeEvent_out_length (x : Fn) (b : Binding) (e : EventRec) :
    (writeEvent x b e).out.length = x.out.length + 1 := by
  unfold writeEvent
  rw [raiseVector_out]
  exact List.length_append

theorem writeEvent_eqHead (x : Fn) (b : Binding) (e : EventRec) : (writeEvent x b e).eqHead = x.eqHead := by
  have h := congrArg Fn.eqHead (writeEvent_apart x b e)
  exact h

/-- The event well's head is stored, and then the LOST event is paid where it is owed (R333). -/
theorem getFn_writeEqHead {s : State} {fn : Fin 16} {b : Binding} (v : W32) (hs : serving s = true)
    (hb : (getFn s fn.val).bind = some b) :
    ∃ e, getFn (writeEqHead s fn v) fn.val = payLost { getFn s fn.val with eqHead := v } e := by
  refine ⟨{ kind := 0x0B, severity := (freeBits s).1.toNat % 3, stamp := stampNow (freeBits s).2 }, ?_⟩
  unfold writeEqHead
  rw [if_neg (by simp [hb, hs])]
  exact getFn_modFn_same _ _ _

theorem writeEqHead_mem (s : State) (fn : Fin 16) (v : W32) : (writeEqHead s fn v).mem = s.mem := by
  unfold writeEqHead
  split <;> rfl

/-! BAR2 (R309 to R311, R316). -/

theorem regionOf_of_inHbm {a : Nat} (h : inHbm a = true) : ∃ k o, regionOf a = .hbm k o := by
  unfold inHbm at h
  split at h
  · next k o e => exact ⟨k, o, e⟩
  · cases h

/-- A write at a place in HBM without a mirror (R345). -/
theorem apertureWrite_hbm (s : State) {x : Xlat} (bs : List W8) (hm : x.mirror = none) (h : inHbm x.pa = true) :
    apertureWrite s x bs = storeBytes s x.pa bs := by
  obtain ⟨k, o, e⟩ := regionOf_of_inHbm h
  simp [apertureWrite, e, hbmWrite, hm]

/-- HBM without a parity error gives its bytes (R345). -/
theorem hbmRead_good {s : State} {pa n : Nat} (mirror : Option Nat) (h : parityFind s.parity pa n = none) :
    hbmRead s pa n mirror false = (some (loadBytes s pa n), s) := by
  simp [hbmRead, h]

theorem apertureRead_hbm {s : State} {x : Xlat} {n : Nat} (h : inHbm x.pa = true)
    (hp : parityFind s.parity x.pa n = none) : apertureRead s x n = (some (loadBytes s x.pa n), s) := by
  obtain ⟨k, o, e⟩ := regionOf_of_inHbm h
  simp [apertureRead, e, hbmRead_good x.mirror hp]

@[simp] theorem apertureFault_mem (s : State) (f : Nat) (off : BitVec 48) (w : Bool) :
    (apertureFault s f off w).mem = s.mem :=
  postEvent_mem _ _ _ _ _ _

/-- An aperture fault is recorded where none stands, and reported (R316). -/
theorem getFn_apertureFault_apart (s : State) (f : Nat) (off : BitVec 48) (w : Bool) :
    apartFromEvents (getFn (apertureFault s f off w) f)
      = apartFromEvents { getFn s f with apFault := (getFn s f).apFault.orElse (fun _ => some (w, off)) } := by
  unfold apertureFault
  rw [getFn_postEvent_apart, getFn_modFn_same]

theorem apertureFault_read (s : State) (f : Nat) (off : BitVec 48) (w : Bool) :
    (getFn (apertureFault s f off w) f).read = (getFn s f).read := by
  have h := congrArg Fn.read (getFn_apertureFault_apart s f off w)
  exact h

theorem apertureFault_recorded {s : State} {f : Nat} (off : BitVec 48) (w : Bool) (h : (getFn s f).apFault = none) :
    (getFn (apertureFault s f off w) f).apFault = some (w, off) := by
  have e := congrArg Fn.apFault (getFn_apertureFault_apart s f off w)
  rw [show (apartFromEvents (getFn (apertureFault s f off w) f)).apFault = (getFn (apertureFault s f off w) f).apFault
    from rfl] at e
  rw [e]
  show (getFn s f).apFault.orElse _ = _
  rw [h]
  rfl

theorem exec_bar2Access (t : FnTlp) (off : BitVec 48) (w : Option (List W8)) (len : Fin 65) (s : State) :
    exec (.bar2Access t off w len) s = execBar2Access t off w len s := rfl

section Bar2
variable {s : State} {fn : Fin 16} {off : BitVec 48} {x : Xlat} (bs : List W8) (len : Fin 65)

theorem bar2_write_mapped (hu : deviceUp s = true) (hi : inBar2 s fn.val off bs.length = true)
    (ha : apertureAt s fn.val off bs.length true = some x) :
    exec (.bar2Access ⟨fn, .good⟩ off (some bs) len) s = .next (apertureWrite s x bs) := by
  simp [exec_bar2Access, execBar2Access, hu, hi, ha]

theorem bar2_read_mapped {l : List W8} (hu : deviceUp s = true) (hi : inBar2 s fn.val off len.val = true)
    (ha : apertureAt s fn.val off len.val false = some x) (hr : apertureRead s x len.val = (some l, s)) :
    exec (.bar2Access ⟨fn, .good⟩ off none len) s = .next (modFn s fn.val (fun y => { y with read := l })) := by
  simp [exec_bar2Access, execBar2Access, hu, hi, ha, hr]

theorem bar2_write_unmapped (hu : deviceUp s = true) (hi : inBar2 s fn.val off bs.length = true)
    (ha : apertureAt s fn.val off bs.length true = none) :
    exec (.bar2Access ⟨fn, .good⟩ off (some bs) len) s = .next (apertureFault s fn.val off true) := by
  simp [exec_bar2Access, execBar2Access, hu, hi, ha]

theorem bar2_read_unmapped (hu : deviceUp s = true) (hi : inBar2 s fn.val off len.val = true)
    (ha : apertureAt s fn.val off len.val false = none) :
    exec (.bar2Access ⟨fn, .good⟩ off none len) s
      = .next (apertureFault (modFn s fn.val (fun y => { y with read := List.replicate len.val 0 })) fn.val off false) := by
  simp [exec_bar2Access, execBar2Access, hu, hi, ha]

theorem bar2_read_outside (hu : deviceUp s = true) (hi : inBar2 s fn.val off len.val = false) :
    exec (.bar2Access ⟨fn, .good⟩ off none len) s = .next (completeUr s fn.val none) := by
  simp [exec_bar2Access, execBar2Access, hu, hi]

/-- A damaged packet is discarded, whatever it asks for (R309, R310). -/
theorem bar2_discards (w : Option (List W8)) {t : Tlp} {u : State} (hu : deviceUp s = true)
    (hd : discardTlp s fn.val t = some u) : exec (.bar2Access ⟨fn, t⟩ off w len) s = .next u := by
  rw [exec_bar2Access]
  cases t with
  | good => cases hd
  | poisoned => simp [execBar2Access, hu, hd]
  | badEcrc => simp [execBar2Access, hu, hd]

end Bar2

/-! Requests that complete as Unsupported, and packets that are discarded (R309). -/

theorem setAer_aer (s : State) (f : Nat) (bit : W32) : (getFn (setAer s f bit) f).aer = (getFn s f).aer ||| bit := by
  simp [setAer]

theorem completeUr_aer (s : State) (f : Nat) (v : Option W64) : (getFn (completeUr s f v) f).aer.getLsbD 20 = true := by
  simp [completeUr, setAer_aer, aerUnsupported]

theorem completeUr_mem (s : State) (f : Nat) (v : Option W64) : (completeUr s f v).mem = s.mem := rfl

theorem completeUr_unsupported (s : State) (f : Nat) (v : Option W64) :
    (completeUr s f v).answers.unsupported = true := rfl

/-- A poisoned packet leaves its AER bit and one record of the error log, which no event accompanies (R309, R359). -/
theorem discardTlp_poisoned (s : State) (f : Nat) :
    ∃ r, discardTlp s f .poisoned = some (logRecord (setAer (freeBits s).2 f aerPoisoned) r) :=
  ⟨_, rfl⟩

theorem getFn_logRecord (s : State) (r : LogRec) (f : Nat) : getFn (logRecord s r) f = getFn s f := rfl

/-! AtomicOps (R309, R310). -/

theorem ofBytes_lt (bs : List W8) : ofBytes bs < 256 ^ bs.length := by
  induction bs with
  | nil => decide
  | cons b bs ih =>
    have hb : b.toNat < 256 := b.isLt
    rw [ofBytes, List.length_cons, Nat.pow_succ]
    omega

theorem loadNat_lt (s : State) (a : Nat) : loadNat s a 8 < 2 ^ 64 := by
  have h := ofBytes_lt (loadBytes s a 8)
  rw [loadBytes_length] at h
  exact h

theorem atomicValue_fetchAdd (old : Nat) (a b : W64) :
    atomicValue .fetchAdd 64 old a.toNat b.toNat = (BitVec.ofNat 64 old + a).toNat := by
  simp [atomicValue]

theorem atomicValue_swap (old : Nat) (a b : W64) : atomicValue .swap 64 old a.toNat b.toNat = a.toNat :=
  Nat.mod_eq_of_lt a.isLt

theorem atomicValue_cas {old : Nat} (a b : W64) (ho : old < 2 ^ 64) :
    atomicValue .cas 64 old a.toNat b.toNat = if BitVec.ofNat 64 old = a then b.toNat else old := by
  have hc : (BitVec.ofNat 64 old = a) ↔ old = a.toNat := by
    rw [← BitVec.toNat_inj, BitVec.toNat_ofNat, Nat.mod_eq_of_lt ho]
  simp only [atomicValue, hc, Nat.mod_eq_of_lt a.isLt, Nat.mod_eq_of_lt b.isLt]

theorem exec_atomicop (t : FnTlp) (off : BitVec 48) (op : PcieAtomic) (wide : Bool) (a b : W64) (s : State) :
    exec (.atomicop t off op wide a b) s = execAtomicop t off op wide a b s := rfl

section AtomicOps
variable {s : State} {fn : Fin 16} {off : BitVec 48} {x : Xlat} (op : PcieAtomic) (a b : W64)

/-- An AtomicOp in HBM without a mirror stores its result and answers the old value. -/
theorem atomicop_performs (hu : deviceUp s = true) (hi : inBar2 s fn.val off 8 = true)
    (hr : apertureAt s fn.val off 8 false = some x) (hw : apertureAt s fn.val off 8 true ≠ none)
    (hm : x.mirror = none) (hx : inHbm x.pa = true) (hp : parityFind s.parity x.pa 8 = none) :
    exec (.atomicop ⟨fn, .good⟩ off op true a b) s
      = .next { storeBytes s x.pa (toBytes 8 (atomicValue op 64 (loadNat s x.pa 8) a.toNat b.toNat)) with
          answers := { s.answers with atomic := some (BitVec.ofNat 64 (loadNat s x.pa 8)), unsupported := false } } := by
  obtain ⟨y, hy⟩ := Option.ne_none_iff_exists'.1 hw
  simp [exec_atomicop, execAtomicop, hu, hi, hr, hy, hx, hbmRead_good none hp, hbmWrite, hm, loadNat, storeBytes]

/-- An AtomicOp on a page that is not HBM completes with Unsupported Request. -/
theorem atomicop_elsewhere (hu : deviceUp s = true) (hi : inBar2 s fn.val off 8 = true)
    (hr : apertureAt s fn.val off 8 false = some x) (hw : apertureAt s fn.val off 8 true ≠ none)
    (hx : inHbm x.pa = false) :
    exec (.atomicop ⟨fn, .good⟩ off op true a b) s = .next (completeUr s fn.val none) := by
  obtain ⟨y, hy⟩ := Option.ne_none_iff_exists'.1 hw
  simp [exec_atomicop, execAtomicop, hu, hi, hr, hy, hx]

end AtomicOps

/-! What a debug release touches: the beads, and the Slates that their credits return to (R90, R248). -/

/-- One state follows from another by work on beads and Slates alone. -/
def BeadWork (s t : State) : Prop := ∃ bs ts, t = { s with beads := bs, slates := ts }

theorem BeadWork.refl (s : State) : BeadWork s s := ⟨s.beads, s.slates, rfl⟩

theorem BeadWork.trans {s t u : State} (h : BeadWork s t) (k : BeadWork t u) : BeadWork s u := by
  obtain ⟨bs, ts, rfl⟩ := h
  obtain ⟨bs', ts', rfl⟩ := k
  exact ⟨bs', ts', rfl⟩

theorem BeadWork.foldl {α : Type} {f : State → α → State} (h : ∀ s a, BeadWork s (f s a)) (l : List α) (s : State) :
    BeadWork s (l.foldl f s) := by
  induction l generalizing s with
  | nil => exact .refl s
  | cons a l ih => exact (h s a).trans (ih (f s a))

theorem beadWork_putBead (s : State) (i : Nat) (b : Bead) : BeadWork s (putBead s i b) := ⟨_, s.slates, rfl⟩

theorem beadWork_modBead (s : State) (i : Nat) (f : Bead → Bead) : BeadWork s (modBead s i f) := ⟨_, s.slates, rfl⟩

theorem beadWork_putHand (s : State) (i h : Nat) (x : Hand) : BeadWork s (putHand s i h x) := ⟨_, s.slates, rfl⟩

theorem beadWork_modSlate (s : State) (t : Nat) (f : Slate → Slate) : BeadWork s (modSlate s t f) := ⟨s.beads, _, rfl⟩

theorem beadWork_returnCredits (s : State) (net : Net) (i ep n : Nat) (closure : Bool) :
    BeadWork s (returnCredits s net i ep n closure) := by
  have hadd : BeadWork s (addCredits s ((List.replicate n (creditFor s net i ep closure)).flatten)) :=
    .foldl (fun s _ => beadWork_modSlate s _ _) _ s
  unfold returnCredits
  simp only
  split
  · exact hadd
  · exact hadd.trans (beadWork_modSlate _ _ _)

theorem beadWork_closeIns (s : State) (i : Nat) (sin : BitVec 8) (vin : BitVec 4) (tok : BitVec 16) :
    BeadWork s (closeIns s i sin vin tok) := by
  have back (net : Net) (n : Nat → Nat) (l : List Nat) (s : State) :
      BeadWork s (l.foldl (fun s k => returnCredits s net i k (n k) false) s) :=
    .foldl (fun s k => beadWork_returnCredits s net i k (n k) false) l s
  unfold closeIns
  exact (((back .scalar _ _ s).trans (back .vector _ _ _)).trans (back .control _ _ _)).trans (beadWork_modBead _ i _)

theorem beadWork_lockup (s : State) (i h : Nat) (cause : W8) (entry : Bool) : BeadWork s (lockup s i h cause entry) := by
  unfold lockup closeAll
  exact ((beadWork_closeIns s i _ _ _).trans (beadWork_modBead _ i _)).trans (beadWork_modBead _ i _)

theorem beadWork_noteFault (s : State) (i : Nat) (f : FaultRec) : BeadWork s (noteFault s i f) := by
  unfold noteFault
  split
  · unfold noteBank
    exact beadWork_modBead s i _
  · exact .refl s

theorem beadWork_takeInside (s : State) (i h : Nat) (spc : W32) (f : FaultRec) : BeadWork s (takeInside s i h spc f) := by
  unfold takeInside
  simp only
  split
  · exact beadWork_lockup s i h _ _
  · exact beadWork_putHand s i h _

theorem beadWork_deliverSupervisor (s : State) (i : Nat) : BeadWork s (deliverSupervisor s i) := by
  unfold deliverSupervisor
  simp only
  split
  · split
    · exact ((beadWork_putHand s i 0 _).trans (beadWork_noteFault _ i _)).trans (beadWork_takeInside _ i 0 _ _)
    · exact .refl s
  · exact .refl s

theorem beadWork_postNotice (s : State) (i : Nat) (n : Notice) : BeadWork s (postNotice s i n) := by
  unfold postNotice
  extract_lets
  split
  · exact (beadWork_putBead s i _).trans (beadWork_deliverSupervisor _ i)
  · exact beadWork_putBead s i _

theorem beadWork_takeFault (s : State) (i h : Nat) (spc : W32) (f : FaultRec) : BeadWork s (takeFault s i h spc f) := by
  unfold takeFault
  simp only
  split
  · exact (beadWork_noteFault s i f).trans (beadWork_takeInside _ i h spc f)
  · exact ((beadWork_noteFault s i f).trans (beadWork_putHand _ i h _)).trans (beadWork_postNotice _ i _)

theorem beadWork_deliverHeld (s : State) (i h : Nat) : BeadWork s (deliverHeld s i h) := by
  unfold deliverHeld
  simp only
  split
  · split
    · exact (beadWork_putHand s i h _).trans (beadWork_takeFault _ i h _ _)
    · exact .refl s
  · exact .refl s

theorem beadWork_releaseHand (s : State) (i h : Nat) : BeadWork s (releaseHand s i h) := by
  unfold releaseHand
  simp only
  split
  · exact beadWork_putHand s i h _
  · exact (beadWork_putHand s i h _).trans (beadWork_deliverHeld _ i h)
  · exact beadWork_putHand s i h _
  · exact beadWork_putHand s i h _
  · exact .refl s

theorem beadWork_releaseHalted (s : State) (p : Bead → Bool) : BeadWork s (releaseHalted s p) :=
  .foldl (fun s _ => .foldl (fun s h => beadWork_releaseHand s _ h) _ s) _ s

/-! Resets of a function (R334, R384). -/

/-- What a closed session leaves as it was (R374): memory, contexts, and of each function all that no event touches. -/
structure SessionKeeps (s t : State) : Prop where
  mem : t.mem = s.mem
  ctxs : t.ctxs = s.ctxs
  fns : ∀ f, apartFromEvents (getFn t f) = apartFromEvents (getFn s f)

theorem SessionKeeps.refl (s : State) : SessionKeeps s s := ⟨rfl, rfl, fun _ => rfl⟩

theorem closeSession_keeps (s : State) : SessionKeeps s (closeSession s) := by
  unfold closeSession
  split
  · exact .refl s
  · obtain ⟨bs, ts, h⟩ := beadWork_releaseHalted s (fun _ => true)
    simp only [h, postWide]
    exact ⟨postEvent_mem _ _ _ _ _ _, postEvent_ctxs _ _ _ _ _ _, fun f => getFn_postEvent_apart _ _ _ _ _ _ f⟩

/-- Where no session is closed, a function-level reset abandons its function's command and resets its wells (R334). -/
theorem resetFunction_plain {s : State} {f : Nat} (h : f ≠ 0 ∨ s.sec.session = none) :
    resetFunction s f = modFn (abandonCmd s f) f resetFn := by
  unfold resetFunction
  cases hs : s.sec.session with
  | none => rfl
  | some d =>
    have hf : f ≠ 0 := h.resolve_right (by simp [hs])
    simp [hf]

/-- A function-level reset, with the session that it may close first (R334, R374). -/
theorem resetFunction_after (s : State) (f : Nat) :
    ∃ t, SessionKeeps s t ∧ resetFunction s f = modFn (abandonCmd t f) f resetFn := by
  unfold resetFunction
  cases hs : s.sec.session with
  | none => exact ⟨s, .refl s, rfl⟩
  | some d =>
    simp only
    split
    · exact ⟨closeSession s, closeSession_keeps s, rfl⟩
    · exact ⟨s, .refl s, rfl⟩

/-- A function after its reset: the ring's counts and the aperture remain, and it is bound no more (R334). -/
def FnWasReset (s u : State) (k : Nat) : Prop :=
  (getFn u k).ring = (getFn s k).ring ∧ (getFn u k).aperture = (getFn s k).aperture
    ∧ (getFn u k).bind = none ∧ (getFn u k).busy = false ∧ (getFn u k).msixOn = false

theorem fnWasReset_of_apart {s u : State} {k : Nat} {x : Fn} (hu : getFn u k = resetFn x)
    (hx : apartFromEvents x = apartFromEvents (getFn s k)) : FnWasReset s u k := by
  have hring := congrArg Fn.ring hx
  have haper := congrArg Fn.aperture hx
  unfold FnWasReset
  rw [hu]
  exact ⟨hring, haper, rfl, rfl, rfl⟩

@[simp] theorem getFn_abandonCmd (s : State) (f j : Nat) : getFn (abandonCmd s f) j = getFn s j := rfl

/-- A function-level reset of any function. -/
theorem functionLevelReset_keeps (s : State) (f : Nat) :
    FnWasReset s (resetFunction s f) f ∧ (resetFunction s f).ctxs = s.ctxs ∧ (resetFunction s f).mem = s.mem := by
  obtain ⟨t, hk, h⟩ := resetFunction_after s f
  rw [h]
  exact ⟨fnWasReset_of_apart (getFn_modFn_same _ _ _) (hk.fns f), hk.ctxs, hk.mem⟩

theorem functionLevelReset_ledger {s : State} {f : Nat} (h : f ≠ 0 ∨ s.sec.session = none) :
    (resetFunction s f).ledger = s.ledger := by
  rw [resetFunction_plain h]
  rfl

/-- The first n virtual functions reset (R334). -/
def resetVfs (n : Nat) (s : State) : State := (List.range n).foldl (fun s k => resetFunction s (k + 1)) s

theorem resetVfs_succ (n : Nat) (s : State) : resetVfs (n + 1) s = resetFunction (resetVfs n s) (n + 1) := by
  simp [resetVfs, List.range_succ]

theorem getFn_resetVfs (n : Nat) (s : State) (j : Nat) :
    getFn (resetVfs n s) j = if 1 ≤ j ∧ j ≤ n then resetFn (getFn s j) else getFn s j := by
  induction n with
  | zero => rw [if_neg (by omega)]; rfl
  | succ n ih =>
    rw [resetVfs_succ, resetFunction_plain (.inl (Nat.succ_ne_zero n))]
    by_cases hj : j = n + 1
    · subst hj
      rw [getFn_modFn_same, getFn_abandonCmd, ih, if_neg (by omega), if_pos (by omega)]
    · rw [getFn_modFn_ne _ _ hj, getFn_abandonCmd, ih]
      exact if_congr (by omega) rfl rfl

theorem resetVfs_ledger (n : Nat) (s : State) : (resetVfs n s).ledger = s.ledger := by
  induction n with
  | zero => rfl
  | succ n ih => rw [resetVfs_succ, functionLevelReset_ledger (.inl (Nat.succ_ne_zero n)), ih]

/-! MSI-X (R312). -/

theorem vectorBit_getLsbD (v : Fin 128) : (BitVec.ofNat 128 (2 ^ v.val)).getLsbD v.val = true := by
  rw [BitVec.getLsbD_ofNat, Nat.testBit_two_pow_self, decide_eq_true v.isLt]
  rfl

/-- A bit that is taken out of a set of vectors is no longer in it. -/
theorem cleared_getLsbD (m : BitVec 128) (v : Fin 128) : (m &&& ~~~BitVec.ofNat 128 (2 ^ v.val)).getLsbD v.val = false := by
  rw [BitVec.getLsbD_and, BitVec.getLsbD_not, vectorBit_getLsbD]
  simp

/-- An unmasked vector that was pending is raised, while MSI-X is on (R312). -/
theorem unmask_pending {x : Fn} {v : Fin 128} (hon : x.msixOn = true) (hp : x.pba.getLsbD v.val = true) :
    unmask x v = { x with
      masked := x.masked &&& ~~~BitVec.ofNat 128 (2 ^ v.val)
      pba := x.pba &&& ~~~BitVec.ofNat 128 (2 ^ v.val)
      raised := x.raised ++ [v] } := by
  simp only [unmask, raiseVector, hon, hp, cleared_getLsbD, Bool.not_false, Bool.and_self, if_true]

/-- A vector that is not pending is unmasked and no more (R312). -/
theorem unmask_quiet {x : Fn} {v : Fin 128} (hp : x.pba.getLsbD v.val = false) :
    unmask x v = { x with masked := x.masked &&& ~~~BitVec.ofNat 128 (2 ^ v.val) } := by
  simp only [unmask, hp, Bool.and_false, Bool.false_eq_true, if_false]

/-! The commands, and the statement. -/

theorem exec_wellSqTailWrite (fn : Fin 16) (v : W32) (s : State) :
    exec (.wellSqTailWrite fn v) s = .next (writeSqTail s fn v) := rfl

theorem exec_wellCqHeadWrite (fn : Fin 16) (v : W32) (s : State) :
    exec (.wellCqHeadWrite fn v) s = .next (writeCqHead s fn v) := rfl

theorem exec_wellEqHeadWrite (fn : Fin 16) (v : W32) (s : State) :
    exec (.wellEqHeadWrite fn v) s = .next (writeEqHead s fn v) := rfl

theorem exec_functionLevelReset {s : State} (fn : Fin 16) (h : deviceUp s = true) :
    exec (.functionLevelReset fn) s = .next (resetFunction s fn.val) := by
  show execFunctionLevelReset fn s = _
  rw [execFunctionLevelReset, if_pos h]

theorem exec_vfEnableClear {s : State} (h : deviceUp s = true) :
    exec .vfEnableClear s = .next { resetVfs 15 s with vfOn := false } := by
  show execVfEnableClear s = _
  rw [execVfEnableClear, if_pos h]
  rfl

theorem exec_msixUnmask {s : State} (fn : Fin 16) (v : Fin 128) (h : deviceUp s = true) :
    exec (.msixUnmask fn v) s = .next (modFn s fn.val (fun x => unmask { x with msixOn := true } v)) := by
  show execMsixUnmask fn v s = _
  simp [execMsixUnmask, h]

/-- Settles O58: each clause is the equation of its command for the case that it names. -/
theorem hostCommands : Obligations.HostCommands := by
  unfold Obligations.HostCommands
  intro s fn v b off bs len x op va vb vec g f y ws seq bound one at_ plain n old inside counts
  refine ⟨?accepts, ?waits, ?gap, ?beyond, ?cqHead, ?eqHead, ?eqHeadLost, ?write, ?read, ?readUnmapped, ?writeUnmapped,
    ?readOutside, ?poisoned, ?badEcrc, ?atomic, ?atomicElsewhere, ?functionReset, ?vfReset, ?unmaskPending, ?unmaskQuiet⟩
  case accepts =>
    rintro ⟨⟨hs, hb⟩, hv, -, -⟩ hseq h0 hacc
    refine ⟨_, (exec_wellSqTailWrite fn v s).trans (congrArg _ (writeSqTail_accepts hs hb hv rfl hseq h0 hacc)), ?_⟩
    simp only [f, getFn_writeStatus, getFn_acceptJob, getFn_modFn_same, writeStatus_ledger, acceptJob_ledger, modFn_ledger]
    exact ⟨rfl, hv.symm, rfl, rfl, rfl, by rw [hv]; rfl⟩
  case waits =>
    rintro ⟨⟨hs, hb⟩, hv, -, -⟩ hseq h0 hacc
    refine ⟨_, (exec_wellSqTailWrite fn v s).trans (congrArg _ (writeSqTail_waits hs hb hv rfl hseq h0 hacc)), ?_⟩
    simp only [f, getFn_modFn_same]
    exact ⟨trivial, rfl, rfl⟩
  case gap =>
    rintro ⟨⟨hs, hb⟩, hv, -, -⟩ hgap
    refine ⟨_, (exec_wellSqTailWrite fn v s).trans (congrArg _ (writeSqTail_gap hs hb hv rfl hgap)), ?_⟩
    refine ⟨haltRing_halt _ _ _ _ _, haltRing_reason _ _ _ _ _, ?_, haltRing_ledger _ _ _ _ _⟩
    rw [haltRing_sqHead, getFn_modFn_same]
    rfl
  case beyond =>
    rintro ⟨hs, hb⟩ hv
    exact ⟨_, (exec_wellSqTailWrite fn v s).trans (congrArg _ (writeSqTail_beyond hs hb hv)), haltRing_halt _ _ _ _ _,
      haltRing_reason _ _ _ _ _, haltRing_ledger _ _ _ _ _⟩
  case cqHead =>
    rintro ⟨hs, hb⟩
    have hhead := congrArg Fn.cqHead (getFn_modFn_same s f (fun x => { x with cqHead := v }))
    exact ⟨_, (exec_wellCqHeadWrite fn v s).trans (congrArg _ (writeCqHead_retires v hs hb)), hhead, rfl⟩
  case eqHead =>
    rintro ⟨hs, hb⟩ hl
    obtain ⟨e, he⟩ := getFn_writeEqHead v hs hb
    exact ⟨_, exec_wellEqHeadWrite fn v s, he.trans (payLost_none e hl), writeEqHead_mem s fn v⟩
  case eqHeadLost =>
    rintro ⟨hs, hb⟩ hl hroom
    obtain ⟨e, he⟩ := getFn_writeEqHead v hs hb
    rw [payLost_owed (x := { y with eqHead := v }) e hb hl (decide_eq_true hroom)] at he
    refine ⟨_, exec_wellEqHeadWrite fn v s, ?_⟩
    simp only [f, he]
    exact ⟨writeEvent_eqHead _ _ _, writeEvent_eqTail _ _ _, trivial, writeEvent_out_length _ _ _⟩
  case write =>
    rintro ⟨hu, hi⟩ ha ⟨hm, hx⟩
    refine ⟨_, bar2_write_mapped bs len hu hi ha, ?_⟩
    rw [apertureWrite_hbm s bs hm hx]
    exact ⟨rfl, rfl⟩
  case read =>
    rintro ⟨hu, hi⟩ ha ⟨-, hx⟩ hp
    exact ⟨_, bar2_read_mapped len hu hi ha (apertureRead_hbm hx hp), congrArg Fn.read (getFn_modFn_same s f _), rfl⟩
  case readUnmapped =>
    rintro ⟨hu, hi⟩ ha
    refine ⟨_, bar2_read_unmapped len hu hi ha, ?_, fun hf => apertureFault_recorded off false ?_, apertureFault_mem _ _ _ _⟩
    · rw [apertureFault_read, getFn_modFn_same]
    · rw [getFn_modFn_same]
      exact hf
  case writeUnmapped =>
    rintro ⟨hu, hi⟩ ha
    exact ⟨_, bar2_write_unmapped bs len hu hi ha, apertureFault_mem _ _ _ _, apertureFault_recorded off true⟩
  case readOutside =>
    intro hu hi
    exact ⟨_, bar2_read_outside len hu hi, completeUr_unsupported s f none, completeUr_aer s f none, completeUr_mem s f none⟩
  case poisoned =>
    intro hu
    obtain ⟨r, hr⟩ := discardTlp_poisoned s f
    refine ⟨_, bar2_discards len (some bs) hu hr, rfl, ?_, rfl⟩
    rw [getFn_logRecord, setAer_aer]
    simp [aerPoisoned]
  case badEcrc =>
    intro hu
    exact bar2_discards len (some bs) hu rfl
  case atomic =>
    rintro ⟨hu, hi⟩ hr hw ⟨hm, hx⟩ hp
    refine ⟨_, atomicop_performs op va vb hu hi hr hw hm hx hp, ?_, rfl, rfl⟩
    cases op with
    | fetchAdd => rw [atomicValue_fetchAdd]; rfl
    | swap => rw [atomicValue_swap]; rfl
    | cas => rw [atomicValue_cas va vb (loadNat_lt s x.pa)]; rfl
  case atomicElsewhere =>
    rintro ⟨hu, hi⟩ hr hw hx
    exact ⟨_, atomicop_elsewhere op va vb hu hi hr hw hx, completeUr_mem s f none, completeUr_unsupported s f none⟩
  case functionReset =>
    intro hu
    obtain ⟨hcounts, hctxs, hmem⟩ := functionLevelReset_keeps s f
    exact ⟨_, exec_functionLevelReset fn hu, hcounts, hctxs, hmem, functionLevelReset_ledger⟩
  case vfReset =>
    intro hu hg
    have hg1 : 1 ≤ g.val := Nat.one_le_iff_ne_zero.2 (fun h => hg (Fin.ext h))
    refine ⟨_, exec_vfEnableClear hu, fnWasReset_of_apart (x := getFn s g.val) ?_ rfl, rfl, getFn_resetVfs 15 s 0,
      resetVfs_ledger 15 s⟩
    exact (getFn_resetVfs 15 s g.val).trans (if_pos ⟨hg1, by omega⟩)
  case unmaskPending =>
    intro hu hp
    refine ⟨_, exec_msixUnmask fn vec hu, ?_⟩
    simp only [f, getFn_modFn_same, unmask_pending (x := { getFn s fn.val with msixOn := true }) rfl hp]
    exact ⟨rfl, cleared_getLsbD _ vec, cleared_getLsbD _ vec, trivial⟩
  case unmaskQuiet =>
    intro hu hp
    refine ⟨_, exec_msixUnmask fn vec hu, ?_⟩
    simp only [f, getFn_modFn_same, unmask_quiet (x := { getFn s fn.val with msixOn := true }) hp]
    exact ⟨rfl, rfl, cleared_getLsbD _ vec⟩

end Sys2Proof.Machine

end HostCommandProofs

/-! SUPPORT. Proofs of the statements of family 01: jobs from dispatch to completion (O50). -/

section JobProofs

namespace Sys2Proof.Machine

/-! Ledger entries (R341). -/

theorem findEntry_congr {s u : State} (h : u.ledger.entries = s.ledger.entries) (f n : Nat) :
    findEntry u f n = findEntry s f n := by
  rw [findEntry, findEntry, h]

/-- A ledger entry is found under its own function and sequence number. -/
theorem findEntry_names {s : State} {f n : Nat} {e : LEntry} (h : findEntry s f n = some e) :
    e.fn.val = f ∧ e.seq.toNat = n := by
  have hp := List.find?_some h
  simpa using hp

/-- A change of an entry that leaves its names is what a search under them then finds. -/
theorem findEntry_modEntry {s : State} {f n : Nat} {e : LEntry} (g : LEntry → LEntry)
    (hfn : ∀ x, (g x).fn = x.fn) (hseq : ∀ x, (g x).seq = x.seq) (h : findEntry s f n = some e) :
    findEntry (modEntry s f n g) f n = some (g e) := by
  have hnames (x : LEntry) : ((fun y : LEntry => y.fn.val == f && y.seq.toNat == n)
      ∘ fun y => if y.fn.val = f ∧ y.seq.toNat = n then g y else y) x = (x.fn.val == f && x.seq.toNat == n) := by
    simp only [Function.comp]
    split <;> simp only [hfn, hseq]
  unfold findEntry at h ⊢
  unfold modEntry
  rw [List.find?_map, funext hnames, h, Option.map_some, if_pos (findEntry_names h)]

/-! What reports and placements of jobs leave: the ledger's entries, the stroke unit and the pages of every Slate. -/

/-- The ledger entries, the stroke unit and the pages of every Slate are the same in two states. -/
structure SameJobs (s u : State) : Prop where
  entries : u.ledger.entries = s.ledger.entries
  stroke : u.stroke = s.stroke
  pages : ∀ t, (getSlate u t).pg = (getSlate s t).pg

theorem SameJobs.refl (s : State) : SameJobs s s := ⟨rfl, rfl, fun _ => rfl⟩

theorem SameJobs.trans {s t u : State} (h : SameJobs s t) (k : SameJobs t u) : SameJobs s u :=
  ⟨k.entries.trans h.entries, k.stroke.trans h.stroke, fun i => (k.pages i).trans (h.pages i)⟩

theorem SameJobs.foldl {α : Type} {f : State → α → State} (h : ∀ s a, SameJobs s (f s a)) (l : List α) (s : State) :
    SameJobs s (l.foldl f s) := by
  induction l generalizing s with
  | nil => exact .refl s
  | cons a l ih => exact (h s a).trans (ih (f s a))

theorem sameJobs_modBead (s : State) (i : Nat) (f : Bead → Bead) : SameJobs s (modBead s i f) := ⟨rfl, rfl, fun _ => rfl⟩

theorem sameJobs_modBrush (s : State) (k : Nat) (f : Brush → Brush) : SameJobs s (modBrush s k f) :=
  ⟨rfl, rfl, fun _ => rfl⟩

theorem sameJobs_storeBytes (s : State) (a : Nat) (bs : List W8) : SameJobs s (storeBytes s a bs) :=
  ⟨rfl, rfl, fun _ => rfl⟩

theorem sameJobs_modTally (s : State) (t : Nat) (f : TallyUnit → TallyUnit) : SameJobs s (modTally s t f) where
  entries := rfl
  stroke := rfl
  pages i := by
    unfold modTally
    by_cases h : i = t
    · subst h
      rw [getSlate_modSlate_same]
    · rw [modSlate, getSlate_putSlate_ne _ _ _ _ h]

theorem sameJobs_queueRaise (s : State) (t p : Nat) (n : BitVec 48) : SameJobs s (queueRaise s t p n) :=
  sameJobs_modTally s t _

theorem sameJobs_errPlace (s : State) (p : Option W8) : SameJobs s (errPlace s p).2 := by
  cases p <;> exact ⟨rfl, rfl, fun _ => rfl⟩

/-- A report adds a record to the error log, and may change the functions. -/
theorem report_frame (s : State) (r : LogRec) (d : List W32) :
    ∃ l, report s r d = { logRecord s r with fns := l } := by
  unfold report
  dsimp only
  split
  · exact sendEvent_frame _ _ _
  · exact ⟨s.fns, rfl⟩

theorem report_mem (s : State) (r : LogRec) (d : List W32) : (report s r d).mem = s.mem := by
  obtain ⟨l, h⟩ := report_frame s r d
  rw [h]
  rfl

theorem sameJobs_report (s : State) (r : LogRec) (d : List W32) : SameJobs s (report s r d) := by
  obtain ⟨l, h⟩ := report_frame s r d
  rw [h]
  exact ⟨rfl, rfl, fun _ => rfl⟩

theorem sameJobs_logUnit (s : State) (c t k n : Nat) (d : W32) : SameJobs s (logUnit s c t k n d) :=
  sameJobs_report s _ _

/-! Memory and its controllers (R154, R170, R345). -/

theorem sameJobs_hbmWrite (s : State) (a : Nat) (q : Option Nat) (bs : List W8) : SameJobs s (hbmWrite s a q bs) := by
  cases q with
  | none => exact sameJobs_storeBytes s a bs
  | some q => exact (sameJobs_storeBytes s a bs).trans (sameJobs_storeBytes _ q bs)

theorem sameJobs_rewriteLine (s : State) (a q : Nat) : SameJobs s (rewriteLine s a q) := by
  refine .foldl (fun s w => ?_) _ s
  dsimp only
  split
  · exact sameJobs_storeBytes s _ _
  · exact .refl s

theorem sameJobs_hbmRead (s : State) (a n : Nat) (q : Option Nat) (bad : Bool) : SameJobs s (hbmRead s a n q bad).2 := by
  unfold hbmRead
  extract_lets stack lost
  have hlost : SameJobs s (lost ()).2 := by
    dsimp only [lost]
    exact sameJobs_logUnit s _ _ _ _ _
  split
  · exact .refl s
  · split
    · exact hlost
    · split
      · exact hlost
      · dsimp only
        exact ((sameJobs_logUnit s _ _ _ _ _).trans (sameJobs_logUnit _ _ _ _ _ _)).trans (sameJobs_rewriteLine _ _ _)

theorem sameJobs_writeEntry (s : State) (m : MergeEntry) : SameJobs s (writeEntry s m) := by
  unfold writeEntry
  extract_lets both
  have hboth (s : State) (k : Nat) (bs : List W8) : SameJobs s (both s k bs) := by
    dsimp only [both]
    split
    · exact (sameJobs_storeBytes s _ bs).trans (sameJobs_storeBytes _ _ bs)
    · exact sameJobs_storeBytes s _ bs
  refine .foldl (fun s w => ?_) _ s
  split
  · exact hboth s _ _
  · refine .foldl (fun s k => ?_) _ s
    split
    · exact hboth s _ _
    · exact .refl s

theorem sameJobs_sendCount (s : State) (c : Option (Nat × Nat × BitVec 48)) : SameJobs s (sendCount s c) := by
  cases c with
  | none => exact .refl s
  | some c =>
    obtain ⟨t, p, n⟩ := c
    exact sameJobs_queueRaise s t p n

theorem sameJobs_performTap (s : State) (w : TapWrite) : SameJobs s (performTap s w) :=
  (sameJobs_storeBytes s w.pa w.data).trans (sameJobs_sendCount _ w.count)

theorem sameJobs_performWaiting (s : State) (k : Nat) : SameJobs s (performWaiting s k) :=
  (sameJobs_modBrush s k _).trans (.foldl sameJobs_performTap _ _)

/-! Beads and brushes bound to a job's context (R148, R188). -/

theorem sameJobs_bindBead (s : State) (i c : Nat) : SameJobs s (bindBead s i c) := by
  unfold bindBead drainMerge
  split
  · exact .refl s
  · exact ((SameJobs.foldl sameJobs_writeEntry _ s).trans (sameJobs_modBead _ i _)).trans (sameJobs_modBead _ i _)

theorem sameJobs_completeOrder (s : State) (k : Nat) (ws : List W32) (sum : BitVec 5) (st : W8) (p : Option W8) :
    SameJobs s (completeOrder s k ws sum st p) := by
  unfold completeOrder
  extract_lets t c rec_ s1 s2
  have h1 : SameJobs s s1 := sameJobs_modBrush s k _
  have h2 : SameJobs s1 s2 := by
    dsimp only [s2]
    split
    · split
      · exact .refl s1
      · split
        · exact sameJobs_modTally s1 _ _
        · exact .refl s1
    · exact .refl s1
  split
  · exact h1.trans h2
  · exact ((h1.trans h2).trans (sameJobs_errPlace s2 p)).trans (sameJobs_modBrush _ k _)

theorem sameJobs_bindBrush (s : State) (k c : Nat) : SameJobs s (bindBrush s k c) := by
  have hflush : SameJobs s (flushBrush s k) := by
    unfold flushBrush
    extract_lets q s1
    have h1 : SameJobs s s1 := sameJobs_modBrush s k _
    refine h1.trans (.foldl (fun s o => ?_) q s1)
    exact sameJobs_completeOrder s k o.words 0 0x08 none
  unfold bindBrush
  split
  · exact .refl s
  · exact (hflush.trans (sameJobs_performWaiting _ k)).trans (sameJobs_modBrush _ k _)

/-! A job's working images, arguments, tensors and tally block (R207, R227, R257, R329). -/

theorem sameJobs_landSeg (s : State) (t : Nat) (g : Seg) (o : Nat) (bs : List W8) : SameJobs s (landSeg s t g o bs) := by
  unfold landSeg
  dsimp only
  split
  · exact sameJobs_modBrush s _ _
  · exact sameJobs_storeBytes s _ bs

theorem sameJobs_loadSpan (t : Nat) (g : Seg) (fuel : Nat) (s : State) (o : Nat) :
    SameJobs s (loadSpan s t g fuel o).1 := by
  induction fuel generalizing s o with
  | zero => exact .refl s
  | succ fuel ih =>
    have hread := sameJobs_hbmRead s (g.src + o) 64 (copyMirror s (g.src + o)) false
    unfold loadSpan
    split
    · exact .refl s
    · split
      · next u h => rw [h] at hread; exact hread
      · next bs u h =>
        rw [h] at hread
        exact (hread.trans (sameJobs_landSeg u t g o bs)).trans (ih _ _)

theorem sameJobs_loadSeg (s : State) (t : Nat) (g : Seg) : SameJobs s (loadSeg s t g).1 := by
  unfold loadSeg
  split
  · exact .refl s
  · split
    · exact (sameJobs_performWaiting s _).trans (sameJobs_loadSpan t g _ _ 0)
    · exact sameJobs_loadSpan t g _ s 0

theorem sameJobs_loadImages (s : State) (e : LEntry) (t : Nat) : SameJobs s (loadImages s e t) := by
  refine .foldl (fun s i => ?_) _ s
  unfold loadWorking
  split
  · refine .foldl (fun s j => ?_) _ s
    split
    · exact sameJobs_loadSeg s t _
    · exact .refl s
  · exact .refl s

theorem sameJobs_writeArgs (s : State) (e : LEntry) (t : Nat) (p : PageDesc) : SameJobs s (writeArgs s e t p) := by
  unfold writeArgs
  split
  · exact .refl s
  · exact .foldl (fun s i => sameJobs_storeBytes s _ _) _ s

theorem sameJobs_takeBlock {s u : State} {t c : Nat} (h : takeBlock s t c = some u) : SameJobs s u := by
  unfold takeBlock at h
  split at h
  · cases h
    exact .refl s
  · obtain ⟨b, -, rfl⟩ := Option.map_eq_some_iff.1 h
    exact sameJobs_modTally s t _

/-- Besides the descriptors of its update list, a job that takes its tensors changes its own entry alone (R207). -/
theorem holdTensors_eq (s : State) (e : LEntry) : ∃ u, SameJobs s u ∧ holdTensors s e
    = modEntry u e.fn.val e.seq.toNat (fun x => { x with busyHeld := !(updateList s e).isEmpty }) :=
  ⟨_, .foldl (fun s _ => (sameJobs_hbmWrite s _ _ _).trans (sameJobs_hbmWrite _ _ _ _)) _ s, rfl⟩

/-! Placing a job on its Slate (R228, R329). -/

/-- The entry of a job that a Slate has taken at a stamp, to begin at a page. -/
def placedEntry (sl : Fin 4) (p : PageDesc) (stamp : W64) (e : LEntry) : LEntry :=
  { e with state := .dispatched, slate := sl, page := p.number, dispatchStamp := stamp }

/-- The job as its Slate holds it, at a page. -/
def jobAt (e : LEntry) (p : PageDesc) : SlateJob :=
  { fn := e.fn, ctx := ⟨jobCtx e % 64, Nat.mod_lt _ (by decide)⟩, seq := e.seq, book := jobBook e, page := p }

theorem jobCtx_lt (e : LEntry) : jobCtx e < 64 := Nat.mod_lt _ (by decide)

/-- Besides memory, beads and brushes, a placement touches the job's entry and its Slate, which is asked for a switch. -/
theorem placeJob_eq (s : State) (e : LEntry) (sl : Fin 4) (p : PageDesc) : ∃ u, SameJobs s u
    ∧ placeJob s e sl.val p = askSwitch (modPage (modEntry u e.fn.val e.seq.toNat (placedEntry sl p (stampNow s))) sl.val
        (fun x => { x with job := some (jobAt e p) })) sl.val p none := by
  unfold placeJob
  extract_lets c s1 s2 s3 stamp s4 s5
  have h1 : SameJobs s s1 := .foldl (fun s i => sameJobs_bindBead s i _) _ s
  have h2 : SameJobs s1 s2 := by
    refine .foldl (fun s k => ?_) _ s1
    split
    · exact .refl s
    · exact sameJobs_bindBrush s k _
  have h3 : SameJobs s s3 :=
    (h1.trans h2).trans ((sameJobs_loadImages s2 e sl.val).trans (sameJobs_writeArgs _ e sl.val p))
  have hstamp : stamp = stampNow s := by
    dsimp only [stamp, stampNow]
    rw [h3.stroke]
  have hsl : (⟨sl.val % 4, Nat.mod_lt _ (by decide)⟩ : Fin 4) = sl := Fin.ext (Nat.mod_eq_of_lt sl.isLt)
  refine ⟨s3, h3, ?_⟩
  dsimp only [s5, s4]
  rw [hstamp, hsl]
  rfl

@[simp] theorem getSlate_modEntry (s : State) (f n t : Nat) (g : LEntry → LEntry) :
    getSlate (modEntry s f n g) t = getSlate s t := rfl

@[simp] theorem getSlate_modPage_pg (s : State) (t : Nat) (f : PageState → PageState) :
    (getSlate (modPage s t f) t).pg = f (getSlate s t).pg := by
  rw [modPage, getSlate_modSlate_same]

/-- A Slate that is asked for a switch while it is idle begins it (R228). -/
theorem askSwitch_idle {s : State} {t : Nat} (p : PageDesc) (h : (getSlate s t).pg.phase = .idle) :
    (getSlate (askSwitch s t p none) t).pg
      = { (getSlate s t).pg with phase := .draining, switch := some { page := p } } := by
  unfold askSwitch
  rw [getSlate_modSlate_same, if_pos h]

theorem findEntry_placeJob {s : State} {e y : LEntry} {f n : Nat} (sl : Fin 4) (p : PageDesc) (hf : e.fn.val = f)
    (hn : e.seq.toNat = n) (hy : findEntry s f n = some y) :
    findEntry (placeJob s e sl.val p) f n = some (placedEntry sl p (stampNow s) y) := by
  subst hf hn
  obtain ⟨u, hu, h⟩ := placeJob_eq s e sl p
  rw [h]
  exact findEntry_modEntry (placedEntry sl p (stampNow s)) (fun _ => rfl) (fun _ => rfl)
    ((findEntry_congr hu.entries _ _).trans hy)

/-- A job placed on an idle Slate begins its switch to the page. -/
theorem placeJob_idle {s : State} {sl : Fin 4} (e : LEntry) (p : PageDesc)
    (hidle : (getSlate s sl.val).pg.phase = .idle) :
    (getSlate (placeJob s e sl.val p) sl.val).pg = { (getSlate s sl.val).pg with
      job := some (jobAt e p), phase := .draining, switch := some { page := p } } := by
  obtain ⟨u, hu, h⟩ := placeJob_eq s e sl p
  rw [h, askSwitch_idle]
  all_goals simp only [getSlate_modPage_pg, getSlate_modEntry, hu.pages]
  exact hidle

/-! Jobs that end (R208, R332, R342). -/

/-- An entry that has ended and waits for its turn to commit. -/
def endedEntry (st : W8) (o : JobOutcome) (d : W32) (e : LEntry) : LEntry :=
  { e with state := .running, ended := true, status := st, outcome := o, detail := d }

/-- An entry that is there ends, a status below 3 leaving no detail; the end may be logged. -/
theorem endEntry_sameJobs {s : State} {f n : Nat} {e : LEntry} (st : W8) (o : JobOutcome) (h : findEntry s f n = some e) :
    ∃ d, (st < 3 → d = 0) ∧ SameJobs (modEntry s f n (endedEntry st o d)) (endEntry s f n st o) := by
  unfold endEntry
  simp only [h]
  refine ⟨if 3 ≤ st ∧ st ≤ 9 then pack [(e.page.toNat, 16), (e.slate.val, 0)] else 0, fun hlt => if_neg (fun hd => ?_), ?_⟩
  · exact absurd hlt (BitVec.not_lt.2 hd.1)
  · by_cases hl : endsLogged st.toNat = true
    · rw [if_pos hl]
      exact sameJobs_report _ _ _
    · rw [if_neg hl]
      exact .refl _

theorem findEntry_endEntry {s : State} {f n : Nat} {e : LEntry} (st : W8) (o : JobOutcome)
    (h : findEntry s f n = some e) :
    ∃ d, (st < 3 → d = 0) ∧ findEntry (endEntry s f n st o) f n = some (endedEntry st o d e) := by
  obtain ⟨d, hd, hs⟩ := endEntry_sameJobs st o h
  exact ⟨d, hd, (findEntry_congr hs.entries f n).trans (findEntry_modEntry _ (fun _ => rfl) (fun _ => rfl) h)⟩

@[simp] theorem endEntry_mem (s : State) (f n : Nat) (st : W8) (o : JobOutcome) : (endEntry s f n st o).mem = s.mem := by
  unfold endEntry
  split
  · rfl
  · dsimp only
    split
    · exact report_mem _ _ _
    · rfl

/-! Memory read back, and the outcome of a job applied to a tensor (R208, R343). -/

theorem ofBytes_toBytes (n v : Nat) : ofBytes (toBytes n v) = v % 256 ^ n := by
  induction n generalizing v with
  | zero => simp [toBytes, ofBytes, Nat.mod_one]
  | succ n ih =>
    rw [toBytes, ofBytes, ih, BitVec.toNat_ofNat, Nat.pow_succ' (m := 256)]
    exact Nat.mod_mul.symm

theorem loadNat_storeBytes_same {s : State} (h : MemOk s) (a n v : Nat) :
    loadNat (storeBytes s a (toBytes n v)) a n = v % 256 ^ n := by
  have hread : loadBytes (storeBytes s a (toBytes n v)) a n = toBytes n v := by
    refine List.ext_getElem (by simp [loadBytes_length]) (fun k _ hk => ?_)
    simp only [loadBytes, memReadN, storeBytes, List.getElem_map, List.getElem_range]
    exact memRead_memWriteN_in _ a k hk h
  rw [loadNat, hread, ofBytes_toBytes]

theorem loadNat_storeBytes_apart {s : State} (h : MemOk s) (a b n : Nat) (bs : List W8)
    (hab : b + n ≤ a ∨ a + bs.length ≤ b) : loadNat (storeBytes s a bs) b n = loadNat s b n := by
  have hread : loadBytes (storeBytes s a bs) b n = loadBytes s b n := by
    refine List.map_congr_left (fun k hk => memRead_memWriteN_out bs a (b + k) h ?_)
    rw [List.mem_range] at hk
    omega
  rw [loadNat, hread, loadNat]

theorem putHbm_unmirrored {s : State} {a : Nat} (h : mirrorOf s a = none) (bs : List W8) :
    putHbm s a bs = storeBytes s a bs := by
  rw [putHbm, h]
  rfl

section Unmirrored
variable {s : State} {a : Nat} (hm : MemOk s) (h8 : mirrorOf s (a + 8) = none)
include hm h8

/-- BUSY cleared leaves LIVE alone of the two low bits (R199). -/
theorem loadNat_setBusy_false : loadNat (setBusy s a false) (a + 8) 4 % 4 = loadNat s (a + 8) 4 % 2 := by
  rw [setBusy, putHbm_unmirrored h8, loadNat_storeBytes_same hm, if_neg Bool.false_ne_true]
  omega

theorem loadNat_setBusy_apart (v : Bool) {b n : Nat} (h : b + n ≤ a + 8 ∨ a + 12 ≤ b) :
    loadNat (setBusy s a v) b n = loadNat s b n := by
  rw [setBusy, putHbm_unmirrored h8, loadNat_storeBytes_apart hm _ _ _ _ (by simpa [Nat.add_assoc] using h)]

/-- A flip makes the other buffer live, clears BUSY, and raises the generation (R343). -/
theorem applyOutcome_flip (h10 : mirrorOf s (a + 0x10) = none) :
    loadNat (applyOutcome s .flip a) (a + 8) 4 % 4 = (loadNat s (a + 8) 4 + 1) % 2
      ∧ loadNat (applyOutcome s .flip a) (a + 0x10) 6 = (loadNat s (a + 0x10) 6 + 1) % 2 ^ 48 := by
  unfold applyOutcome
  extract_lets st s1 s2
  have e1 : s1 = storeBytes s (a + 8) (toBytes 4 (if st % 2 = 0 then st + 1 else st - 1)) := putHbm_unmirrored h8 _
  have m1 : MemOk s1 := e1 ▸ memOk_storeBytes _ _ hm
  have hgen : loadNat s1 (a + 0x10) 6 = loadNat s (a + 0x10) 6 := by
    rw [e1]
    exact loadNat_storeBytes_apart hm _ _ _ _ (.inr (by simp))
  have hlive : loadNat s1 (a + 8) 4 % 2 = (st + 1) % 2 := by
    rw [e1, loadNat_storeBytes_same hm]
    split <;> omega
  have e2 : s2 = storeBytes s1 (a + 0x10) (toBytes 6 (loadNat s1 (a + 0x10) 6 + 1)) :=
    putHbm_unmirrored (by rw [e1]; exact h10) _
  have m2 : MemOk s2 := e2 ▸ memOk_storeBytes _ _ m1
  have h2 : mirrorOf s2 (a + 8) = none := by rw [e2, e1]; exact h8
  constructor
  · rw [loadNat_setBusy_false m2 h2, e2, loadNat_storeBytes_apart m1 _ _ _ _ (.inl (by omega)), hlive]
  · rw [loadNat_setBusy_apart m2 h2 _ (.inr (by omega)), e2, loadNat_storeBytes_same m1, hgen]
    rfl

end Unmirrored

theorem sameJobs_setBusy (s : State) (a : Nat) (v : Bool) : SameJobs s (setBusy s a v) := sameJobs_hbmWrite s _ _ _

theorem sameJobs_applyOutcome (s : State) (o : JobOutcome) (a : Nat) : SameJobs s (applyOutcome s o a) := by
  cases o with
  | none => exact sameJobs_setBusy s a false
  | flip => exact ((sameJobs_hbmWrite s _ _ _).trans (sameJobs_hbmWrite _ _ _ _)).trans (sameJobs_setBusy _ a false)
  | skip => exact (sameJobs_hbmWrite s _ _ _).trans (sameJobs_setBusy _ a false)

/-! Jobs that commit (R343). -/

/-- The update list of a job with its outcome applied, where the job holds it. -/
def settled (s : State) (e : LEntry) : State :=
  if e.busyHeld then (updateList s e).foldl (fun s a => applyOutcome s e.outcome a) s else s

theorem sameJobs_settled (s : State) (e : LEntry) : SameJobs s (settled s e) := by
  unfold settled
  split
  · exact .foldl (fun s a => sameJobs_applyOutcome s e.outcome a) _ s
  · exact .refl s

@[simp] theorem settled_free {s : State} {e : LEntry} (h : e.busyHeld = false) : settled s e = s := by
  rw [settled, h, if_neg Bool.false_ne_true]

theorem settled_single {s : State} {e : LEntry} {a : Nat} (h : e.busyHeld = true) (hl : updateList s e = [a]) :
    settled s e = applyOutcome s e.outcome a := by
  rw [settled, if_pos h, hl, List.foldl_cons, List.foldl_nil]

/-- A committed entry, with the generations that its tensors had. -/
def committedEntry (stamp : W64) (gens : List W32) (e : LEntry) : LEntry :=
  { e with state := .committed, commitStamp := stamp, gens := gens, intent := false, busyHeld := false }

@[simp] theorem commitEntry_mem (s : State) (e : LEntry) : (commitEntry s e).mem = (settled s e).mem := rfl

@[simp] theorem commitEntry_commits (s : State) (e : LEntry) :
    (commitEntry s e).ledger.commits = satInc (settled s e).ledger.commits := rfl

theorem getFn_commitEntry (s : State) (e : LEntry) : getFn (commitEntry s e) e.fn.val
    = { getFn (settled s e) e.fn.val with ring := { (getFn (settled s e) e.fn.val).ring with committed := e.seq } } := by
  have h := getFn_modFn_same (settled s e) e.fn.val (fun f => { f with ring := { f.ring with committed := e.seq } })
  exact h

theorem findEntry_commitEntry {s : State} {e : LEntry} {f n : Nat} (h : findEntry s f n = some e) :
    ∃ gens, findEntry (commitEntry s e) f n = some (committedEntry (stampNow s) gens e) := by
  obtain ⟨hf, hn⟩ := findEntry_names h
  have hs := sameJobs_settled s e
  have hstamp : stampNow (settled s e) = stampNow s := by rw [stampNow, hs.stroke, stampNow]
  have hfound := (findEntry_congr hs.entries f n).trans h
  refine ⟨(updateList s e).map (fun a => BitVec.ofNat 32 (loadNat s (a + 0x10) 4)), ?_⟩
  rw [← hstamp]
  subst hf hn
  exact findEntry_modEntry (committedEntry _ _) (fun _ => rfl) (fun _ => rfl) hfound

/-! Completion records (R331). -/

theorem raiseVector_cqTail (x : Fn) (v : Fin 128) : (raiseVector x v).cqTail = x.cqTail := by
  have h := congrArg Fn.cqTail (raiseVector_apart x v)
  exact h

/-- The record of a reported job, without its PHASE (R331). -/
def completionWords (s : State) (e : LEntry) : List W32 :=
  recordWords e.seq e.status 0 ((e.words.drop 4).take 2) s.ledger.epoch 0 (jobCtx e) e.detail e.commitStamp

/-- A function that has reported a job in a record's words: its ring says so, and the job's vector may be raised. -/
def fnReported (b : Binding) (ws : List W32) (e : LEntry) (x : Fn) : Fn :=
  let y := writeCompletion x b ws
  let y := if bitAt (entryWord e 2) 8 then raiseVector y (entryVector e) else y
  { y with ring := { y.ring with reported := e.seq } }

/-- A reported job's record is written, and its number is the ring's last reported; a vector may be raised. -/
theorem getFn_reportEntry (s : State) (b : Binding) (e : LEntry) :
    (getFn (reportEntry s b e) e.fn.val).out = (writeCompletion (getFn s e.fn.val) b (completionWords s e)).out
      ∧ (getFn (reportEntry s b e) e.fn.val).cqTail = (getFn s e.fn.val).cqTail + 1
      ∧ (getFn (reportEntry s b e) e.fn.val).ring.reported = e.seq := by
  have hfn : getFn (reportEntry s b e) e.fn.val = fnReported b (completionWords s e) e (getFn s e.fn.val) :=
    getFn_modFn_same s e.fn.val (fnReported b (completionWords s e) e)
  rw [hfn]
  unfold fnReported
  split
  · exact ⟨raiseVector_out _ _, raiseVector_cqTail _ _, rfl⟩
  · exact ⟨rfl, rfl, rfl⟩

theorem findEntry_reportEntry {s : State} {e : LEntry} {f n : Nat} (b : Binding) (h : findEntry s f n = some e) :
    findEntry (reportEntry s b e) f n = some { e with state := .reported, record := some (getFn s f).cqTail } := by
  obtain ⟨hf, hn⟩ := findEntry_names h
  subst hf hn
  exact findEntry_modEntry (fun x => { x with state := .reported, record := some (getFn s e.fn.val).cqTail })
    (fun _ => rfl) (fun _ => rfl) h

/-! The commands, by case. -/

section Commands
variable {s : State} {fn : Fin 16} {seq : BitVec 48} {e : LEntry}

theorem exec_jobDispatch (fn : Fin 16) (seq : BitVec 48) (sl : Fin 4) (s : State) :
    exec (.jobDispatch fn seq sl) s = execJobDispatch fn seq sl s := rfl

theorem exec_jobSteal (fn : Fin 16) (seq : BitVec 48) (sl : Fin 4) (s : State) :
    exec (.jobSteal fn seq sl) s = execJobSteal fn seq sl s := rfl

theorem exec_jobEnd (fn : Fin 16) (seq : BitVec 48) (st : W8) (s : State) :
    exec (.jobEnd fn seq st) s = execJobEnd fn seq st s := rfl

theorem exec_jobCommit (fn : Fin 16) (seq : BitVec 48) (s : State) :
    exec (.jobCommit fn seq) s = execJobCommit fn seq s := rfl

theorem exec_completionWrite (fn : Fin 16) (s : State) :
    exec (.completionWrite fn) s = execCompletionWrite fn s := rfl

section Dispatch
variable (hs : serving s = true) (hrun : s.pwr.st = .run) (hstill : s.pwr.moving = false)
  (hfound : findEntry s fn.val seq.toNat = some e) (hacc : e.state = .accepted) (hopen : e.ended = false)
include hs hrun hstill hfound hacc hopen

/-- A job that names what its function does not own ends (R327). -/
theorem jobDispatch_unowned (sl : Fin 4) (ho : entryOwned s e = false) :
    exec (.jobDispatch fn seq sl) s = .next (endEntry s fn.val seq.toNat 0x02 .none) := by
  simp [exec_jobDispatch, execJobDispatch, hfound, hs, hrun, hstill, hacc, hopen, ho]

/-- An accepted job whose waits are over is placed on an idle Slate (R329). -/
theorem jobDispatch_places {sl : Fin 4} {u : State} {p : PageDesc} (ho : entryOwned s e = true)
    (hcan : slateCanRun s e sl.val = true) (hidle : slateIdle s sl.val (jobCtx e) = true) (hstart : jobMayStart s e = true)
    (hpow : powerHolds s = false) (hsync : s.stroke.cfg.getLsbD 28 = false)
    (hblock : takeBlock s sl.val (jobCtx e) = some u) (hpage : firstOn s e sl.val = some p) :
    exec (.jobDispatch fn seq sl) s = .next (placeJob (holdTensors u e) e sl.val p) := by
  have hany : (List.range 4).any (slateCanRun s e) = true :=
    List.any_eq_true.2 ⟨sl.val, List.mem_range.2 sl.isLt, hcan⟩
  simp only [exec_jobDispatch, execJobDispatch, hfound, hs, hrun, hstill, hacc, hopen, ho, hany, hcan, hidle, hstart, hpow,
    hsync, hblock, hpage]
  rfl

end Dispatch

theorem slateIdle_phase {t c : Nat} (h : slateIdle s t c = true) : (getSlate s t).pg.phase = .idle := by
  simp only [slateIdle, Bool.and_eq_true, beq_iff_eq] at h
  obtain ⟨⟨⟨⟨⟨⟨⟨-, hphase⟩, -⟩, -⟩, -⟩, -⟩, -⟩, -⟩ := h
  exact hphase

/-- What the Slate and the ledger hold once an accepted job is placed (R228, R329). -/
theorem placeJob_holdTensors {u : State} {sl : Fin 4} (p : PageDesc) (hfound : findEntry s fn.val seq.toNat = some e)
    (hidle : (getSlate s sl.val).pg.phase = .idle) (hu : SameJobs s u) :
    (∃ held, findEntry (placeJob (holdTensors u e) e sl.val p) fn.val seq.toNat
        = some (placedEntry sl p (stampNow s) { e with busyHeld := held }))
      ∧ (getSlate (placeJob (holdTensors u e) e sl.val p) sl.val).pg
        = { (getSlate s sl.val).pg with job := some (jobAt e p), phase := .draining, switch := some { page := p } } := by
  obtain ⟨hf, hn⟩ := findEntry_names hfound
  obtain ⟨v, hv, hold⟩ := holdTensors_eq u e
  have hsv := hu.trans hv
  have hstamp : stampNow (holdTensors u e) = stampNow s := by
    rw [hold, stampNow, stampNow, ← hsv.stroke]
    rfl
  have hpg : (getSlate (holdTensors u e) sl.val).pg = (getSlate s sl.val).pg := by
    rw [hold, getSlate_modEntry, hsv.pages]
  constructor
  · refine ⟨!(updateList u e).isEmpty, ?_⟩
    rw [← hstamp]
    refine findEntry_placeJob sl p hf hn ?_
    rw [hold, hf, hn]
    exact findEntry_modEntry _ (fun _ => rfl) (fun _ => rfl) ((findEntry_congr hsv.entries _ _).trans hfound)
  · rw [placeJob_idle e p (by rw [hpg, hidle]), hpg]

/-- An accepted job that another Slate can run moves to that Slate's queue (R13). -/
theorem jobSteal_moves {sl : Fin 4} (hs : serving s = true) (hfound : findEntry s fn.val seq.toNat = some e)
    (hacc : e.state = .accepted) (hopen : e.ended = false) (hne : e.slate ≠ sl) (hcan : slateCanRun s e sl.val = true) :
    exec (.jobSteal fn seq sl) s = .next (modEntry s fn.val seq.toNat (fun y => { y with slate := sl })) := by
  simp [exec_jobSteal, execJobSteal, hfound, hs, hacc, hopen, hne, hcan]

/-- A job whose last page has drained ends with its staged outcome, and leaves its Slate idle (R208). -/
theorem jobEnd_stages {j : SlateJob} (hs : serving s = true) (hfound : findEntry s fn.val seq.toNat = some e)
    (hopen : e.ended = false) (hruns : slateRuns s e.slate.val = true) (hj : (getSlate s e.slate.val).pg.job = some j)
    (hjf : j.fn = fn) (hjs : j.seq = seq) (hphase : (getSlate s e.slate.val).pg.phase = .running)
    (hlast : j.page.last = true) (hdrained : pageDrained s e.slate.val = true) :
    ∃ u, exec (.jobEnd fn seq 0) s = .next u ∧ u.mem = s.mem
      ∧ u.ledger = (endEntry s fn.val seq.toNat (stageOutcome s e).2 (stageOutcome s e).1).ledger
      ∧ (getSlate u e.slate.val).pg.phase = .idle ∧ (getSlate u e.slate.val).pg.job = none := by
  have hdone : (serving s && slateRuns s e.slate.val && j.fn == fn && j.seq == seq && !e.ended) = true := by
    simp [hs, hruns, hjf, hjs, hopen]
  have hends : ((getSlate s e.slate.val).pg.phase == .running && (j.page.last || j.page.next.isNone)
      && pageDrained s e.slate.val) = true := by
    simp [hphase, hlast, hdrained]
  rw [exec_jobEnd]
  simp only [execJobEnd, hfound, hj, hdone, hends, Bool.not_true, Bool.false_eq_true, if_true, if_false]
  refine ⟨_, rfl, endEntry_mem _ _ _ _ _, rfl, ?_, ?_⟩
  · rw [getSlate_modPage_pg]
  · rw [getSlate_modPage_pg, detach, getSlate_modPage_pg]

/-- An ended job whose ring's earlier jobs have committed commits (R343). -/
theorem jobCommit_commits (hs : serving s = true) (hfound : findEntry s fn.val seq.toNat = some e) (hended : e.ended = true)
    (hst : e.state = .running) (hearlier : earlierDone s e = true) :
    exec (.jobCommit fn seq) s = .next (commitEntry s e) := by
  simp [exec_jobCommit, execJobCommit, hfound, hs, hended, hst, hearlier]

section Completions
variable {b : Binding} (hs : serving s = true) (hb : (getFn s fn.val).bind = some b)
  (hroom : cqRoom (getFn s fn.val) b = true)
include hs hb hroom

/-- With no DUP record waiting, the next job of the ring is reported once it has committed (R331). -/
theorem completionWrite_reports {n : Nat} (hdup : (getFn s fn.val).dupOut = [])
    (hn : (getFn s fn.val).ring.reported.toNat + 1 = n) (hfound : findEntry s fn.val n = some e)
    (hst : e.state = .committed) :
    exec (.completionWrite fn) s = .next (reportEntry s b e) := by
  simp [exec_completionWrite, execCompletionWrite, hs, hb, hroom, hdup, hn, hfound, hst]

/-- A DUP record that waits is written first (R331). -/
theorem completionWrite_dup {d : List W32} {ds : List (List W32)} (hdup : (getFn s fn.val).dupOut = d :: ds) :
    exec (.completionWrite fn) s
      = .next (putFn s fn.val { writeCompletion (getFn s fn.val) b d with dupOut := ds }) := by
  simp [exec_completionWrite, execCompletionWrite, hs, hb, hroom, hdup]

end Completions

end Commands

/-- Settles O50: each clause is the equation of its command for the case that it names, with what a placement, an end, a
commit and a record leave in the ledger, the Slate and the function. -/
theorem jobEvents : Obligations.JobEvents := by
  unfold Obligations.JobEvents
  intro s fn seq sl e p j b a d ds t x f free found holds commits record slot phased
  refine ⟨?unowned, ?dispatch, ?steal, ?ends, ?commit, ?flip, ?report, ?dup⟩
  case unowned =>
    rintro ⟨hs, hrun, hstill⟩ hfound hacc hopen ho
    obtain ⟨d, hd, hend⟩ := findEntry_endEntry 0x02 .none hfound
    rw [hd (by decide)] at hend
    exact ⟨_, jobDispatch_unowned hs hrun hstill hfound hacc hopen sl ho, endEntry_mem _ _ _ _ _, _, hend, rfl⟩
  case dispatch =>
    rintro ⟨hs, hrun, hstill⟩ hfound hacc hopen ho hcan hidle hstart hpow hsync hblock hpage
    obtain ⟨u, hu⟩ := Option.ne_none_iff_exists'.1 hblock
    obtain ⟨⟨held, hentry⟩, hpg⟩ := placeJob_holdTensors p hfound (slateIdle_phase hidle) (sameJobs_takeBlock hu)
    obtain ⟨hf, hn⟩ := findEntry_names hfound
    refine ⟨_, jobDispatch_places hs hrun hstill hfound hacc hopen ho hcan hidle hstart hpow hsync hu hpage,
      ⟨_, hentry, rfl, rfl, rfl, rfl⟩, ⟨jobAt e p, congrArg PageState.job hpg, Fin.ext hf, BitVec.eq_of_toNat_eq hn,
        Nat.mod_eq_of_lt (jobCtx_lt e), rfl, rfl⟩, congrArg PageState.phase hpg, congrArg PageState.switch hpg⟩
  case steal =>
    intro hs hfound hacc hopen hne hcan
    exact jobSteal_moves hs hfound hacc hopen hne hcan
  case ends =>
    intro hs hfound hsl hopen hruns hj hjf hjs hphase hlast hdrained
    subst hsl
    obtain ⟨u, hu, hmem, hledger, hidle, hnone⟩ := jobEnd_stages hs hfound hopen hruns hj hjf hjs hphase hlast hdrained
    obtain ⟨d, -, hend⟩ := findEntry_endEntry (stageOutcome s e).2 (stageOutcome s e).1 hfound
    exact ⟨u, hu, hmem, ⟨_, (findEntry_congr (congrArg Ledger.entries hledger) _ _).trans hend, rfl, rfl, rfl, rfl⟩,
      hidle, hnone⟩
  case commit =>
    rintro ⟨hs, hfound, hended, hst, hearlier⟩ hfree
    obtain ⟨hf, hn⟩ := findEntry_names hfound
    obtain ⟨gens, hentry⟩ := findEntry_commitEntry hfound
    have hring := getFn_commitEntry s e
    rw [settled_free hfree, hf, BitVec.eq_of_toNat_eq hn] at hring
    refine ⟨_, jobCommit_commits hs hfound hended hst hearlier, ?_, ⟨_, hentry, rfl, rfl⟩, congrArg Fn.ring hring, ?_⟩
    · rw [commitEntry_mem, settled_free hfree]
    · rw [commitEntry_commits, settled_free hfree]
  case flip =>
    rintro ⟨hs, hfound, hended, hst, hearlier⟩ hm hheld hlist hflip h8 h10
    obtain ⟨gens, hentry⟩ := findEntry_commitEntry hfound
    have hsettled := settled_single hheld hlist
    rw [hflip] at hsettled
    obtain ⟨hlive, hgen⟩ := applyOutcome_flip hm h8 h10
    rw [← hsettled] at hlive hgen
    exact ⟨_, jobCommit_commits hs hfound hended hst hearlier, hlive, hgen, _, hentry, rfl, rfl⟩
  case report =>
    intro hs hb hroom hdup hfound hlt hst
    have hnext : (BitVec.ofNat 48 (f.ring.reported.toNat + 1)).toNat = f.ring.reported.toNat + 1 := by
      rw [BitVec.toNat_ofNat, Nat.mod_eq_of_lt hlt]
    obtain ⟨hf, hn⟩ := findEntry_names hfound
    obtain ⟨hout, htail, hring⟩ := getFn_reportEntry s b e
    rw [hf] at hout htail hring
    have hentry := findEntry_reportEntry b hfound
    rw [← hn] at hentry
    exact ⟨_, completionWrite_reports hs hb hroom hdup hnext.symm hfound hst, hout, htail, hring, _, hentry, rfl, rfl⟩
  case dup =>
    intro hs hb hroom hdup
    have hfn := getFn_putFn_same s fn.val { writeCompletion (getFn s fn.val) b d with dupOut := ds }
    exact ⟨_, completionWrite_dup hs hb hroom hdup, congrArg Fn.out hfn, congrArg Fn.cqTail hfn, congrArg Fn.dupOut hfn⟩

end Sys2Proof.Machine

end JobProofs

/-! SUPPORT. Proofs of the statements of family 02: the S-slot operations (O4, O5), the lane-wise vector glyphs (O23), the
conversions (O25), the nib glyphs (O27) and precise faults (O29). -/

section NumberFormatProofs

namespace Sys2Proof.Machine

/-! What the S-slot glyphs evaluate to, and the line of one (R43, R105, R107). -/

theorem exec_aluGlyph (op : AluOp) (hr : HandRef) (o : BitVec 22) (s : State) :
    exec (aluGlyph op hr true o) s = .next (issue hr true (aluGlyph op hr true o) s) := by
  cases op <;> rfl

theorem evalGlyph_aluGlyph (e : Env) (op : AluOp) (hr : HandRef) (o : BitVec 22) :
    evalGlyph e (aluGlyph op hr true o) = evalAlu e (aluGlyph op hr true o) op o := by
  cases op <;> rfl

theorem hasLexit_aluGlyph (op : AluOp) (hr : HandRef) (o : BitVec 22) : hasLexit [aluGlyph op hr true o] = false := by
  cases op <;> rfl

theorem drawsFree_aluGlyph (op : AluOp) (hr : HandRef) (o : BitVec 22) : drawsFree (aluGlyph op hr true o) = false := by
  cases op <;> rfl

theorem localLoad_ok {s : State} {hr : HandRef} {a n : Nat} (lx : Bool) (h : LocalOk s hr a n) :
    localLoad (aloneEnv s hr lx) a n n = .ok (loadBytes s (localAt hr a) n) := by
  have hp : parityFind (aloneEnv s hr lx).s.parity (folioBase (aloneEnv s hr lx).i + a) n = none := h.parity
  rw [localLoad, checkLocal_ok s hr a n lx h.free]
  simp only [Bind.bind, Except.bind, hp]
  rfl

theorem extend_unsigned (bs : List W8) : extend false bs = BitVec.ofNat 64 (ofBytes bs) := rfl

/-- With an immediate or an operand in the own folio, an S-slot operation makes the writes of its result (R99, R107). -/
theorem evalAlu_operand {s : State} {hr : HandRef} {o : BitVec 22} {v : W64} (lx : Bool) (c : Instr) (op : AluOp)
    (h : OperandIs s hr o v) :
    evalAlu (aloneEnv s hr lx) c op o = aluWrites (aluEval op (handAt s hr).psw (handAt s hr).acc v) >>= writes := by
  rcases h with ⟨hm, rfl⟩ | ⟨hm, hl, rfl⟩
  · rw [evalAlu, if_pos hm]
    rfl
  · have h4 : opdMode o ≠ 4 := by omega
    have h5 : opdMode o ≠ 5 := by omega
    have hload := localLoad_ok lx hl
    rw [evalAlu, if_neg h4, operandBytes, if_neg h5, show (aloneEnv s hr lx).x = handAt s hr from rfl, hload]
    simp only [Bind.bind, Except.bind, extend_unsigned, if_neg h5]
    rfl

/-- A line whose one glyph may write ACC and sets flags retires with those writes. -/
theorem issue_acc_psw {s : State} {hr : HandRef} {c : Instr} {g : Glyph} (r : Ready s hr c g) (v : Option W64)
    (m f : W32) (hx : hasLexit [c] = false) (hd : drawsFree c = false)
    (he : evalGlyph (aloneEnv s hr false) c = writes ((v.map Eff.acc).toList ++ [.psw m f])) :
    (Host.Outcome.next (issue hr true c s) : Host.Outcome State Fault Refusal)
      = .next (retire s hr (fun y => { y with acc := v.getD y.acc, psw := merge32 y.psw m f })) := by
  cases v with
  | none =>
    refine next_writes r he hx hd rfl rfl (roomStop_none rfl) _ ?_
    simp [applyEffs, isReadEff, isLocalAtomic, applyEff, jumpOf, retire]
  | some v =>
    refine next_writes r he hx hd rfl rfl (roomStop_none rfl) _ ?_
    simp [applyEffs, isReadEff, isLocalAtomic, applyEff, jumpOf, retire]

/-- The writes of an S-slot result that does not fault. -/
theorem aluWrites_ok {p : AluOut} (h : p.fault = none) :
    aluWrites p >>= writes = writes ((p.res.map Eff.acc).toList ++ [.psw p.mask p.flags]) := by
  rw [aluWrites, h]
  rfl

theorem aluWrites_fault {p : AluOut} {k : Nat} (h : p.fault = some k) : aluWrites p >>= writes = raise k 0 := by
  rw [aluWrites, h]
  rfl

/-- Settles O4: the operation's evaluation is `alu_eq`, and its writes land in ACC and PSW alone. -/
theorem aluGlyphs : Obligations.AluGlyphs := by
  intro op s hr o g v hready hopd htraps
  have hfault : (aluEval op (handAt s hr).psw (handAt s hr).acc v).fault = none := by rw [alu_eq, htraps]; rfl
  have heval : evalGlyph (aloneEnv s hr false) (aluGlyph op hr true o) = _ :=
    (evalGlyph_aluGlyph _ op hr o).trans ((evalAlu_operand false _ op hopd).trans (aluWrites_ok hfault))
  rw [exec_aluGlyph, issue_acc_psw hready _ _ _ (hasLexit_aluGlyph op hr o) (drawsFree_aluGlyph op hr o) heval, alu_eq]
  simp only [merge_flags]
  unfold aluDone
  split <;> rfl

/-- A line whose one glyph writes ACC alone retires with that write. -/
theorem issue_acc {s : State} {hr : HandRef} {c : Instr} {g : Glyph} (r : Ready s hr c g) (v : W64)
    (hx : hasLexit [c] = false) (hd : drawsFree c = false) (he : evalGlyph (aloneEnv s hr false) c = writes [.acc v]) :
    (Host.Outcome.next (issue hr true c s) : Host.Outcome State Fault Refusal)
      = .next (retire s hr (fun y => { y with acc := v })) := by
  refine next_writes r he hx hd rfl rfl (roomStop_none rfl) _ ?_
  simp [applyEffs, isReadEff, isLocalAtomic, applyEff, jumpOf, retire]

theorem merge_nz (w : W32) (v : W64) : merge32 w (mN ||| mZ) (nzOf v) = withFlags w (flagsNZ v) := by
  have h := merge_flags w (flagsNZ v)
  have ho := out_nz v
  simp only [outNZ, AluOut.mk.injEq] at ho
  rw [← h, ← ho.2.1, ← ho.2.2.1]

/-- The same with N and Z of the result as its flags (R105). -/
theorem issue_acc_nz {s : State} {hr : HandRef} {c : Instr} {g : Glyph} (r : Ready s hr c g) (v : W64)
    (hx : hasLexit [c] = false) (hd : drawsFree c = false)
    (he : evalGlyph (aloneEnv s hr false) c = writes [.acc v, .psw (mN ||| mZ) (nzOf v)]) :
    (Host.Outcome.next (issue hr true c s) : Host.Outcome State Fault Refusal)
      = .next (retire s hr (fun y => { y with acc := v, psw := withFlags y.psw (flagsNZ v) })) := by
  rw [issue_acc_psw r (some v) _ _ hx hd he]
  simp only [merge_nz, Option.getD_some]

/-- Only the least integer's negation does not fit. -/
theorem tooWide_neg (a : W64) : tooWide (-a.toInt) = (a == BitVec.intMin 64) := by
  have hlo := BitVec.le_toInt a
  have hhi := BitVec.toInt_lt (x := a)
  rw [Bool.eq_iff_iff, beq_iff_eq, ← BitVec.toInt_inj, BitVec.toInt_intMin]
  simp only [tooWide, Bool.or_eq_true, decide_eq_true_eq]
  omega

theorem tooWide_natAbs (a : W64) : tooWide (a.toInt.natAbs : Int) = (a == BitVec.intMin 64) := by
  rw [← tooWide_neg]
  have hlo := BitVec.le_toInt a
  have hhi := BitVec.toInt_lt (x := a)
  rw [Bool.eq_iff_iff]
  simp only [tooWide, Bool.or_eq_true, decide_eq_true_eq]
  omega

/-- The flags of NEG and ABS: N and Z of the result, V for the least integer, C for zero (R105; log 12). -/
def negFlags (a v : W64) : FlagSet := { flagsNZ v with v := some (a == BitVec.intMin 64), c := some (a == 0) }

theorem outNZCV_neg {psw : W32} {a : W64} (v : W64) (h : a ≠ BitVec.intMin 64 ∨ psw.getLsbD 9 = false) :
    outNZCV psw v (a = 0) (a == BitVec.intMin 64)
      = ⟨some v, flagMask (negFlags a v), flagBits (negFlags a v), none⟩ := by
  have hov : (a == BitVec.intMin 64 && pswOve psw) = false := by
    rw [Bool.and_eq_false_iff, beq_eq_false_iff_ne]
    exact h
  rw [out_nzcv, hov]
  rfl

theorem negEval_ok {psw : W32} {a : W64} (h : a ≠ BitVec.intMin 64 ∨ psw.getLsbD 9 = false) :
    negEval psw a = ⟨some (-a), flagMask (negFlags a (-a)), flagBits (negFlags a (-a)), none⟩ := by
  rw [negEval, tooWide_neg, show 0 - a = -a from BitVec.zero_sub a, outNZCV_neg _ h]

theorem absEval_ok {psw : W32} {a : W64} (h : a ≠ BitVec.intMin 64 ∨ psw.getLsbD 9 = false) :
    absEval psw a = ⟨some a.abs, flagMask (negFlags a a.abs), flagBits (negFlags a a.abs), none⟩ := by
  have habs : (if a.getLsbD 63 then 0 - a else a) = a.abs := by
    rw [show 0 - a = -a from BitVec.zero_sub a, BitVec.abs, BitVec.msb_eq_getLsbD_last]
    rfl
  rw [absEval, tooWide_natAbs, habs, outNZCV_neg _ h]

/-- NEG and ABS where they do not fault: the result with its flags. -/
theorem issue_neg {s : State} {hr : HandRef} {c : Instr} {g : Glyph} {a v : W64} {p : AluOut} (r : Ready s hr c g)
    (hx : hasLexit [c] = false) (hd : drawsFree c = false)
    (he : evalGlyph (aloneEnv s hr false) c = aluWrites p >>= writes)
    (hp : p = ⟨some v, flagMask (negFlags a v), flagBits (negFlags a v), none⟩) :
    (Host.Outcome.next (issue hr true c s) : Host.Outcome State Fault Refusal)
      = .next (retire s hr (fun y => { y with acc := v, psw := withFlags y.psw (negFlags a v) })) := by
  rw [issue_acc_psw r _ _ _ hx hd (he.trans (aluWrites_ok (congrArg AluOut.fault hp))), hp]
  simp only [merge_flags, Option.getD_some]

/-- SHLORI's immediate (R107). -/
theorem fld_low16 (o : BitVec 22) : BitVec.ofNat 64 (fld o.toNat 15 0) = (o.truncate 16 : BitVec 16).zeroExtend 64 := by
  apply BitVec.eq_of_toNat_eq
  simp [fld]

/-- The leading zeros of a word, as CLZ counts them (R107). -/
def leadingZeros (a : W64) : Nat := if a = 0 then 64 else 63 - a.toNat.log2

theorem log2_lt_64 (a : W64) (h : a ≠ 0) : a.toNat.log2 < 64 :=
  (Nat.log2_lt (by simpa [← BitVec.toNat_inj] using h)).2 a.isLt

theorem leadingZeros_le (a : W64) : leadingZeros a ≤ 64 := by
  unfold leadingZeros
  split <;> omega

theorem leadingZeros_eq_64 {a : W64} (h : leadingZeros a = 64) : a = 0 := by
  unfold leadingZeros at h
  split at h
  · assumption
  · omega

/-- Below its leading zeros a word has a one bit, and none above. -/
theorem leadingZeros_spec {a : W64} (h : leadingZeros a < 64) :
    a.getLsbD (63 - leadingZeros a) = true ∧ a.toNat < 2 ^ (64 - leadingZeros a) := by
  unfold leadingZeros at h ⊢
  split at h
  · omega
  next ha =>
    have hlog := log2_lt_64 a ha
    have hne : a.toNat ≠ 0 := by simpa [← BitVec.toNat_inj] using ha
    rw [if_neg ha, show 63 - (63 - a.toNat.log2) = a.toNat.log2 by omega,
      show 64 - (63 - a.toNat.log2) = a.toNat.log2 + 1 by omega]
    exact ⟨Nat.testBit_log2 hne, Nat.lt_log2_self⟩

/-- Settles O5: each glyph's evaluation is a write of ACC, with the flags that R105 gives it. -/
theorem accumulatorGlyphs : Obligations.AccumulatorGlyphs := by
  intro s hr o g x put nz least all
  refine ⟨fun r => ?shlori, fun r => ?not, fun r h => ?neg, fun r h => ?abs, fun r => ?clz, fun r => ?popc,
    fun r => ?rget⟩
  case shlori => exact issue_acc r _ rfl rfl (by rw [← fld_low16]; rfl)
  case not => exact issue_acc_nz r _ rfl rfl rfl
  case neg => exact issue_neg r rfl rfl rfl (negEval_ok h)
  case abs => exact issue_neg r rfl rfl rfl (absEval_ok h)
  case clz =>
    exact ⟨leadingZeros x.acc, leadingZeros_le _, leadingZeros_eq_64, leadingZeros_spec, issue_acc_nz r _ rfl rfl rfl⟩
  case popc =>
    have hcount : popc64 x.acc = BitVec.ofNat 64 ((List.range 64).filter (fun k => x.acc.getLsbD k)).length := by
      rw [popc64, List.countP_eq_length_filter]
    exact issue_acc_nz r _ rfl rfl (by rw [← hcount]; rfl)
  case rget =>
    refine ⟨_, fun h => ?x0, fun h => ?x1, fun h => ?fp, fun h => ?fsw, fun h => ?psw, fun h hd => ?noLoop,
      fun h hd => ?loop, fun h => ?succ, issue_acc r _ rfl rfl rfl⟩
    all_goals rw [h]
    case noLoop => exact if_pos hd
    case loop => exact if_neg hd
    all_goals rfl

/-! What a precise fault of a glyph alone on its line leaves (R76 to R80, R90). -/

/-- The record of a precise fault of the own bead, of a line of one glyph (R78, R91). -/
def preciseFault (slot cause : Nat) (sfa : W32) : FaultRec :=
  { cause := BitVec.ofNat 8 cause, slot := BitVec.ofNat 3 slot, len := 1, sfa := sfa }

/-- The SCAUSE word of such a fault (R91). -/
def preciseScause (slot cause : Nat) : W32 :=
  (BitVec.ofNat 3 slot).zeroExtend 32 <<< 13 ||| 0x100 ||| (BitVec.ofNat 8 cause).zeroExtend 32

theorem scauseOf_precise (slot cause : Nat) (sfa : W32) :
    scauseOf (preciseFault slot cause sfa) = preciseScause slot cause := by
  simp [scauseOf, preciseFault, preciseScause, flag]

theorem preciseScause_cause (slot cause : Nat) :
    preciseScause slot cause &&& 0xFF = (BitVec.ofNat 8 cause).zeroExtend 32 := by
  unfold preciseScause
  generalize BitVec.ofNat 3 slot = a
  generalize BitVec.ofNat 8 cause = b
  apply BitVec.eq_of_getLsbD_eq
  intro j hj
  interval_cases j <;> simp

/-- A ready glyph that raises a fault of its own bead takes it, and its line has issued. -/
theorem issue_raises {s : State} {hr : HandRef} {c : Instr} {g : Glyph} {k : Nat} {sfa : W32} (r : Ready s hr c g)
    (hx : hasLexit [c] = false) (he : evalGlyph (aloneEnv s hr false) c = raise k sfa) :
    issue hr true c s = takeFault (pointTo s (beadNo hr.br) hr.hand.val) (beadNo hr.br) hr.hand.val (handAt s hr).pc
      (preciseFault g.slot k sfa) := by
  rw [issue_fault r (f := { cause := k, sfa := sfa }) (by rw [hx, he]; rfl)]
  rfl

theorem noteFault_of_ne {s : State} {i : Nat} {f : FaultRec} (h : f.cause ≠ 6) : noteFault s i f = s :=
  if_neg (fun hc => h hc.1)

/-- PSW at sentinel level with both enables clear (R79). -/
theorem pswSetPl_sentinel (w : W32) : pswSetPl (w &&& ~~~0x300) 2 = (w &&& ~~~0x303) ||| 2 := by
  simp [pswSetPl, merge32, BitVec.and_assoc]

/-- Hand 0 below sentinel level, and any hand at keeper level, enters the vector of the cause (R76, R79). -/
theorem takeFault_enters {s : State} {i h : Nat} {spc : W32} {f : FaultRec} (hc : f.cause ≠ 6)
    (hl : pswPl (getHand s i h).psw = 1 ∨ (pswPl (getHand s i h).psw = 0 ∧ h = 0)) :
    takeFault s i h spc f = putHand s i h { emptied (getHand s i h) with
      st := .running, save2 := ⟨spc, (getHand s i h).psw, scauseOf f, f.sfa⟩
      psw := ((getHand s i h).psw &&& ~~~0x303) ||| 2, pc := f.cause.zeroExtend 32 <<< 6 } := by
  have hin : pswPl (getHand s i h).psw ≥ 1 ∨ h = 0 := by omega
  have hlow : ¬ pswPl (getHand s i h).psw ≥ 2 := by omega
  simp only [takeFault, noteFault_of_ne hc, if_pos hin, takeInside, if_neg hlow, pswSetPl_sentinel]
  rfl

/-- At sentinel level a fault that is not a fetch's locks the bead up (R76, R90). -/
theorem takeFault_locks {s : State} {i h : Nat} {spc : W32} {f : FaultRec} (hc : f.cause ≠ 6) (hs : f.slot ≠ 7)
    (hl : 2 ≤ pswPl (getHand s i h).psw) : takeFault s i h spc f = lockup s i h f.cause false := by
  have hin : pswPl (getHand s i h).psw ≥ 1 ∨ h = 0 := by omega
  simp only [takeFault, noteFault_of_ne hc, if_pos hin, takeInside, if_pos hl]
  exact congrArg (lockup s i h f.cause) (decide_eq_false (fun hv => hs hv.1))

theorem lockup_mem (s : State) (i h : Nat) (cause : W8) (entry : Bool) : (lockup s i h cause entry).mem = s.mem := by
  obtain ⟨bs, ts, hw⟩ := beadWork_lockup s i h cause entry
  rw [hw]

theorem lockup_hand (s : State) (i h : Nat) (cause : W8) (entry : Bool) (k : Fin 4) :
    (getHand (lockup s i h cause entry) i k.val).st = .locked := by
  have hr : List.range 4 = [0, 1, 2, 3] := rfl
  rw [getHand, lockup, getBead_modBead_same, hr]
  simp only [handOf, setHand, List.foldl_cons, List.foldl_nil]
  fin_cases k <;> simp [mapGet_mapPut_ne]

theorem lockup_word (s : State) (i h : Nat) (cause : W8) :
    (getBead (lockup s i h cause false) i).core.lockup
      = cause.zeroExtend 32 <<< 8 ||| BitVec.ofNat 32 (16 * h) ||| 1 := by
  rw [lockup, getBead_modBead_same]
  simp [flag, Nat.mul_comm]

/-- Lockup closes every endpoint of its bead (R90, R248). -/
theorem lockup_ends (s : State) (i h : Nat) (cause : W8) (entry : Bool) :
    (getBead (lockup s i h cause entry) i).ends = (getBead (closeAll s i) i).ends := by
  have hr : List.range 4 = [0, 1, 2, 3] := rfl
  rw [lockup, getBead_modBead_same, hr]
  rfl

theorem closeAll_ends (s : State) (i : Nat) :
    (getBead (closeAll s i) i).ends.sinClosed = 0xFF ∧ (getBead (closeAll s i) i).ends.vinClosed = 0xF
      ∧ (getBead (closeAll s i) i).ends.tokClosed = 0xFFFF ∧ (getBead (closeAll s i) i).ends.soutClosed = 0xFF
      ∧ (getBead (closeAll s i) i).ends.voutClosed = 0xF := by
  rw [closeAll, getBead_modBead_same, closeIns, getBead_modBead_same]
  exact ⟨BitVec.or_allOnes, BitVec.or_allOnes, BitVec.or_allOnes, rfl, rfl⟩

/-- The notices of a bead with one posted: in place of one of its source, else last (R80, R82). -/
def noticesWith (l : List Notice) (n : Notice) : List Notice :=
  if l.any (fun m => m.source == n.source) then
    l.map (fun m => if m.source = n.source then { n with word0 := n.word0 ||| 1 } else m)
  else l ++ [n]

theorem mem_noticesWith (l : List Notice) (n : Notice) :
    ∃ m ∈ noticesWith l n, m.source = n.source ∧ m.word1 = n.word1 ∧ m.word2 = n.word2 := by
  unfold noticesWith
  split
  next hq =>
    obtain ⟨m, hm, hs⟩ := List.any_eq_true.1 hq
    exact ⟨_, List.mem_map.2 ⟨m, hm, if_pos (eq_of_beq hs)⟩, rfl, rfl, rfl⟩
  · exact ⟨n, by simp, rfl, rfl, rfl⟩

/-- With no fault held for hand 0, waking it delivers none (R411). -/
theorem deliverSupervisor_none {s : State} {i : Nat} (h : (getHand s i 0).heldFaults = []) :
    deliverSupervisor s i = s := by
  simp only [deliverSupervisor, h]

/-- A notice posted where no fault is held for hand 0: it stands in the queue, and only hand 0 may have changed. -/
theorem postNotice_posts {s : State} {i : Nat} (n : Notice) (hf : (getHand s i 0).heldFaults = []) :
    Noticed (getBead (postNotice s i n) i) n.source n.word1 n.word2
      ∧ ∀ k, k ≠ 0 → getHand (postNotice s i n) i k = getHand s i k := by
  obtain ⟨b, hb, hn, hh⟩ : ∃ b, postNotice s i n = putBead s i b
      ∧ b.core.notices = noticesWith (getBead s i).core.notices n ∧ ∀ k, k ≠ 0 → handOf b k = getHand s i k := by
    unfold postNotice
    extract_lets b queued n' ns core b' x
    have hns : ns = noticesWith (getBead s i).core.notices n := by
      simp only [ns, n', queued, b, noticesWith]
      split <;> rfl
    split
    · refine ⟨endSlumber (setHand b' 0 (wakeHand x 4)), deliverSupervisor_none ?_, hns, fun k hk => ?_⟩
      · have hx : (wakeHand x 4).heldFaults = x.heldFaults := by unfold wakeHand; split <;> rfl
        rw [getHand, getBead_putBead_same]
        exact (congrArg Hand.heldFaults (handOf_setHand_same b' 0 (wakeHand x 4))).trans (hx.trans hf)
      · exact handOf_setHand_ne b' 0 k _ hk
    · exact ⟨b', rfl, hns, fun k _ => rfl⟩
  rw [hb, getBead_putBead_same]
  refine ⟨?_, fun k hk => ?_⟩
  · rw [Noticed, hn]
    exact mem_noticesWith _ n
  · rw [getHand, getBead_putBead_same, hh k hk]

/-- Hands 1 to 3 at user level stop, with the level-1 save set written and a notice posted (R76, R77, R80). -/
theorem takeFault_stops {s : State} {i h : Nat} {spc : W32} {f : FaultRec} (hc : f.cause ≠ 6)
    (hl : pswPl (getHand s i h).psw = 0) (hh : h ≠ 0) (hf : (getHand s i 0).heldFaults = []) :
    getHand (takeFault s i h spc f) i h = { emptied (getHand s i h) with
        st := .stopped (if f.cause = 0x0D then .brk else .fault)
        save1 := ⟨spc, (getHand s i h).psw, scauseOf f, f.sfa⟩ }
      ∧ Noticed (getBead (takeFault s i h spc f) i) h spc f.sfa ∧ (takeFault s i h spc f).mem = s.mem := by
  have hout : ¬ (pswPl (getHand s i h).psw ≥ 1 ∨ h = 0) := by omega
  obtain ⟨bs, ts, hw⟩ := beadWork_takeFault s i h spc f
  refine (and_assoc.1 ⟨?_, by rw [hw]⟩)
  simp only [takeFault, noteFault_of_ne hc, if_neg hout, stopNotice]
  obtain ⟨hn, hk⟩ := postNotice_posts (s := putHand s i h _) (i := i) _
    ((congrArg Hand.heldFaults (getHand_putHand_ne s i h i 0 _ (.inr (Ne.symm hh)))).trans hf)
  exact ⟨(hk h hh).trans (getHand_putHand_same s i h _), hn⟩

/-- A glyph of a slot, alone on its line, raises a fault of its own bead. -/
structure RaisesAt (s : State) (hr : HandRef) (c : Instr) (slot cause : Nat) (sfa : W32) : Prop where
  runs : exec c s = .next (issue hr true c s)
  stays : hasLexit [c] = false
  slot_eq : ∀ g, glyphOf c = some g → g.slot = slot
  raises : evalGlyph (aloneEnv s hr false) c = raise cause sfa

section Raising
variable {s : State} {hr : HandRef} {c : Instr} {g : Glyph} {slot cause : Nat} {sfa : W32}

theorem RaisesAt.takes (q : RaisesAt s hr c slot cause sfa) (r : Ready s hr c g) :
    exec c s = .next (takeFault (pointTo s (beadNo hr.br) hr.hand.val) (beadNo hr.br) hr.hand.val (handAt s hr).pc
      (preciseFault slot cause sfa)) := by
  rw [q.runs, issue_raises r q.stays q.raises, q.slot_eq g r.glyph]

theorem RaisesAt.slot_ne (q : RaisesAt s hr c slot cause sfa) (r : Ready s hr c g) :
    (preciseFault slot cause sfa).slot ≠ 7 := by
  have hle := glyphOf_slot r.glyph
  rw [q.slot_eq g r.glyph] at hle
  show BitVec.ofNat 3 slot ≠ 7
  interval_cases slot <;> decide

theorem handAt_pointTo (s : State) (hr : HandRef) :
    getHand (pointTo s (beadNo hr.br) hr.hand.val) (beadNo hr.br) hr.hand.val = handAt s hr := getHand_pointTo s _ _ _

/-- The fault at user level of hands 1 to 3 (R76, R77, R80). -/
theorem RaisesAt.stops (q : RaisesAt s hr c slot cause sfa) (r : Ready s hr c g) (hc : BitVec.ofNat 8 cause ≠ 6)
    (hl : pswPl (handAt s hr).psw = 0) (hh : hr.hand ≠ 0) (hf : Unfaulted s hr) :
    ∃ t, exec c s = .next t
      ∧ handAt t hr = { emptied (handAt s hr) with
          st := .stopped (if BitVec.ofNat 8 cause = 0x0D then .brk else .fault)
          save1 := ⟨(handAt s hr).pc, (handAt s hr).psw, preciseScause slot cause, sfa⟩ }
      ∧ Noticed (beadOf t hr) hr.hand.val (handAt s hr).pc sfa ∧ t.mem = s.mem := by
  have hp := takeFault_stops (spc := (handAt s hr).pc) (f := preciseFault slot cause sfa) hc
    ((congrArg (fun x => pswPl (Hand.psw x)) (handAt_pointTo s hr)).trans hl) (fun h => hh (Fin.ext h))
    ((congrArg Hand.heldFaults (getHand_pointTo s _ hr.hand.val 0)).trans hf)
  rw [handAt_pointTo, scauseOf_precise] at hp
  exact ⟨_, q.takes r, hp⟩

/-- The fault of hand 0 at user level, and of any hand at keeper level (R76, R79). -/
theorem RaisesAt.enters (q : RaisesAt s hr c slot cause sfa) (r : Ready s hr c g) (hc : BitVec.ofNat 8 cause ≠ 6)
    (hl : pswPl (handAt s hr).psw = 1 ∨ (pswPl (handAt s hr).psw = 0 ∧ hr.hand = 0)) :
    exec c s = .next (putHand (pointTo s (beadNo hr.br) hr.hand.val) (beadNo hr.br) hr.hand.val
      { emptied (handAt s hr) with
        st := .running, save2 := ⟨(handAt s hr).pc, (handAt s hr).psw, preciseScause slot cause, sfa⟩
        psw := ((handAt s hr).psw &&& ~~~0x303) ||| 2, pc := (BitVec.ofNat 8 cause).zeroExtend 32 <<< 6 }) := by
  have hp := takeFault_enters (spc := (handAt s hr).pc) (f := preciseFault slot cause sfa) hc
    (s := pointTo s (beadNo hr.br) hr.hand.val) (i := beadNo hr.br) (h := hr.hand.val)
    (by rw [handAt_pointTo]; exact hl.imp_right (fun h => ⟨h.1, congrArg Fin.val h.2⟩))
  rw [handAt_pointTo, scauseOf_precise] at hp
  rw [q.takes r, hp]
  rfl

/-- The fault at sentinel level (R76, R90). -/
theorem RaisesAt.locks (q : RaisesAt s hr c slot cause sfa) (r : Ready s hr c g) (hc : BitVec.ofNat 8 cause ≠ 6)
    (hl : 2 ≤ pswPl (handAt s hr).psw) :
    exec c s = .next (lockup (pointTo s (beadNo hr.br) hr.hand.val) (beadNo hr.br) hr.hand.val (BitVec.ofNat 8 cause)
      false) := by
  rw [q.takes r, takeFault_locks hc (q.slot_ne r) (by rw [handAt_pointTo]; exact hl)]
  rfl

/-- A fault that is neither a parity error nor BREAK, at each level of privilege. -/
theorem RaisesAt.faultsAs (q : RaisesAt s hr c slot cause sfa) (r : Ready s hr c g) (hc : BitVec.ofNat 8 cause ≠ 6)
    (hb : BitVec.ofNat 8 cause ≠ 0x0D) : FaultsAs s hr c (preciseScause slot cause) sfa where
  stops hl hh hf := by
    have hs := q.stops r hc hl hh hf
    rwa [if_neg hb] at hs
  enters hl := by
    rw [q.enters r hc hl, preciseScause_cause]
  locks hl := ⟨_, q.locks r hc hl, fun k => lockup_hand _ _ _ _ _ k, lockup_mem _ _ _ _ _⟩

end Raising

/-! The faults of O29: an S-slot operation's (R43), BRK's (R109) and that of a misaligned local operand (R101). -/

/-- S-slot operations raise DIVZ and OVF alone (R43). -/
theorem aluTraps_cause {op : AluOp} {psw : W32} {a v : W64} {k : W8} (h : aluTraps op psw a v = some k) :
    k = 0x0B ∨ k = 0x0C := by
  unfold aluTraps at h
  grind

theorem raisesAt_aluGlyph {op : AluOp} {s : State} {hr : HandRef} {o : BitVec 22} {v : W64} {k : W8}
    (ho : OperandIs s hr o v) (ht : aluTraps op (handAt s hr).psw (handAt s hr).acc v = some k) :
    RaisesAt s hr (aluGlyph op hr true o) 1 k.toNat 0 where
  runs := exec_aluGlyph op hr o s
  stays := hasLexit_aluGlyph op hr o
  slot_eq g hg := by cases op <;> (injection hg with hg; rw [← hg])
  raises := (evalGlyph_aluGlyph _ op hr o).trans ((evalAlu_operand false _ op ho).trans
    (aluWrites_fault (by rw [alu_eq, ht]; rfl)))

theorem raisesAt_brk (s : State) (hr : HandRef) (o : BitVec 22) :
    RaisesAt s hr (.brk hr true o) 5 0x0D (BitVec.ofNat 32 (opdField o)) where
  runs := rfl
  stays := rfl
  slot_eq g hg := by injection hg with hg; rw [← hg]
  raises := rfl

/-- A local address that its size does not divide raises FBOUND (R101). -/
theorem checkLocal_misaligned (e : Env) (a : W32) (n : Nat) (h : a.toNat % n ≠ 0) :
    checkLocal e a.toNat n n = raise 0x05 a := by
  have hb : (a.toNat % n != 0) = true := by simpa using h
  rw [checkLocal, hb, Bool.or_true, Bool.true_or, if_pos rfl, BitVec.ofNat_toNat, BitVec.setWidth_eq]

theorem evalLoad_misaligned {e : Env} {o : BitVec 22} {n : Nat} (c : Instr) (put : List W8 → Eff) (hm : opdMode o ≤ 3)
    (h : (localEa e.x o).toNat % n ≠ 0) : evalLoad e c o n put = raise 0x05 (localEa e.x o) := by
  have h5 : opdMode o ≠ 5 := by omega
  rw [evalLoad, operandBytes, if_neg h5, localLoad, checkLocal_misaligned e _ n h]
  rfl

theorem evalLd_misaligned {e : Env} {o : BitVec 22} {n : Nat} (c : Instr) (signed : Bool) (hm : opdMode o ≤ 3)
    (h : (localEa e.x o).toNat % n ≠ 0) : evalLd e c o n signed = raise 0x05 (localEa e.x o) := by
  have h4 : opdMode o ≠ 4 := by omega
  rw [evalLd, if_neg h4, evalLoad_misaligned c _ hm h]

theorem evalSt_misaligned {e : Env} {o : BitVec 22} {bs : List W8} (c : Instr) (hm : opdMode o ≤ 3)
    (h : (localEa e.x o).toNat % bs.length ≠ 0) : evalSt e c o bs = raise 0x05 (localEa e.x o) := by
  have h5 : opdMode o ≠ 5 := by omega
  simp only [evalSt, if_neg h5, checkLocal_misaligned e _ _ h]
  rfl

section Misaligned
variable {s : State} {hr : HandRef} {r : XReg} {o : BitVec 22}

theorem raisesAt_load {p : Instr × Nat × Nat × LoadDest} (hp : p ∈ memLoads hr r o) (hm : opdMode o ≤ 3)
    (h : (localEa (handAt s hr) o).toNat % p.2.2.1 ≠ 0) :
    RaisesAt s hr p.1 p.2.1 0x05 (localEa (handAt s hr) o) := by
  simp only [memLoads, List.mem_cons, List.not_mem_nil, or_false] at hp
  rcases hp with rfl | rfl | rfl | rfl | rfl | rfl | rfl | rfl | rfl
  all_goals refine ⟨rfl, rfl, fun g hg => by injection hg with hg; rw [← hg], ?_⟩
  iterate 7 exact evalLd_misaligned _ _ hm h
  iterate 2 exact evalLoad_misaligned _ _ hm h

theorem raisesAt_store {p : Instr × Nat × List W8} (hp : p ∈ memStores (handAt s hr) hr r o) (hm : opdMode o ≤ 3)
    (h : (localEa (handAt s hr) o).toNat % p.2.2.length ≠ 0) :
    RaisesAt s hr p.1 p.2.1 0x05 (localEa (handAt s hr) o) := by
  simp only [memStores, List.mem_cons, List.not_mem_nil, or_false] at hp
  rcases hp with rfl | rfl | rfl | rfl | rfl | rfl
  all_goals exact ⟨rfl, rfl, fun g hg => by injection hg with hg; rw [← hg], evalSt_misaligned _ hm h⟩

end Misaligned

theorem memLoads_slot_le {hr : HandRef} {r : XReg} {o : BitVec 22} : ∀ p ∈ memLoads hr r o, p.2.1 ≤ 1 := by
  simp [memLoads]

theorem memStores_slot_le {x : Hand} {hr : HandRef} {r : XReg} {o : BitVec 22} :
    ∀ p ∈ memStores x hr r o, p.2.1 ≤ 1 := by
  simp [memStores]

/-- The SCAUSE words of FBOUND at the two slots with local operands (R91). -/
theorem preciseScause_fbound {n : Nat} (h : n ≤ 1) : preciseScause n 0x05 = BitVec.ofNat 32 (0x2000 * n + 0x105) := by
  interval_cases n <;> decide

/-- Settles O29: each glyph raises its fault (`RaisesAt`), which its hand takes as its level says. -/
theorem faultEntry : Obligations.FaultEntry := by
  refine ⟨?alu, ?brk, ?fbound⟩
  case alu =>
    intro op s hr o g v cause x scause r ho ht
    have q := raisesAt_aluGlyph ho ht
    have hcode : BitVec.ofNat 8 cause.toNat = cause := by simp
    have hscause : preciseScause 1 cause.toNat = scause := by rw [preciseScause, hcode]; rfl
    obtain ⟨h6, hD⟩ : cause ≠ 6 ∧ cause ≠ 0x0D := by
      rcases aluTraps_cause ht with rfl | rfl <;> decide
    rw [← hcode] at h6 hD
    refine ⟨fun hl hh hf => ?_, fun hl => ?_, fun hl => ?_⟩
    · rw [← hscause]
      exact (q.faultsAs r h6 hD).stops hl hh hf
    · rw [q.enters r h6 hl, hscause, hcode]
    · have hend := closeAll_ends (pointTo s (beadNo hr.br) hr.hand.val) (beadNo hr.br)
      rw [← lockup_ends _ _ hr.hand.val (BitVec.ofNat 8 cause.toNat) false] at hend
      obtain ⟨hsin, hvin, htok, hsout, hvout⟩ := hend
      exact ⟨_, q.locks r h6 hl, fun h => lockup_hand _ _ _ _ _ h, (lockup_word _ _ _ _).trans (by rw [hcode]),
        hsin, hvin, htok, hsout, hvout, lockup_mem _ _ _ _ _⟩
  case brk =>
    intro s hr o g x k r _
    have q := raisesAt_brk s hr o
    refine ⟨fun hl hh hf => ?_, fun hl hk => ?_, fun hl => ?_⟩
    · obtain ⟨t, ht, hx, hn, hm⟩ := q.stops r (by decide) hl hh hf
      refine ⟨t, ht, ?_, ?_, ?_, ?_, ?_, hn, hm⟩ <;> rw [hx] <;> rfl
    · have hpl : pswPl x.psw = 0 ∨ pswPl x.psw = 1 := by omega
      exact q.enters r (by decide) (hpl.symm.imp_right (fun h0 => ⟨h0, hk.resolve_left (by rw [h0]; decide)⟩))
    · exact ⟨_, q.locks r (by decide) hl, fun h => lockup_hand _ _ _ _ _ h, lockup_mem _ _ _ _ _⟩
  case fbound =>
    intro s hr r o g x a
    refine ⟨fun p hp hm hready ha => ?_, fun p hp hm hready ha => ?_⟩
    · rw [← preciseScause_fbound (memLoads_slot_le p hp)]
      exact (raisesAt_load hp hm ha).faultsAs hready (by decide) (by decide)
    · rw [← preciseScause_fbound (memStores_slot_le p hp)]
      exact (raisesAt_store hp hm ha).faultsAs hready (by decide) (by decide)

/-! The line of a V glyph that writes a row (R122, R123, R132, R246). -/

theorem exec_laneGlyph (op : VOp) (hr : HandRef) (o : BitVec 22) (s : State) :
    exec (laneGlyph op hr true o) s = .next (issue hr true (laneGlyph op hr true o) s) := by
  cases op <;> rfl

theorem hasLexit_laneGlyph (op : VOp) (hr : HandRef) (o : BitVec 22) : hasLexit [laneGlyph op hr true o] = false := by
  cases op <;> rfl

theorem effLexit_laneGlyph (op : VOp) (hr : HandRef) (o : BitVec 22) (acc : W64) (x0 x1 : W32) :
    effLexit [.act (laneGlyph op hr true o) acc x0 x1] = false := by
  cases op <;> rfl

theorem drawsFree_laneGlyph (op : VOp) (hr : HandRef) (o : BitVec 22) : drawsFree (laneGlyph op hr true o) = false := by
  cases op <;> rfl

theorem glyphOf_laneGlyph (op : VOp) (hr : HandRef) (o : BitVec 22) :
    ∃ g, glyphOf (laneGlyph op hr true o) = some g ∧ g.slot = 2 := by
  cases op <;> exact ⟨_, rfl, rfl⟩

/-- A lane-wise glyph takes the rows of bound in-endpoints that it reads (R246). -/
theorem performAct_laneGlyph (old s : State) (i h : Nat) (pc : W32) (len : Nat) (succ : W32) (x : Hand) (out : Bool)
    (op : VOp) (hr : HandRef) (o : BitVec 22) (acc : W64) (x0 x1 : W32) :
    performAct old s i h pc len succ x out (laneGlyph op hr true o) acc x0 x1
      = takeRows s i (useOf ⟨s, i, h, x, pc, len, succ⟩ o (laneReads op).1 (laneReads op).2).reads := by
  cases op <;> rfl

theorem evalGlyph_laneGlyph (e : Env) (op : VOp) (hr : HandRef) (o : BitVec 22) (hk : ∀ k, op = .cmp k → k = rSp o) :
    evalGlyph e (laneGlyph op hr true o)
      = evalLanes e (laneGlyph op hr true o) o op (laneReads op).1 (laneReads op).2 (laneReads op).2 := by
  cases op
  case cmp k => rw [hk k rfl]; rfl
  all_goals rfl

/-- A glyph outside the A and S slots loads and stores no device address, and is no atomic (R106, R107). -/
theorem act_not_read {c : Instr} {g : Glyph} (h : glyphOf c = some g) (hs : 2 ≤ g.slot) (acc : W64) (x0 x1 : W32) :
    isReadEff (.act c acc x0 x1) = false := by
  have h0 : g.slot ≠ 0 := by omega
  have h1 : g.slot ≠ 1 := by omega
  simp [isReadEff, isDevLoad, h, h0, h1]

theorem act_not_atomic {c : Instr} {g : Glyph} (h : glyphOf c = some g) (hs : 2 ≤ g.slot) (acc : W64) (x0 x1 : W32) :
    isLocalAtomic (.act c acc x0 x1) = false := by
  have h1 : g.slot ≠ 1 := by omega
  simp [isLocalAtomic, h, h1]

theorem needs_act {c : Instr} {g : Glyph} (h : glyphOf c = some g) (hs : 2 ≤ g.slot) (s : State) (i : Nat)
    (n : LineNeeds) (acc : W64) (x0 x1 : W32) : effNeeds s i n (.act c acc x0 x1) = n := by
  have h0 : g.slot ≠ 0 := by omega
  have h1 : g.slot ≠ 1 := by omega
  simp [effNeeds, isDevLoad, isDevStore, h, h0, h1]

/-- A line whose one glyph has a further effect outside the A and S slots performs it. -/
theorem applyEffs_act {c : Instr} {g : Glyph} (h : glyphOf c = some g) (hs : 2 ≤ g.slot) (s : State) (i k : Nat)
    (pc : W32) (len : Nat) (succ : W32) (x : Hand) (out : Bool) (acc : W64) (x0 x1 : W32) :
    applyEffs s i k pc len succ x out [.act c acc x0 x1] = performAct s s i k pc len succ x out c acc x0 x1 := by
  simp [applyEffs, act_not_read h hs, act_not_atomic h hs, applyEff]

/-- A row's write to a tile needs its bound out-endpoints and nothing else (R246). -/
theorem needs_row {c : Instr} {g : Glyph} (h : glyphOf c = some g) (hs : 2 ≤ g.slot) (s : State) (i t r : Nat) (d : Row)
    (sc v : W32) (acc : W64) (x0 x1 : W32) :
    [Eff.row t r d sc, .fswOr v, .act c acc x0 x1].foldl (effNeeds s i) {}
      = { sends := boundOuts (getBead s i) t } := by
  rw [List.foldl_cons, List.foldl_cons, List.foldl_cons, needs_act h hs]
  rfl

/-- An out-endpoint with a credit has room for the one row that a V glyph sends it (R246). -/
theorem roomStop_row {s : State} {i t : Nat} {l : List Eff} (hready : outReady (getBead s i) t = true)
    (hn : l.foldl (effNeeds s i) {} = { sends := boundOuts (getBead s i) t }) : roomStop s i l = none := by
  have hnodup : (boundOuts (getBead s i) t).Nodup := List.nodup_range.filter _
  have hcredit : (boundOuts (getBead s i) t).any
      (fun v => decide ((boundOuts (getBead s i) t).count v > voutCredits (getBead s i) v)) = false := by
    rw [List.any_eq_false]
    intro v hv
    have hpos := of_decide_eq_true (List.all_eq_true.1 hready v hv)
    have hone := List.nodup_iff_count_le_one.1 hnodup v
    simp only [decide_eq_true_eq]
    omega
  simp [roomStop, hn, hcredit]

/-- A V glyph whose checks pass finds the out-endpoints of its destination open and ready (R246, R249). -/
theorem outReady_of_vCheck {e : Env} {u : VUse} {ok : Bool} {t r : Nat} (hd : u.dest = some (t, r))
    (h : vCheck e u ok = .ok ()) : outReady (envBead e) t = true := by
  have hout : checkOut (envBead e) t = .ok () := by
    unfold vCheck at h
    simp only [hd] at h
    split at h
    · cases h
    · cases hc : checkOut (envBead e) t with
      | ok u => rfl
      | error k => rw [hc] at h; cases h
  unfold checkOut at hout
  split at hout
  · cases hout
  · split at hout
    · assumption
    · cases hout

/-- A V glyph alone on its line that writes a row of its tile TD, its flags and the rows it takes (R132, R246). -/
theorem issue_vWrites {s : State} {hr : HandRef} {c : Instr} {g : Glyph} {o : BitVec 22} {u : VUse} {ok : Bool}
    {data : Row} {scale flags : W32} {reads : List (Nat × Nat × Nat)} (r : Ready s hr c g) (hslot : 2 ≤ g.slot)
    (hx : hasLexit [c] = false) (hl : ∀ a b d, effLexit [.act c a b d] = false) (hd : drawsFree c = false)
    (hdest : u.dest = some (rTd o, vRow (handAt s hr) o))
    (hu : VFits s hr u ok)
    (he : evalGlyph (aloneEnv s hr false) c = vWrites (aloneEnv s hr false) c o data scale flags)
    (hact : ∀ t acc x0 x1, performAct (retire s hr id) t (beadNo hr.br) hr.hand.val (handAt s hr).pc 1
      (successor (handAt s hr) (handAt s hr).pc 1 false) (handAt s hr) false c acc x0 x1
        = takeRows t (beadNo hr.br) reads) :
    (Host.Outcome.next (issue hr true c s) : Host.Outcome State Fault Refusal)
      = .next (vDone s hr (rTd o) (vRow (handAt s hr) o) data scale flags reads) := by
  have hroom := roomStop_row (outReady_of_vCheck hdest hu) (needs_row r.glyph hslot s _ _ (vRow (handAt s hr) o) data
    scale flags (handAt s hr).acc (handAt s hr).x0 (handAt s hr).x1)
  refine next_writes r he hx hd (hl _ _ _) rfl hroom _ ?_
  have hread := act_not_read r.glyph hslot (handAt s hr).acc (handAt s hr).x0 (handAt s hr).x1
  have hatom := act_not_atomic r.glyph hslot (handAt s hr).acc (handAt s hr).x0 (handAt s hr).x1
  have hrow : isReadEff (.row (rTd o) (vRow (handAt s hr) o) data scale) = false := rfl
  have hfsw : isReadEff (.fswOr flags) = false := rfl
  have hrow' : isLocalAtomic (.row (rTd o) (vRow (handAt s hr) o) data scale) = false := rfl
  have hfsw' : isLocalAtomic (.fswOr flags) = false := rfl
  simp only [applyEffs, aloneEnv, actOf, List.filter_cons, List.filter_nil, hread, hatom, hrow, hfsw, hrow', hfsw',
    Bool.not_false, Bool.and_self, if_true, Bool.false_eq_true, if_false, List.foldl_cons, List.foldl_nil, applyEff]
  exact hact _ _ _ _

/-- The row and flags that a lane-wise operation gives for the rows that its glyph names (R132). -/
def laneResult (s : State) (hr : HandRef) (op : VOp) (o : BitVec 22) : Row × W32 :=
  rowEval (tileFmt (beadOf s hr) (rTd o)) (rndOf (handAt s hr).fsw) op (vData s hr (rTa o) (vRow (handAt s hr) o))
    (vData s hr (rTb o) (vRowB (handAt s hr) o)) (vData s hr (rTd o) (vRow (handAt s hr) o))

/-- A lane-wise glyph whose checks pass writes that row (R132). -/
theorem evalLanes_ok {s : State} {hr : HandRef} {o : BitVec 22} (c : Instr) (op : VOp)
    (h : VFits s hr (laneUse s hr op o) (laneShapes (beadOf s hr) op o)) :
    evalLanes (aloneEnv s hr false) c o op (laneReads op).1 (laneReads op).2 (laneReads op).2
      = vWrites (aloneEnv s hr false) c o (laneResult s hr op o).1
          (tileRow (beadOf s hr) (rTd o) (vRow (handAt s hr) o)).scale (laneResult s hr op o).2 := by
  unfold evalLanes
  exact congrArg (fun k => k >>= fun _ => _) h

/-! The lanes of a row and the integer operations on them (R122, R132). -/

theorem packLanes_lt (w : Nat) (l : List Nat) : packLanes w l < 2 ^ (w * l.length) := by
  induction l with
  | nil => simp [packLanes]
  | cons v vs ih =>
    have hv : v % 2 ^ w < 2 ^ w := Nat.mod_lt _ (Nat.two_pow_pos w)
    rw [packLanes, List.length_cons, Nat.mul_succ, Nat.add_comm (w * vs.length), Nat.pow_add]
    calc v % 2 ^ w + 2 ^ w * packLanes w vs < 2 ^ w * (packLanes w vs + 1) := by rw [Nat.mul_succ]; omega
      _ ≤ 2 ^ w * 2 ^ (w * vs.length) := Nat.mul_le_mul_left _ ih

theorem packLanes_lane (w : Nat) (l : List Nat) (j : Nat) (hj : j < l.length) :
    packLanes w l / 2 ^ (w * j) % 2 ^ w = l[j] % 2 ^ w := by
  induction l generalizing j with
  | nil => simp at hj
  | cons v vs ih =>
    cases j with
    | zero => simp [packLanes]
    | succ j =>
      have hdiv : packLanes w (v :: vs) / 2 ^ w = packLanes w vs := by
        rw [packLanes, Nat.add_mul_div_left _ _ (Nat.two_pow_pos w),
          Nat.div_eq_of_lt (Nat.mod_lt _ (Nat.two_pow_pos w)), Nat.zero_add]
      rw [Nat.mul_succ, Nat.add_comm (w * j), Nat.pow_add, ← Nat.div_div_eq_div_mul, hdiv]
      simpa using ih j (by simpa using hj)

/-- A lane of a row of packed lanes. -/
theorem lane_packed {w : Nat} {l : List Nat} {j : Nat} (hj : j < l.length) (hw : w * l.length ≤ 512) :
    lane w (BitVec.ofNat 512 (packLanes w l)) j = l[j] % 2 ^ w := by
  have hlt : packLanes w l < 2 ^ 512 := (packLanes_lt w l).trans_le (pow_le_pow_right₀ one_le_two hw)
  rw [lane, BitVec.toNat_ofNat, Nat.mod_eq_of_lt hlt, packLanes_lane w l j hj]

theorem flagsOf_zero {l : List (Nat × W32)} (h : ∀ p ∈ l, p.2 = 0) : flagsOf l = 0 := by
  unfold flagsOf
  induction l with
  | nil => rfl
  | cons p l ih =>
    rw [List.map_cons, List.foldl_cons, h p List.mem_cons_self]
    exact ih (fun q hq => h q (List.mem_cons_of_mem p hq))

/-- The two plain integer formats are INT16 and INT8, and their lanes fill a row (R122). -/
theorem intFormat {f : Nat} (h : f = 3 ∨ f = 6) : fmtFloat f = none ∧ fmtBits f * fmtLanes f = 512 := by
  rcases h with rfl | rfl <;> decide

/-- Lane j of an integer operation's row. -/
theorem lane_rowEval {f : Nat} (hf : f = 3 ∨ f = 6) (r : Rnd) (op : VOp) (a b d : Row) {j : Nat} (hj : j < fmtLanes f) :
    lane (fmtBits f) (rowEval f r op a b d).1 j
      = (intLane (fmtBits f) r.sat op (lane (fmtBits f) a j) (lane (fmtBits f) b j)).1 % 2 ^ fmtBits f := by
  obtain ⟨hnone, hfill⟩ := intFormat hf
  rw [rowEval, lane_packed (by simpa using hj) (by simp [hfill])]
  simp [laneEval, hnone]

/-- An integer operation's row sets the flags of its lanes alone. -/
theorem rowEval_flags {f : Nat} (hf : f = 3 ∨ f = 6) (r : Rnd) (op : VOp) (a b d : Row)
    (h : ∀ x y, (intLane (fmtBits f) r.sat op x y).2 = 0) : (rowEval f r op a b d).2 = 0 := by
  obtain ⟨hnone, -⟩ := intFormat hf
  refine flagsOf_zero (fun p hp => ?_)
  obtain ⟨j, -, rfl⟩ := List.mem_map.1 hp
  simp [laneEval, hnone, h]

/-- Without saturation an integer result wraps and sets no flag (R132). -/
theorem intFit_wraps (w : Nat) (i : Int) : intFit w false i = ((i % 2 ^ w).toNat, 0) := rfl

theorem intFit_cast (w : Nat) (i : Int) : (((i % 2 ^ w).toNat % 2 ^ w : Nat) : Int) = i % 2 ^ w := by
  have hpos : (0 : Int) < 2 ^ w := by positivity
  rw [Int.natCast_mod, Int.toNat_of_nonneg (Int.emod_nonneg i hpos.ne')]
  push_cast
  exact Int.emod_emod_of_dvd i dvd_rfl

/-- The signed reading of a lane agrees with the lane modulo its width. -/
theorem toInt_modEq (w a : Nat) : (BitVec.ofNat w a).toInt ≡ a [ZMOD 2 ^ w] := by
  rw [BitVec.toInt_ofNat']
  exact_mod_cast Int.bmod_emod

theorem lane_lt (w : Nat) (r : Row) (j : Nat) : lane w r j < 2 ^ w := Nat.mod_lt _ (Nat.two_pow_pos w)

/-- In an integer format VADD, VSUB and VMUL wrap in each lane (R132). -/
theorem intLane_wraps (w x y : Nat) :
    (intLane w false .add x y).1 % 2 ^ w = (x + y) % 2 ^ w
      ∧ ((intLane w false .sub x y).1 % 2 ^ w + y) % 2 ^ w = x % 2 ^ w
      ∧ (intLane w false .mul x y).1 % 2 ^ w = x * y % 2 ^ w := by
  have hx := toInt_modEq w x
  have hy := toInt_modEq w y
  refine ⟨?_, ?_, ?_⟩ <;> apply Int.natCast_inj.1 <;> simp only [intLane, intFit_wraps]
  · rw [intFit_cast]
    push_cast
    exact hx.add hy
  · rw [Int.natCast_mod, Int.natCast_add, intFit_cast]
    push_cast
    rw [Int.emod_add_emod]
    exact ((hx.sub hy).add_right (y : Int)).trans (by rw [sub_add_cancel])
  · rw [intFit_cast]
    push_cast
    exact hx.mul hy

/-- Settles O23: the glyph writes the row of its operation, and the integer lanes are computed modulo their width. -/
theorem laneGlyphs : Obligations.LaneGlyphs := by
  refine ⟨?glyph, ?wraps⟩
  case glyph =>
    intro op s hr o g b x f r v hk hready hfits _
    obtain ⟨g', hg', hslot⟩ := glyphOf_laneGlyph op hr o
    obtain rfl : g' = g := Option.some.inj (hg'.symm.trans hready.glyph)
    rw [exec_laneGlyph]
    exact issue_vWrites hready hslot.ge (hasLexit_laneGlyph op hr o) (effLexit_laneGlyph op hr o)
      (drawsFree_laneGlyph op hr o) rfl hfits ((evalGlyph_laneGlyph _ op hr o hk).trans (evalLanes_ok _ op hfits))
      (fun t acc x0 x1 => performAct_laneGlyph _ t _ _ _ _ _ _ _ op hr o acc x0 x1)
  case wraps =>
    intro op f r a b d j hf hsat hj w n
    have hlane : n = _ := lane_rowEval hf r op a b d hj
    rw [hsat] at hlane
    obtain ⟨hadd, hsub, hmul⟩ := intLane_wraps w (lane w a j) (lane w b j)
    refine ⟨?_, ?_, ?_, ?_⟩
    · rintro rfl
      exact hlane.trans hadd
    · rintro rfl
      rw [hlane, hsub, Nat.mod_eq_of_lt (lane_lt w a j)]
    · rintro rfl
      exact hlane.trans hmul
    · intro hop
      refine rowEval_flags hf r op a b d (fun x y => ?_)
      rw [hsat]
      rcases hop with rfl | rfl | rfl <;> rfl

/-! Lines that draw free values (log 1). -/

/-- A line that draws free values issues like one that draws none, from the state in which they have been drawn. -/
theorem lineIssues_draws {s : State} {i h : Nat} {pc : W32} {len : Nat} {succ : W32} {c : Instr} {n : Nat}
    {l : List Eff} (hr : HandRef) (hd : drawsFree c = true) :
    lineIssues s i h pc len succ [c] [(n, { effs := l })]
      = lineIssues (drawn s) i h pc len succ [.nop hr true 0] [(n, { effs := l })] := by
  simp only [lineIssues, List.any_cons, List.any_nil, hd, Bool.true_or, if_true]
  rfl

/-- A ready glyph that draws free values and writes `l` leaves what applying `l` to the retired line gives. -/
theorem issue_draws {s : State} {hr : HandRef} {c : Instr} {g : Glyph} {l : List Eff} (r : Ready s hr c g)
    (he : evalGlyph (aloneEnv s hr false) c = writes l) (hx : hasLexit [c] = false) (hd : drawsFree c = true)
    (hl : effLexit l = false) (hlost : lostOf l = none) (hroom : roomStop s (beadNo hr.br) l = none) :
    issue hr true c s = applyEffs (retireTo (drawn s) hr (jumpOf l) id) (beadNo hr.br) hr.hand.val (handAt s hr).pc 1
      (successor (handAt s hr) (handAt s hr).pc 1 false) (handAt s hr) false l := by
  rw [issue_ok r (o := { effs := l }) (by rw [hx, he]; rfl) hroom, lineIssues_draws hr hd]
  exact lineIssues_alone (drawn s) hr _ _ l _ rfl hl hlost

/-! What the nib glyphs evaluate to (R135 to R140). -/

theorem grp_val (k : Fin 4) : grp k.val = k := Fin.ext (Nat.mod_eq_of_lt k.isLt)

/-- A drain takes one entry of the range scoreboard (R138, R166). -/
theorem roomStop_nib {s : State} {i : Nat} (g : Fin 4) (cells : Option (SMap Cell)) (cond : Group)
    {drain : Option NibDrain} (h : drain.isSome = true → heldEntries (getBead s i) < 8) :
    roomStop s i [.nib g cells cond drain none] = none := by
  cases drain with
  | none => exact roomStop_none rfl
  | some d =>
    have hlt := h rfl
    have hfew : ¬ 1 + heldEntries (getBead s i) > 8 := by omega
    simp [roomStop, effNeeds, hfew]

theorem applyEffs_nib (s : State) (i h : Nat) (pc : W32) (len : Nat) (succ : W32) (x : Hand) (g : Fin 4)
    (cells : Option (SMap Cell)) (cond : Group) (drain : Option NibDrain) (lost : Option W32) :
    applyEffs s i h pc len succ x false [.nib g cells cond drain lost]
      = modBead s i (fun b => putNib b g cells cond drain) :=
  rfl

section Nib
variable {s : State} {hr : HandRef} {o : BitVec 22}

theorem evalNopen_ok (hmay : NibMay s hr (opdField o)) (hfree : NibFree s hr) :
    evalNopen (aloneEnv s hr false) o = writes [.nib (grp (opdField o)) (some []) ⟨true, false⟩ none none] := by
  have hmay' : nibGranted (aloneEnv s hr false) (opdField o) = true := hmay
  have hfree' : nibWaits (aloneEnv s hr false) = false := hfree
  simp [evalNopen, hmay', hfree']

theorem evalNset_ok (c : Instr) (hmay : NibMay s hr (opdField o)) (hacc : (handAt s hr).acc &&& ngdReserved = 0) :
    evalNset (aloneEnv s hr false) o c = writes [actOf (aloneEnv s hr false) c] := by
  have hmay' : nibGranted (aloneEnv s hr false) (opdField o) = true := hmay
  have hacc' : (aloneEnv s hr false).x.acc &&& ngdReserved = 0 := hacc
  simp [evalNset, hmay', hacc']

theorem evalNget_ok (hmay : NibMay s hr (opdField o)) :
    evalNget (aloneEnv s hr false) o = writes [.acc (nibDesc (beadOf s hr) (opdField o))] := by
  have hmay' : nibGranted (aloneEnv s hr false) (opdField o) = true := hmay
  simp [evalNget, hmay']
  rfl

theorem evalNdrn_ok (hmay : NibMay s hr (opdField o)) (hfree : NibFree s hr)
    (hfits : DrainFits s hr (nibDesc (beadOf s hr) (opdField o)))
    (hperr : (nibGroup (beadOf s hr) (opdField o)).perr = false) :
    evalNdrn (aloneEnv s hr false) o = writes [.nib (grp (opdField o)) none ⟨false, false⟩
      (some (drainOf (aloneEnv s hr false) (opdField o) (nibDesc (beadOf s hr) (opdField o))
        (cellsOf (beadOf s hr) (opdField o)))) none] := by
  obtain ⟨hentry, hformat, hplace⟩ := hfits
  have hmay' : nibGranted (aloneEnv s hr false) (opdField o) = true := hmay
  have hfree' : nibWaits (aloneEnv s hr false) = false := hfree
  have henv : envBead (aloneEnv s hr false) = beadOf s hr := rfl
  simp [evalNdrn, henv, hmay', hfree', Nat.not_le.2 hentry, hformat, hplace, hperr]
  rfl

/-- The parity check of an NMAC passes where no row of its tile and none of its ranges holds an error (R140). -/
theorem nmacParity_none (h : NmacFits s hr o) : nmacParity (aloneEnv s hr false) (gTile o)
    (nmacRanges (tileFmt (beadOf s hr) (gTile o)) (ngWfmt (nibDesc (beadOf s hr) (gGroup o))) (handAt s hr).x0
      (handAt s hr).x1) = none := by
  have hrows : (List.range (tileRows (beadOf s hr) (gTile o))).any
      (fun r => (beadOf s hr).rowBad.contains (32 * gTile o + r)) = false := by
    rw [List.any_eq_false]
    intro r hr'
    rw [h.rows r (List.mem_range.1 hr')]
    decide
  have hranges := List.findSome?_eq_none_iff.2 h.parity
  have henv : envBead (aloneEnv s hr false) = beadOf s hr := rfl
  simp only [nmacParity, henv, hrows, Bool.false_eq_true, if_false]
  exact congrArg (Option.map _) hranges

/-- The cells of a group that a map holds, as numbers (R136). -/
def cellsIn (m : SMap Cell) (g r n : Nat) : W32 × W32 :=
  ((mapGet (fun _ => ({} : Cell)) m (1024 * g + 32 * r + n)).s,
    (mapGet (fun _ => ({} : Cell)) m (1024 * g + 32 * r + n)).e)

/-- An NMAC that meets no fault leaves its sums in its group, which it drains with DRN = 1 (R136, R138). -/
theorem evalNmac_ok (h : NmacFits s hr o)
    (hdrain : gDrn o = true → DrainFits s hr (nibDesc (beadOf s hr) (gGroup o))) :
    evalNmac (aloneEnv s hr false) o = writes [.nib (grp (gGroup o)) (some (nmacLeaves s hr o)) ⟨!gDrn o, false⟩
      (if gDrn o then some (drainOf (aloneEnv s hr false) (gGroup o) (nibDesc (beadOf s hr) (gGroup o))
        (cellsIn (nmacLeaves s hr o) (gGroup o))) else none) none] := by
  have hparity := nmacParity_none h
  obtain ⟨hfree, hmay, ⟨hw1, hw2, hw3⟩, htile, hunheld, hreads, hgroup, hgranted, ⟨hin, hout⟩, -, -⟩ := h
  have henv : envBead (aloneEnv s hr false) = beadOf s hr := rfl
  have hx : (aloneEnv s hr false).x = handAt s hr := rfl
  have hwaits : (nibWaits (aloneEnv s hr false) || (gDrn o && decide (heldEntries (beadOf s hr) ≥ 8))) = false := by
    rw [show nibWaits (aloneEnv s hr false) = false from hfree]
    cases hd : gDrn o with
    | false => rfl
    | true => simpa using (hdrain hd).entry
  have hheld : (tileFmt (beadOf s hr) (gTile o) != 0 && (nmacRanges (tileFmt (beadOf s hr) (gTile o))
      (ngWfmt (nibDesc (beadOf s hr) (gGroup o))) (handAt s hr).x0 (handAt s hr).x1).any
      (fun p => rangeHeld (beadOf s hr) p.1 p.2)) = false := by
    rw [Bool.and_eq_false_iff, List.any_eq_false]
    exact .inr (fun p hp => by rw [hunheld p hp]; decide)
  have hcode : ¬ (ngWfmt (nibDesc (beadOf s hr) (gGroup o)) = 0 ∨ ngWfmt (nibDesc (beadOf s hr) (gGroup o)) > 0xB
      ∨ (gTw o = true ∧ fmtMx (ngWfmt (nibDesc (beadOf s hr) (gGroup o))) = true)
      ∨ (gDrn o = true ∧ (!ofmtOk (nibDesc (beadOf s hr) (gGroup o))) = true)) := by
    rintro (h0 | hB | ⟨htw, hmx⟩ | ⟨hd, hof⟩)
    · omega
    · omega
    · rw [hw3 htw] at hmx
      cases hmx
    · rw [(hdrain hd).format] at hof
      cases hof
  have hplace : (if gDrn o = true then drainRefused (aloneEnv s hr false) (nibDesc (beadOf s hr) (gGroup o)) else none)
      = none := by
    split
    next hd => exact (hdrain hd).place
    · rfl
  have hopen : (gAcu o && !(nibGroup (beadOf s hr) (gGroup o)).isOpen) = false := by
    cases ha : gAcu o with
    | false => rfl
    | true => simp [hgroup ha]
  have hmay' : nibGranted (aloneEnv s hr false) (gGroup o) = true := hmay
  have hread : mayReadTile (beadOf s hr) (aloneEnv s hr false).h (envPl (aloneEnv s hr false)) (gTile o) = true :=
    hgranted
  simp only [evalNmac, henv, hx, hwaits, hheld, if_neg hcode, hmay', if_neg htile, hreads, hplace, hopen, hread, hin,
    hout, hparity, Option.orElse, Bool.not_true, Bool.false_eq_true, if_false, Option.isSome_none, Bool.or_self]
  rfl

end Nib

/-- Settles O27: each glyph's evaluation is one effect on its group, applied to the retired line. -/
theorem nibGlyphs : Obligations.NibGlyphs := by
  intro s hr o g k i b x e d left cell acts
  refine ⟨?nset, ?nget, ?nopen, ?ndrn, ?nmac, ?drains⟩
  case nset =>
    intro r hk hmay hacc
    rw [← hk] at hmay
    have hslot : 2 ≤ g.slot := by have hg := r.glyph; injection hg with hg; rw [← hg]; exact Nat.le_succ 2
    refine next_writes r (evalNset_ok _ hmay hacc) rfl rfl rfl rfl
      (roomStop_none (needs_act r.glyph hslot s i {} x.acc x.x0 x.x1)) _ ?_
    refine (applyEffs_act r.glyph hslot _ _ _ _ _ _ _ _ _ _ _).trans ?_
    rw [← hk]
    rfl
  case nget =>
    intro r hk hmay
    rw [← hk] at hmay
    exact issue_acc r _ rfl rfl (by rw [show d = nibDesc (beadOf s hr) (opdField o) by rw [hk]]; exact evalNget_ok hmay)
  case nopen =>
    intro r hk hmay hfree
    rw [← hk] at hmay
    refine next_writes r (evalNopen_ok hmay hfree) rfl rfl rfl rfl (roomStop_nib _ _ _ (fun h => by cases h)) _ ?_
    rw [applyEffs_nib, hk, grp_val]
    rfl
  case ndrn =>
    intro r hk hmay hfree hfits hperr
    have heval := evalNdrn_ok (o := o) (hk ▸ hmay) hfree (hk ▸ hfits) (hk ▸ hperr)
    rw [hk, grp_val] at heval
    exact congrArg Host.Outcome.next
      (issue_draws r heval rfl rfl rfl rfl (roomStop_nib _ _ _ (fun _ => hfits.entry)))
  case nmac =>
    intro r hk hfits hd
    have heval := evalNmac_ok hfits (fun h => by rw [hd] at h; cases h)
    rw [hk, grp_val, hd] at heval
    exact congrArg Host.Outcome.next (issue_draws r heval rfl rfl rfl rfl (roomStop_nib _ _ _ (fun h => by cases h)))
  case drains =>
    intro r hk hfits hd hdr
    have heval := evalNmac_ok hfits (fun _ => hk ▸ hdr)
    rw [hk, grp_val, hd] at heval
    exact congrArg Host.Outcome.next
      (issue_draws r heval rfl rfl rfl rfl (roomStop_nib _ _ _ (fun _ => hdr.entry)))

/-! A case that O25 leaves out: VCVT reads TD too, and takes its row from an in-endpoint bound to it (R125, R246). -/

/-- Hand 2 of bead 0. -/
def cvtHand : HandRef := ⟨⟨0, 0⟩, 2⟩

/-- VCVT of row 0 of tile 1 to row 0 of tile 3. -/
def cvtOpd : BitVec 22 := 0x190000

/-- The glyph of that VCVT. -/
def cvtGlyph : Glyph := ⟨cvtHand, true, 2, 0x10, cvtOpd, .r true true true 2 true, 0, 0⟩

/-- A running device whose hand 2 of bead 0 stands at keeper level. Tile 3 is of a 16-bit format and bound to vector
in-endpoint 0, in which no row has arrived. -/
def emptyInTile : State :=
  modBead (putHand { State.reset with pins := { inReset := false, booted := true } } 0 2
      { st := .running, pc := 0x10000, psw := 0x20000001 }) 0 (fun b => { b with
    regs := { b.regs with tcfg := [(3, 0x11F)] }, ends := { b.ends with vqBind := 0xB } })

/-- The counter of free values after a step (log 1). -/
def freeAfter : Host.Outcome State Fault Refusal → Option Nat
  | .next t => some t.freeCtr
  | _ => none

theorem ready_cvt : Ready emptyInTile cvtHand (.vcvt cvtHand true cvtOpd) cvtGlyph := by
  constructor <;> decide +kernel

/-- The glyph waits for a row of TD, and its line draws nothing (R246). -/
theorem cvt_waits : freeAfter (exec (.vcvt cvtHand true cvtOpd) emptyInTile) = some 0 := by decide +kernel

/-- Refutes O25: VCVT reads TD as its third tile (R125), so with TD bound to a vector in-endpoint that holds no row its
line is held (R246). The clause for a plain destination counts TA alone among the tiles read, and has the line retire. -/
theorem not_conversionGlyphs : ¬ Obligations.ConversionGlyphs := by
  intro h
  obtain ⟨-, -, -, hcvt, -⟩ := h .exp emptyInTile cvtHand cvtOpd cvtGlyph
  have hnext := hcvt ready_cvt (by decide +kernel) (by decide +kernel) (by decide +kernel) (by decide +kernel)
    (by decide +kernel) (by unfold VFits; rfl)
  have hfree := cvt_waits.symm.trans (congrArg freeAfter hnext)
  exact absurd hfree (by decide +kernel)

end Sys2Proof.Machine

end NumberFormatProofs

/-! SUPPORT. Proofs of the statements of family 03: the glyphs of levels, hands, common words and waits, lines of several
glyphs, the events of a hand, and the registers of a bead (O6, O10, O15, O21, O22, O28, O36, O37, O39). -/

section BeadCoreProofs

namespace Sys2Proof.Machine

/-! Lines whose effects are performed in their slots' order (R95). -/

/-- A glyph that accesses no memory by a device address and is no atomic: those of the S slot between the two, and every
glyph of a later slot (R107). -/
def glyphPlain (g : Glyph) : Bool := 2 ≤ g.slot || (g.slot == 1 && 0x28 ≤ g.op && g.op < 0x38)

/-- An effect that is performed in its place among its line's writes, and takes no entry that lines share (R95, R151,
R153, R166, R246). -/
def effPlain : Eff → Bool
  | .act c _ _ _ => (glyphOf c).any glyphPlain
  | .row .. | .nib .. | .quill _ => false
  | _ => true

theorem effPlain_act {c : Instr} {acc : W64} {x0 x1 : W32} (h : effPlain (.act c acc x0 x1) = true) :
    isDevLoad c = false ∧ isDevStore c = false ∧ isLocalAtomic (.act c acc x0 x1) = false := by
  obtain ⟨g, hg, hp⟩ := (Option.any_eq_true _ _).1 h
  have hslot : 2 ≤ g.slot ∨ (g.slot = 1 ∧ 0x28 ≤ g.op ∧ g.op < 0x38) := by
    simpa [glyphPlain, and_assoc] using hp
  simp only [isDevLoad, isDevStore, isLocalAtomic, hg, Bool.and_eq_false_iff, Bool.or_eq_false_iff, beq_eq_false_iff_ne,
    decide_eq_false_iff_not, ne_eq]
  omega

theorem effPlain_order {f : Eff} (h : effPlain f = true) : isReadEff f = false ∧ isLocalAtomic f = false := by
  cases f with
  | act c acc x0 x1 =>
    obtain ⟨hload, -, hatom⟩ := effPlain_act h
    exact ⟨hload, hatom⟩
  | _ => exact ⟨rfl, rfl⟩

theorem effPlain_needs {f : Eff} (h : effPlain f = true) (s : State) (i : Nat) (n : LineNeeds) : effNeeds s i n f = n := by
  cases f with
  | act c acc x0 x1 =>
    obtain ⟨hload, hstore, -⟩ := effPlain_act h
    simp [effNeeds, hload, hstore]
  | row | nib | quill => cases h
  | _ => rfl

/-- Plain effects are performed one after the other. -/
theorem applyEffs_plain {l : List Eff} (h : l.all effPlain = true) (s : State) (i k : Nat) (pc : W32) (len : Nat)
    (succ : W32) (x : Hand) (out : Bool) :
    applyEffs s i k pc len succ x out l = l.foldl (applyEff s i k pc len succ x out) s := by
  have hp := List.all_eq_true.1 h
  have hread : l.filter isReadEff = [] :=
    List.filter_eq_nil_iff.2 (fun f hf => by simp [effPlain_order (hp f hf)])
  have hatom : l.filter isLocalAtomic = [] :=
    List.filter_eq_nil_iff.2 (fun f hf => by simp [effPlain_order (hp f hf)])
  have hrest : l.filter (fun f => !isReadEff f && !isLocalAtomic f) = l :=
    List.filter_eq_self.2 (fun f hf => by simp [effPlain_order (hp f hf)])
  simp only [applyEffs, hread, hatom, hrest, List.foldl_nil]

theorem needs_plain {l : List Eff} (h : l.all effPlain = true) (s : State) (i : Nat) (n : LineNeeds) :
    l.foldl (effNeeds s i) n = n := by
  induction l generalizing n with
  | nil => rfl
  | cons f l ih =>
    obtain ⟨hf, hl⟩ := Bool.and_eq_true_iff.1 h
    rw [List.foldl_cons, effPlain_needs hf, ih hl]

theorem roomStop_plain {l : List Eff} (h : l.all effPlain = true) (s : State) (i : Nat) : roomStop s i l = none :=
  roomStop_none (needs_plain h s i {})

/-- One effect of a glyph alone on its line, performed in a state that the line's earlier effects have led to. -/
def landEff (s : State) (hr : HandRef) (j : Option (W32 × Bool)) : State → Eff → State :=
  applyEff (retireTo s hr j id) (beadNo hr.br) hr.hand.val (handAt s hr).pc 1
    (successor (handAt s hr) (handAt s hr).pc 1 false) (handAt s hr) false

/-- A ready glyph with plain effects retires at once, and they land in order. -/
theorem next_plain {s : State} {hr : HandRef} {c : Instr} {g : Glyph} {l : List Eff} (r : Ready s hr c g)
    (he : evalGlyph (aloneEnv s hr false) c = writes l) (hp : l.all effPlain = true)
    (hc : hasLexit [c] = false) (hd : drawsFree c = false) (hx : effLexit l = false) (hl : lostOf l = none)
    {t : State} (ht : l.foldl (landEff s hr (jumpOf l)) (retireTo s hr (jumpOf l) id) = t) :
    (Host.Outcome.next (issue hr true c s) : Host.Outcome State Fault Refusal) = .next t :=
  next_writes r he hc hd hx hl (roomStop_plain hp s _) t ((applyEffs_plain hp _ _ _ _ _ _ _ _).trans ht)

section Landing
variable (s : State) (hr : HandRef) (j k : Option (W32 × Bool)) (f : Hand → Hand)

@[simp] theorem landEff_acc (v : W64) :
    landEff s hr j (retireTo s hr k f) (.acc v) = retireTo s hr k (fun y => { f y with acc := v }) :=
  modHand_retireTo s hr k f (fun y => { y with acc := v })

@[simp] theorem landEff_x0 (v : W32) :
    landEff s hr j (retireTo s hr k f) (.xr .x0 v) = retireTo s hr k (fun y => { f y with x0 := v }) :=
  modHand_retireTo s hr k f (fun y => { y with x0 := v })

@[simp] theorem landEff_x1 (v : W32) :
    landEff s hr j (retireTo s hr k f) (.xr .x1 v) = retireTo s hr k (fun y => { f y with x1 := v }) :=
  modHand_retireTo s hr k f (fun y => { y with x1 := v })

@[simp] theorem landEff_fp (v : W32) :
    landEff s hr j (retireTo s hr k f) (.fp v) = retireTo s hr k (fun y => { f y with fp := v }) :=
  modHand_retireTo s hr k f (fun y => { y with fp := v })

@[simp] theorem landEff_psw (m v : W32) :
    landEff s hr j (retireTo s hr k f) (.psw m v) = retireTo s hr k (fun y => { f y with psw := merge32 (f y).psw m v }) :=
  modHand_retireTo s hr k f (fun y => { y with psw := merge32 y.psw m v })

@[simp] theorem landEff_fswSet (v : W32) :
    landEff s hr j (retireTo s hr k f) (.fswSet v) = retireTo s hr k (fun y => { f y with fsw := v }) :=
  modHand_retireTo s hr k f (fun y => { y with fsw := v })

@[simp] theorem landEff_store (t : State) (a : Nat) (bs : List W8) : landEff s hr j t (.store a bs) = storeBytes t a bs := rfl

@[simp] theorem landEff_jump (t : State) (w : W32) (v : Bool) : landEff s hr j t (.jump w v) = t := rfl

@[simp] theorem landEff_act (t : State) (c : Instr) (acc : W64) (x0 x1 : W32) :
    landEff s hr j t (.act c acc x0 x1) = performAct (retireTo s hr j id) t (beadNo hr.br) hr.hand.val (handAt s hr).pc 1
      (successor (handAt s hr) (handAt s hr).pc 1 false) (handAt s hr) false c acc x0 x1 := rfl

end Landing

/-! What a retired line leaves of its bead (R60, R61). -/

/-- A line that has retired leaves its bead as it was but for the hand and the round-robin pointer. -/
theorem getBead_retireTo (s : State) (hr : HandRef) (j : Option (W32 × Bool)) (f : Hand → Hand) :
    getBead (retireTo s hr j f) (beadNo hr.br) = setHand (issuedBy (beadOf s hr) hr.hand) hr.hand.val
      (f (emptied (continueAt (handAt s hr) (handAt s hr).pc 1 false j))) :=
  getBead_putBead_same s _ _

theorem getHand_retireTo_ne (s : State) (hr : HandRef) (j : Option (W32 × Bool)) (f : Hand → Hand) {k : Nat}
    (h : k ≠ hr.hand.val) : getHand (retireTo s hr j f) (beadNo hr.br) k = getHand s (beadNo hr.br) k := by
  rw [getHand, getBead_retireTo, handOf_setHand_ne _ _ _ _ h]
  rfl

/-! FSWPUT, PSWPUT, CRD and CWR (R85, R91, R108). -/

theorem fswPut_sticky (w : W32) (acc : W64) {i : Nat} (hi : i < 6) :
    (fswPut w acc).getLsbD i = (w.getLsbD i && !(acc.truncate 32 : W32).getLsbD i) := by
  unfold fswPut merge32
  interval_cases i <;> simp

theorem fswPut_fields (w : W32) (acc : W64) {i : Nat} (hi : i = 8 ∨ i = 9 ∨ i = 11) :
    (fswPut w acc).getLsbD i = (acc.truncate 32 : W32).getLsbD i := by
  unfold fswPut merge32
  rcases hi with rfl | rfl | rfl <;> simp

/-- PSWPUT writes the fields that its level allows (R108). -/
theorem evalPswput_ok {e : Env} (h : envPl e ≠ 0 → pswLd (e.x.acc.truncate 32) ≤ 4) :
    evalPswput e = writes [.psw (pswputMask e.x.psw) (e.x.acc.truncate 32)] := by
  by_cases h0 : envPl e = 0
  · have hmask : pswputMask e.x.psw = 0x000F0300 := if_pos h0
    rw [evalPswput, if_pos h0, hmask]
  · have hmask : pswputMask e.x.psw = 0x007F0300 := if_neg h0
    rw [evalPswput, if_neg h0, if_neg (Nat.not_lt.2 (h h0)), hmask]

/-- The levels at which CRD and CWR may name a register (R75, R91). -/
theorem not_refused {pl : Nat} {only : Bool} (h : pl = 2 ∨ (pl = 1 ∧ only = false)) : ¬ (pl = 0 ∨ (pl = 1 ∧ only = true)) := by
  rcases h with rfl | ⟨rfl, rfl⟩ <;> simp

theorem evalCrd_ok {e : Env} {o : BitVec 22} (c : Instr)
    (h : envPl e = 2 ∨ (envPl e = 1 ∧ sentinelOnly (opdField o) = false)) :
    evalCrd e o c = writes (.acc ((beadReg e.s e.i (opdField o)).zeroExtend 64)
      :: (if opdField o = 0x38 then [actOf e c] else [])) := by
  rw [evalCrd]
  exact if_neg (not_refused h)

theorem evalCwr_ok {e : Env} {o : BitVec 22} (c : Instr)
    (h : envPl e = 2 ∨ (envPl e = 1 ∧ sentinelOnly (opdField o) = false))
    (hw : beadWriteWaits (envBead e) (opdField o) (e.x.acc.truncate 32) = false)
    (hs : opdField o = 0x68 → blotAsk (envBead e) (e.x.acc.truncate 32) ≠ .switch) :
    evalCwr e o c = writes [actOf e c] := by
  have hswitch : ¬ (opdField o = 0x68 ∧ blotAsk (envBead e) (e.x.acc.truncate 32) = .switch) := fun q => hs q.1 q.2
  simp only [evalCwr, if_neg (not_refused h), hw, if_neg hswitch]
  rfl

/-- BEAD_TICK_LO reads as the low word of the Slate tick counter (R67). -/
theorem beadReg_tick (s : State) (i : Nat) : beadReg s i 0x38 = (slateTick s i).truncate 32 := rfl

theorem getHand_latchTick (s : State) (i h : Nat) : getHand (latchTick s i) i h = getHand s i h := by
  rw [getHand, latchTick, getBead_modBead_same]
  rfl

theorem tickHi_latchTick (s : State) (i : Nat) :
    (getBead (latchTick s i) i).core.tickHi = (slateTick s i >>> 32).truncate 32 := by
  rw [latchTick, getBead_modBead_same]

/-- Settles O6: each glyph evaluates to a write of its register or to its act, which lands as the line retires. -/
theorem statusGlyphs : Obligations.StatusGlyphs := by
  intro s hr o g x a k mayUse
  refine ⟨fun r => ?fswput, fun r hld => ?pswput, fun r hmay hk => ?crd, fun r hmay hk => ?tick,
    fun r hmay hwaits hswitch => ?cwr⟩
  case fswput =>
    refine ⟨fswPut x.fsw x.acc, next_plain r rfl rfl rfl rfl rfl rfl ?_, fun i hi => fswPut_sticky _ _ hi,
      fun i hi => fswPut_fields _ _ hi⟩
    exact landEff_fswSet s hr none none id _
  case pswput => exact next_plain r (evalPswput_ok hld) rfl rfl rfl rfl rfl (landEff_psw s hr none none id _ _)
  case crd =>
    have heval := evalCrd_ok (e := aloneEnv s hr false) (.crd hr true o) hmay
    rw [if_neg hk] at heval
    exact next_plain r heval rfl rfl rfl rfl rfl (landEff_acc s hr none none id _)
  case tick =>
    have heval := evalCrd_ok (e := aloneEnv s hr false) (.crd hr true o) hmay
    rw [if_pos hk, show opdField o = 0x38 from hk, beadReg_tick] at heval
    refine ⟨latchTick (retire s hr (fun y => { y with acc := ((slateTick s (beadNo hr.br)).truncate 32).zeroExtend 64 }))
      (beadNo hr.br), next_plain r heval rfl rfl rfl rfl rfl ?_, ?_, ?_⟩
    · rw [List.foldl_cons, List.foldl_cons, List.foldl_nil, landEff_acc]
      rfl
    · rw [handAt, getHand_latchTick]
      exact congrArg Hand.acc (handAt_retireTo s hr none _)
    · exact tickHi_latchTick _ _
  case cwr =>
    exact next_plain r (evalCwr_ok (.cwr hr true o) hmay hwaits hswitch) rfl rfl rfl rfl rfl rfl

/-! GATE, GRET and RETE (R87 to R89). -/

/-- The effects of entering a gate with a descriptor (R87, steps 4 to 6). -/
def gateEffs (e : Env) (c : Instr) (d : List W8) : List Eff :=
  (if gArgc d = 0 then [.acc 0] else []) ++ (if gArgc d ≤ 1 then [.xr .x0 0] else [])
    ++ (if gArgc d ≤ 2 then [.xr .x1 0] else []) ++ [actOf e c, .psw 0x303 1]
    ++ (if bitAt (gCtrl d) 10 then [.fp e.x.ksp] else []) ++ [.jump (gTarget d) false]

theorem evalGate_ok {e : Env} {o : BitVec 22} {d : List W8} (c : Instr) (hlevel : envPl e = 0)
    (hplace : (opdField o ≥ fld (envBead e).regs.gateCount.toNat 8 0 || gateAddr (envBead e) (opdField o) + 32 > 0x200000
      || gateAddr (envBead e) (opdField o) < 0x8000) = false)
    (hheld : rangeHeld (envBead e) (gateAddr (envBead e) (opdField o)) 32 = false)
    (hparity : parityFind e.s.parity (folioBase e.i + gateAddr (envBead e) (opdField o)) 32 = none)
    (hd : d = loadBytes e.s (folioBase e.i + gateAddr (envBead e) (opdField o)) 32)
    (hvalid : bitAt (gCtrl d) 31 = true) (hargs : gateArgsOk e.x d = true) :
    evalGate e c o = writes (gateEffs e c d) := by
  subst hd
  simp only [evalGate, if_neg (not_not_intro hlevel), hplace, hheld, hparity, hvalid, hargs]
  rfl


section Optional
variable (s : State) (hr : HandRef) (j k : Option (W32 × Bool)) (f : Hand → Hand) (p : Prop) [Decidable p]

theorem landEff_accIf (v : W64) : (if p then [.acc v] else []).foldl (landEff s hr j) (retireTo s hr k f)
    = retireTo s hr k (fun y => { f y with acc := if p then v else (f y).acc }) := by
  split
  · exact landEff_acc s hr j k f v
  · rfl

theorem landEff_x0If (v : W32) : (if p then [.xr .x0 v] else []).foldl (landEff s hr j) (retireTo s hr k f)
    = retireTo s hr k (fun y => { f y with x0 := if p then v else (f y).x0 }) := by
  split
  · exact landEff_x0 s hr j k f v
  · rfl

theorem landEff_x1If (v : W32) : (if p then [.xr .x1 v] else []).foldl (landEff s hr j) (retireTo s hr k f)
    = retireTo s hr k (fun y => { f y with x1 := if p then v else (f y).x1 }) := by
  split
  · exact landEff_x1 s hr j k f v
  · rfl

theorem landEff_fpIf (v : W32) : (if p then [.fp v] else []).foldl (landEff s hr j) (retireTo s hr k f)
    = retireTo s hr k (fun y => { f y with fp := if p then v else (f y).fp }) := by
  split
  · exact landEff_fp s hr j k f v
  · rfl

end Optional

/-- A gate's save set is written over a hand that its line's other effects have changed (R87, step 5). -/
theorem landEff_gate (s : State) (hr : HandRef) (o : BitVec 22) (j k : Option (W32 × Bool)) (f : Hand → Hand) :
    landEff s hr j (retireTo s hr k f) (actOf (aloneEnv s hr false) (.gate hr true o))
      = retireTo s hr k (fun y => { f y with
          save1 := gateSave (handAt s hr) (successor (handAt s hr) (handAt s hr).pc 1 false) (opdField o) }) :=
  modHand_retireTo s hr k f (fun y => { y with
    save1 := gateSave (handAt s hr) (successor (handAt s hr) (handAt s hr).pc 1 false) (opdField o) })

/-- A gate sets PL to keeper level and clears IE (R87, step 6). -/
theorem merge32_enter (w : W32) : merge32 w 0x303 1 = (w &&& ~~~0x303) ||| 1 := by
  rw [merge32, show (1 : W32) &&& 0x303 = 1 from rfl]

/-- What the effects of a gate do as its line retires (R87, steps 4 to 6). -/
theorem gateEffs_land (s : State) (hr : HandRef) (o : BitVec 22) (d : List W8) (j k : Option (W32 × Bool)) :
    (gateEffs (aloneEnv s hr false) (.gate hr true o) d).foldl (landEff s hr j) (retireTo s hr k id)
      = retireTo s hr k (fun y => gated (handAt s hr) y (successor (handAt s hr) (handAt s hr).pc 1 false) (opdField o) d) := by
  simp only [gateEffs, List.foldl_append, List.foldl_cons, List.foldl_nil, landEff_accIf, landEff_x0If, landEff_x1If,
    landEff_gate, landEff_psw, landEff_fpIf, landEff_jump, merge32_enter]
  rfl

theorem gateEffs_shape (s : State) (hr : HandRef) (o : BitVec 22) (d : List W8) :
    let l := gateEffs (aloneEnv s hr false) (.gate hr true o) d
    jumpOf l = some (gTarget d, false) ∧ l.all effPlain = true ∧ effLexit l = false ∧ lostOf l = none := by
  unfold gateEffs
  split <;> split <;> split <;> split <;> exact ⟨rfl, rfl, rfl, rfl⟩

/-- A PSW merged from a save set keeps HID alone (R88, R89). -/
theorem merge32_pswRestore (w v : W32) : merge32 w 0xCFFFFFFF (pswRestore w v) = pswBack w v := by
  ext i hi
  simp only [merge32, pswRestore, pswBack]
  interval_cases i <;> simp

theorem retireTo_congr {s : State} {hr : HandRef} {j : Option (W32 × Bool)} {f f' : Hand → Hand}
    (h : f (emptied (continueAt (handAt s hr) (handAt s hr).pc 1 false j))
      = f' (emptied (continueAt (handAt s hr) (handAt s hr).pc 1 false j))) : retireTo s hr j f = retireTo s hr j f' := by
  rw [retireTo, retireTo, h]

/-- A return lands as its line retires (R88, R89). -/
theorem returnTo_land (s : State) (hr : HandRef) (v : SaveSet) (j : Option (W32 × Bool)) (f : Hand → Hand)
    (hf : ∀ y, (f y).psw = y.psw) :
    (returnTo (aloneEnv s hr false) v).foldl (landEff s hr j) (retireTo s hr (some (v.spc &&& ~~~3, false)) f)
      = retireTo s hr (some (v.spc &&& ~~~3, false)) (fun y => { f y with psw := pswBack (handAt s hr).psw v.spsw }) := by
  rw [returnTo, List.foldl_cons, List.foldl_cons, List.foldl_nil, landEff_psw, landEff_jump]
  refine retireTo_congr (congrArg (fun w => { f _ with psw := w }) ?_)
  rw [hf]
  exact merge32_pswRestore _ _

/-- Settles O10: a gate's effects and a return's land in order as the line retires. -/
theorem levelGlyphs : Obligations.LevelGlyphs := by
  intro s hr o g d x n back
  refine ⟨fun r hfits => ?gate, fun r hhand hkeeper hcause huser => ?gret, fun r hkeeper hhand huser => ?rete1,
    fun r hsentinel hbelow hlevel => ?rete2⟩
  case gate =>
    obtain ⟨huser, hcount, hinside, houtside, hheld, hparity, hdesc, hvalid, hargs⟩ := hfits
    have hplace : (decide (n ≥ fld (beadOf s hr).regs.gateCount.toNat 8 0) || decide (gateAddr (beadOf s hr) n + 32 > 0x200000)
        || decide (gateAddr (beadOf s hr) n < 0x8000)) = false := by
      simp only [Bool.or_eq_false_iff, decide_eq_false_iff_not]
      omega
    obtain ⟨hjump, hplain, hlexit, hlost⟩ := gateEffs_shape s hr o d
    refine next_plain r (evalGate_ok _ huser hplace hheld hparity hdesc hvalid hargs) hplain rfl rfl hlexit hlost ?_
    rw [hjump]
    exact gateEffs_land s hr o d _ _
  case gret =>
    have heval : evalGret (aloneEnv s hr false) = writes (.fp x.save1.sfa :: returnTo (aloneEnv s hr false) x.save1) :=
      if_pos ⟨fun h => hhand (Fin.ext h), hkeeper, hcause, huser⟩
    refine next_plain r heval rfl rfl rfl rfl rfl ?_
    rw [List.foldl_cons, show jumpOf _ = some (x.save1.spc &&& ~~~3, false) from rfl, landEff_fp]
    exact returnTo_land s hr x.save1 _ _ (fun _ => rfl)
  case rete1 =>
    have hlevel : envPl (aloneEnv s hr false) = 1 := hkeeper
    have heval : evalRete (aloneEnv s hr false) = writes (returnTo (aloneEnv s hr false) x.save1) := by
      simp only [evalRete, hlevel]
      exact if_pos ⟨le_rfl, huser.trans_lt Nat.one_pos, .inl fun h => hhand (Fin.ext h)⟩
    exact next_plain r heval rfl rfl rfl rfl rfl (returnTo_land s hr x.save1 _ _ (fun _ => rfl))
  case rete2 =>
    have hlevel' : envPl (aloneEnv s hr false) = 2 := hsentinel
    have heval : evalRete (aloneEnv s hr false) = writes (returnTo (aloneEnv s hr false) x.save2) := by
      simp only [evalRete, hlevel']
      exact if_pos ⟨Nat.le_succ 1, hbelow, hlevel.imp (fun h q => h (Fin.ext q)) (fun h => h.ge)⟩
    exact next_plain r heval rfl rfl rfl rfl rfl (returnTo_land s hr x.save2 _ _ (fun _ => rfl))

/-! What keeps the cores of the beads: their hands, notices, common words, channels and hand registers (R64, R91). -/

/-- A change of the state that leaves every bead's core as it was. -/
def SameCores (s t : State) : Prop := ∀ i, (getBead t i).core = (getBead s i).core

namespace SameCores

theorem refl (s : State) : SameCores s s := fun _ => rfl

theorem trans {s t u : State} (h : SameCores s t) (k : SameCores t u) : SameCores s u := fun i => (k i).trans (h i)

/-- A change that leaves the beads alone. -/
theorem of_beads {s t : State} (h : t.beads = s.beads) : SameCores s t := fun i => by rw [getBead, h]; rfl

theorem modBead (s : State) (i : Nat) {f : Bead → Bead} (hf : ∀ b, (f b).core = b.core) : SameCores s (modBead s i f) := by
  intro j
  by_cases hj : j = i
  · subst hj
    rw [getBead_modBead_same, hf]
  · exact congrArg Bead.core (getBead_putBead_ne s i j _ hj)

theorem foldl {β : Type} {u : State → β → State} (h : ∀ s b, SameCores s (u s b)) (l : List β) (s : State) :
    SameCores s (l.foldl u s) := by
  induction l generalizing s with
  | nil => exact refl s
  | cons b l ih => exact (h s b).trans (ih _)

theorem foldl_fst {α β : Type} {u : State × α → β → State × α} (h : ∀ p b, SameCores p.1 (u p b).1) (l : List β)
    (p : State × α) : SameCores p.1 (l.foldl u p).1 := by
  induction l generalizing p with
  | nil => exact refl _
  | cons b l ih => exact (h p b).trans (ih _)

theorem foldl_snd {α β : Type} {u : α × State → β → α × State} (h : ∀ p b, SameCores p.2 (u p b).2) (l : List β)
    (p : α × State) : SameCores p.2 (l.foldl u p).2 := by
  induction l generalizing p with
  | nil => exact refl _
  | cons b l ih => exact (h p b).trans (ih _)

theorem getHand {s t : State} (h : SameCores s t) (i k : Nat) : getHand t i k = getHand s i k := by
  rw [Machine.getHand, handOf, h i]
  rfl

end SameCores

theorem sameCores_modSlate (s : State) (t : Nat) (f : Slate → Slate) : SameCores s (modSlate s t f) := .of_beads rfl

theorem sameCores_storeBytes (s : State) (a : Nat) (bs : List W8) : SameCores s (storeBytes s a bs) := .of_beads rfl

theorem sameCores_report (s : State) (r : LogRec) (d : List W32) : SameCores s (report s r d) := by
  obtain ⟨l, h⟩ := report_frame s r d
  rw [h]
  exact .of_beads rfl

theorem sameCores_logUnit (s : State) (c t k n : Nat) (d : W32) : SameCores s (logUnit s c t k n d) :=
  sameCores_report s _ _

theorem sameCores_hbmWrite (s : State) (a : Nat) (q : Option Nat) (bs : List W8) : SameCores s (hbmWrite s a q bs) := by
  cases q with
  | none => exact sameCores_storeBytes s a bs
  | some q => exact (sameCores_storeBytes s a bs).trans (sameCores_storeBytes _ q bs)

theorem sameCores_rewriteLine (s : State) (a q : Nat) : SameCores s (rewriteLine s a q) := by
  refine .foldl (fun s w => ?_) _ s
  dsimp only
  split
  · exact sameCores_storeBytes s _ _
  · exact .refl s

theorem sameCores_hbmRead (s : State) (a n : Nat) (q : Option Nat) (bad : Bool) : SameCores s (hbmRead s a n q bad).2 := by
  unfold hbmRead
  extract_lets stack lost
  have hlost : SameCores s (lost ()).2 := by
    dsimp only [lost]
    exact sameCores_logUnit s _ _ _ _ _
  split
  · exact .refl s
  · split
    · exact hlost
    · split
      · exact hlost
      · dsimp only
        exact ((sameCores_logUnit s _ _ _ _ _).trans (sameCores_logUnit _ _ _ _ _ _)).trans (sameCores_rewriteLine _ _ _)

theorem sameCores_homeRead (s : State) (x : Xlat) (n : Nat) : SameCores s (homeRead s x n).2 := by
  have hread := sameCores_hbmRead s x.pa n x.mirror false
  unfold homeRead
  split
  · split
    · next h => simpa only [h] using hread
    · next h => simpa only [h] using hread
  · exact .refl s

/-! The blotter's ways and merging buffer are no part of a core (R149, R153, R167). -/

theorem core_scrubTags (b : Bead) (line : Nat) : (scrubTags b line).core = b.core := by
  unfold scrubTags
  split
  · rfl
  · refine List.foldlRecOn (motive := fun (c : Bead) => c.core = b.core) _ _ rfl (fun c hc w _ => ?_)
    dsimp only
    split
    · exact hc
    · exact hc

theorem core_blotStore (b : Bead) (x : Xlat) (bs : List W8) : (blotStore b x bs).core = b.core := by
  unfold blotStore
  split
  · dsimp only
    split
    · exact core_scrubTags b _
    · exact core_scrubTags b _
  · rfl

theorem sameCores_devPiece (s : State) (i : Nat) (x : Xlat) (n : Nat) : SameCores s (devPiece s i x n).2 := by
  have hscrub := SameCores.modBead s i (fun b => core_scrubTags b (x.pa / 64))
  have hdrop (s : State) (k : Nat) : SameCores s (modBead s i (fun b => countPerr (dropWay b k))) := .modBead s i (fun _ => rfl)
  have htouch (s : State) (k : Nat) : SameCores s (modBead s i (fun b => touchWay b k)) := .modBead s i (fun _ => rfl)
  unfold devPiece
  split
  · dsimp only
    split
    · split
      · exact (hscrub.trans (hdrop _ _)).trans (sameCores_homeRead _ _ _)
      · exact hscrub.trans (htouch _ _)
    · exact hscrub.trans (sameCores_homeRead _ _ _)
  · exact sameCores_homeRead s x n

theorem sameCores_readSpans (s : State) (i : Nat) (dev : Bool) (l : List (Nat × Nat)) :
    SameCores s (readSpans s i dev l).2 := by
  induction l generalizing s with
  | nil => exact .refl s
  | cons p l ih =>
    unfold readSpans
    dsimp only
    split
    · split
      · exact (sameCores_devPiece s i _ _).trans (ih _)
      · exact ih s
    · exact ih s

theorem sameCores_storeDev (s : State) (i va : Nat) (bs : List W8) : SameCores s (storeDev s i va bs) := by
  unfold storeDev
  split
  · exact .refl s
  · split
    · exact .of_beads rfl
    · exact (SameCores.modBead s i (fun b => core_blotStore b _ bs)).trans (sameCores_hbmWrite _ _ _ _)

theorem sameCores_writeSpans (s : State) (i : Nat) (dev : Bool) (l : List (Nat × Nat)) (bs : List W8) :
    SameCores s (writeSpans s i dev l bs) := by
  induction l generalizing s bs with
  | nil => exact .refl s
  | cons p l ih =>
    unfold writeSpans
    dsimp only
    split
    · exact (sameCores_storeDev s i _ _).trans (ih _ _)
    · exact (sameCores_storeBytes s _ _).trans (ih _ _)

/-! Units and credits (R233, R242, R246). -/

theorem sameCores_returnCredits (s : State) (net : Net) (i ep n : Nat) (closure : Bool) :
    SameCores s (returnCredits s net i ep n closure) := by
  have hadd (cs : List (Nat × Credit)) : SameCores s (addCredits s cs) := .foldl (fun s _ => sameCores_modSlate s _ _) _ s
  unfold returnCredits
  dsimp only
  split
  · exact hadd _
  · exact (hadd _).trans (sameCores_modSlate _ _ _)

theorem sameCores_launch (s : State) (n : Net) (o : Origin) (i ep : Nat) (w : W32) (r : Row) (last : Bool) :
    SameCores s (launch s n o i ep w r last) := .foldl (fun s _ => sameCores_modSlate s _ _) _ s

theorem sameCores_ends (s : State) (i : Nat) (f : Bead → Endpoints) :
    SameCores s (modBead s i (fun b => { b with ends := f b })) := .modBead s i (fun _ => rfl)

/-- A function of a state, a bead and a source that leaves every core as it was. -/
def CountsOutsideCores (f : State → Nat → Nat → State) : Prop := ∀ s i src, SameCores s (f s i src)

/-- `countUnit` is unfolded as a function, with its range and its tests named, lest the kernel run its fold. -/
theorem CountsOutsideCores.of_eq {f g : State → Nat → Nat → State} (h : f = g) (hg : CountsOutsideCores g) :
    CountsOutsideCores f := h ▸ hg

theorem countUnit_outsideCores : CountsOutsideCores countUnit := by
  refine .of_eq (by delta countUnit; rfl) ?_
  obtain ⟨counters, hcounters⟩ : ∃ l, l = List.range 8 := ⟨_, rfl⟩
  obtain ⟨bit, hbit⟩ : ∃ f, f = bitAt := ⟨_, rfl⟩
  obtain ⟨emit, hemit⟩ : ∃ f, f = emitToken := ⟨_, rfl⟩
  rw [← hcounters, ← hbit, ← hemit]
  intro s i src
  beta_reduce
  extract_lets step
  have hstep (p : State × List Nat) (k : Nat) : SameCores p.1 (step p k).1 := by
    obtain ⟨u, srcs⟩ := p
    dsimp only [step]
    split
    · split
      · exact (sameCores_ends u i _).trans (sameCores_launch _ _ _ _ _ _ _ _)
      · exact sameCores_ends u i _
    · exact .refl u
  exact SameCores.foldl_fst hstep counters (s, [src])

theorem sameCores_countUnit (s : State) (i src : Nat) : SameCores s (countUnit s i src) := countUnit_outsideCores s i src

theorem sameCores_takeVin (s : State) (i v : Nat) : SameCores s (takeVin s i v) :=
  (sameCores_ends s i _).trans (sameCores_returnCredits _ _ _ _ _ _)

theorem sameCores_sendRow (s : State) (i v : Nat) (r : Row) : SameCores s (sendRow s i v r) :=
  ((sameCores_ends s i _).trans (sameCores_launch _ _ _ _ _ _ _ _)).trans (sameCores_countUnit _ _ _)

theorem sameCores_writeRow (s : State) (i t r : Nat) (v : TileRow) : SameCores s (writeRow s i t r v) :=
  (SameCores.modBead s i (f := fun b => putRow b t r v) (fun _ => rfl)).trans (.foldl (fun s _ => sameCores_sendRow s i _ _) _ _)

/-! Rows of a transfer (R128, R131). -/

theorem sameCores_sampleSource (s : State) (i : Nat) (t : Transfer) : SameCores s (sampleSource s i t).1 := by
  unfold sampleSource
  split
  · generalize List.range 32 = rows
    exact SameCores.foldl_snd (u := fun (p : List Row × State) j =>
      (p.1 ++ [bytesRow (readSpans p.2 i t.dev (rowSpans t (tileFmt (getBead s i) t.tile.val) j)).1],
        (readSpans p.2 i t.dev (rowSpans t (tileFmt (getBead s i) t.tile.val) j)).2))
      (fun p j => sameCores_readSpans p.2 i _ _) rows ([], s)
  · exact .refl s

theorem core_drain (ls : List Nat) (b : Bead) : (ls.foldl startDrain b).core = b.core :=
  List.foldlRecOn (motive := fun (c : Bead) => c.core = b.core) _ _ rfl (fun _ hc _ _ => hc)

theorem sameCores_drainLines (s : State) (i : Nat) (ls : List Nat) : SameCores s (drainLines s i ls) :=
  .modBead s i (core_drain ls)

theorem sameCores_moveRow (s : State) (i : Nat) (t : Transfer) (j : Nat) : SameCores s (moveRow s i t j) := by
  unfold moveRow
  extract_lets b tt fmt
  split
  · split
    rename_i row u hrow
    have hu : SameCores s u := by
      revert hrow
      split
      · rintro ⟨⟩
        exact sameCores_takeVin s i _
      · rintro ⟨⟩
        exact .refl s
    have hw := hu.trans (sameCores_writeSpans u i t.dev (rowSpans t fmt j) (rowBytes row.data))
    dsimp only
    split
    · exact hw.trans (sameCores_writeSpans _ _ _ _ _)
    · exact hw
  · split
    rename_i data u hdata
    have hu : SameCores s u := by
      revert hdata
      split
      · rintro ⟨⟩
        exact .refl s
      · rintro ⟨⟩
        exact sameCores_readSpans s i _ _
    split
    rename_i scale v hscale
    have hv : SameCores s v := by
      revert hscale
      split
      · next p _ =>
        intro h
        have hv : (readSpans u i t.dev [p]).2 = v := congrArg Prod.snd h
        exact hv ▸ hu.trans (sameCores_readSpans u i _ _)
      · rintro ⟨⟩
        exact hu
    exact hv.trans (sameCores_writeRow v i _ _ _)

theorem sameCores_moveRows (pc : W32) (len i h fuel stop : Nat) (s : State) (t : Transfer) :
    SameCores s (moveRows pc len i h fuel stop s t).1 := by
  induction fuel generalizing s t with
  | zero => exact .refl s
  | succ fuel ih =>
    unfold moveRows
    dsimp only
    split
    · exact .refl s
    · split
      · exact .refl s
      · split
        · split
          · exact ((sameCores_sampleSource s i t).trans (sameCores_moveRow _ i _ _)).trans (ih _ _)
          · exact sameCores_sampleSource s i t
        · exact sameCores_drainLines s i _

theorem sameCores_closeIns (s : State) (i : Nat) (sin : BitVec 8) (vin : BitVec 4) (tok : BitVec 16) :
    SameCores s (closeIns s i sin vin tok) := by
  unfold closeIns
  extract_lets b e ss vs ts nS nV nT total s₁ s₂ s₃
  have h₁ : SameCores s s₁ := .foldl (fun s _ => sameCores_returnCredits s _ _ _ _ _) ss s
  have h₂ : SameCores s₁ s₂ := .foldl (fun s _ => sameCores_returnCredits s _ _ _ _ _) vs s₁
  have h₃ : SameCores s₂ s₃ := .foldl (fun s _ => sameCores_returnCredits s _ _ _ _ _) ts s₂
  exact ((h₁.trans h₂).trans h₃).trans (sameCores_ends s₃ i _)

theorem sameCores_closeGateIns (s : State) (i h : Nat) : SameCores s (closeGateIns s i h) := by
  unfold closeGateIns
  extract_lets x
  split
  · exact sameCores_closeIns s i _ _ _
  · exact .refl s

/-! A hand's wait, staged message and transfer given up (R131, R245, R261). -/

theorem getHand_modHand_ne (s : State) (i h : Nat) (f : Hand → Hand) {k : Nat} (hk : k ≠ h) :
    getHand (modHand s i h f) i k = getHand s i k := getHand_putHand_ne s i h i k _ (.inr hk)

theorem sameCores_modTally (s : State) (t : Nat) (f : TallyUnit → TallyUnit) : SameCores s (modTally s t f) := .of_beads rfl

theorem getHand_cancelWait (s : State) (i h : Nat) : getHand (cancelWait s i h) i h = { getHand s i h with latch := {} } := by
  rw [cancelWait, getHand_modHand_same, (sameCores_modTally s _ _).getHand]

theorem getHand_cancelWait_ne (s : State) (i h : Nat) {k : Nat} (hk : k ≠ h) :
    getHand (cancelWait s i h) i k = getHand s i k := by
  rw [cancelWait, getHand_modHand_ne _ _ _ _ hk, (sameCores_modTally s _ _).getHand]

theorem getHand_abortStaged (s : State) (i h : Nat) : getHand (abortStaged s i h) i h = { getHand s i h with staged := none } := by
  unfold abortStaged
  extract_lets x
  split
  next hm =>
    rw [← hm]
  next m hm =>
    rw [(sameCores_ends _ i _).getHand]
    exact getHand_putHand_same s i h _

theorem getHand_abortStaged_ne (s : State) (i h : Nat) {k : Nat} (hk : k ≠ h) :
    getHand (abortStaged s i h) i k = getHand s i k := by
  unfold abortStaged
  extract_lets x
  split
  · rfl
  · rw [(sameCores_ends _ i _).getHand]
    exact getHand_putHand_ne s i h i k _ (.inr hk)

/-- Ending a transfer moves rows, and then changes the hand's open line, requests and TSR alone (R131). -/
theorem endTransfer_cases (s : State) (i h : Nat) : ∃ t, SameCores s t ∧ (endTransfer s i h = t
    ∨ ∃ n, endTransfer s i h = modHand t i h (fun x => { dropOperand x with openLine := none, tsr := n })) := by
  unfold endTransfer
  extract_lets x
  split
  · next l t _ _ =>
    dsimp only
    split
    · exact ⟨(freeBits s).2, .of_beads rfl, .inl rfl⟩
    · exact ⟨_, (SameCores.of_beads rfl).trans (sameCores_moveRows l.pc l.len i h 32 _ (freeBits s).2 t), .inr ⟨_, rfl⟩⟩
  · exact ⟨s, .refl s, .inl rfl⟩

theorem endTransfer_none {s : State} {i h : Nat} (hl : (getHand s i h).openLine = none) : endTransfer s i h = s := by
  simp only [endTransfer, hl]

theorem getHand_endTransfer_ne (s : State) (i h : Nat) {k : Nat} (hk : k ≠ h) :
    getHand (endTransfer s i h) i k = getHand s i k := by
  obtain ⟨t, ht, he | ⟨n, he⟩⟩ := endTransfer_cases s i h
  · rw [he, ht.getHand]
  · rw [he, getHand_modHand_ne _ _ _ _ hk, ht.getHand]

theorem getHand_endTransfer (s : State) (i h : Nat) : ∃ rs l n,
    getHand (endTransfer s i h) i h = { getHand s i h with reqs := rs, openLine := l, tsr := n } := by
  obtain ⟨t, ht, he | ⟨n, he⟩⟩ := endTransfer_cases s i h
  · exact ⟨_, _, _, by rw [he, ht.getHand]⟩
  · exact ⟨_, _, _, by rw [he, getHand_modHand_same, ht.getHand]; rfl⟩

/-! Notices posted, and the faults held for a hand (R80, R82, R411). -/

/-- A bead with a notice posted. -/
def withNotice (n : Notice) (b : Bead) : Bead := { b with core := { b.core with notices := noticesWith b.core.notices n } }

theorem getHand_withNotice (s : State) (i h : Nat) (n : Notice) :
    getHand (modBead s i (withNotice n)) i h = getHand s i h := by
  rw [getHand, getBead_modBead_same]
  rfl

theorem exists_withNotice (s : State) (i : Nat) (n : Notice) :
    ∃ m ∈ (getBead (modBead s i (withNotice n)) i).core.notices, m.source = n.source ∧ m.word1 = n.word1 := by
  obtain ⟨m, hm, hsource, hword, -⟩ := mem_noticesWith (getBead s i).core.notices n
  rw [getBead_modBead_same]
  exact ⟨m, hm, hsource, hword⟩

/-- A bead whose hand 0 a notice wakes from NWAIT. -/
def withWake (n : Notice) (b : Bead) : Bead := endSlumber (setHand (withNotice n b) 0 (wakeHand (handOf b 0) 4))

theorem postNotice_cases (s : State) (i : Nat) (n : Notice) : postNotice s i n
    = if (getHand s i 0).st = .sleeping .nwait then deliverSupervisor (modBead s i (withWake n)) i
      else modBead s i (withNotice n) := by
  unfold postNotice
  extract_lets b queued n' ns core b' x
  have hns : ns = noticesWith b.core.notices n := by
    simp only [ns, n', queued, noticesWith]
    split
    · rfl
    · rfl
  have hb : b' = withNotice n (getBead s i) := by
    simp only [b', core, hns]
    rfl
  simp only [x, hb]
  rfl

/-- A notice posted while hand 0 does not wait for one joins the queue. -/
theorem postNotice_awake {s : State} {i : Nat} (n : Notice) (h : (getHand s i 0).st ≠ .sleeping .nwait) :
    postNotice s i n = modBead s i (withNotice n) := by
  rw [postNotice_cases, if_neg h]

theorem deliverHeld_none {s : State} {i h : Nat} (hf : (getHand s i h).heldFaults = []) : deliverHeld s i h = s := by
  simp only [deliverHeld, hf]

/-! A line in sequence changes its hand's loop registers, PSW and PC alone (R115). -/

theorem backEdge_frame (n : Nat) (x : Hand) (a : W32) : ∃ l w, (backEdge n x a).1 = { x with loops := l, psw := w } := by
  induction n generalizing x with
  | zero => exact ⟨_, _, rfl⟩
  | succ n ih =>
    unfold backEdge
    extract_lets ld l
    split
    · exact ⟨_, _, rfl⟩
    · split
      · exact ⟨_, _, rfl⟩
      · split
        · exact ⟨_, _, rfl⟩
        · obtain ⟨m, w, h⟩ := ih { setLoop x (ld - 1) { l with lpc := 0 } with psw := pswSetLd x.psw (ld - 1) }
          exact ⟨m, w, h⟩

theorem continueAt_frame (x : Hand) (pc : W32) (n : Nat) :
    ∃ l w a, continueAt x pc n false none = { x with loops := l, psw := w, pc := a } := by
  obtain ⟨l, w, h⟩ := backEdge_frame 8 x (pc + BitVec.ofNat 32 (4 * n))
  refine ⟨l, w, (backEdge 8 x (pc + BitVec.ofNat 32 (4 * n))).2, ?_⟩
  have hat : continueAt x pc n false none = { (backEdge 8 x (pc + BitVec.ofNat 32 (4 * n))).1 with
      pc := (backEdge 8 x (pc + BitVec.ofNat 32 (4 * n))).2 } := rfl
  rw [hat, h]

/-- A line that retires in sequence leaves its hand in the state in which it issued, but for the glyph's own effect. -/
theorem st_retire (s : State) (hr : HandRef) (f : Hand → Hand) (hf : ∀ y, (f y).st = y.st) :
    (handAt (retire s hr f) hr).st = (handAt s hr).st := by
  obtain ⟨l, w, a, hseq⟩ := continueAt_frame (handAt s hr) (handAt s hr).pc 1
  rw [retire, handAt_retireTo, hf, hseq]
  rfl

/-! HSTART, HSTOP, HRESUME and HKILL (R65, R66, R74, R84). -/

/-- A PSW restored from a save set keeps HID alone (R74, R88, R89). -/
theorem pswRestore_eq (w v : W32) : pswRestore w v = pswBack w v := by
  ext i hi
  simp only [merge32, pswRestore, pswBack]
  interval_cases i <;> simp

/-- User level in a PSW. -/
theorem pswSetPl_user (w : W32) : pswSetPl w 0 = w &&& ~~~3 := by
  simp [pswSetPl, merge32]

section HandCtl
variable {s : State} {hr : HandRef} {k : Fin 4} {c : Instr} {g : Glyph} {o : BitVec 22} {kind : HandCtl}

/-- Hand 0's control of another hand tells the code of that hand's state, and is then performed. -/
theorem handCtl_next (r : Ready s hr c g) (hhand : hr.hand = 0) (hk : k ≠ 0) (ho : opdField o = k.val) (act : State → State)
    {code : Nat} {t : State} (heval : evalGlyph (aloneEnv s hr false) c = evalHandCtl (aloneEnv s hr false) c kind o)
    (hplain : (glyphOf c).any glyphPlain = true) (hc : hasLexit [c] = false) (hd : drawsFree c = false)
    (hx : effLexit [actOf (aloneEnv s hr false) c] = false)
    (hact : ∀ u, landEff s hr none u (actOf (aloneEnv s hr false) c) = act u)
    (hcode : handCtlCode kind (handAt s (siblingAt hr k)) = code)
    (ht : act (retire s hr (fun z => { z with acc := BitVec.ofNat 64 code })) = t) :
    (Host.Outcome.next (issue hr true c s) : Host.Outcome State Fault Refusal) = .next t := by
  have hzero : ¬ ((aloneEnv s hr false).h ≠ 0 ∨ opdField o = 0) := by
    rw [ho, not_or, not_not]
    exact ⟨congrArg Fin.val hhand, fun q => hk (Fin.ext q)⟩
  have hwrites : evalHandCtl (aloneEnv s hr false) c kind o
      = writes [.acc (BitVec.ofNat 64 code), actOf (aloneEnv s hr false) c] := by
    rw [evalHandCtl, if_neg hzero, ho, ← hcode]
    rfl
  refine next_plain r (heval.trans hwrites) ?_ hc hd hx rfl ?_
  · exact Bool.and_eq_true_iff.2 ⟨rfl, Bool.and_eq_true_iff.2 ⟨hplain, rfl⟩⟩
  · rw [List.foldl_cons, List.foldl_cons, List.foldl_nil, landEff_acc]
    exact (hact _).trans ht

theorem getHand_tells (hhand : hr.hand = 0) (hk : k ≠ 0) (f : Hand → Hand) :
    getHand (retire s hr f) (beadNo hr.br) k.val = handAt s (siblingAt hr k) :=
  getHand_retireTo_ne s hr none f (fun q => hk (Fin.ext (q.trans (congrArg Fin.val hhand))))

end HandCtl


/-! What each act does, by the code of the hand's state. -/

section Acts
variable {s : State} {i t : Nat}

theorem actHstart_ok (x0 : W32) (hc : handCtlCode .start (getHand s i t) = 0) (hf : (getHand s i t).heldFaults = []) :
    actHstart s i t x0 = putHand s i t { dropLine (getHand s i t) with
      st := .running, pc := x0 &&& ~~~3, psw := (getHand s i t).psw &&& ~~~3 } := by
  rw [actHstart, if_pos hc, deliverHeld_none (by rw [getHand_putHand_same]; exact hf), pswSetPl_user]
  rfl

theorem actHresume_ok {u : State} (hu : getHand u i t = getHand s i t) (hc : handCtlCode .resume (getHand s i t) = 0)
    (hf : (getHand s i t).heldFaults = []) :
    actHresume u s i t = putHand s i t { getHand s i t with
      st := .running, wake := 5, pc := (getHand s i t).save1.spc &&& ~~~3
      psw := pswBack (getHand s i t).psw (getHand s i t).save1.spsw, line := [], heldLine := [] } := by
  rw [actHresume, hu, if_pos hc, deliverHeld_none (by rw [getHand_putHand_same]; exact hf), pswRestore_eq]
  rfl

/-- HSTOP of a hand without an open line, while hand 0 waits for no notice (R66): its sibling hands stay as they were. -/
theorem actHstop_ok (ht : t ≠ 0) (hc : handCtlCode .stop (getHand s i t) = 0) (hl : (getHand s i t).openLine = none)
    (h0 : (getHand s i 0).st ≠ .sleeping .nwait) :
    (getHand (actHstop s i t) i t).st = .stopped .hstop
      ∧ (getHand (actHstop s i t) i t).save1 = ⟨(getHand s i t).pc, (getHand s i t).psw, 0, 0⟩
      ∧ (∃ n ∈ (getBead (actHstop s i t) i).core.notices, n.source = t ∧ n.word1 = (getHand s i t).pc)
      ∧ (actHstop s i t).mem = s.mem ∧ ∀ k, k ≠ t → getHand (actHstop s i t) i k = getHand s i k := by
  have hslumber : SameCores (cancelWait s i t) (modBead (cancelWait s i t) i endSlumber) := .modBead _ i (fun _ => rfl)
  have hother (x : Hand) {k : Nat} (hk : k ≠ t) :
      getHand (putHand (modBead (cancelWait s i t) i endSlumber) i t x) i k = getHand s i k := by
    rw [getHand_putHand_ne _ _ _ _ _ _ (.inr hk), hslumber.getHand, getHand_cancelWait_ne _ _ _ hk]
  have hend : endTransfer (cancelWait s i t) i t = cancelWait s i t :=
    endTransfer_none (by rw [getHand_cancelWait]; exact hl)
  obtain ⟨n, ⟨hsource, hword⟩, hstop⟩ : ∃ n : Notice, (n.source = t ∧ n.word1 = (getHand s i t).pc) ∧ actHstop s i t
      = postNotice (putHand (modBead (cancelWait s i t) i endSlumber) i t { dropLine (getHand s i t) with
          latch := {}, st := .stopped .hstop, stopAfter := false
          save1 := ⟨(getHand s i t).pc, (getHand s i t).psw, 0, 0⟩ }) i n := by
    refine ⟨⟨t, noticeWord0 4 t 0 0, (getHand s i t).pc, 0, noticeTick (cancelWait s i t) i⟩, ⟨rfl, rfl⟩, ?_⟩
    rw [actHstop, if_pos hc, hend]
    dsimp only
    rw [hslumber.getHand, getHand_cancelWait, if_neg (by rw [hl]; exact Bool.false_ne_true)]
    rfl
  rw [hstop, postNotice_awake n (by rw [hother _ ht.symm]; exact h0)]
  refine ⟨?_, ?_, ?_, rfl, fun k hk => ?_⟩
  case refine_1 | refine_2 => rw [getHand_withNotice, getHand_putHand_same]
  case refine_3 =>
    obtain ⟨m, hm, hs, hw⟩ := exists_withNotice _ i n
    exact ⟨m, hm, hs.trans hsource, hw.trans hword⟩
  case refine_4 => rw [getHand_withNotice, hother _ hk]

/-- HKILL of a hand that is not Locked (R84): its sibling hands stay as they were. -/
theorem actHkill_ok (hc : handCtlCode .kill (getHand s i t) = 0) :
    (getHand (actHkill s i t) i t).st = .idle ∧ (getHand (actHkill s i t) i t).staged = none
      ∧ (getHand (actHkill s i t) i t).tsr = 0 ∧ (getHand (actHkill s i t) i t).heldFaults = []
      ∧ ∀ k, k ≠ t → getHand (actHkill s i t) i k = getHand s i k := by
  rw [actHkill, if_pos hc]
  dsimp only
  refine ⟨?_, ?_, ?_, ?_, fun k hk => ?_⟩
  case refine_2 =>
    obtain ⟨rs, l, n, he⟩ := getHand_endTransfer (cancelWait (abortStaged (closeGateIns s i t) i t) i t) i t
    rw [getHand_modHand_same, he, getHand_cancelWait, getHand_abortStaged]
  case refine_5 =>
    rw [getHand_modHand_ne _ _ _ _ hk, getHand_endTransfer_ne _ _ _ hk, getHand_cancelWait_ne _ _ _ hk,
      getHand_abortStaged_ne _ _ _ hk, (sameCores_closeGateIns s i t).getHand]
  all_goals rw [getHand_modHand_same]

end Acts

/-- Settles O15: the code tells whether the other hand's state admits the glyph, which is then performed on it. -/
theorem handControlGlyphs : Obligations.HandControlGlyphs := by
  intro s hr k o g x y tells hhand hk hmode ho
  have hself : k.val ≠ 0 := fun q => hk (Fin.ext q)
  have hother (f : Hand → Hand) : getHand (retire s hr f) (beadNo hr.br) k.val = y := getHand_tells hhand hk f
  have hne : hr.hand.val ≠ k.val := fun q => hself (q.symm.trans (congrArg Fin.val hhand))
  have hacc (v : W64) : (getHand (tells v) (beadNo hr.br) hr.hand.val).acc = v :=
    congrArg Hand.acc (handAt_retireTo s hr none _)
  refine ⟨fun r hidle hheld => ?start, fun r hbusy => ?noStart, fun r hst hopen => ?stop, fun r hrun hsleep => ?noStop,
    fun why r hst huser hheld => ?resume, fun why r hst hsent => ?sentinel, fun r hst => ?noResume, fun r hst => ?kill,
    fun r hst => ?noKill⟩
  case start =>
    have hcode : handCtlCode .start y = 0 := if_pos hidle
    refine handCtl_next r hhand hk ho (actHstart · (beadNo hr.br) (opdField o) x.x0) rfl rfl rfl rfl rfl (fun _ => rfl)
      hcode ?_
    rw [ho, actHstart_ok x.x0 (by rw [hother]; exact hcode) (by rw [hother]; exact hheld), hother]
    rfl
  case noStart =>
    have hcode : handCtlCode .start y = 1 := if_neg hbusy
    refine handCtl_next r hhand hk ho (actHstart · (beadNo hr.br) (opdField o) x.x0) rfl rfl rfl rfl rfl (fun _ => rfl)
      hcode ?_
    rw [ho, actHstart, hother, hcode]
    rfl
  case stop =>
    have hsleeping : y.st = .running ∨ isSleeping y = true :=
      hst.imp_right (fun ⟨w, hw⟩ => by rw [isSleeping, hw])
    have hcode : handCtlCode .stop y = 0 := if_pos hsleeping
    have hzero : getHand (tells 0) (beadNo hr.br) 0 = handAt (tells 0) hr := by rw [handAt, hhand]; rfl
    have hrunning : (handAt (tells 0) hr).st ≠ .sleeping .nwait := by
      have hst' : (handAt (tells 0) hr).st = .running :=
        (st_retire s hr (fun z => { z with acc := 0 }) (fun _ => rfl)).trans r.running
      rw [hst']
      exact HandSt.noConfusion
    obtain ⟨hstopped, hsave, hnotice, hmem, hrest⟩ := actHstop_ok (s := tells 0) (i := beadNo hr.br) hself
      (by rw [hother]; exact hcode) (by rw [hother]; exact hopen) (by rw [hzero]; exact hrunning)
    rw [hother] at hsave hnotice
    refine ⟨actHstop (tells 0) (beadNo hr.br) k.val,
      handCtl_next r hhand hk ho (actHstop · (beadNo hr.br) (opdField o)) rfl rfl rfl rfl rfl (fun _ => rfl)
      hcode
      (congrArg (actHstop _ _) ho), hstopped, hsave, ?_, hnotice, hmem⟩
    exact (congrArg Hand.acc (hrest _ hne)).trans (hacc 0)
  case noStop =>
    have hcode : handCtlCode .stop y = 1 := by
      refine if_neg (not_or.2 ⟨hrun, ?_⟩)
      unfold isSleeping
      split
      next w hw => exact absurd hw (hsleep w)
      · exact Bool.false_ne_true
    refine handCtl_next r hhand hk ho (actHstop · (beadNo hr.br) (opdField o)) rfl rfl rfl rfl rfl (fun _ => rfl) hcode ?_
    rw [ho, actHstop, hother, hcode]
    rfl
  case resume =>
    have hcode : handCtlCode .resume y = 0 := by
      simp only [handCtlCode, isStopped, hst, if_neg (Nat.not_le.2 huser)]
      rfl
    refine handCtl_next r hhand hk ho (fun u => actHresume (retireTo s hr none id) u (beadNo hr.br) (opdField o))
      rfl rfl rfl rfl rfl (fun _ => rfl) hcode ?_
    have hsame : getHand (retireTo s hr none id) (beadNo hr.br) k.val = y := getHand_tells hhand hk id
    rw [ho, actHresume_ok (hsame.trans (hother _).symm) (by rw [hother]; exact hcode) (by rw [hother]; exact hheld), hother]
    rfl
  case sentinel =>
    have hcode : handCtlCode .resume y = 2 := by
      simp only [handCtlCode, isStopped, hst, if_pos hsent]
      rfl
    refine handCtl_next r hhand hk ho (fun u => actHresume (retireTo s hr none id) u (beadNo hr.br) (opdField o))
      rfl rfl rfl rfl rfl (fun _ => rfl) hcode ?_
    have hsame : getHand (retireTo s hr none id) (beadNo hr.br) k.val = y := getHand_tells hhand hk id
    rw [ho, actHresume, hsame, hcode]
    rfl
  case noResume =>
    have hcode : handCtlCode .resume y = 1 := by
      have hstopped : isStopped y = false := by
        unfold isStopped
        split
        next why hw => exact absurd hw (hst why)
        · rfl
      simp only [handCtlCode, hstopped]
      rfl
    refine handCtl_next r hhand hk ho (fun u => actHresume (retireTo s hr none id) u (beadNo hr.br) (opdField o))
      rfl rfl rfl rfl rfl (fun _ => rfl) hcode ?_
    have hsame : getHand (retireTo s hr none id) (beadNo hr.br) k.val = y := getHand_tells hhand hk id
    rw [ho, actHresume, hsame, hcode]
    rfl
  case kill =>
    have hcode : handCtlCode .kill y = 0 := if_neg hst
    obtain ⟨hidle, hstaged, htsr, hheld, hrest⟩ := actHkill_ok (s := tells 0) (i := beadNo hr.br) (t := k.val)
      (by rw [hother]; exact hcode)
    refine ⟨_, handCtl_next r hhand hk ho (actHkill · (beadNo hr.br) (opdField o)) rfl rfl rfl rfl rfl (fun _ => rfl)
      hcode
      (congrArg (actHkill _ _) ho), hidle, hstaged, htsr, hheld, ?_⟩
    exact (congrArg Hand.acc (hrest _ hne)).trans (hacc 0)
  case noKill =>
    have hcode : handCtlCode .kill y = 1 := if_pos hst
    refine handCtl_next r hhand hk ho (actHkill · (beadNo hr.br) (opdField o)) rfl rfl rfl rfl rfl (fun _ => rfl) hcode ?_
    rw [ho, actHkill, hother, hcode]
    rfl

/-! Common words and channels (R71, R72, R96). -/

/-- A lone waiting glyph whose condition does not hold puts its hand to sleep (R96). -/
theorem next_asleep {s : State} {hr : HandRef} {c : Instr} {g : Glyph} {w : WaitKind} {chan : W8} (r : Ready s hr c g)
    (hc : hasLexit [c] = false) (he : evalGlyph (aloneEnv s hr false) c = .error (.asleep w none))
    (hchan : withdraw s (beadNo hr.br) hr.hand.val w none [c] = asleep s hr w (handAt s hr).latch chan) :
    (Host.Outcome.next (issue hr true c s) : Host.Outcome State Fault Refusal)
      = .next (asleep s hr w (handAt s hr).latch chan) := by
  rw [issue_asleep r (by rw [hc]; exact he), hchan]

theorem evalCw_ok {e : Env} {o : BitVec 22} (c : Instr) (old : Bool)
    (h : envPl e ≠ 0 ∨ (envBead e).regs.cwLock.getLsbD (opdField o) = false) :
    evalCw e o c old
      = writes ((if old then [.acc ((cwOf (envBead e) (opdField o)).zeroExtend 64)] else []) ++ [actOf e c]) := by
  have hfree : ¬ (envPl e = 0 && (envBead e).regs.cwLock.getLsbD (opdField o)) = true := by
    rcases h with hpl | hlock
    · simp [hpl]
    · simp [hlock]
  exact if_neg hfree

/-- A line that has retired leaves its bead's common words as they were. -/
theorem cwOf_retireTo (s : State) (hr : HandRef) (j : Option (W32 × Bool)) (f : Hand → Hand) (w : Nat) :
    cwOf (getBead (retireTo s hr j f) (beadNo hr.br)) w = cwOf (beadOf s hr) w := by
  rw [getBead_retireTo]
  rfl

section Channels
variable {e : Env} {o : BitVec 22} (c : Instr)

theorem evalCsend_ok (hen : chanEn (envBead e) (opdField o) = true) (hsrc : chanSrc (envBead e) (opdField o) = e.h)
    (hroom : (chanQ (envBead e) (opdField o)).length < 2) : evalCsend e o c = writes [actOf e c] := by
  simp only [evalCsend, hen, hsrc, bne_self_eq_false, if_neg (Nat.not_le.2 hroom)]
  rfl

theorem evalCsend_full (hen : chanEn (envBead e) (opdField o) = true) (hsrc : chanSrc (envBead e) (opdField o) = e.h)
    (hfull : 2 ≤ (chanQ (envBead e) (opdField o)).length) : evalCsend e o c = .error (.asleep .csend none) := by
  simp only [evalCsend, hen, hsrc, bne_self_eq_false, if_pos hfull]
  rfl

theorem evalCrecv_ok {v : W64} {q : List W64} (hen : chanEn (envBead e) (opdField o) = true)
    (hdst : chanDst (envBead e) (opdField o) = e.h) (hq : chanQ (envBead e) (opdField o) = v :: q) :
    evalCrecv e o c = writes [.acc v, actOf e c] := by
  simp only [evalCrecv, hen, hdst, bne_self_eq_false, hq]
  rfl

theorem evalCrecv_empty (hen : chanEn (envBead e) (opdField o) = true) (hdst : chanDst (envBead e) (opdField o) = e.h)
    (hq : chanQ (envBead e) (opdField o) = []) : evalCrecv e o c = .error (.asleep .crecv none) := by
  simp only [evalCrecv, hen, hdst, bne_self_eq_false, hq]
  rfl

end Channels

/-- Settles O21: a common word or a channel that admits the glyph takes its act as the line retires; else the hand
sleeps. -/
theorem commonGlyphs : Obligations.CommonGlyphs := by
  intro s hr o g v q i b k a old get free
  refine ⟨fun r => ?cwld, fun r hfree => ?cwst, fun r hfree => ?cwadd, fun r hfree => ?cwswp, fun r hen hsrc hroom => ?csend,
    fun r hen hsrc hfull => ?full, fun r hen hdst hq => ?crecv, fun r hen hdst hq => ?empty⟩
  case cwld => exact next_plain r rfl rfl rfl rfl rfl rfl (landEff_acc s hr none none id _)
  case cwst => exact next_plain r (evalCw_ok _ false hfree) rfl rfl rfl rfl rfl rfl
  case cwadd =>
    have heval : evalCw (aloneEnv s hr false) o (.cwadd hr true o) true
        = writes [.acc (old.zeroExtend 64), actOf (aloneEnv s hr false) (.cwadd hr true o)] := evalCw_ok _ true hfree
    refine next_plain r heval rfl rfl rfl rfl rfl ?_
    rw [List.foldl_cons, List.foldl_cons, List.foldl_nil, landEff_acc]
    change putCw _ i k (cwOf (getBead (retireTo s hr none id) i) k + a.truncate 32) = _
    rw [cwOf_retireTo]
    rfl
  case cwswp =>
    have heval : evalCw (aloneEnv s hr false) o (.cwswp hr true o) true
        = writes [.acc (old.zeroExtend 64), actOf (aloneEnv s hr false) (.cwswp hr true o)] := evalCw_ok _ true hfree
    refine next_plain r heval rfl rfl rfl rfl rfl ?_
    rw [List.foldl_cons, List.foldl_cons, List.foldl_nil, landEff_acc]
    rfl
  case csend => exact next_plain r (evalCsend_ok _ hen hsrc hroom) rfl rfl rfl rfl rfl rfl
  case full => exact next_asleep r rfl (evalCsend_full _ hen hsrc hfull) rfl
  case crecv =>
    refine next_plain r (evalCrecv_ok _ hen hdst hq) rfl rfl rfl rfl rfl ?_
    have hput (t : State) (ht : (getBead t i).core.chan = b.core.chan) :
        modBead t i (fun b => putChan b k ((chanQ b k).drop 1)) = modBead t i (fun b => putChan b k q) := by
      have hdrop : (chanQ (getBead t i) k).drop 1 = q := by
        rw [chanQ, ht, ← chanQ, hq]
        rfl
      rw [modBead, hdrop]
      rfl
    rw [List.foldl_cons, List.foldl_cons, List.foldl_nil, landEff_acc]
    exact hput _ (by rw [getBead_retireTo]; rfl)
  case empty => exact next_asleep r rfl (evalCrecv_empty _ hen hdst hq) rfl

/-! SLEEP, NWAIT, NPOP and FENCE (R68, R80, R96, R270). -/

theorem evalNwait_ok {e : Env} (h0 : e.h = 0) (hn : (envBead e).core.notices ≠ []) : evalNwait e = writes [] := by
  rw [evalNwait, if_neg (not_not_intro h0), if_neg (by simpa using hn)]

theorem evalNwait_empty {e : Env} (h0 : e.h = 0) (hn : (envBead e).core.notices = []) :
    evalNwait e = .error (.asleep .nwait none) := by
  rw [evalNwait, if_neg (not_not_intro h0), if_pos (by rw [hn]; rfl)]

theorem evalNpop_ok {e : Env} {o : BitVec 22} {n : Notice} {ns : List Notice} (c : Instr) (h0 : e.h = 0)
    (hn : (envBead e).core.notices = n :: ns) (ha : checkLocal e (localEa e.x o).toNat 16 16 = .ok ()) :
    evalNpop e o c = writes [.store (folioBase e.i + (localEa e.x o).toNat)
      (wordsBytes [n.word0, n.word1, n.word2, n.word3]), actOf e c] := by
  rw [evalNpop, if_neg (not_not_intro h0), hn]
  simp only [ha]
  rfl

theorem modBead_congr {s : State} {i : Nat} {f f' : Bead → Bead} (h : f (getBead s i) = f' (getBead s i)) :
    modBead s i f = modBead s i f' := by
  rw [modBead, modBead, h]

/-- NPOP removes the oldest notice (R80). -/
theorem actNpop_eq {t : State} {i : Nat} {n : Notice} {ns : List Notice} (h : (getBead t i).core.notices = n :: ns) :
    actNpop t i = modBead t i (fun b => { b with core := { b.core with notices := ns } }) := by
  refine modBead_congr ?_
  rw [h]
  rfl

/-- FENCE waits for what its kind names: the busy quill slots that are its hand's, or all of them (R270). -/
theorem evalFence_ok {s : State} {hr : HandRef} {o : BitVec 22} (c : Instr) {f : Fin 4} (hf : opdField o = f.val)
    {busy : Fin 8 → QuillSlot} (hbusy : ∀ k, busy k = mapGet (fun _ => {}) (beadOf s hr).quills k.val) :
    evalFence (aloneEnv s hr false) o c = .ok ⟨[], [actOf (aloneEnv s hr false) c], some (.fence f
      (beadOf s hr).core.seq ((List.finRange 8).filter (fun k => (busy k).busy && (f.val == 3 || (f.val == 2 && (busy k).hand == hr.hand)))))⟩ := by
  have hkind : opdField o % 4 = f.val := by rw [hf, Nat.mod_eq_of_lt f.isLt]
  have hfence : (⟨f.val % 4, Nat.mod_lt _ (by decide)⟩ : Fin 4) = f := Fin.ext (Nat.mod_eq_of_lt f.isLt)
  have hqs : (List.finRange 8).filter (fun k => (busy k).busy && (f.val == 3 || (f.val == 2 && (busy k).hand == hr.hand)))
      = (List.finRange 8).filter (fun k => (busy k).busy && (f.val = 3 || (f.val = 2 && (busy k).hand.val == hr.hand.val))) := by
    refine List.filter_congr (fun k _ => ?_)
    have hmine : ((busy k).hand == hr.hand) = ((busy k).hand.val == hr.hand.val) := by
      rw [Bool.eq_iff_iff, beq_iff_eq, beq_iff_eq, Fin.ext_iff]
    rw [hmine]
    rfl
  obtain rfl : busy = fun k => mapGet (fun _ => {}) (beadOf s hr).quills k.val := funext hbusy
  rw [hqs]
  simp only [evalFence, hkind, hfence]
  rfl

/-- A lone glyph that keeps its line open, and whose one effect at issue changes its bead by f, waits. -/
theorem next_waiting {s : State} {hr : HandRef} {c : Instr} {g : Glyph} {w : Pending} {f : Bead → Bead} {a : Eff}
    (r : Ready s hr c g) (hc : hasLexit [c] = false) (hd : drawsFree c = false) (hlate : isLate c = false)
    (he : evalGlyph (aloneEnv s hr false) c = .ok { effs := [], start := [a], opens := some w }) (hp : effPlain a = true)
    (hf : ∀ u, applyEff u (beadNo hr.br) hr.hand.val (handAt s hr).pc 1
      (successor (handAt s hr) (handAt s hr).pc 1 false) (handAt s hr) false u a = modBead u (beadNo hr.br) f) :
    (Host.Outcome.next (issue hr true c s) : Host.Outcome State Fault Refusal) = .next (waiting s hr f w) := by
  have hplain : [a].all effPlain = true := by simp [hp]
  rw [issue_ok r (by rw [hc]; exact he) (roomStop_plain (by simpa using hp) s _), hc]
  simp only [lineIssues, pointTo_hand, List.any_cons, List.any_nil, hd, Bool.or_false, Bool.false_eq_true, if_false,
    List.flatMap_cons, List.flatMap_nil, List.filterMap_cons, List.filterMap_nil, List.append_nil, List.find?_cons, hlate,
    List.find?_nil, applyEffs_plain hplain, List.foldl_cons, List.foldl_nil]
  rw [show getHand s (beadNo hr.br) hr.hand.val = handAt s hr from rfl, hf]
  rfl

/-- Settles O22: each glyph retires with its act, puts its hand to sleep, or keeps its line open. -/
theorem waitGlyphs : Obligations.WaitGlyphs := by
  intro s hr o g n ns i b a busy waits
  refine ⟨fun r => ?sleep, fun r h0 hn => ?nwait, fun r h0 hn => ?empty, fun r h0 hn ha => ?npop, fun f r hf => ?fence⟩
  case sleep =>
    exact next_plain r rfl rfl rfl rfl rfl rfl (modHand_retireTo s hr none id (fun y => { y with
      st := .sleeping .sleep, sleepMask := BitVec.ofNat 8 (opdField o) }))
  case nwait => exact next_plain r (evalNwait_ok (congrArg Fin.val h0) hn) rfl rfl rfl rfl rfl rfl
  case empty => exact next_asleep r rfl (evalNwait_empty (congrArg Fin.val h0) hn) rfl
  case npop =>
    refine next_plain r (evalNpop_ok _ (congrArg Fin.val h0) hn (checkLocal_ok s hr a 16 false ha)) rfl rfl rfl rfl rfl ?_
    rw [List.foldl_cons, List.foldl_cons, List.foldl_nil]
    refine actNpop_eq (t := storeBytes (retire s hr id) (localAt hr a) _) (n := n) ?_
    change (getBead (retireTo s hr none id) i).core.notices = _
    rw [getBead_retireTo]
    exact hn
  case fence =>
    exact next_waiting r rfl rfl rfl (evalFence_ok _ hf (fun k => rfl)) rfl (fun _ => rfl)

/-! Lines of several glyphs (R60, R94, R95). -/

/-- A glyph command hands its glyph to its hand's line. -/
theorem exec_glyph {c : Instr} {g : Glyph} (s : State) (h : glyphOf c = some g) :
    exec c s = .next (issue g.hand g.stop c s) := by
  unfold glyphOf at h
  split at h
  all_goals first
    | (injection h with h; subst h; rfl)
    | cases h

/-- A glyph without STOP joins its hand's line while the line has room (R60, R94). -/
theorem issue_joins {s : State} {hr : HandRef} (c : Instr) (hslate : slateRuns s hr.br.slate.val = true)
    (hsite : beadExists s (beadNo hr.br) = true) (hfree : (beadOf s hr).held = false) (hrun : (handAt s hr).st = .running)
    (hopen : (handAt s hr).openLine = none) (hroom : (handAt s hr).line.length < 5) :
    issue hr false c s = putHand s (beadNo hr.br) hr.hand.val { handAt s hr with line := (handAt s hr).line ++ [c] } := by
  simp only [beadOf, handAt] at *
  simp [issue, hslate, hsite, hfree, hrun, hopen]
  omega

/-- A hand that is not Running takes no glyph (R64). -/
theorem issue_idle {s : State} {hr : HandRef} (stop : Bool) (c : Instr) (hst : (handAt s hr).st ≠ .running) :
    issue hr stop c s = s := by
  simp only [handAt] at hst
  simp [issue, hst]

/-- What the glyphs of a line of two are evaluated in (R95, R119). -/
def pairEnv (s : State) (hr : HandRef) : Env :=
  ⟨s, beadNo hr.br, hr.hand.val, handAt s hr, (handAt s hr).pc, 2, successor (handAt s hr) (handAt s hr).pc 2 false⟩

section Pair
variable {s : State} {hr : HandRef} {a c : Instr} {ga gc : Glyph}

theorem issue_pair (r : ReadyPair s hr a c ga gc) :
    issue hr true c s = (tryLine s (beadNo hr.br) hr.hand.val [(ga, some a), (gc, some c)]).2 := by
  obtain ⟨hga, hgc, hlegal, hna, hnc, hslate, hsite, hfree, hrun, hopen, hline, hfetch, hgate, hitems⟩ := r
  simp only [beadOf, handAt] at *
  simp [issue, hslate, hsite, hfree, hrun, hopen, runLine, hline, hga, hgc]

/-- Two glyphs that are no V and M glyphs use no tile twice (R246). -/
theorem pair_not_twice (b : Bead) (ha : ga.slot < 2) (hc : gc.slot < 2) : boundTwice b [ga, gc] = none := by
  have h (g : Glyph) (hg : g.slot < 2) : (g.slot == 2) = false := by
    rw [beq_eq_false_iff_ne]
    omega
  simp [boundTwice, h ga ha, h gc hc]

/-- An effect on the hand of a retired line of two glyphs joins the line's own. -/
theorem modHand_retirePair (s : State) (hr : HandRef) (f g : Hand → Hand) :
    modHand (retirePair s hr f) (beadNo hr.br) hr.hand.val g = retirePair s hr (fun x => g (f x)) := by
  simp [modHand, retirePair, putHand, getHand]

/-- One effect of a glyph of a line of two, performed in a state that the line's earlier effects have led to. -/
def landPair (s : State) (hr : HandRef) : State → Eff → State :=
  applyEff (retirePair s hr id) (beadNo hr.br) hr.hand.val (handAt s hr).pc 2
    (successor (handAt s hr) (handAt s hr).pc 2 false) (handAt s hr) false

theorem lineIssues_pair {l m : List Eff} (p q : Nat) (succ : W32)
    (hd : drawsFree a = false) (hd' : drawsFree c = false) (hp : (l ++ m).all effPlain = true)
    (hx : effLexit (l ++ m) = false) (hl : lostOf (l ++ m) = none) (hj : jumpOf (l ++ m) = none) :
    lineIssues s (beadNo hr.br) hr.hand.val (handAt s hr).pc 2 succ [a, c] [(p, { effs := l }), (q, { effs := m })]
      = (l ++ m).foldl (landPair s hr) (retirePair s hr id) := by
  have hh : getHand (modBead s (beadNo hr.br) (fun b => issuedBy b hr.hand)) (beadNo hr.br) hr.hand.val
      = handAt s hr := by
    unfold getHand
    rw [getBead_modBead_same]
    rfl
  simp only [lineIssues, pointTo_hand, List.any_cons, List.any_nil, hd, hd', Bool.or_false, Bool.false_eq_true, if_false,
    List.flatMap_cons, List.flatMap_nil, List.filterMap_cons, List.filterMap_nil, List.append_nil, applyEffs_plain (l := []) rfl,
    List.foldl_nil, commitLine, lineEffs, hh, hx, hl, hj, applyEffs_plain hp]
  simp [landPair, retirePair, putHand, modBead, beadOf, emptied]

/-- A ready line of two glyphs of the X and S slots with plain effects retires at once, and they land in order. -/
theorem next_pair (r : ReadyPair s hr a c ga gc) {l m : List Eff} (ha : evalGlyph (pairEnv s hr) a = writes l)
    (hc : evalGlyph (pairEnv s hr) c = writes m) (hsa : (glyphOf a).any (fun g => g.slot < 2) = true)
    (hsc : (glyphOf c).any (fun g => g.slot < 2) = true) (hlx : hasLexit [a, c] = false)
    (hd : drawsFree a = false) (hd' : drawsFree c = false) (hp : (l ++ m).all effPlain = true)
    (hx : effLexit (l ++ m) = false) (hl : lostOf (l ++ m) = none) (hj : jumpOf (l ++ m) = none) {t : State}
    (ht : (l ++ m).foldl (landPair s hr) (retirePair s hr id) = t) :
    (Host.Outcome.next (issue hr true c s) : Host.Outcome State Fault Refusal) = .next t := by
  have hroom := roomStop_plain hp s (beadNo hr.br)
  rw [issue_pair r, ← ht, ← lineIssues_pair ga.slot gc.slot (successor (handAt s hr) (handAt s hr).pc 2 false) hd hd' hp hx hl hj]
  obtain ⟨hga, hgc, hlegal, hna, hnc, hslate, hsite, hfree, hrun, hopen, hline, hfetch, hgate, hitems⟩ := r
  rw [hga, Option.any_some, decide_eq_true_eq] at hsa
  rw [hgc, Option.any_some, decide_eq_true_eq] at hsc
  simp only [beadOf, handAt, pairEnv] at *
  simp [tryLine, hfetch, hgate, hitems, hlegal, lineResults, hna, hnc, ha, hc, hlx, writes, pair_not_twice _ hsa hsc, hroom]

end Pair

theorem landPair_xr (s : State) (hr : HandRef) (f : Hand → Hand) (r : XReg) (v : W32) :
    landPair s hr (retirePair s hr f) (.xr r v) = retirePair s hr (fun y => setX (f y) r v) := by
  cases r with
  | x0 => exact modHand_retirePair s hr f (fun y => { y with x0 := v })
  | x1 => exact modHand_retirePair s hr f (fun y => { y with x1 := v })

theorem landPair_acc (s : State) (hr : HandRef) (f : Hand → Hand) (v : W64) :
    landPair s hr (retirePair s hr f) (.acc v) = retirePair s hr (fun y => { f y with acc := v }) :=
  modHand_retirePair s hr f (fun y => { y with acc := v })

theorem landPair_psw (s : State) (hr : HandRef) (f : Hand → Hand) (m v : W32) :
    landPair s hr (retirePair s hr f) (.psw m v) = retirePair s hr (fun y => { f y with psw := merge32 (f y).psw m v }) :=
  modHand_retirePair s hr f (fun y => { y with psw := merge32 y.psw m v })

theorem landPair_store (s : State) (hr : HandRef) (t : State) (a : Nat) (bs : List W8) :
    landPair s hr t (.store a bs) = storeBytes t a bs := rfl

/-- Settles O28: a glyph joins its line by `issue_joins`, and the writes of two glyphs, evaluated in one environment, land
in order. -/
theorem glyphLines : Obligations.GlyphLines := by
  refine ⟨fun s hr c g hg hhand => ⟨fun hslate hsite hfree hrun hopen hstop hroom => ?joins, fun hst => ?idle⟩, ?pairs⟩
  case joins => rw [exec_glyph s hg, hhand, hstop, issue_joins c hslate hsite hfree hrun hopen hroom]
  case idle => rw [exec_glyph s hg, hhand, issue_idle _ c hst]
  case pairs =>
    intro s hr r o p ga gc v x a step
    refine ⟨fun q hm hl => ?load, fun q hm hl => ?store, fun q hv ht => ?add⟩
    case load =>
      have heval : evalGlyph (pairEnv s hr) (.ld hr true p) = writes [.acc (extend false (loadBytes s (localAt hr a) 8))] := by
        have h4 : opdMode p ≠ 4 := by omega
        exact (if_neg h4).trans (evalLoad_local s hr _ p 8 _ hm hl)
      refine next_pair q (l := [.xr r (xOf x r + imm32 o)]) rfl heval rfl rfl rfl rfl rfl rfl rfl rfl rfl ?_
      rw [List.singleton_append, List.foldl_cons, List.foldl_cons, List.foldl_nil, landPair_xr, landPair_acc, extend_unsigned]
      rfl
    case store =>
      have heval : evalGlyph (pairEnv s hr) (.st hr true p) = writes [.store (localAt hr a) (toBytes 8 x.acc.toNat)] :=
        evalSt_local s hr _ p 8 x.acc.toNat hm (by rw [toBytes_length]; exact hl)
      refine next_pair q (l := [.xr r (xOf x r + imm32 o)]) rfl heval rfl rfl rfl rfl rfl rfl rfl rfl rfl ?_
      rw [List.singleton_append, List.foldl_cons, List.foldl_cons, List.foldl_nil, landPair_xr, landPair_store]
      rfl
    case add =>
      have hfault : (aluEval .add x.psw x.acc v).fault = none := by rw [alu_eq, ht]; rfl
      have heval : evalGlyph (pairEnv s hr) (.add hr true p)
          = writes [.acc (aluSays .add x.acc v).1, .psw (flagMask (aluSays .add x.acc v).2) (flagBits (aluSays .add x.acc v).2)] := by
        refine (evalAlu_operand (s := s) (hr := hr) false _ .add hv).trans ((aluWrites_ok hfault).trans ?_)
        rw [alu_eq]
        rfl
      refine next_pair q (l := [.xr r (x.acc.truncate 32)]) rfl heval rfl rfl rfl rfl rfl rfl rfl rfl rfl ?_
      rw [List.singleton_append, List.foldl_cons, List.foldl_cons, List.foldl_cons, List.foldl_nil, landPair_xr, landPair_acc,
        landPair_psw]
      simp only [merge_flags]
      rfl

/-! Events of a hand: its wakes, its timer, interrupts and imprecise faults (R66, R67, R81, R411). -/

theorem beadRuns_of {s : State} {b : BeadRef} (h : BeadUp s b) : beadRuns s (beadNo b) = true := by
  obtain ⟨hruns, hsite, hfree⟩ := h
  have hslate : beadNo b / 256 = b.slate.val := by
    rw [beadNo, Nat.mul_add_div (by decide), Nat.div_eq_of_lt b.bead.isLt, Nat.add_zero]
  have hheld : (getBead s (beadNo b)).held = false := hfree
  rw [beadRuns, hslate, hruns, hsite, hheld]
  rfl

theorem isSleeping_iff (x : Hand) : isSleeping x = true ↔ ∃ w, x.st = .sleeping w := by
  cases h : x.st <;> simp [isSleeping, h]

theorem isSleeping_running {x : Hand} (h : x.st = .running) : isSleeping x = false := by rw [isSleeping, h]

theorem wakeHand_sleeping {x : Hand} {w : WaitKind} (code : BitVec 3) (h : x.st = .sleeping w) :
    wakeHand x code = { x with st := .running, wake := code } := by rw [wakeHand, h]

theorem getHand_endSlumber (s : State) (i k : Nat) : getHand (modBead s i endSlumber) i k = getHand s i k :=
  (SameCores.modBead s i (f := endSlumber) (fun _ => rfl)).getHand i k

/-- With no fault held for them, hands that have woken take none. -/
theorem deliverHeld_all {s : State} {i : Nat} {l : List Nat} (h : ∀ k ∈ l, (getHand s i k).heldFaults = []) :
    l.foldl (fun s k => deliverHeld s i k) s = s := by
  induction l with
  | nil => rfl
  | cons k l ih =>
    rw [List.foldl_cons, deliverHeld_none (h k (by simp)), ih (fun m hm => h m (by simp [hm]))]

/-- One hand woken, for which no fault is held: the slumber of its bead has ended (R271). -/
theorem deliverWoken_one {s : State} {i : Nat} {h : Fin 4} {y : Hand} (hold : isSleeping (getHand s i h.val) = true)
    (hnew : isSleeping y = false) (hf : y.heldFaults = []) :
    deliverWoken s i (putHand s i h.val y) = modBead (putHand s i h.val y) i endSlumber := by
  have hmem : ∀ k, k ∈ (List.range 4).filter
      (fun k => isSleeping (getHand s i k) && !isSleeping (getHand (putHand s i h.val y) i k)) → k = h.val := by
    intro k hk
    by_contra hne
    obtain ⟨-, hw⟩ := List.mem_filter.1 hk
    rw [getHand_putHand_ne _ _ _ _ _ _ (.inr hne)] at hw
    simp at hw
  have hwoken : ((List.range 4).filter
      (fun k => isSleeping (getHand s i k) && !isSleeping (getHand (putHand s i h.val y) i k))).isEmpty = false := by
    rw [List.isEmpty_eq_false_iff_exists_mem]
    exact ⟨h.val, List.mem_filter.2 ⟨List.mem_range.2 h.isLt, by simp [hold, hnew]⟩⟩
  unfold deliverWoken
  extract_lets woken
  rw [if_neg (by rw [hwoken]; exact Bool.false_ne_true)]
  refine deliverHeld_all (fun k hk => ?_)
  rw [hmem k hk, getHand_endSlumber, getHand_putHand_same, hf]

/-- No hand woken. -/
theorem deliverWoken_none {s : State} {i h : Nat} {y : Hand} (hy : isSleeping (getHand s i h) = true → isSleeping y = true) :
    deliverWoken s i (putHand s i h y) = putHand s i h y := by
  have hnil : (List.range 4).filter (fun k => isSleeping (getHand s i k) && !isSleeping (getHand (putHand s i h y) i k)) = [] := by
    refine List.filter_eq_nil_iff.2 (fun k _ => ?_)
    by_cases hk : k = h
    · subst hk
      rw [getHand_putHand_same]
      cases hs : isSleeping (getHand s i k) with
      | false => simp
      | true => simp [hy hs]
    · rw [getHand_putHand_ne _ _ _ _ _ _ (.inr hk)]
      simp
  unfold deliverWoken
  extract_lets woken
  rw [if_pos (show woken.isEmpty = true by rw [show woken = [] from hnil]; rfl)]

/-- A notice posted where no fault is held for hand 0 joins the queue, and wakes hand 0 from NWAIT (R80). -/
theorem postNotice_eq {s : State} {i : Nat} (n : Notice) (hf : (getHand s i 0).heldFaults = []) :
    postNotice s i n = modBead s i (if (getHand s i 0).st = .sleeping .nwait then withWake n else withNotice n) := by
  rw [postNotice_cases]
  split
  next h =>
    refine deliverSupervisor_none ?_
    have hwake : getHand (modBead s i (withWake n)) i 0 = wakeHand (getHand s i 0) 4 := by
      rw [getHand, getBead_modBead_same]
      exact handOf_setHand_same _ 0 _
    rw [hwake, wakeHand_sleeping 4 h]
    exact hf
  · rfl

theorem getHand_withWake (s : State) (i : Nat) (n : Notice) (k : Nat) : getHand (modBead s i (withWake n)) i k
    = if k = 0 then wakeHand (getHand s i 0) 4 else getHand s i k := by
  rw [getHand, getBead_modBead_same]
  split
  next h =>
    subst h
    exact handOf_setHand_same _ 0 _
  next h => exact handOf_setHand_ne _ 0 k _ h

/-- What a notice does to the hands of its bead (R80). -/
theorem getHand_postNotice {s : State} {i : Nat} (n : Notice) (k : Nat) (hf : (getHand s i 0).heldFaults = [])
    (hk : (getHand s i k).st ≠ .sleeping .nwait) : getHand (postNotice s i n) i k = getHand s i k := by
  rw [postNotice_eq n hf]
  split
  next h =>
    have h0 : k ≠ 0 := fun q => hk (q ▸ h)
    rw [getHand_withWake, if_neg h0]
  · exact getHand_withNotice s i k n

theorem tctl_wakeHand (x : Hand) (c : BitVec 3) : (wakeHand x c).tctl = x.tctl := by
  cases h : x.st <;> simp only [wakeHand, h]

theorem heldFaults_wakeHand (x : Hand) (c : BitVec 3) : (wakeHand x c).heldFaults = x.heldFaults := by
  cases h : x.st <;> simp only [wakeHand, h]

/-- A notice leaves every hand's TCTL as it was. -/
theorem tctl_postNotice {s : State} {i : Nat} (n : Notice) (k : Nat) (hf : (getHand s i 0).heldFaults = []) :
    (getHand (postNotice s i n) i k).tctl = (getHand s i k).tctl := by
  rw [postNotice_eq n hf]
  split
  · rw [getHand_withWake]
    split
    next h => rw [tctl_wakeHand, h]
    · rfl
  · rw [getHand_withNotice]

theorem intPend_postNotice {s : State} {i : Nat} (n : Notice) (hf : (getHand s i 0).heldFaults = []) :
    (getBead (postNotice s i n) i).regs.intPend = (getBead s i).regs.intPend := by
  rw [postNotice_eq n hf, getBead_modBead_same]
  split
  · rfl
  · rfl

/-! Wakes (R66). -/

/-- A sleeping hand whose condition holds runs again with the code of what woke it. -/
theorem handWake_next {s : State} {hr : HandRef} {c : BitVec 3} {w : WaitKind} (hup : BeadUp s hr.br)
    (hst : (handAt s hr).st = .sleeping w) (hf : (handAt s hr).heldFaults = [])
    (hcode : wakeCode s (beadNo hr.br) hr.hand.val = some c) :
    exec (.handWake hr) s = .next (modBead (putHand s (beadNo hr.br) hr.hand.val
      { handAt s hr with st := .running, wake := c }) (beadNo hr.br) endSlumber) := by
  have hwake : modHand s (beadNo hr.br) hr.hand.val (fun x => wakeHand x c)
      = putHand s (beadNo hr.br) hr.hand.val { handAt s hr with st := .running, wake := c } :=
    congrArg (putHand s (beadNo hr.br) hr.hand.val) (wakeHand_sleeping c hst)
  change Host.Outcome.next (if beadRuns s (beadNo hr.br) = true then
    (match wakeCode s (beadNo hr.br) hr.hand.val with
      | some c => deliverWoken s (beadNo hr.br) (modHand s (beadNo hr.br) hr.hand.val (fun x => wakeHand x c))
      | none => s) else s) = _
  rw [if_pos (beadRuns_of hup), hcode]
  dsimp only
  rw [hwake]
  exact congrArg Host.Outcome.next (deliverWoken_one ((isSleeping_iff _).2 ⟨w, hst⟩) rfl hf)

/-- A channel that the hand's mask names, in use by it, meets a channel wait (R71). -/
theorem channel_any {b : Bead} {x : Hand} {p : Bead → Nat → Nat} {ok : Nat → Bool} {h : Nat} (c : Fin 4)
    (hmask : x.sleepMask.getLsbD c.val = true) (hen : chanEn b c.val = true) (hp : p b c.val = h)
    (hok : ok (chanQ b c.val).length = true) :
    (List.range 4).any (fun c => x.sleepMask.getLsbD c && chanEn b c && p b c == h && ok (chanQ b c).length) = true := by
  refine List.any_eq_true.2 ⟨c.val, List.mem_range.2 c.isLt, ?_⟩
  rw [hmask, hen, hp, hok, beq_self_eq_true]
  rfl

/-! Timers (R67, R83). -/

/-- A hand whose timer has matched (R67, R68). -/
def timedOut (x : Hand) : Hand :=
  let y := { x with tctl := (x.tctl &&& ~~~1) ||| 4 }
  match y.st with
  | .sleeping _ => if x.tctl.getLsbD 3 then wakeHand y 1 else y
  | .halted .sleeping => if x.tctl.getLsbD 3 then { y with st := .halted .running, wake := 1 } else y
  | _ => y

theorem tctl_timedOut (x : Hand) : (timedOut x).tctl = (x.tctl &&& ~~~1) ||| 4 := by
  unfold timedOut
  extract_lets y
  split
  · split
    · exact tctl_wakeHand y 1
    · rfl
  · split <;> rfl
  · rfl

theorem heldFaults_timedOut (x : Hand) : (timedOut x).heldFaults = x.heldFaults := by
  unfold timedOut
  extract_lets y
  split
  · split
    · exact heldFaults_wakeHand y 1
    · rfl
  · split <;> rfl
  · rfl

theorem st_timedOut {x : Hand} {w : WaitKind} (h : x.st = .sleeping w) :
    (timedOut x).st = if x.tctl.getLsbD 3 then .running else .sleeping w := by
  simp only [timedOut, h]
  split
  · rfl
  · rfl

/-- A timer's match changes its hand, and may end its bead's slumber. -/
theorem sameCores_timedOut {s : State} {i : Nat} (h : Fin 4) (hf : (getHand s i h.val).heldFaults = []) :
    SameCores (putHand s i h.val (timedOut (getHand s i h.val)))
      (deliverWoken s i (putHand s i h.val (timedOut (getHand s i h.val)))) := by
  by_cases hw : isSleeping (getHand s i h.val) = true ∧ isSleeping (timedOut (getHand s i h.val)) = false
  · rw [deliverWoken_one hw.1 hw.2 ((heldFaults_timedOut _).trans hf)]
    exact .modBead _ i (fun _ => rfl)
  · rw [deliverWoken_none]
    · exact .refl _
    · intro hs
      by_contra hn
      exact hw ⟨hs, Bool.eq_false_iff.2 hn⟩

/-- TIMER_MATCH of a timer that is due, with no fault held for its hand or hand 0 (R67, R83). -/
theorem timerMatch_next {s : State} {hr : HandRef} (hup : BeadUp s hr.br) (harm : (handAt s hr).tctl.getLsbD 0 = true)
    (hdue : (handAt s hr).tcmp ≤ slateTick s (beadNo hr.br)) :
    exec (.timerMatch hr) s = .next (timerMatch s (beadNo hr.br) hr.hand.val) := by
  change Host.Outcome.next (if (beadRuns s (beadNo hr.br) && (handAt s hr).tctl.getLsbD 0
    && decide ((handAt s hr).tcmp ≤ slateTick s (beadNo hr.br))) = true then _ else _) = _
  rw [if_pos (by rw [beadRuns_of hup, harm, decide_eq_true hdue]; rfl)]

section Timer
variable {s : State} {i : Nat} (h : Fin 4)

/-- A timer's match is the hand's own change and, under NOTIFY, a notice (R67, R83). -/
theorem timerMatch_eq (s : State) (i : Nat) (h : Fin 4) : timerMatch s i h.val
    = if (getHand s i h.val).tctl.getLsbD 1 && !(getHand s i h.val).tctl.getLsbD 2 then
        postNotice (deliverWoken s i (putHand s i h.val (timedOut (getHand s i h.val)))) i
          ⟨4 + h.val, noticeWord0 3 h.val 0 0, (getHand s i h.val).tcmp.truncate 32, 0,
            noticeTick (deliverWoken s i (putHand s i h.val (timedOut (getHand s i h.val)))) i⟩
      else deliverWoken s i (putHand s i h.val (timedOut (getHand s i h.val))) := rfl

variable (hf : (getHand s i h.val).heldFaults = []) (h0 : (getHand s i 0).heldFaults = [])
include hf h0

theorem timedOut_unfaulted :
    (getHand (deliverWoken s i (putHand s i h.val (timedOut (getHand s i h.val)))) i 0).heldFaults = [] := by
  rw [(sameCores_timedOut h hf).getHand]
  by_cases hz : h.val = 0
  · rw [← hz, getHand_putHand_same, heldFaults_timedOut, hf]
  · rw [getHand_putHand_ne _ _ _ _ _ _ (.inr (Ne.symm hz)), h0]

theorem tctl_timerMatch : (getHand (timerMatch s i h.val) i h.val).tctl = ((getHand s i h.val).tctl &&& ~~~1) ||| 4 := by
  rw [timerMatch_eq]
  split
  · rw [tctl_postNotice _ _ (timedOut_unfaulted h hf h0), (sameCores_timedOut h hf).getHand, getHand_putHand_same,
      tctl_timedOut]
  · rw [(sameCores_timedOut h hf).getHand, getHand_putHand_same, tctl_timedOut]

theorem st_timerMatch (hst : (getHand s i h.val).st = .sleeping .sleep) : (getHand (timerMatch s i h.val) i h.val).st
    = if (getHand s i h.val).tctl.getLsbD 3 then .running else .sleeping .sleep := by
  have hself : (getHand (deliverWoken s i (putHand s i h.val (timedOut (getHand s i h.val)))) i h.val).st
      = if (getHand s i h.val).tctl.getLsbD 3 then .running else .sleeping .sleep := by
    rw [(sameCores_timedOut h hf).getHand, getHand_putHand_same, st_timedOut hst]
  rw [timerMatch_eq]
  split
  · rw [getHand_postNotice _ _ (timedOut_unfaulted h hf h0), hself]
    rw [hself]
    split <;> simp
  · exact hself

theorem timerMatch_notices (hnotify : (getHand s i h.val).tctl.getLsbD 1 = true)
    (hfired : (getHand s i h.val).tctl.getLsbD 2 = false) :
    Noticed (getBead (timerMatch s i h.val) i) (4 + h.val) ((getHand s i h.val).tcmp.truncate 32) 0 := by
  rw [timerMatch_eq, if_pos (by rw [hnotify, hfired]; rfl)]
  exact (postNotice_posts _ (timedOut_unfaulted h hf h0)).1

end Timer

/-! Imprecise faults (R411). -/

theorem sameCores_noteFault (s : State) (i : Nat) (f : FaultRec) : SameCores s (noteFault s i f) := by
  unfold noteFault
  split
  · exact .modBead s i (fun _ => rfl)
  · exact .refl s

/-- A fault other than BREAK at user level of hands 1 to 3 stops its hand with a notice, a parity error having been noted
against its bank (R76, R351). -/
theorem takeFault_stopped {s : State} {i h : Nat} {spc : W32} {f : FaultRec} (hb : f.cause ≠ 0x0D)
    (hl : pswPl (getHand s i h).psw = 0) (hh : h ≠ 0) (hf : (getHand s i 0).heldFaults = []) :
    getHand (takeFault s i h spc f) i h = { emptied (getHand s i h) with
        st := .stopped .fault, save1 := ⟨spc, (getHand s i h).psw, scauseOf f, f.sfa⟩ }
      ∧ Noticed (getBead (takeFault s i h spc f) i) h spc f.sfa := by
  have hnoted := sameCores_noteFault s i f
  have hout : ¬ (pswPl (getHand s i h).psw ≥ 1 ∨ h = 0) := by omega
  have htake : takeFault s i h spc f = stopNotice (putHand (noteFault s i f) i h { emptied (getHand s i h) with
      st := .stopped .fault, save1 := ⟨spc, (getHand s i h).psw, scauseOf f, f.sfa⟩ }) i h 0 f.cause.toNat (scauseOf f) spc f.sfa := by
    simp only [takeFault, hnoted.getHand, if_neg hout, if_neg hb]
    rfl
  have h0 (x : Hand) : (getHand (putHand (noteFault s i f) i h x) i 0).heldFaults = [] := by
    rw [getHand_putHand_ne _ _ _ _ _ _ (.inr hh.symm), hnoted.getHand, hf]
  obtain ⟨hnotice, hrest⟩ := postNotice_posts (s := putHand (noteFault s i f) i h _) (i := i)
    ⟨h, noticeWord0 0 h f.cause.toNat (scauseOf f), spc, f.sfa, noticeTick _ i⟩ (h0 _)
  rw [htake]
  exact ⟨(hrest h hh).trans (getHand_putHand_same _ _ _ _), hnotice⟩

section Imprecise
variable {s : State} {hr : HandRef} {slot len : BitVec 3} {dev : Bool} {sfa : W32}

theorem impreciseFault_next (hup : BeadUp s hr.br) : exec (.impreciseFault hr slot dev len sfa) s
    = .next (impreciseFault s (beadNo hr.br) hr.hand.val ⟨0x06, slot, true, dev, len, sfa⟩) := by
  change Host.Outcome.next (if beadRuns s (beadNo hr.br) = true then _ else _) = _
  rw [if_pos (beadRuns_of hup)]

/-- A hand that cannot take the fault now keeps it. -/
theorem impreciseFault_waits {s : State} {i h : Nat} (f : FaultRec)
    (hst : (∃ k, (getHand s i h).st = .stopped k) ∨ ∃ k, (getHand s i h).st = .halted k) :
    impreciseFault s i h f = putHand s i h { getHand s i h with heldFaults := (getHand s i h).heldFaults ++ [f] } := by
  have hhold : impreciseFault s i h f = modHand s i h (fun x => { x with heldFaults := x.heldFaults ++ [f] }) := by
    rcases hst with ⟨k, hk⟩ | ⟨k, hk⟩
    · simp only [impreciseFault, hk]
    · simp only [impreciseFault, hk]
  exact hhold

end Imprecise

/-! Open lines that retire with nothing left to write (R129, R270). -/

theorem takeImprecise_none {s : State} {i h : Nat} (hf : (getHand s i h).heldFaults = []) : takeImprecise s i h = s := by
  unfold takeImprecise
  extract_lets x
  split
  · exact deliverHeld_none hf
  next hx => exact absurd (hf.symm.trans hx) (List.cons_ne_nil _ _).symm
  · rfl

/-- A line with nothing left to write goes, its hand neither stopping nor faulting after it. -/
theorem retireLine_went {s : State} {i h : Nat} {l : OpenLine} (heffs : l.effs = []) (hkill : l.killed = false)
    (hlate : l.late = none) (hstop : (getHand s i h).stopAfter = false) (hf : (getHand s i h).heldFaults = []) :
    retireLine s i h l = putHand s i h { continueAt (getHand s i h) l.pc l.len false none with
      heldLine := [], openLine := none } := by
  obtain ⟨lv, w, a, hseq⟩ := continueAt_frame (getHand s i h) l.pc l.len
  have hcommit : commitLine s i h l.pc l.len [] true false = putHand s i h
      { continueAt (getHand s i h) l.pc l.len false none with heldLine := [], openLine := none } := rfl
  have hroom : roomStop s i [] = none := roomStop_plain rfl s i
  have hretire : retireLine s i h l = afterLine (commitLine s i h l.pc l.len [] true false) i h := by
    simp only [retireLine, hlate, writes, lateEffs, heffs, List.flatMap_nil, hroom, hkill]
  have hstop' : (getHand (commitLine s i h l.pc l.len [] true false) i h).stopAfter = false := by
    rw [hcommit, getHand_putHand_same, hseq, hstop]
  have hf' : (getHand (commitLine s i h l.pc l.len [] true false) i h).heldFaults = [] := by
    rw [hcommit, getHand_putHand_same, hseq, hf]
  rw [hretire, afterLine, if_neg (by rw [hstop']; exact Bool.false_ne_true), takeImprecise_none hf', hcommit]

/-- What alone keeps a hand's line open is done: the line goes. -/
theorem closePending_went {s : State} {i h : Nat} {l : OpenLine} {w : Pending} {done : Pending → Bool}
    (hl : (getHand s i h).openLine = some l) (hwhy : l.why = [w]) (heffs : l.effs = []) (hkill : l.killed = false)
    (hlate : l.late = none) (hstop : (getHand s i h).stopAfter = false) (hf : (getHand s i h).heldFaults = [])
    (hdone : done w = true) :
    closePending s i h done [] = putHand s i h { continueAt (getHand s i h) l.pc l.len false none with
      heldLine := [], openLine := none } := by
  have hnil : l.why.filter (fun w => !done w) = [] := by simp [hwhy, hdone]
  rw [closePending, hl]
  dsimp only
  rw [hnil, List.isEmpty_nil, if_pos rfl]
  exact retireLine_went (l := { l with why := [], effs := l.effs ++ [] }) (by rw [heffs]; rfl) hkill hlate hstop hf

/-- Just one of the four hands. -/
theorem filter_hands {p : Nat → Bool} (h : Fin 4) (hp : ∀ k < 4, p k = decide (k = h.val)) :
    (List.range 4).filter p = [h.val] := by
  have hq : (List.range 4).filter p = (List.range 4).filter (fun k => decide (k = h.val)) :=
    List.filter_congr (fun k hk => hp k (List.mem_range.1 hk))
  have hself : ∀ h : Fin 4, (List.range 4).filter (fun k => decide (k = h.val)) = [h.val] := by decide
  rw [hq, hself]

/-- A bead with a PEND bit set (R81). -/
def pended (s : State) (i : Nat) (src : Fin 8) : State :=
  modBead s i (fun b => { b with regs := { b.regs with intPend := b.regs.intPend ||| flag true src.val } })

/-- Setting a PEND bit that was 0 (R81): a notice where its MASK bit is 1, and else nothing of the core changes. -/
theorem setInterrupt_sets {s : State} {i : Nat} (src : Fin 8) (detail : W32) (h0 : (getHand s i 0).heldFaults = [])
    (hp : (getBead s i).regs.intPend.getLsbD src.val = false) :
    (getBead (setInterrupt s i src.val detail) i).regs.intPend = (getBead s i).regs.intPend ||| BitVec.ofNat 32 (2 ^ src.val)
      ∧ ((getBead s i).regs.intMask.getLsbD src.val = true →
          Noticed (getBead (setInterrupt s i src.val detail) i) (8 + src.val) 0 detail)
      ∧ ((getBead s i).regs.intMask.getLsbD src.val = false →
          (getBead (setInterrupt s i src.val detail) i).core = (getBead s i).core) := by
  have hset : setInterrupt s i src.val detail = if (getBead s i).regs.intMask.getLsbD src.val then
      intNotice (pended s i src) i src.val detail else pended s i src := by
    rw [setInterrupt, if_neg (Bool.eq_false_iff.1 hp)]
    rfl
  have hcore : SameCores s (pended s i src) := .modBead s i (fun _ => rfl)
  have hf : (getHand (pended s i src) i 0).heldFaults = [] := by rw [hcore.getHand, h0]
  have hpend : (getBead (pended s i src) i).regs.intPend = (getBead s i).regs.intPend ||| BitVec.ofNat 32 (2 ^ src.val) := by
    rw [pended, getBead_modBead_same]
    rfl
  rw [hset]
  cases (getBead s i).regs.intMask.getLsbD src.val with
  | true => exact ⟨(intPend_postNotice _ hf).trans hpend, fun _ => (postNotice_posts _ hf).1, fun q => Bool.noConfusion q⟩
  | false => exact ⟨hpend, fun q => Bool.noConfusion q, fun _ => hcore i⟩

/-- Settles O36: each event evaluates to what its own lemma above says. -/
theorem handEvents : Obligations.HandEvents := by
  intro s hr l kind seq qs src detail sfa slot len dev i b x h wakes calm went scause hup h0
  refine ⟨fun hst hv hs hf => ?twait, fun hst hn hf => ?nwait, fun c hst hf hm hen hd hq => ?crecv,
    fun c hst hf hm hen hd hq => ?csend, fun harm hdue hf => ?timer, fun hp => ?int, fun hp => ?pending,
    fun hst hopen hpl hh => ?run, fun q hst => ?halted, fun k hst => ?stopped, fun hst => ?idle,
    fun hc hd => ?fence, fun hc hm hrest => ?scan⟩
  case twait =>
    refine handWake_next hup hst hf ?_
    have hst' : (handOf (getBead s (beadNo hr.br)) hr.hand.val).st = .sleeping .twait := hst
    simp only [wakeCode, hst']
    exact if_pos (Bool.and_eq_true_iff.2 ⟨hv, hs⟩)
  case nwait =>
    refine handWake_next hup hst hf ?_
    have hst' : (handOf (getBead s (beadNo hr.br)) hr.hand.val).st = .sleeping .nwait := hst
    simp only [wakeCode, hst']
    exact if_neg (by rw [List.isEmpty_iff]; exact hn)
  case crecv =>
    refine handWake_next hup hst hf ?_
    have hst' : (handOf (getBead s (beadNo hr.br)) hr.hand.val).st = .sleeping .crecv := hst
    simp only [wakeCode, hst']
    exact if_pos (channel_any (ok := (0 < ·)) c hm hen hd (decide_eq_true (List.length_pos_iff.2 hq)))
  case csend =>
    refine handWake_next hup hst hf ?_
    have hst' : (handOf (getBead s (beadNo hr.br)) hr.hand.val).st = .sleeping .csend := hst
    simp only [wakeCode, hst']
    exact if_pos (channel_any (ok := (· < 2)) c hm hen hd (decide_eq_true hq))
  case timer =>
    refine ⟨_, timerMatch_next hup harm hdue, tctl_timerMatch hr.hand hf h0, fun hst => ?_, timerMatch_notices hr.hand hf h0⟩
    rw [hst]
    exact st_timerMatch hr.hand hf h0 hst
  case halted => rw [impreciseFault_next hup, impreciseFault_waits _ (.inr ⟨q, hst⟩)]; rfl
  case stopped => rw [impreciseFault_next hup, impreciseFault_waits _ (.inl ⟨k, hst⟩)]; rfl
  case idle =>
    have hst' : (getHand s (beadNo hr.br) hr.hand.val).st = .idle := hst
    rw [impreciseFault_next hup]
    simp only [impreciseFault, hst']
  case run =>
    have hst' : (getHand s (beadNo hr.br) hr.hand.val).st = .running := hst
    have hopen' : (getHand s (beadNo hr.br) hr.hand.val).openLine = none := hopen
    obtain ⟨hhand, hnotice⟩ := takeFault_stopped (s := s) (i := i) (spc := x.pc) (f := ⟨0x06, slot, true, dev, len, sfa⟩)
      (show (0x06 : W8) ≠ 0x0D by decide) hpl hh h0
    refine ⟨_, (impreciseFault_next hup).trans ?_, hhand, hnotice⟩
    simp only [impreciseFault, hst', hopen']
    rfl
  case pending =>
    change Host.Outcome.next (if beadRuns s i = true then setInterrupt s i src.val detail else s) = _
    rw [if_pos (beadRuns_of hup)]
    exact congrArg Host.Outcome.next (if_pos hp)
  case int =>
    have hset : exec (.interruptAssert hr.br src detail) s = .next (setInterrupt s i src.val detail) := by
      change Host.Outcome.next (if beadRuns s i = true then setInterrupt s i src.val detail else s) = _
      rw [if_pos (beadRuns_of hup)]
    obtain ⟨hpend, hmasked, hunmasked⟩ := setInterrupt_sets (s := s) (i := i) src detail h0 hp
    exact ⟨_, hset, hpend, hmasked, hunmasked⟩
  case fence =>
    obtain ⟨hl, hwhy, heffs, hkill, hlate, hstop, hf⟩ := hc
    have hl' : (getHand s i h).openLine = some l := hl
    change Host.Outcome.next (match (getHand s i h).openLine with
      | some l => if (beadRuns s i && l.why.any _) = true then closePending s i h _ [] else s
      | none => s) = _
    rw [hl']
    dsimp only
    rw [if_pos (Bool.and_eq_true_iff.2 ⟨beadRuns_of hup, by rw [hwhy]; exact (Bool.or_false _).trans hd⟩)]
    exact congrArg Host.Outcome.next (closePending_went hl hwhy heffs hkill hlate hstop hf hd)
  case scan =>
    obtain ⟨hl, hwhy, heffs, hkill, hlate, hstop, hf⟩ := hc
    have hs : (List.range 4).filter (fun k => match (getHand s i k).openLine with
        | some l => l.why.contains .scan
        | none => false) = [h] := by
      refine filter_hands hr.hand (fun k hk => ?_)
      by_cases hkh : k = hr.hand.val
      · subst hkh
        rw [show (getHand s i hr.hand.val).openLine = some l from hl]
        simp [hwhy]
      · have hnone : (getHand s i k).openLine = none := hrest ⟨k, hk⟩ (fun q => hkh (congrArg Fin.val q))
        rw [hnone]
        simp [hkh]
    have hways := SameCores.modBead s i (f := fun b => { b with blot := { b.blot with ways := [] } }) (fun _ => rfl)
    have hx := hways.getHand i h
    have hwent := closePending_went (done := fun w => w == .scan) ((congrArg Hand.openLine hx).trans hl) hwhy heffs hkill
      hlate ((congrArg Hand.stopAfter hx).trans hstop) ((congrArg Hand.heldFaults hx).trans hf) rfl
    rw [hx] at hwent
    have hscans : exec (.blswScanEnd hr.br) s = .next (if beadRuns s i && !List.isEmpty [h] && b.blot.merge.isEmpty then
        [h].foldl (fun s k => closePending s i k (fun w => w == .scan) [])
          (modBead s i (fun b => { b with blot := { b.blot with ways := [] } })) else s) := by
      rw [← hs]
      rfl
    rw [hscans, if_pos (by rw [beadRuns_of hup, hm]; rfl), List.foldl_cons, List.foldl_nil]
    exact congrArg Host.Outcome.next hwent

/-! Control space: where an offset leads, and an access that nothing of its requester's waits before (R400, R401). -/

theorem beadNo_div (b : BeadRef) : beadNo b / 256 = b.slate.val := by
  rw [beadNo, Nat.mul_add_div (by decide), Nat.div_eq_of_lt b.bead.isLt, Nat.add_zero]

/-- An offset within a Slate's region. -/
theorem locOf_slate {s : State} {t o : Nat} (ht : t < 4) (ho : o < 0x4000000) :
    locOf s (t * 0x4000000 + o) = slateLoc s t o := by
  rw [locOf, if_pos (by omega), show (t * 0x4000000 + o) / 0x4000000 = t by omega,
    show (t * 0x4000000 + o) % 0x4000000 = o by omega]

/-- An offset within a bead's block, where a register stands. -/
theorem locOf_bead {s : State} {b : BeadRef} {o : Nat} (hp : slatePresent s b.slate.val = true)
    (hs : (siteOf s b.slate.val (b.bead.val / 16) (b.bead.val % 16)).isSome = true) (ho : o < 0x1000) (h4 : o % 4 = 0)
    (hreg : beadRegAt o = true) : locOf s (beadAddr b o) = .bead (beadNo b) o := by
  have hb := b.bead.isLt
  have hline : (0x300000 + b.bead.val * 0x1000 + o) / 4 * 4 = 0x300000 + b.bead.val * 0x1000 + o := by omega
  have hblock : (0x300000 + b.bead.val * 0x1000 + o - 0x300000) / 0x1000 = b.bead.val := by omega
  have hoff : (0x300000 + b.bead.val * 0x1000 + o) % 0x1000 = o := by omega
  have hno : 256 * b.slate.val + 16 * (b.bead.val / 16) + b.bead.val % 16 = beadNo b := by rw [beadNo]; omega
  rw [beadAddr, Nat.add_assoc, Nat.add_assoc, locOf_slate b.slate.isLt (by omega), ← Nat.add_assoc, slateLoc]
  dsimp only
  rw [hline, hp, if_neg (by simp), if_neg (by omega), if_neg (by omega), if_neg (by omega), if_pos (by omega), hblock, hoff,
    hreg, if_neg (by simp), if_pos hs, hno]

theorem access_of_quiet {s : State} {p : Path} (x : HeldAcc) (hup : deviceUp s = true) (hq : heldOf s p = []) :
    access s p x = performAcc s p x := by
  rw [access, hup, hq]
  rfl

/-- A place's offset as a bit vector names that offset. -/
theorem locOf_ofNat {s : State} {a : Nat} (ha : a < 2 ^ 30) : locOf s (BitVec.ofNat 30 a).toNat = locOf s a := by
  rw [BitVec.toNat_ofNat, Nat.mod_eq_of_lt ha]

theorem beadAddr_lt (b : BeadRef) {o : Nat} (ho : o < 0x1000) : beadAddr b o < 2 ^ 30 := by
  have hs := b.slate.isLt
  have hb := b.bead.isLt
  rw [beadAddr]
  omega

/-- A granted write that finds a bead's register (R401). -/
theorem locWrite_bead {s : State} {p : Path} {b : BeadRef} {o : Nat} (v : W32) (hf : SpaceFits s p b o true) :
    locWrite s p (.bead (beadNo b) o) v = writeBead s p (beadNo b) o v := by
  have hworks : locInReset s (.bead (beadNo b) o) = false := by rw [locInReset, beadNo_div, hf.working]
  change (if granted s p (.bead (beadNo b) o) true = true then
    (if locInReset s (.bead (beadNo b) o) = true then s else writeLoc s p v (.bead (beadNo b) o)) else _) = _
  rw [if_pos hf.grant, hworks]
  rfl

/-- A write that does not wait at its bead register takes effect (R401). -/
theorem access_bead {s : State} {p : Path} {b : BeadRef} {o : Nat} {a : BitVec 30} (v : W32) (hf : SpaceFits s p b o true)
    (hl : locOf s a.toNat = .bead (beadNo b) o) (hw : beadWriteWaits (getBead s (beadNo b)) o v = false) :
    access s p (.write (.addr a) v) = writeBeadReg s (beadNo b) o v .space := by
  rw [access_of_quiet _ hf.up hf.quiet, performAcc, writeNow, placeLoc, hl]
  dsimp only
  rw [locWrite_bead v hf, writeBead, hw]
  rfl

/-- The offsets of a bead's block whose writes never wait (R124, R146, R246). -/
def NeverWaits (o : Nat) : Prop := ¬ (0x80 ≤ o ∧ o < 0xA0) ∧ o ≠ 0x520 ∧ o ≠ 0x68

theorem beadWriteWaits_never {b : Bead} {o : Nat} {v : W32} (h : NeverWaits o) : beadWriteWaits b o v = false := by
  obtain ⟨htile, hbind, hblot⟩ := h
  rw [beadWriteWaits, if_neg htile, if_neg hbind, if_neg hblot]

theorem spaceWrite_bead {s : State} {p : Path} {b : BeadRef} {o : Nat} (v : W32) (hf : SpaceFits s p b o true)
    (ho : o < 0x1000) (h4 : o % 4 = 0) (hreg : beadRegAt o = true) (hw : NeverWaits o) :
    spaceWrite s p (beadAddr b o) v = writeBeadReg s (beadNo b) o v .space :=
  access_bead v hf ((locOf_ofNat (beadAddr_lt b ho)).trans (locOf_bead hf.present hf.site ho h4 hreg))
    (beadWriteWaits_never hw)

/-- A read of a word of control space, windows apart. -/
theorem wordRead_at {s : State} {p : Path} {a : Nat} {l : Loc} (hup : deviceUp s = true) (hq : heldOf s p = [])
    (ha : a < 2 ^ 30) (hl : locOf s a = l) (hwin : ∀ o, l ≠ .window o) (hdbg : ∀ o, l ≠ .dbgwin o) :
    wordRead s p a = spaceRead s p l := by
  rw [wordRead, access_of_quiet _ hup hq, performAcc, readNow, placeLoc, locOf_ofNat ha, hl]
  split
  · exact absurd rfl (hwin _)
  · exact absurd rfl (hdbg _)
  · rfl

/-! What a latching read answers and leaves (R67, R308, R400). -/

theorem lastRead_answerPath (s : State) (p : Path) (v : W32) : lastRead (answerPath s p v) p = v := by cases p <;> rfl

/-- An answered read changes only what its requester sees. -/
theorem answerPath_eq (s : State) (p : Path) (v : W32) :
    ∃ x y, answerPath s p v = { s with answers := x, tap := y } := by
  cases p
  · exact ⟨_, _, rfl⟩
  · exact ⟨_, _, rfl⟩
  · exact ⟨_, _, rfl⟩

/-- A granted latching read of a bead's register answers its word and latches. -/
theorem spaceRead_bead {s : State} {p : Path} {b : BeadRef} {o : Nat} (hf : SpaceFits s p b o false) :
    spaceRead s p (.bead (beadNo b) o)
      = latchRead (answerPath s p (beadReg s (beadNo b) o)) (.bead (beadNo b) o) := by
  rw [spaceRead, if_pos hf.up]
  exact if_pos hf.grant

theorem spaceRead_slate {s : State} {p : Path} {t o : Nat} (hup : deviceUp s = true)
    (hg : granted s p (.slate t o) false = true) :
    spaceRead s p (.slate t o) = latchRead (answerPath s p (slateReg s t o)) (.slate t o) := by
  rw [spaceRead, if_pos hup]
  exact if_pos hg

theorem spaceRead_stroke {s : State} {p : Path} {o : Nat} (hup : deviceUp s = true)
    (hg : granted s p (.stroke o) false = true) :
    spaceRead s p (.stroke o) = latchRead (answerPath s p (strokeReg s o)) (.stroke o) := by
  rw [spaceRead, if_pos hup]
  exact if_pos hg

theorem beadTickLoRead_next {s : State} {p : Path} {b : BeadRef} (hf : SpaceFits s p b 0x38 false) :
    exec (.beadTickLoRead p b) s
      = .next (latchTick (answerPath s p ((slateTick s (beadNo b)).truncate 32)) (beadNo b)) :=
  congrArg Host.Outcome.next ((wordRead_at hf.up hf.quiet (beadAddr_lt b (by decide))
    (locOf_bead hf.present hf.site (by decide) (by decide) rfl) (fun _ => nofun) (fun _ => nofun)).trans (spaceRead_bead hf))

theorem slateTickLoRead_next {s : State} {p : Path} {sl : Fin 4} (hup : deviceUp s = true) (hq : heldOf s p = [])
    (hp : slatePresent s sl.val = true) (hg : granted s p (.slate sl.val 0x08) false = true) :
    exec (.slateTickLoRead p sl) s = .next (modSlate (answerPath s p ((getSlate s sl.val).tick.truncate 32)) sl.val
      (fun x => { x with tickHi := (x.tick >>> 32).truncate 32 })) := by
  have hsl := sl.isLt
  have hloc : locOf s (sl.val * 0x4000000 + 0x08) = .slate sl.val 0x08 := by
    rw [locOf_slate hsl (by decide), slateLoc, hp]
    rfl
  exact congrArg Host.Outcome.next ((wordRead_at hup hq (by omega) hloc (fun _ => nofun) (fun _ => nofun)).trans
    (spaceRead_slate hup hg))

theorem strokeCountLoRead_next {s : State} {p : Path} (hup : deviceUp s = true) (hq : heldOf s p = [])
    (hg : granted s p (.stroke 0x0C) false = true) :
    exec (.strokeCountLoRead p) s = .next { answerPath s p (s.stroke.count.truncate 32) with
      stroke := { (answerPath s p (s.stroke.count.truncate 32)).stroke with
        countHi := ((answerPath s p (s.stroke.count.truncate 32)).stroke.count >>> 32).truncate 8 } } :=
  congrArg Host.Outcome.next ((wordRead_at hup hq (by decide) (show locOf s (spineAddr 0x1000C) = .stroke 0x0C from rfl)
    (fun _ => nofun) (fun _ => nofun)).trans (spaceRead_stroke hup hg))

/-! Plain registers written (R401). -/

/-- A register write over control space whose byte enables cover the word (R401). -/
theorem registerWrite_next {s : State} {p : Path} {a : BitVec 30} (v : W32) (hup : deviceUp s = true) :
    exec (.registerWrite (.ctl p (.addr a)) .good 0xF v) s = .next (access s p (.write (.addr a) v)) := by
  change Host.Outcome.next (if (!deviceUp s) = true then s else _) = _
  rw [hup]
  cases p
  · rfl
  · rfl
  · rfl

/-- A register write that leaves out a byte is discarded (R401). -/
theorem registerWrite_partial {s : State} {p : Path} {a : BitVec 30} {be : BitVec 4} (v : W32) (hbe : be ≠ 0xF) :
    exec (.registerWrite (.ctl p (.addr a)) .good be v) s = .next s := by
  change Host.Outcome.next (if (!deviceUp s) = true then s else _) = _
  rw [if_neg hbe]
  cases p
  · exact congrArg Host.Outcome.next (ite_self s)
  · exact congrArg Host.Outcome.next (ite_self s)
  · exact congrArg Host.Outcome.next (ite_self s)

/-- Settles O39: a granted access reaches the register that its offset names, and a latching read changes the answer and
the latch alone. -/
theorem registerAccesses : Obligations.RegisterAccesses := by
  unfold Obligations.RegisterAccesses
  intro s br p a be v sl i base write
  have hat (o : Nat) (hf : SpaceFits s p br o true) (ha : a.toNat = base + o) (ho : o < 0x1000) (h4 : o % 4 = 0)
      (hreg : beadRegAt o = true) (hw : NeverWaits o) : exec (write 0xF) s = .next (writeBeadReg s i o v .space) := by
    have hloc : locOf s a.toNat = .bead i o := ha ▸ locOf_bead hf.present hf.site ho h4 hreg
    exact (registerWrite_next v hf.up).trans (congrArg Host.Outcome.next (access_bead v hf hloc (beadWriteWaits_never hw)))
  refine ⟨fun hf ha => ?plain, fun hf ha => ?readOnly, fun hbe => registerWrite_partial v hbe, fun hup hq hl => ?reserved,
    fun hup hq hl hg => ?denied, fun hf => ?beadTick, fun hup hq hp hg => ?slateTick, fun hup hq hg => ?strokeCount⟩
  case plain => exact hat 0x08 hf ha (by decide) rfl rfl (by unfold NeverWaits; decide)
  case readOnly => exact hat 0x34 hf ha (by decide) rfl rfl (by unfold NeverWaits; decide)
  case reserved =>
    refine (registerWrite_next v hup).trans (congrArg Host.Outcome.next ?_)
    rw [access_of_quiet _ hup hq, performAcc, writeNow, placeLoc, hl]
    rfl
  case denied =>
    refine (registerWrite_next v hup).trans (congrArg Host.Outcome.next ?_)
    rw [access_of_quiet _ hup hq, performAcc, writeNow, placeLoc, hl]
    exact if_neg (by rw [hg]; exact Bool.false_ne_true)
  case beadTick =>
    refine ⟨_, beadTickLoRead_next hf, lastRead_answerPath s p _, ?_, ?_⟩
    · rw [beadIn, latchTick, getBead_modBead_same]
      obtain ⟨x, y, hy⟩ := answerPath_eq s p ((slateTick s i).truncate 32)
      rw [hy]
      rfl
    · obtain ⟨x, y, hy⟩ := answerPath_eq s p ((slateTick s i).truncate 32)
      rw [hy]
      rfl
  case slateTick =>
    refine ⟨_, slateTickLoRead_next hup hq hp hg, lastRead_answerPath s p _, ?_⟩
    obtain ⟨x, y, hy⟩ := answerPath_eq s p ((getSlate s sl.val).tick.truncate 32)
    rw [hy, modSlate, getSlate, putSlate, mapGet_mapPut_same]
    rfl
  case strokeCount =>
    refine ⟨_, strokeCountLoRead_next hup hq hg, lastRead_answerPath s p _, ?_⟩
    obtain ⟨x, y, hy⟩ := answerPath_eq s p (s.stroke.count.truncate 32)
    rw [hy]

/-! Per-hand registers written through control space (R85, R91). -/

/-- A granted write of a hand's register through control space (R85). -/
theorem spaceWrite_hand {s : State} {p : Path} {b : BeadRef} {h : Fin 4} {o r : Nat} (v : W32) (hf : SpaceFits s p b o true)
    (ho : o = 0x100 + 0x100 * h.val + r) (hr : r < 0x100) (h4 : r % 4 = 0) (hreg : r < 0xB0) (hgap : r ≠ 0x5C) :
    spaceWrite s p (beadAddr b o) v = writeHandReg s (beadNo b) h.val r v .space := by
  have hh := h.isLt
  have hof : handOfOffset o = some h.val := by
    rw [handOfOffset, if_pos (by omega), ho]
    congr 1
    omega
  have hlow : o % 0x100 = r := by omega
  have hat : beadRegAt o = true := by
    simp only [beadRegAt, hof, hlow]
    simp [hreg, hgap]
  rw [spaceWrite_bead v hf (by omega) (by omega) hat ⟨by omega, by omega, by omega⟩, writeBeadReg, if_neg (by omega)]
  simp only [hof, hlow]

section HandRegisters
variable {s : State} {i h : Nat} {v : W32}

/-- A register that is only stored, written at a hand that does not run or sleep (R85). -/
theorem writeHandReg_stored {o : Nat} (hx : (getHand s i h).st = .idle ∨ isStopped (getHand s i h) = true)
    (ho : o ≠ 0x04 ∧ o ≠ 0x58 ∧ o ≠ 0xA8 ∧ o ≠ 0xAC) :
    writeHandReg s i h o v .space = putHand s i h (handPut (getHand s i h) o v) := by
  obtain ⟨hpsw, hstate, hqctl, hdbg⟩ := ho
  unfold writeHandReg
  extract_lets x self
  have hother : ¬ self := nofun
  have hstores : self ∨ x.st = .idle ∨ isStopped x = true ∨ isHalted x = true := by
    rcases hx with hidle | hstop
    · exact .inr (.inl hidle)
    · exact .inr (.inr (.inl hstop))
  rw [if_neg hdbg, if_neg (fun q => hother q.1), if_neg (by omega), if_neg hqctl, if_neg hstate, if_neg (fun q => hpsw q.1),
    if_pos hstores]

/-- A Running hand's registers, PSW and DBG apart, take no write (R85). -/
theorem writeHandReg_running {o : Nat} (hx : (getHand s i h).st = .running) (ho : o ≠ 0x04 ∧ o ≠ 0xAC) :
    writeHandReg s i h o v .space = setWdisc s i := by
  obtain ⟨hpsw, hdbg⟩ := ho
  unfold writeHandReg
  extract_lets x self
  have hother : ¬ self := nofun
  have hruns : x.st = .running := hx
  have hlevel : ¬ (o = 0x04 ∧ pswLd v > 4) := fun q => hpsw q.1
  have hkept : ¬ (self ∨ x.st = .idle ∨ isStopped x = true ∨ isHalted x = true) := by
    rw [isStopped, isHalted, hruns]
    simp [hother]
  rw [if_neg hdbg, if_neg (fun q => hother q.1)]
  by_cases hacts : o = 0x58 ∨ o = 0xA8
  · rw [if_pos ⟨hacts, .inl hruns⟩]
  · rw [if_neg (fun q => hacts q.1), if_neg (fun q => hacts (.inr q)), if_neg (fun q => hacts (.inl q)), if_neg hlevel,
      if_neg hkept, if_pos (.inl hruns)]

/-- STATE.START of an Idle hand 0, for which no fault is held (R64). -/
theorem writeHandReg_start (hx : (getHand s i 0).st = .idle) (hheld : (getHand s i 0).heldFaults = [])
    (hv : v.getLsbD 11 = true) :
    writeHandReg s i 0 0x58 v .space = modHand (modBead s i endSlumber) i 0 (fun y => { y with st := .running }) := by
  have hquiet : ¬ ((getHand s i 0).st = .running ∨ isSleeping (getHand s i 0) = true) := by
    rw [isSleeping, hx]
    simp
  have hfaults : (getHand (modHand (modBead s i endSlumber) i 0 (fun y => { y with st := .running })) i 0).heldFaults = [] := by
    rw [getHand_modHand_same, getHand_endSlumber]
    exact hheld
  unfold writeHandReg
  extract_lets x self
  have hother : ¬ self := nofun
  rw [if_neg (by decide), if_neg (fun q => hother q.1), if_neg (fun q => hquiet q.2), if_neg (by decide), if_pos rfl, writeState,
    if_pos ⟨rfl, rfl, hv, hx⟩, deliverHeld_none hfaults]

/-- QCTL.ABORT of a Stopped hand drops its staged message (R245). -/
theorem writeHandReg_abort (hx : isStopped (getHand s i h) = true) (hv : v.getLsbD 31 = true) :
    writeHandReg s i h 0xA8 v .space = abortStaged s i h := by
  have hquiet : ¬ ((getHand s i h).st = .running ∨ isSleeping (getHand s i h) = true) := by
    unfold isStopped at hx
    unfold isSleeping
    cases hst : (getHand s i h).st <;> simp_all
  unfold writeHandReg
  extract_lets x self
  have hother : ¬ self := nofun
  have hgo : ((isStopped (getHand s i h) || isHalted (getHand s i h))
      && ((Writer.space == .space) || (Writer.space == .hand 0 && h != 0))) = true := by
    rw [hx]
    rfl
  rw [if_neg (by decide), if_neg (fun q => hother q.1), if_neg (fun q => hquiet q.2), if_pos rfl, writeQctl, hv]
  exact if_pos hgo

theorem writeHandReg_halt : writeHandReg s i h 0xAC 1 .space = haltHand s i h := rfl

theorem writeHandReg_release : writeHandReg s i h 0xAC 2 .space = releaseHand s i h := rfl

end HandRegisters

theorem isStopped_of {x : Hand} {k : StopKind} (h : x.st = .stopped k) : isStopped x = true := by rw [isStopped, h]

/-! TCMP's halves (R67). -/

theorem lowMask_getElem {j : Nat} (hj : j < 64) : (0xFFFFFFFF : W64)[j] = decide (j < 32) := by
  have hbit : (BitVec.ofNat 64 (2 ^ 32 - 1)).getLsbD j = decide (j < 32) := by
    rw [BitVec.getLsbD_ofNat, Nat.testBit_two_pow_sub_one, decide_eq_true hj, Bool.true_and]
  exact (BitVec.getLsbD_eq_getElem hj).symm.trans hbit

theorem truncate_lowWritten (t : W64) (v : W32) : (((t >>> 32 <<< 32) ||| v.zeroExtend 64).truncate 32 : W32) = v := by
  ext j hj
  simp

theorem shift_lowWritten (t : W64) (v : W32) : ((t >>> 32 <<< 32) ||| v.zeroExtend 64) >>> 32 = t >>> 32 := by
  refine BitVec.eq_of_getLsbD_eq (fun j _ => ?_)
  have hout (h : ¬ 32 + j < 64) : t.getLsbD (32 + j) = false := BitVec.getLsbD_of_ge t _ (by omega)
  by_cases hin : 32 + j < 64
  · simp [hin]
  · simp [hin, hout hin]

theorem shift_highWritten (t : W64) (v : W32) :
    ((((v.zeroExtend 64 <<< 32) ||| (t &&& 0xFFFFFFFF)) >>> 32).truncate 32 : W32) = v := by
  have hmask (j : Nat) (hj : 32 + j < 64) := lowMask_getElem hj
  generalize (0xFFFFFFFF : W64) = m at hmask ⊢
  refine BitVec.eq_of_getLsbD_eq (fun j hj => ?_)
  have hin : 32 + j < 64 := by omega
  simp [hj, hin, hmask]

theorem truncate_highWritten (t : W64) (v : W32) :
    (((v.zeroExtend 64 <<< 32) ||| (t &&& 0xFFFFFFFF)).truncate 32 : W32) = t.truncate 32 := by
  have hmask (j : Nat) (hj : j < 64) := lowMask_getElem hj
  generalize (0xFFFFFFFF : W64) = m at hmask ⊢
  refine BitVec.eq_of_getLsbD_eq (fun j hj => ?_)
  have hin : j < 64 := by omega
  simp [hj, hin, hmask, BitVec.getLsbD_eq_getElem]

/-! A debug halt and release (R64, R377). -/

theorem getHand_haltHand {s : State} {i h : Nat} (hl : (getHand s i h).st ≠ .locked)
    (hh : ∀ q, (getHand s i h).st ≠ .halted q) : ∃ rs l n,
    getHand (haltHand s i h) i h = { getHand s i h with
      st := .halted (haltPrior (getHand s i h)), latch := {}, reqs := rs, openLine := l, tsr := n } := by
  have hnot : isHalted (getHand s i h) = false := by
    unfold isHalted
    split
    next q hq => exact absurd hq (hh q)
    · rfl
  obtain ⟨rs, l, n, hend⟩ := getHand_endTransfer (cancelWait s i h) i h
  refine ⟨rs, l, n, ?_⟩
  unfold haltHand
  extract_lets x p t
  rw [if_neg (by rw [show isHalted x = false from hnot]; simpa using hl), getHand_modHand_same, getHand_endSlumber, hend,
    getHand_cancelWait]

section Release
variable {s : State} {i h : Nat}

theorem releaseHand_idle (hst : (getHand s i h).st = .halted .idle) :
    releaseHand s i h = putHand s i h { getHand s i h with st := .idle } := by simp only [releaseHand, hst]

theorem releaseHand_running (hst : (getHand s i h).st = .halted .running) (hf : (getHand s i h).heldFaults = []) :
    releaseHand s i h = putHand s i h { getHand s i h with st := .running } := by
  have hnone : (getHand (putHand s i h { getHand s i h with st := .running }) i h).heldFaults = [] := by
    rw [getHand_putHand_same]
    exact hf
  simp only [releaseHand, hst]
  exact deliverHeld_none hnone

theorem releaseHand_sleeping (hst : (getHand s i h).st = .halted .sleeping) :
    releaseHand s i h = putHand s i h { getHand s i h with st := .sleeping .sleep } := by simp only [releaseHand, hst]

theorem releaseHand_stopped {k : StopKind} (hst : (getHand s i h).st = .halted (.stopped k)) :
    releaseHand s i h = putHand s i h { getHand s i h with st := .stopped k } := by simp only [releaseHand, hst]

end Release

/-- The send port takes back the credits of a staged message that is dropped (R245). -/
theorem soutCred_abortStaged {s : State} {i h : Nat} {m : Staged} (hm : (getHand s i h).staged = some m) :
    mapGet (fun _ => 0) (getBead (abortStaged s i h) i).ends.soutCred m.ep.val
      = mapGet (fun _ => 0) (getBead s i).ends.soutCred m.ep.val + m.words.length := by
  have hends (y : Hand) : (getBead (putHand s i h y) i).ends = (getBead s i).ends := by
    rw [putHand, getBead_putBead_same]
    rfl
  simp only [abortStaged, hm]
  rw [getBead_modBead_same, mapGet_mapPut_same, hends]

/-! BEAD_INT_MASK (R81). -/

/-- A notice of a source waits in a bead's queue. -/
def Waits (b : Bead) (source : Nat) : Prop := ∃ n ∈ b.core.notices, n.source = source

/-- What posting notices keeps: the interrupt registers, hand 0 free of held faults, and every queued source. -/
structure PostsOnly (i : Nat) (s t : State) : Prop where
  mask : (getBead t i).regs.intMask = (getBead s i).regs.intMask
  pend : (getBead t i).regs.intPend = (getBead s i).regs.intPend
  calm : (getHand t i 0).heldFaults = []
  waits : ∀ n, Waits (getBead s i) n → Waits (getBead t i) n

theorem PostsOnly.trans {i : Nat} {s t u : State} (h₁ : PostsOnly i s t) (h₂ : PostsOnly i t u) : PostsOnly i s u :=
  ⟨h₂.mask.trans h₁.mask, h₂.pend.trans h₁.pend, h₂.calm, fun n hn => h₂.waits n (h₁.waits n hn)⟩

theorem waits_noticesWith {l : List Notice} {n m : Notice} (hm : m ∈ l) : ∃ q ∈ noticesWith l n, q.source = m.source := by
  unfold noticesWith
  split
  · refine ⟨_, List.mem_map.2 ⟨m, hm, rfl⟩, ?_⟩
    split
    next h => exact h.symm
    · rfl
  · exact ⟨m, List.mem_append_left _ hm, rfl⟩

theorem postsOnly_postNotice {s : State} {i : Nat} (n : Notice) (hf : (getHand s i 0).heldFaults = []) :
    PostsOnly i s (postNotice s i n) := by
  have hkeeps (m : Nat) (hm : Waits (getBead s i) m) (b : Bead)
      (hb : b.core.notices = noticesWith (getBead s i).core.notices n) : Waits b m := by
    obtain ⟨q, hq, hsource⟩ := hm
    obtain ⟨q', hq', hsource'⟩ := waits_noticesWith (n := n) hq
    exact ⟨q', hb ▸ hq', hsource'.trans hsource⟩
  rw [postNotice_eq n hf]
  split
  · refine ⟨?_, ?_, ?_, fun m hm => ?_⟩
    · rw [getBead_modBead_same]; rfl
    · rw [getBead_modBead_same]; rfl
    · rw [getHand_withWake, if_pos rfl, heldFaults_wakeHand, hf]
    · rw [getBead_modBead_same]; exact hkeeps m hm _ rfl
  · refine ⟨?_, ?_, ?_, fun m hm => ?_⟩
    · rw [getBead_modBead_same]; rfl
    · rw [getBead_modBead_same]; rfl
    · rw [getHand_withNotice, hf]
    · rw [getBead_modBead_same]; exact hkeeps m hm _ rfl

/-- The notice of source k, where a new MASK sets its bit over a set PEND bit (R81). -/
def uncover (i : Nat) (old new : W32) (s : State) (k : Nat) : State :=
  if new.getLsbD k && !old.getLsbD k && (getBead s i).regs.intPend.getLsbD k then
    intNotice (freeBits s).2 i k ((freeBits s).1.truncate 32)
  else s

theorem writeIntMask_eq (s : State) (i : Nat) (v : W32) : writeIntMask s i v
    = (List.range 8).foldl (uncover i (getBead s i).regs.intMask (v &&& 0xFF))
        (modBead s i (fun b => { b with regs := { b.regs with intMask := v &&& 0xFF } })) := rfl

section Uncover
variable {s : State} {i : Nat} {old new : W32} (hf : (getHand s i 0).heldFaults = [])
include hf

theorem postsOnly_uncover (k : Nat) : PostsOnly i s (uncover i old new s k) := by
  unfold uncover
  split
  · have hposts : PostsOnly i (freeBits s).2 (intNotice (freeBits s).2 i k ((freeBits s).1.truncate 32)) :=
      postsOnly_postNotice _ hf
    exact ⟨hposts.mask, hposts.pend, hposts.calm, hposts.waits⟩
  · exact ⟨rfl, rfl, hf, fun _ hn => hn⟩

theorem uncover_posts {k : Nat} (hnew : new.getLsbD k = true) (hold : old.getLsbD k = false)
    (hpend : (getBead s i).regs.intPend.getLsbD k = true) : Waits (getBead (uncover i old new s k) i) (8 + k) := by
  rw [uncover, if_pos (by rw [hnew, hold, hpend]; rfl)]
  obtain ⟨⟨n, hn, hsource, -⟩, -⟩ := postNotice_posts (s := (freeBits s).2) (i := i) _ hf
  exact ⟨n, hn, hsource⟩

end Uncover

/-- Every source that a new MASK uncovers posts its notice, and later ones keep it. -/
theorem uncover_all {i : Nat} {old new : W32} (l : List Nat) : ∀ {s : State}, (getHand s i 0).heldFaults = [] →
    PostsOnly i s (l.foldl (uncover i old new) s)
      ∧ ∀ k ∈ l, new.getLsbD k = true → old.getLsbD k = false → (getBead s i).regs.intPend.getLsbD k = true →
        Waits (getBead (l.foldl (uncover i old new) s) i) (8 + k) := by
  induction l with
  | nil => exact fun hf => ⟨⟨rfl, rfl, hf, fun _ hn => hn⟩, fun k hk => absurd hk List.not_mem_nil⟩
  | cons k l ih =>
    intro s hf
    have hstep := postsOnly_uncover (old := old) (new := new) hf k
    obtain ⟨hkept, hposts⟩ := ih hstep.calm
    refine ⟨hstep.trans hkept, fun m hm hnew hold hpend => ?_⟩
    rcases List.mem_cons.1 hm with rfl | hlater
    · exact hkept.waits _ (uncover_posts hf hnew hold hpend)
    · exact hposts m hlater hnew hold (by rw [hstep.pend]; exact hpend)

/-! BEAD_CHAN_CFG (R71). -/

/-- A hand that sleeps on a channel. -/
abbrev OnChannel (c : Nat) (x : Hand) : Prop :=
  (x.st = .sleeping .csend ∨ x.st = .sleeping .crecv) ∧ x.sleepMask.getLsbD c = true

/-- The hands of a bead, from a list, that sleep on a channel woken. -/
def wakeChannel (c : Nat) (ks : List Nat) (b : Bead) : Bead :=
  ks.foldl (fun b k => if OnChannel c (handOf b k) then setHand b k (wakeHand (handOf b k) 2) else b) b

/-- Two values of BEAD_CHAN_CFG that agree in a channel's fields. -/
abbrev Agrees (old new : W32) (c : Nat) : Prop := fld old.toNat (8 * c + 7) (8 * c) = fld new.toNat (8 * c + 7) (8 * c)

/-- A channel whose fields change emptied, and the hands that sleep on it woken. -/
def resetChannel (old new : W32) (b : Bead) (c : Nat) : Bead :=
  if Agrees old new c then b else wakeChannel c (List.range 4) (putChan b c [])

theorem writeChan_eq (b : Bead) (v : W32) : writeChan b v
    = (List.range 4).foldl (resetChannel b.regs.chanCfg (v &&& 0x8F8F8F8F))
        { b with regs := { b.regs with chanCfg := v &&& 0x8F8F8F8F } } := rfl

/-- Waking hands leaves the bead's registers and channels. -/
theorem wakeChannel_frame (c : Nat) (ks : List Nat) (b : Bead) :
    (wakeChannel c ks b).regs = b.regs ∧ (wakeChannel c ks b).core.chan = b.core.chan := by
  refine List.foldlRecOn (motive := fun (d : Bead) => d.regs = b.regs ∧ d.core.chan = b.core.chan) ks _ ⟨rfl, rfl⟩
    (fun d hd k _ => ?_)
  split
  · exact hd
  · exact hd

theorem wakeHand_awake {x : Hand} (code : BitVec 3) (h : isSleeping x = false) : wakeHand x code = x := by
  cases hst : x.st <;> simp_all [wakeHand, isSleeping]

theorem isSleeping_wakeHand (x : Hand) (code : BitVec 3) : isSleeping (wakeHand x code) = false := by
  cases hst : x.st <;> simp [wakeHand, isSleeping, hst]

theorem not_onChannel {c : Nat} {x : Hand} (h : isSleeping x = false) : ¬ OnChannel c x := by
  rintro ⟨hst | hst, -⟩
  · rw [isSleeping, hst] at h
    exact Bool.noConfusion h
  · rw [isSleeping, hst] at h
    exact Bool.noConfusion h

theorem handOf_wakeChannel (c : Nat) (ks : List Nat) : ∀ (b : Bead) (k : Nat), handOf (wakeChannel c ks b) k
    = if k ∈ ks ∧ OnChannel c (handOf b k) then wakeHand (handOf b k) 2 else handOf b k := by
  induction ks with
  | nil => exact fun b k => (if_neg (fun q => List.not_mem_nil q.1)).symm
  | cons m ks ih =>
    intro b k
    rw [wakeChannel, List.foldl_cons, ← wakeChannel, ih]
    by_cases hk : k = m
    · subst hk
      by_cases hon : OnChannel c (handOf b k)
      · have hoff : ¬ OnChannel c (wakeHand (handOf b k) 2) := not_onChannel (isSleeping_wakeHand _ 2)
        rw [if_pos hon, handOf_setHand_same, if_neg (fun q => hoff q.2), if_pos ⟨List.mem_cons_self, hon⟩]
      · rw [if_neg hon, if_neg (fun q => hon q.2), if_neg (fun q => hon q.2)]
    · have hsame : handOf (if OnChannel c (handOf b m) then setHand b m (wakeHand (handOf b m) 2) else b) k = handOf b k := by
        split
        · exact handOf_setHand_ne b m k _ hk
        · rfl
      rw [hsame]
      simp only [List.mem_cons, hk, false_or]

section ResetChannel
variable {old new : W32}

theorem regs_resetChannel (b : Bead) (c : Nat) : (resetChannel old new b c).regs = b.regs := by
  unfold resetChannel
  split
  · rfl
  · exact (wakeChannel_frame c _ _).1

theorem chanQ_resetChannel (b : Bead) (c d : Nat) :
    chanQ (resetChannel old new b c) d = if d = c ∧ ¬ Agrees old new c then [] else chanQ b d := by
  unfold resetChannel
  split
  next h => rw [if_neg (fun q => q.2 h)]
  next h =>
    rw [chanQ, (wakeChannel_frame c _ _).2]
    by_cases hd : d = c
    · subst hd
      rw [if_pos ⟨rfl, h⟩]
      exact mapGet_mapPut_same _ _ _ _
    · rw [if_neg (fun q => hd q.1)]
      exact mapGet_mapPut_ne _ _ _ _ _ hd

theorem handOf_resetChannel (b : Bead) (c k : Nat) : handOf (resetChannel old new b c) k
    = if k < 4 ∧ ¬ Agrees old new c ∧ OnChannel c (handOf b k) then wakeHand (handOf b k) 2 else handOf b k := by
  unfold resetChannel
  split
  next h => rw [if_neg (fun q => q.2.1 h)]
  next h =>
    rw [handOf_wakeChannel]
    simp only [List.mem_range, h, not_false_eq_true, true_and]
    rfl

/-- The channels of a list, each as its own reset leaves it. -/
theorem chanQ_resets (l : List Nat) : ∀ (b : Bead) (d : Nat),
    chanQ (l.foldl (resetChannel old new) b) d = if d ∈ l ∧ ¬ Agrees old new d then [] else chanQ b d := by
  induction l with
  | nil => exact fun b d => (if_neg (fun q => List.not_mem_nil q.1)).symm
  | cons c l ih =>
    intro b d
    rw [List.foldl_cons, ih, chanQ_resetChannel]
    by_cases hd : d = c
    · subst hd
      by_cases h : Agrees old new d
      · rw [if_neg (fun q => q.2 h), if_neg (fun q => q.2 h), if_neg (fun q => q.2 h)]
      · rw [if_pos (show d = d ∧ _ from ⟨rfl, h⟩), ite_self, if_pos ⟨List.mem_cons_self, h⟩]
    · simp only [List.mem_cons, hd, false_or, false_and, if_false]

theorem regs_resets (l : List Nat) (b : Bead) : (l.foldl (resetChannel old new) b).regs = b.regs :=
  List.foldlRecOn (motive := fun (d : Bead) => d.regs = b.regs) l _ rfl
    (fun d hd c _ => (regs_resetChannel d c).trans hd)

/-- Every hand is as it was, or woken with code 2. -/
theorem handOf_resets (l : List Nat) (b : Bead) (k : Nat) :
    handOf (l.foldl (resetChannel old new) b) k = handOf b k
      ∨ handOf (l.foldl (resetChannel old new) b) k = wakeHand (handOf b k) 2 := by
  refine List.foldlRecOn (motive := fun (d : Bead) => handOf d k = handOf b k ∨ handOf d k = wakeHand (handOf b k) 2)
    l _ (.inl rfl) (fun d hd c _ => ?_)
  rw [handOf_resetChannel]
  rcases hd with h | h
  · rw [h]
    split
    · exact .inr rfl
    · exact .inl rfl
  · rw [h, wakeHand_awake 2 (isSleeping_wakeHand _ 2), ite_self]
    exact .inr rfl

/-- A hand that sleeps on a channel that is reset runs, with code 2 for what woke it. -/
theorem resets_wake {c k : Nat} (hk : k < 4) (hne : ¬ Agrees old new c) {l : List Nat} : ∀ {b : Bead}, c ∈ l →
    OnChannel c (handOf b k) → handOf (l.foldl (resetChannel old new) b) k = wakeHand (handOf b k) 2 := by
  induction l with
  | nil => exact fun hc => absurd hc List.not_mem_nil
  | cons m l ih =>
    intro b hc hon
    have hwoken (h : handOf (resetChannel old new b m) k = wakeHand (handOf b k) 2) :
        handOf (l.foldl (resetChannel old new) (resetChannel old new b m)) k = wakeHand (handOf b k) 2 := by
      rcases handOf_resets (old := old) (new := new) l (resetChannel old new b m) k with hrest | hrest
      · rw [hrest, h]
      · rw [hrest, h, wakeHand_awake 2 (isSleeping_wakeHand _ 2)]
    rw [List.foldl_cons]
    by_cases hnow : k < 4 ∧ ¬ Agrees old new m ∧ OnChannel m (handOf b k)
    · exact hwoken (by rw [handOf_resetChannel, if_pos hnow])
    · have hsame : handOf (resetChannel old new b m) k = handOf b k := by rw [handOf_resetChannel, if_neg hnow]
      have hc' : c ∈ l := by
        rcases List.mem_cons.1 hc with rfl | hl
        · exact absurd ⟨hk, hne, hon⟩ hnow
        · exact hl
      rw [ih hc' (by rw [hsame]; exact hon), hsame]

end ResetChannel

/-- Where no fault is held for the hands of a bead, waking some of them does no more than end its slumber (R271, R411). -/
theorem deliverWoken_calm {old s : State} {i : Nat} (hf : ∀ k < 4, (getHand s i k).heldFaults = []) :
    deliverWoken old i s = s ∨ deliverWoken old i s = modBead s i endSlumber := by
  unfold deliverWoken
  extract_lets woken
  split
  · exact .inl rfl
  · refine .inr (deliverHeld_all (fun k hk => ?_))
    rw [getHand_endSlumber]
    exact hf k (List.mem_range.1 (List.mem_filter.1 hk).1)

/-! The registers of a bead and of its hands whose writes act (R64, R67, R71, R81, R245, R377). -/

/-- What a write of BEAD_CHAN_CFG leaves, where no fault is held for a hand of the bead. -/
theorem beadChanCfgWrite_next {s : State} {p : Path} {b : BeadRef} (v : W32) (hf : SpaceFits s p b 0x10 true)
    (hheld : ∀ k < 4, (getHand s (beadNo b) k).heldFaults = []) : ∃ t, exec (.beadChanCfgWrite p b v) s = .next t
      ∧ (getBead t (beadNo b)).core = (writeChan (getBead s (beadNo b)) v).core
      ∧ (getBead t (beadNo b)).regs.chanCfg = (writeChan (getBead s (beadNo b)) v).regs.chanCfg := by
  have hcalm : ∀ k < 4, (getHand (modBead s (beadNo b) (fun b => writeChan b v)) (beadNo b) k).heldFaults = [] := by
    intro k hk
    rw [getHand, getBead_modBead_same, writeChan_eq]
    rcases handOf_resets (old := (getBead s (beadNo b)).regs.chanCfg) (new := v &&& 0x8F8F8F8F) (List.range 4)
      { getBead s (beadNo b) with regs := { (getBead s (beadNo b)).regs with chanCfg := v &&& 0x8F8F8F8F } } k with h | h
    · rw [h]
      exact hheld k hk
    · rw [h, heldFaults_wakeHand]
      exact hheld k hk
  refine ⟨_, congrArg Host.Outcome.next (spaceWrite_bead v hf (by decide) (by decide) rfl (by unfold NeverWaits; decide)), ?_⟩
  change (getBead (deliverWoken s _ (modBead s _ (fun b => writeChan b v))) _).core = _
    ∧ (getBead (deliverWoken s _ (modBead s _ (fun b => writeChan b v))) _).regs.chanCfg = _
  rcases deliverWoken_calm (old := s) hcalm with h | h
  · rw [h, getBead_modBead_same]
    exact ⟨rfl, rfl⟩
  · rw [h, getBead_modBead_same, getBead_modBead_same]
    exact ⟨rfl, rfl⟩

/-- BEAD_INT_MASK takes its field, and each pending source that it uncovers posts its notice (R81). -/
theorem writeIntMask_posts {s : State} {i : Nat} (v : W32) (hf : (getHand s i 0).heldFaults = []) :
    (getBead (writeIntMask s i v) i).regs.intMask = v &&& 0xFF
      ∧ ∀ n : Fin 8, v.getLsbD n.val = true → (getBead s i).regs.intMask.getLsbD n.val = false →
        (getBead s i).regs.intPend.getLsbD n.val = true → Waits (getBead (writeIntMask s i v) i) (8 + n.val) := by
  have hbase : getBead (modBead s i (fun b => { b with regs := { b.regs with intMask := v &&& 0xFF } })) i
      = { getBead s i with regs := { (getBead s i).regs with intMask := v &&& 0xFF } } := getBead_modBead_same s i _
  have hlow : ∀ n : Fin 8, (0xFF : W32).getLsbD n.val = true := by decide
  obtain ⟨hkept, hposts⟩ := uncover_all (i := i) (old := (getBead s i).regs.intMask) (new := v &&& 0xFF) (List.range 8)
    (s := modBead s i (fun b => { b with regs := { b.regs with intMask := v &&& 0xFF } })) (by rw [getHand, hbase]; exact hf)
  rw [writeIntMask_eq]
  refine ⟨hkept.mask.trans (by rw [hbase]), fun n hv hold hpend => ?_⟩
  have hnew : (v &&& 0xFF).getLsbD n.val = true := by rw [BitVec.getLsbD_and, hv, hlow]; rfl
  exact hposts n.val (List.mem_range.2 n.isLt) hnew hold (by rw [hbase]; exact hpend)

/-- Settles O37: each write reaches its register through control space, and the register's own rule says what it does. -/
theorem handRegisterWrites : Obligations.HandRegisterWrites := by
  unfold Obligations.HandRegisterWrites
  intro s hr p v m hi k i b x h o wdisc fits field
  have hwrite (r : Nat) (w : W32) (hf : fits (o r)) (hr' : r < 0x100 ∧ r % 4 = 0 ∧ r < 0xB0 ∧ r ≠ 0x5C) :
      (Host.Outcome.next (spaceWrite s p (handAddr hr r) w) : Host.Outcome State Fault Refusal)
        = .next (writeHandReg s i h r w .space) := by
    obtain ⟨hlt, h4, hreg, hgap⟩ := hr'
    exact congrArg Host.Outcome.next (spaceWrite_hand w hf rfl hlt h4 hreg hgap)
  refine ⟨fun hf hst => ?tcmp, fun hf hst => ?tcmpRunning, fun hf hv hst hheld => ?start, fun hf hheld => ?mask,
    fun hf hheld => ?chan, fun hf hv hst hm => ?abort, fun hf _ hst => ?abortRunning, fun hf hlock hhalt => ?halt,
    fun hf hst => ?releaseIdle, fun hf hst hheld => ?releaseRunning, fun hf hst => ?releaseSleeping,
    fun hf hst => ?releaseStopped⟩
  case tcmp =>
    have hstores : (getHand s i h).st = .idle ∨ isStopped (getHand s i h) = true := hst.imp id isStopped_of
    cases hi with
    | false =>
      refine ⟨{ x with tcmp := (x.tcmp >>> 32 <<< 32) ||| v.zeroExtend 64, tctl := x.tctl &&& ~~~1 },
        (hwrite 0x50 v hf (by decide)).trans (congrArg Host.Outcome.next ?_), rfl,
        truncate_lowWritten x.tcmp v, shift_lowWritten x.tcmp v⟩
      exact writeHandReg_stored hstores (by decide)
    | true =>
      refine ⟨{ x with tcmp := (v.zeroExtend 64 <<< 32) ||| (x.tcmp &&& 0xFFFFFFFF), tctl := x.tctl &&& ~~~1 },
        (hwrite 0x54 v hf (by decide)).trans (congrArg Host.Outcome.next ?_), rfl,
        shift_highWritten x.tcmp v, truncate_highWritten x.tcmp v⟩
      exact writeHandReg_stored hstores (by decide)
  case tcmpRunning =>
    cases hi with
    | false =>
      exact (hwrite 0x50 v hf (by decide)).trans (congrArg Host.Outcome.next (writeHandReg_running hst (by decide)))
    | true =>
      exact (hwrite 0x54 v hf (by decide)).trans (congrArg Host.Outcome.next (writeHandReg_running hst (by decide)))
  case start =>
    exact congrArg Host.Outcome.next ((spaceWrite_hand (h := 0) (r := 0x58) v hf rfl (by decide) (by decide) (by decide)
      (by decide)).trans (writeHandReg_start hst hheld hv))
  case mask =>
    obtain ⟨hmask, hposts⟩ := writeIntMask_posts v hheld
    exact ⟨_, congrArg Host.Outcome.next (spaceWrite_bead v hf (by decide) (by decide) rfl (by unfold NeverWaits; decide)),
      hmask, hposts⟩
  case chan =>
    obtain ⟨t, ht, hcore, hcfg⟩ := beadChanCfgWrite_next v hf (fun k hk => hheld ⟨k, hk⟩)
    have hhand : handAt t hr = handOf (writeChan b v) h := congrArg (fun c : BeadCore => mapGet handReset c.hands h) hcore
    refine ⟨t, ht, hcfg.trans ?_, fun c => ?_, fun c hne hst hmask => ?_⟩
    · rw [writeChan_eq, regs_resets]
    · have hchan : chanQ (beadOf t hr) c.val = chanQ (writeChan b v) c.val :=
        congrArg (fun d : BeadCore => mapGet (fun _ => []) d.chan c.val) hcore
      rw [hchan, writeChan_eq, chanQ_resets]
      by_cases hsame : Agrees b.regs.chanCfg (v &&& 0x8F8F8F8F) c.val
      · rw [if_neg (fun q => q.2 hsame), if_pos hsame]
        rfl
      · rw [if_pos ⟨List.mem_range.2 c.isLt, hsame⟩, if_neg hsame]
    · have hwoken : handOf (writeChan b v) h = wakeHand x 2 := by
        rw [writeChan_eq]
        exact resets_wake hr.hand.isLt hne (List.mem_range.2 c.isLt) ⟨hst, hmask⟩
      rw [hhand, hwoken]
      rcases hst with hst | hst
      · rw [wakeHand_sleeping 2 hst]
        exact ⟨rfl, rfl⟩
      · rw [wakeHand_sleeping 2 hst]
        exact ⟨rfl, rfl⟩
  case abort =>
    exact ⟨_, (hwrite 0xA8 v hf (by decide)).trans (congrArg Host.Outcome.next (writeHandReg_abort (isStopped_of hst) hv)),
      getHand_abortStaged s i h, soutCred_abortStaged hm⟩
  case abortRunning =>
    exact (hwrite 0xA8 v hf (by decide)).trans (congrArg Host.Outcome.next (writeHandReg_running hst (by decide)))
  case halt =>
    obtain ⟨rs, l, n, hhalted⟩ := getHand_haltHand hlock hhalt
    refine ⟨haltHand s i h, hwrite 0xAC 1 hf (by decide), ?_⟩
    rw [show handAt (haltHand s i h) hr = _ from hhalted]
    exact ⟨rfl, rfl, rfl, rfl⟩
  case releaseIdle => exact (hwrite 0xAC 2 hf (by decide)).trans (congrArg Host.Outcome.next (releaseHand_idle hst))
  case releaseRunning =>
    exact (hwrite 0xAC 2 hf (by decide)).trans (congrArg Host.Outcome.next (releaseHand_running hst hheld))
  case releaseSleeping => exact (hwrite 0xAC 2 hf (by decide)).trans (congrArg Host.Outcome.next (releaseHand_sleeping hst))
  case releaseStopped => exact (hwrite 0xAC 2 hf (by decide)).trans (congrArg Host.Outcome.next (releaseHand_stopped hst))

end Sys2Proof.Machine

end BeadCoreProofs

section GlyphAndLineProofs

namespace Sys2Proof.Machine

/-! A-slot glyphs that compute, and loads from the own folio (R99, R106, R107). -/

theorem landEff_xr (s : State) (hr : HandRef) (j k : Option (W32 × Bool)) (f : Hand → Hand) (r : XReg) (v : W32) :
    landEff s hr j (retireTo s hr k f) (.xr r v) = retireTo s hr k (fun y => setX (f y) r v) := by
  cases r with
  | x0 => exact landEff_x0 s hr j k f v
  | x1 => exact landEff_x1 s hr j k f v

section Registers
variable {s : State} {hr : HandRef} {c : Instr} {g : Glyph}

/-- A line whose one glyph writes an index register alone retires with that write. -/
theorem issue_xr (q : Ready s hr c g) (r : XReg) (v : W32) (hx : hasLexit [c] = false) (hd : drawsFree c = false)
    (he : evalGlyph (aloneEnv s hr false) c = writes [.xr r v]) :
    (Host.Outcome.next (issue hr true c s) : Host.Outcome State Fault Refusal) = .next (retire s hr (fun y => setX y r v)) :=
  next_plain q he rfl hx hd rfl rfl (landEff_xr s hr none none id r v)

/-- A line whose one glyph writes FP alone retires with that write. -/
theorem issue_fp (q : Ready s hr c g) (v : W32) (hx : hasLexit [c] = false) (hd : drawsFree c = false)
    (he : evalGlyph (aloneEnv s hr false) c = writes [.fp v]) :
    (Host.Outcome.next (issue hr true c s) : Host.Outcome State Fault Refusal)
      = .next (retire s hr (fun y => { y with fp := v })) :=
  next_plain q he rfl hx hd rfl rfl (landEff_fp s hr none none id v)

/-- A narrower or full load of the S slot from the own folio writes ACC with the bytes at its EA, extended (R107). -/
theorem issue_ld {o : BitVec 22} {n : Nat} {signed : Bool} {v : W64} (q : Ready s hr c g) (hx : hasLexit [c] = false)
    (hd : drawsFree c = false) (he : evalGlyph (aloneEnv s hr false) c = evalLd (aloneEnv s hr false) c o n signed)
    (hm : opdMode o ≤ 3) (hl : LocalOk s hr (localEa (handAt s hr) o).toNat n)
    (hv : extend signed (loadBytes s (localAt hr (localEa (handAt s hr) o).toNat) n) = v) :
    (Host.Outcome.next (issue hr true c s) : Host.Outcome State Fault Refusal)
      = .next (retire s hr (fun y => { y with acc := v })) := by
  have h4 : opdMode o ≠ 4 := by omega
  have heval : evalGlyph (aloneEnv s hr false) c = writes [.acc v] := by
    rw [he, evalLd, if_neg h4, evalLoad_local s hr c o n _ hm hl, hv]
  exact issue_acc q v hx hd heval

end Registers

/-- Settles O1: each glyph evaluates to one write of its register, which lands as the line retires. -/
theorem indexRegisterGlyphs : Obligations.IndexRegisterGlyphs := by
  intro s hr r o g x
  exact ⟨fun q => issue_xr q r _ rfl rfl rfl, fun q => issue_xr q r _ rfl rfl rfl, fun q => issue_xr q r _ rfl rfl rfl,
    fun q => issue_xr q r _ rfl rfl rfl, fun q => issue_xr q r _ rfl rfl rfl, fun q => issue_fp q _ rfl rfl rfl,
    fun q => issue_fp q _ rfl rfl rfl, fun q => issue_fp q _ rfl rfl rfl⟩

section SignExtension
variable (s : State) (a : Nat)

theorem extend_loadBytes_word : extend true (loadBytes s a 4) = (BitVec.ofNat 32 (loadNat s a 4)).signExtend 64 := rfl

theorem extend_loadBytes_half : extend true (loadBytes s a 2) = (BitVec.ofNat 16 (loadNat s a 2)).signExtend 64 := rfl

theorem extend_loadBytes_byte : extend true (loadBytes s a 1) = (BitVec.ofNat 8 (loadNat s a 1)).signExtend 64 := rfl

end SignExtension

/-- Settles O2: a load from the own folio evaluates to one write of its register with the bytes at its EA. -/
theorem localLoads : Obligations.LocalLoads := by
  intro s hr r o g x a m put
  refine ⟨fun hm hl q => issue_ld q rfl rfl rfl hm hl rfl,
    fun hm hl q => issue_ld q rfl rfl rfl hm hl (extend_loadBytes_word s _),
    fun hm hl q => issue_ld q rfl rfl rfl hm hl rfl,
    fun hm hl q => issue_ld q rfl rfl rfl hm hl (extend_loadBytes_half s _),
    fun hm hl q => issue_ld q rfl rfl rfl hm hl rfl,
    fun hm hl q => issue_ld q rfl rfl rfl hm hl (extend_loadBytes_byte s _),
    fun hm hl q => issue_ld q rfl rfl rfl hm hl rfl,
    fun hm hl q => issue_xr q r _ rfl rfl (evalLoad_local s hr _ o 4 _ hm hl),
    fun hm hl q => issue_fp q _ rfl rfl (evalLoad_local s hr _ o 4 _ hm hl),
    fun hm q => issue_acc q _ rfl rfl (if_pos hm)⟩

/-! Stores to the own folio (R106, R107, R410). -/

/-- A store to the own folio writes its bytes at its EA, and no register (R106, R107). -/
theorem issue_st {s : State} {hr : HandRef} {c : Instr} {g : Glyph} {o : BitVec 22} (n v : Nat) (q : Ready s hr c g)
    (hx : hasLexit [c] = false) (hd : drawsFree c = false)
    (he : evalGlyph (aloneEnv s hr false) c = evalSt (aloneEnv s hr false) c o (toBytes n v))
    (hm : opdMode o ≤ 3) (hl : LocalFree s hr (localEa (handAt s hr) o).toNat n) :
    (Host.Outcome.next (issue hr true c s) : Host.Outcome State Fault Refusal)
      = .next (storeBytes (retire s hr id) (localAt hr (localEa (handAt s hr) o).toNat) (toBytes n v)) :=
  next_plain q (he.trans (evalSt_local s hr c o n v hm (by rw [toBytes_length]; exact hl))) rfl hx hd rfl rfl rfl

/-- Byte k of a number's low bytes, lowest first. -/
theorem getElem_toBytes (n v k : Nat) (h : k < (toBytes n v).length) : (toBytes n v)[k] = BitVec.ofNat 8 (v / 256 ^ k) := by
  induction n generalizing v k with
  | zero => exact absurd h (Nat.not_lt_zero k)
  | succ n ih =>
    cases k with
    | zero => simp [toBytes]
    | succ k =>
      simp only [toBytes, List.getElem_cons_succ]
      rw [ih (v / 256) k, Nat.div_div_eq_div_mul, Nat.pow_succ']

/-- Settles O3: a store evaluates to one write of its bytes, and the frame is that of a run of bytes written. -/
theorem localStores : Obligations.LocalStores := by
  intro s hr r o g x a stored fits
  refine ⟨fun h q => issue_st 8 _ q rfl rfl rfl h.1 h.2, fun h q => issue_st 4 _ q rfl rfl rfl h.1 h.2,
    fun h q => issue_st 2 _ q rfl rfl rfl h.1 h.2, fun h q => issue_st 1 _ q rfl rfl rfl h.1 h.2,
    fun h q => issue_st 4 _ q rfl rfl rfl h.1 h.2, fun h q => issue_st 4 _ q rfl rfl rfl h.1 h.2,
    fun n v b hmem hb => ?frame, fun n v k hmem hk => ?written⟩
  case frame => exact memRead_memWriteN_out (m := s.mem) (toBytes n v) _ b hmem (by rwa [toBytes_length])
  case written =>
    have hlen : k < (toBytes n v).length := by rwa [toBytes_length]
    exact (memRead_memWriteN_in (m := s.mem) (toBytes n v) _ k hlen hmem).trans (getElem_toBytes n v k hlen)

/-! Branches, calls and returns (R109, R110). -/

section Calls
variable {s : State} {hr : HandRef} {c : Instr} {g : Glyph}

/-- A taken branch retires at its target, leaving the loop bodies that the target is outside of (R116). -/
theorem issue_br (target : W32) (o : BitVec 22) (q : Ready s hr c g) (hx : hasLexit [c] = false) (hd : drawsFree c = false)
    (he : evalGlyph (aloneEnv s hr false) c = evalBr (aloneEnv s hr false) o target) :
    (Host.Outcome.next (issue hr true c s) : Host.Outcome State Fault Refusal)
      = .next (if condHolds (handAt s hr).psw (fld o.toNat 21 18) then retireTo s hr (some (target, true)) id
          else retire s hr id) := by
  rw [evalBr] at he
  by_cases hcond : condHolds (handAt s hr).psw (fld o.toNat 21 18) = true
  · rw [if_pos hcond]
    exact next_plain q (he.trans (if_pos hcond)) rfl hx hd rfl rfl rfl
  · rw [if_neg hcond]
    exact next_plain q (he.trans (if_neg hcond)) rfl hx hd rfl rfl rfl

/-- A call stores the successor below FP and goes to its target (R110). -/
theorem issue_call (target : W32) (q : Ready s hr c g) (hx : hasLexit [c] = false) (hd : drawsFree c = false)
    (he : evalGlyph (aloneEnv s hr false) c = evalCall (aloneEnv s hr false) target)
    (hl : LocalFree s hr ((handAt s hr).fp - 8).toNat 8) :
    (Host.Outcome.next (issue hr true c s) : Host.Outcome State Fault Refusal)
      = .next (storeBytes (retireTo s hr (some (target, false)) (fun y => { y with fp := (handAt s hr).fp - 8 }))
          (localAt hr ((handAt s hr).fp - 8).toNat)
          (toBytes 8 (successor (handAt s hr) (handAt s hr).pc 1 false).toNat)) := by
  have heval : evalCall (aloneEnv s hr false) target = writes [.fp ((handAt s hr).fp - 8),
      .store (localAt hr ((handAt s hr).fp - 8).toNat)
        (toBytes 8 (successor (handAt s hr) (handAt s hr).pc 1 false).toNat), .jump target false] := by
    rw [evalCall, show (aloneEnv s hr false).x = handAt s hr from rfl]
    rw [checkLocal_ok s hr _ 8 false hl]
    rfl
  refine next_plain q (he.trans heval) rfl hx hd rfl rfl ?_
  rw [List.foldl_cons, List.foldl_cons, List.foldl_cons, List.foldl_nil, show jumpOf _ = some (target, false) from rfl,
    landEff_fp]
  rfl

end Calls

/-- Settles O8: a branch evaluates to a transfer of control, a call or a return to one with its access to the stack. -/
theorem branchGlyphs : Obligations.BranchGlyphs := by
  intro s hr o g x dest reg cond called
  refine ⟨fun q => ?nop, fun q hcond => ?br, fun q hcond => ?brOn, fun q hcond => ?jr, fun q hcond => ?jrOn,
    fun q hl => ?call, fun q hl => ?callr, fun q hl => ?ret⟩
  case nop => exact next_plain q (l := []) rfl rfl rfl rfl rfl rfl rfl
  case br => exact (issue_br dest o q rfl rfl rfl).trans (congrArg Host.Outcome.next (if_pos hcond))
  case brOn =>
    exact (issue_br dest o q rfl rfl rfl).trans (congrArg Host.Outcome.next (if_neg (Bool.eq_false_iff.1 hcond)))
  case jr => exact (issue_br reg o q rfl rfl rfl).trans (congrArg Host.Outcome.next (if_pos hcond))
  case jrOn =>
    exact (issue_br reg o q rfl rfl rfl).trans (congrArg Host.Outcome.next (if_neg (Bool.eq_false_iff.1 hcond)))
  case call => exact issue_call dest q rfl rfl rfl hl
  case callr => exact issue_call reg q rfl rfl rfl hl
  case ret =>
    have heval : evalRet (aloneEnv s hr false) = writes [.fp (x.fp + 8),
        .jump (BitVec.ofNat 32 (loadNat s (localAt hr x.fp.toNat) 4) &&& ~~~3) true] := by
      rw [evalRet, show (aloneEnv s hr false).x = x from rfl, localLoad_ok false hl]
      rfl
    refine next_plain q heval rfl rfl rfl rfl rfl ?_
    rw [List.foldl_cons, List.foldl_cons, List.foldl_nil, show jumpOf _ = some _ from rfl, landEff_fp]
    rfl

/-! Atomics on the own folio (R107). -/

/-- A line's one effect is performed in the state that its retirement leaves, unless it both reads before the line's writes
and follows them (R95, R107). -/
theorem applyEffs_one {f : Eff} (h : isReadEff f = false ∨ isLocalAtomic f = false) (s : State) (i k : Nat) (pc : W32)
    (len : Nat) (succ : W32) (x : Hand) (out : Bool) :
    applyEffs s i k pc len succ x out [f] = applyEff s i k pc len succ x out s f := by
  cases hr : isReadEff f with
  | true => simp [applyEffs, hr, h.resolve_left (by simp [hr])]
  | false => cases ha : isLocalAtomic f <;> simp [applyEffs, hr, ha]

/-- A ready glyph whose one effect is its act retires at once, and the act is performed as its line retires. -/
theorem next_act {s : State} {hr : HandRef} {c : Instr} {g : Glyph} (q : Ready s hr c g)
    (he : evalGlyph (aloneEnv s hr false) c = writes [actOf (aloneEnv s hr false) c]) (hc : hasLexit [c] = false)
    (hd : drawsFree c = false) (hx : effLexit [actOf (aloneEnv s hr false) c] = false)
    (hone : isDevLoad c = false ∨ isLocalAtomic (actOf (aloneEnv s hr false) c) = false)
    (hroom : roomStop s (beadNo hr.br) [actOf (aloneEnv s hr false) c] = none) {t : State}
    (ht : landEff s hr none (retire s hr id) (actOf (aloneEnv s hr false) c) = t) :
    (Host.Outcome.next (issue hr true c s) : Host.Outcome State Fault Refusal) = .next t := by
  have hplace : isReadEff (actOf (aloneEnv s hr false) c) = false
      ∨ isLocalAtomic (actOf (aloneEnv s hr false) c) = false := hone
  exact next_writes q he hc hd hx rfl hroom t ((applyEffs_one hplace _ _ _ _ _ _ _ _).trans ht)

/-- An act that neither loads from nor stores to a device address takes none of the entries that lines share. -/
theorem roomStop_act {s : State} {i : Nat} {c : Instr} {acc : W64} {x0 x1 : W32} (hload : isDevLoad c = false)
    (hstore : isDevStore c = false) : roomStop s i [.act c acc x0 x1] = none :=
  roomStop_none (by simp [effNeeds, hload, hstore])

/-- The atomics: an S-slot glyph of form M, performed as `actAtomic` says. -/
structure AtomicGlyph (hr : HandRef) (o : BitVec 22) (op : AtomOp) (c : Instr) : Prop where
  runs : ∀ s, exec c s = .next (issue hr true c s)
  stays : hasLexit [c] = false
  draws : drawsFree c = false
  exits : ∀ acc x0 x1, effLexit [.act c acc x0 x1] = false
  loads : isDevLoad c = false
  stores : isDevStore c = false
  evals : ∀ e, evalGlyph e c = evalAtomic e c o
  performs : ∀ old s i h pc len succ x out acc x0 x1,
    performAct old s i h pc len succ x out c acc x0 x1 = actAtomic s i h pc len x o op acc x0 x1

theorem atomicGlyph_atomGlyph (op : AtomOp) (hr : HandRef) (o : BitVec 22) :
    AtomicGlyph hr o op (atomGlyph op hr true o) := by
  cases op
  all_goals
    refine ⟨fun _ => rfl, rfl, rfl, fun _ _ _ => rfl, ?_, ?_, fun _ => rfl, fun _ _ _ _ _ _ _ _ _ _ _ _ => rfl⟩
    · exact Bool.and_false _
    · exact Bool.and_false _

/-- The two statements of what an atomic leaves agree. -/
theorem atomNew_eq (op : AtomOp) (old a b : W64) : atomNew op old a b = atomSays op old a b := by
  cases op with
  | min =>
    rcases lt_trichotomy old.toInt a.toInt with h | h | h
    · simp [atomNew, atomSays, BitVec.slt, h, h.le]
    · simp [atomNew, atomSays, BitVec.slt, BitVec.toInt_inj.1 h]
    · simp [atomNew, atomSays, BitVec.slt, h.not_ge, h.not_gt]
  | max =>
    rcases lt_trichotomy old.toInt a.toInt with h | h | h
    · simp [atomNew, atomSays, BitVec.slt, h.le, h.not_gt]
    · simp [atomNew, atomSays, BitVec.slt, BitVec.toInt_inj.1 h]
    · simp [atomNew, atomSays, BitVec.slt, h, h.not_ge]
  | _ => rfl

/-- An effect on the hand of a retired line joins the line's own through the bytes that the line has stored. -/
theorem modHand_storeBytes (s : State) (hr : HandRef) (j : Option (W32 × Bool)) (f g : Hand → Hand) (a : Nat) (bs : List W8) :
    modHand (storeBytes (retireTo s hr j f) a bs) (beadNo hr.br) hr.hand.val g
      = storeBytes (retireTo s hr j (fun y => g (f y))) a bs :=
  congrArg (storeBytes · a bs) (modHand_retireTo s hr j f g)

/-- Settles O7: the atomic's checks pass, and its act exchanges the word as the line retires. -/
theorem localAtomics : Obligations.LocalAtomics := by
  intro op s hr o g x a old hm hl q
  have ag := atomicGlyph_atomGlyph op hr o
  have h5 : opdMode o ≠ 5 := by omega
  have heval : evalAtomic (aloneEnv s hr false) (atomGlyph op hr true o) o
      = writes [actOf (aloneEnv s hr false) (atomGlyph op hr true o)] := by
    rw [evalAtomic, if_neg h5, show (aloneEnv s hr false).x = x from rfl, localLoad_ok false hl]
    rfl
  rw [ag.runs]
  refine next_act q ((ag.evals _).trans heval) ag.stays ag.draws (ag.exits _ _ _) (.inl ag.loads)
    (roomStop_act ag.loads ag.stores) ?_
  rw [actOf, landEff_act, ag.performs, actAtomic, if_neg h5]
  simp only [atomNew_eq]
  exact modHand_storeBytes s hr none id (fun y => { y with acc := old }) a _

/-! Precise faults of any glyph alone on its line (R76 to R80, R90), and reserved encodings (R93, R102, R120). -/

/-- A glyph that takes a precise fault of its own bead, neither a parity error nor BREAK, faults as its level says. -/
theorem faultsAs_of_takes {s : State} {hr : HandRef} {c : Instr} {slot cause : Nat} {sfa : W32} (hslot : slot ≤ 5)
    (hc : BitVec.ofNat 8 cause ≠ 6) (hb : BitVec.ofNat 8 cause ≠ 0x0D)
    (ht : exec c s = .next (takeFault (pointTo s (beadNo hr.br) hr.hand.val) (beadNo hr.br) hr.hand.val (handAt s hr).pc
      (preciseFault slot cause sfa))) : FaultsAs s hr c (preciseScause slot cause) sfa where
  stops hl hh hf := by
    have hp := takeFault_stops (spc := (handAt s hr).pc) (f := preciseFault slot cause sfa) hc
      ((congrArg (fun x => pswPl (Hand.psw x)) (handAt_pointTo s hr)).trans hl) (fun h => hh (Fin.ext h))
      ((congrArg Hand.heldFaults (getHand_pointTo s _ hr.hand.val 0)).trans hf)
    have hstop : (if (preciseFault slot cause sfa).cause = 0x0D then StopKind.brk else .fault) = .fault := if_neg hb
    rw [handAt_pointTo, scauseOf_precise, hstop] at hp
    exact ⟨_, ht, hp⟩
  enters hl := by
    have hp := takeFault_enters (spc := (handAt s hr).pc) (f := preciseFault slot cause sfa) hc
      (s := pointTo s (beadNo hr.br) hr.hand.val) (i := beadNo hr.br) (h := hr.hand.val)
      (by rw [handAt_pointTo]; exact hl.imp_right (fun h => ⟨h.1, congrArg Fin.val h.2⟩))
    rw [handAt_pointTo, scauseOf_precise] at hp
    rw [ht, hp, preciseScause_cause]
    rfl
  locks hl := by
    have hseven : (preciseFault slot cause sfa).slot ≠ 7 := by
      show BitVec.ofNat 3 slot ≠ 7
      interval_cases slot <;> decide
    rw [takeFault_locks hc hseven (by rw [handAt_pointTo]; exact hl)] at ht
    exact ⟨_, ht, fun k => lockup_hand _ _ _ _ _ k, lockup_mem _ _ _ _ _⟩

/-- A glyph whose encoding is reserved takes RSVD, whatever it would do (R93, R120). -/
theorem issue_reserved {s : State} {hr : HandRef} {c : Instr} {g : Glyph} (q : Formed s hr c g)
    (hres : glyphReserved g = true) : issue hr true c s
      = takeFault (pointTo s (beadNo hr.br) hr.hand.val) (beadNo hr.br) hr.hand.val (handAt s hr).pc
        (preciseFault g.slot 0x01 (handAt s hr).pc) := by
  obtain ⟨hg, hstop, hslate, hsite, hfree, hrun, hopen, hline, hfetch, hgate, hitems⟩ := q
  simp only [beadOf, handAt] at *
  simp [issue, hslate, hsite, hfree, hrun, hopen, hline, runLine, hg, tryLine, hfetch, hgate, hitems,
    slot_legal g hstop (glyphOf_slot hg), lineResults, hres, raise, alone_not_twice, isHold, worstFault, lineFault, glyphFault,
    preciseFault]

/-- The SCAUSE words of RSVD at the six slots (R91). -/
theorem preciseScause_rsvd {n : Nat} (h : n ≤ 5) : preciseScause n 0x01 = BitVec.ofNat 32 (0x2000 * n + 0x101) := by
  interval_cases n <;> decide

theorem faultsAs_reserved {s : State} {hr : HandRef} {c : Instr} {g : Glyph} (q : Formed s hr c g) (hhand : g.hand = hr)
    (hres : glyphReserved g = true) : FaultsAs s hr c (BitVec.ofNat 32 (0x2000 * g.slot + 0x101)) (handAt s hr).pc := by
  have hslot := glyphOf_slot q.glyph
  rw [← preciseScause_rsvd hslot]
  refine faultsAs_of_takes hslot (by decide) (by decide) ?_
  rw [exec_glyph s q.glyph, hhand, q.stops, issue_reserved q hres]

/-- Only RGET, of a number form, has a reserved number (R107). -/
theorem numOk_of_form {c : Instr} {g : Glyph} (h : glyphOf c = some g) (hf : g.form ≠ .num 3) : numOk g = true := by
  cases c with
  | rget =>
    cases h
    exact absurd rfl hf
  | _ => cases h <;> rfl

/-- Among the forms of R102 only the mode makes an encoding reserved (R107, R120). -/
theorem glyphReserved_of_form {c : Instr} {g : Glyph} {f : Form} (h : glyphOf c = some g) (hf : g.form = f)
    (hne : f ≠ .num 3) : glyphReserved g = !formOk f g.opd := by
  rw [glyphReserved, numOk_of_form h (by rw [hf]; exact hne), Bool.and_true, hf]

/-- The forms of the stores and of the glyphs that load an address (R106, R107). -/
theorem form_of_store {x : Hand} {hr : HandRef} {r : XReg} {o : BitVec 22} {c : Instr} {g : Glyph}
    (hc : c ∈ (memStores x hr r o).map (·.1) ++ [.xlea hr true r o, .fplea hr true o]) (h : glyphOf c = some g) :
    g.form = .m ∨ g.form = .ml := by
  simp only [memStores, List.map_cons, List.map_nil, List.cons_append, List.nil_append, List.mem_cons, List.not_mem_nil,
    or_false] at hc
  rcases hc with rfl | rfl | rfl | rfl | rfl | rfl | rfl | rfl
  iterate 6
    · injection h with h
      exact .inl (h ▸ rfl)
  iterate 2
    · injection h with h
      exact .inr (h ▸ rfl)

/-- Settles O30: an encoding of these forms is reserved just if its mode is refused, and a reserved one takes RSVD. -/
theorem operandModes : Obligations.OperandModes := by
  intro c s hr r o g m rsvd takes q hhand
  have htakes {f : Form} {accepts : Prop} (hf : g.form = f) (hne : f ≠ .num 3) (h : formOk f g.opd = true ↔ accepts) :
      takes accepts := by
    have hres := glyphReserved_of_form q.glyph hf hne
    refine ⟨fun ha => by rw [hres, h.2 ha]; rfl, fun hn => faultsAs_reserved q hhand ?_⟩
    rw [hres, Bool.eq_false_iff.2 (fun ht => hn (h.1 ht))]
    rfl
  refine ⟨fun hf => htakes hf Form.noConfusion ?m, fun hf => htakes hf Form.noConfusion ?mk,
    fun hf => htakes hf Form.noConfusion ?k, fun hc hm => ?store⟩
  case m => simp [formOk, m]
  case mk =>
    simp only [formOk, decide_eq_true_eq, m]
    omega
  case k => simp [formOk, m]
  case store =>
    have hm4 : opdMode g.opd = 4 := hm
    refine faultsAs_reserved q hhand ?_
    rcases form_of_store hc q.glyph with hf | hf
    · rw [glyphReserved_of_form q.glyph hf Form.noConfusion, formOk, hm4]
      rfl
    · rw [glyphReserved_of_form q.glyph hf Form.noConfusion, formOk, hm4]
      rfl

/-! Loops (R114, R115, R118). -/

/-- PSW.LD after it is set (R91). -/
theorem pswLd_setLd (w : W32) {k : Nat} (h : k < 8) : pswLd (pswSetLd w k) = k := by
  have hfield (v : W32) : pswLd v = (v.extractLsb' 20 3).toNat := by
    rw [pswLd, fld, BitVec.extractLsb'_toNat]
  have hset : (pswSetLd w k).extractLsb' 20 3 = BitVec.ofNat 3 k := by
    rw [pswSetLd, merge32]
    ext i hi
    interval_cases k <;> interval_cases i <;> simp
  rw [hfield, hset, BitVec.toNat_ofNat, Nat.mod_eq_of_lt h]

theorem pswLd_lt (w : W32) : pswLd w < 8 := Nat.mod_lt _ (by decide)

/-- A line that no level's end follows goes on at the next one, its loop registers as they were (R115). -/
theorem backEdge_stays (n : Nat) {x : Hand} {a : W32} (h : pswLd x.psw = 0 ∨ a ≠ (loopOf x (pswLd x.psw - 1)).lpe) :
    backEdge n x a = (x, a) := by
  cases n with
  | zero => rfl
  | succ n =>
    unfold backEdge
    by_cases h0 : pswLd x.psw = 0
    · simp only [if_pos h0]
    · simp only [if_neg h0, if_pos (h.resolve_left h0)]

theorem continueAt_next {x : Hand} {pc : W32} (h : pswLd x.psw = 0 ∨ pc + 4 ≠ (loopOf x (pswLd x.psw - 1)).lpe) :
    continueAt x pc 1 false none = continueAt x pc 1 false (some (pc + 4, false)) := by
  have hback := backEdge_stays 8 h
  simp only [continueAt, Bool.false_eq_true, if_false, show BitVec.ofNat 32 (4 * 1) = (4 : W32) from rfl, hback]

/-- A line that no level's end follows retires to the next line. -/
theorem retireTo_next {s : State} {hr : HandRef} (h : pswLd (handAt s hr).psw = 0
      ∨ (handAt s hr).pc + 4 ≠ (loopOf (handAt s hr) (pswLd (handAt s hr).psw - 1)).lpe) (f : Hand → Hand) :
    retireTo s hr none f = retireTo s hr (some ((handAt s hr).pc + 4, false)) f := by
  rw [retireTo, retireTo, continueAt_next h]

section Loops
variable {s : State} {hr : HandRef} {c : Instr} {g : Glyph} {o : BitVec 22} {count : Nat}

/-- Where a loop closes (R114). -/
def loopExit (x : Hand) (o : BitVec 22) : W32 := x.pc + BitVec.ofNat 32 (4 * fld o.toNat 11 0)

/-- What LOOP and LOOPI evaluate to where their level may open (R114). -/
theorem evalLoop_fits (c : Instr) (h : LoopFits (handAt s hr) (loopExit (handAt s hr) o)) :
    evalLoop (aloneEnv s hr false) c o count false
      = if count = 0 then writes [.jump (loopExit (handAt s hr) o) false] else writes [actOf (aloneEnv s hr false) c] := by
  obtain ⟨hdepth, hexit, hinner⟩ := h
  have hnext : (aloneEnv s hr false).pc + BitVec.ofNat 32 (4 * (aloneEnv s hr false).len) = (handAt s hr).pc + 4 := rfl
  have hedge : ¬ (1 ≤ pswLd (handAt s hr).psw
      ∧ (handAt s hr).pc + 4 = (loopOf (handAt s hr) (pswLd (handAt s hr).psw - 1)).lpe) :=
    fun q => hinner.elim (fun h0 => absurd q.1 (by omega)) (fun hne => hne q.2)
  simp only [evalLoop, hnext, show (aloneEnv s hr false).x = handAt s hr from rfl, Bool.false_eq_true, if_false,
    if_neg (Nat.not_le.2 hdepth), if_neg hedge]
  exact if_neg (BitVec.not_le.2 hexit)

/-- A loop with a count opens its level over the lines from the next one (R114). -/
theorem issue_loop (q : Ready s hr c g) (hx : hasLexit [c] = false) (hd : drawsFree c = false)
    (hplain : [actOf (aloneEnv s hr false) c].all effPlain = true)
    (hexits : effLexit [actOf (aloneEnv s hr false) c] = false)
    (he : evalGlyph (aloneEnv s hr false) c = evalLoop (aloneEnv s hr false) c o count false)
    (hact : ∀ t, landEff s hr none t (actOf (aloneEnv s hr false) c)
      = actLoop t (beadNo hr.br) hr.hand.val (handAt s hr) (handAt s hr).pc 1 o count)
    (h : LoopFits (handAt s hr) (loopExit (handAt s hr) o)) (hcount : count ≠ 0) :
    (Host.Outcome.next (issue hr true c s) : Host.Outcome State Fault Refusal)
      = .next (retireTo s hr (some ((handAt s hr).pc + 4, false))
          (fun y => openLevel y ((handAt s hr).pc + 4) (loopExit (handAt s hr) o) (BitVec.ofNat 24 count))) := by
  refine next_plain q (he.trans ((evalLoop_fits c h).trans (if_neg hcount))) hplain hx hd hexits rfl ?_
  rw [List.foldl_cons, List.foldl_nil, show jumpOf _ = none from rfl, hact, actLoop, modHand_retireTo, retireTo_next h.2.2]
  exact retireTo_congr rfl

/-- A loop without a count goes to its exit (R114). -/
theorem issue_loop_skips (q : Ready s hr c g) (hx : hasLexit [c] = false) (hd : drawsFree c = false)
    (he : evalGlyph (aloneEnv s hr false) c = evalLoop (aloneEnv s hr false) c o count false)
    (h : LoopFits (handAt s hr) (loopExit (handAt s hr) o)) (hcount : count = 0) :
    (Host.Outcome.next (issue hr true c s) : Host.Outcome State Fault Refusal)
      = .next (retireTo s hr (some (loopExit (handAt s hr) o, false)) id) :=
  next_plain q (he.trans ((evalLoop_fits c h).trans (if_pos hcount))) rfl hx hd rfl rfl rfl

end Loops

/-- LEXIT of an open level: the level closes before the line continues (R118). -/
theorem issue_lexit {s : State} {hr : HandRef} {o : BitVec 22} {g : Glyph} (q : Ready s hr (.lexit hr true o) g)
    (h : 1 ≤ pswLd (handAt s hr).psw) : issue hr true (.lexit hr true o) s = retireExit s hr := by
  have heval : evalLexit (aloneEnv s hr true) (.lexit hr true o)
      = .ok { effs := [actOf (aloneEnv s hr true) (.lexit hr true o)] } := if_neg (by exact Nat.one_le_iff_ne_zero.1 h)
  have hplain : [actOf (aloneEnv s hr true) (.lexit hr true o)].all effPlain = true := rfl
  rw [issue_ok q heval (roomStop_plain hplain s _)]
  have hh : getHand (modBead s (beadNo hr.br) (fun b => issuedBy b hr.hand)) (beadNo hr.br) hr.hand.val = handAt s hr := by
    rw [← pointTo_hand, handAt_pointTo]
  simp only [lineIssues, pointTo_hand, List.any_cons, List.any_nil, show drawsFree (.lexit hr true o) = false from rfl,
    Bool.or_false, Bool.false_eq_true, if_false, List.flatMap_cons, List.flatMap_nil, List.filterMap_cons,
    List.filterMap_nil, List.append_nil, applyEffs_plain (l := []) rfl, List.foldl_nil, commitLine, lineEffs, hh,
    show effLexit [actOf (aloneEnv s hr true) (.lexit hr true o)] = true from rfl,
    show lostOf [actOf (aloneEnv s hr true) (.lexit hr true o)] = none from rfl,
    show jumpOf [actOf (aloneEnv s hr true) (.lexit hr true o)] = none from rfl, applyEffs_plain hplain, List.foldl_cons]
  simp [retireExit, putHand, modBead, beadOf, emptied, applyEff, actOf, performAct]

/-- LEXIT where no back-edge follows goes on at the next line with its level closed (R115, R118). -/
theorem retireExit_next {s : State} {hr : HandRef} {k : Nat} (h : pswLd (handAt s hr).psw = k + 1)
    (hinner : k = 0 ∨ (loopOf (handAt s hr) (k - 1)).lpe ≠ (handAt s hr).pc + 4) :
    retireExit s hr = retireTo s hr (some ((handAt s hr).pc + 4, false)) (fun y =>
      { setLoop y k { loopOf y k with lpc := 0 } with psw := pswSetLd y.psw k }) := by
  have hlt := pswLd_lt (handAt s hr).psw
  have hk : pswLd (closeLevel (handAt s hr)).psw = k := by
    rw [closeLevel, h]
    exact pswLd_setLd _ (by omega)
  have hloop (hne : k ≠ 0) : loopOf (closeLevel (handAt s hr)) (k - 1) = loopOf (handAt s hr) (k - 1) := by
    rw [closeLevel, h]
    exact mapGet_mapPut_ne _ _ _ _ _ (by omega)
  have hstays : pswLd (closeLevel (handAt s hr)).psw = 0 ∨ (handAt s hr).pc + 4
      ≠ (loopOf (closeLevel (handAt s hr)) (pswLd (closeLevel (handAt s hr)).psw - 1)).lpe := by
    rw [hk]
    by_cases h0 : k = 0
    · exact .inl h0
    · rw [hloop h0]
      exact .inr (hinner.resolve_left h0).symm
  have hback := backEdge_stays 8 hstays
  have hcont : continueAt (handAt s hr) (handAt s hr).pc 1 true none
      = { closeLevel (handAt s hr) with pc := (handAt s hr).pc + 4 } := by
    simp only [continueAt, if_true, show BitVec.ofNat 32 (4 * 1) = (4 : W32) from rfl, hback]
  have hclose : closeLevel (handAt s hr) = { setLoop (handAt s hr) k { loopOf (handAt s hr) k with lpc := 0 } with
      psw := pswSetLd (handAt s hr).psw k } := by
    rw [closeLevel, h]
    rfl
  rw [retireExit, hcont, hclose]
  rfl

/-- Settles O9: a loop's checks pass and its level opens or is skipped, and LEXIT closes its level as its line issues. -/
theorem loopGlyphs : Obligations.LoopGlyphs := by
  intro s hr o g x exit imm
  refine ⟨fun q hfits himm => ?loopi, fun q hfits himm => ?loopiSkips, fun q hfits hacc hsmall => ?loop,
    fun q hfits hacc => ?loopSkips, fun q h => ?lexit, fun k q h hinner => ?lexitNext, fun q h => ?fault⟩
  case loopi => exact issue_loop q rfl rfl rfl rfl rfl (fun _ => rfl) hfits himm
  case loopiSkips => exact issue_loop_skips q rfl rfl rfl hfits himm
  case loop =>
    have hbig : evalGlyph (aloneEnv s hr false) (.loop hr true o)
        = evalLoop (aloneEnv s hr false) (.loop hr true o) o (x.acc.toNat % 2 ^ 24) false := by
      rw [← decide_eq_false (Nat.not_le.2 hsmall)]
      rfl
    have hcount : x.acc.toNat % 2 ^ 24 ≠ 0 := by
      rw [Nat.mod_eq_of_lt hsmall]
      exact fun h0 => hacc (BitVec.eq_of_toNat_eq h0)
    have htrunc : BitVec.ofNat 24 (x.acc.toNat % 2 ^ 24) = x.acc.truncate 24 := by
      apply BitVec.eq_of_toNat_eq
      simp
    rw [← htrunc]
    exact issue_loop q rfl rfl rfl rfl hbig (fun _ => rfl) hfits hcount
  case loopSkips =>
    have hbig : evalGlyph (aloneEnv s hr false) (.loop hr true o) = evalLoop (aloneEnv s hr false) (.loop hr true o) o 0 false := by
      change evalLoop _ _ o (x.acc.toNat % 2 ^ 24) (decide (2 ^ 24 ≤ x.acc.toNat)) = _
      rw [hacc]
      rfl
    exact issue_loop_skips q rfl rfl hbig hfits rfl
  case lexit => exact congrArg Host.Outcome.next (issue_lexit q h)
  case lexitNext =>
    rw [← retireExit_next h hinner]
    exact congrArg Host.Outcome.next (issue_lexit q (by rw [h]; omega))
  case fault =>
    have heval : evalLexit (aloneEnv s hr true) (.lexit hr true o) = .error (.fault { cause := 0x0A, sfa := 0 }) := if_pos h
    refine faultsAs_of_takes (slot := 5) (cause := 0x0A) (by decide) (by decide) (by decide) ?_
    have hg := q.glyph
    injection hg with hg
    change Host.Outcome.next (issue hr true (.lexit hr true o) s) = _
    rw [issue_fault q heval, ← hg]
    rfl

/-! Changes of a bead outside its core, and what a retired line leaves of its hand and bead (R60, R119). -/

/-- A change of a bead that neither reads nor changes its core. -/
def SparesCore (f : Bead → Bead) : Prop := ∀ b c, f { b with core := c } = { f b with core := c }

theorem SparesCore.core {f : Bead → Bead} (h : SparesCore f) (b : Bead) : (f b).core = b.core := by
  have hb := congrArg Bead.core (h b b.core)
  exact hb

/-- Such a change and one of a hand may be made in either order. -/
theorem modHand_modBead {f : Bead → Bead} (hf : SparesCore f) (s : State) (i h : Nat) (g : Hand → Hand) :
    modHand (modBead s i f) i h g = modBead (modHand s i h g) i f := by
  have hset (x : Hand) : setHand (f (getBead s i)) h x = f (setHand (getBead s i) h x) := by
    rw [setHand, hf.core, ← hf]
    rfl
  have hhand : handOf (f (getBead s i)) h = handOf (getBead s i) h := by rw [handOf, hf.core, ← handOf]
  simp only [modHand, putHand, modBead, getHand, getBead_putBead_same, putBead_putBead_same, hhand, hset]

/-- A line that retires in sequence leaves its hand's staged message as the glyph's own effect makes it. -/
theorem staged_retire (s : State) (hr : HandRef) : (handAt (retire s hr id) hr).staged = (handAt s hr).staged := by
  obtain ⟨l, w, a, hseq⟩ := continueAt_frame (handAt s hr) (handAt s hr).pc 1
  rw [retire, handAt_retireTo, hseq]
  rfl

/-- A change of the bead of a retired line that acts alike on the bead that the line has left. -/
theorem modBead_retireTo_congr {s : State} {hr : HandRef} {j : Option (W32 × Bool)} {f : Hand → Hand} {u v : Bead → Bead}
    (h : ∀ b, b.regs = (beadOf s hr).regs → b.ends = (beadOf s hr).ends → b.quills = (beadOf s hr).quills → u b = v b) :
    modBead (retireTo s hr j f) (beadNo hr.br) u = modBead (retireTo s hr j f) (beadNo hr.br) v := by
  refine modBead_congr (h _ ?_ ?_ ?_)
  all_goals rw [getBead_retireTo]; rfl

/-! Scalar queues (R111, R112, R242, R244, R249). -/

section Sends
variable {s : State} {hr : HandRef} {o : BitVec 22} {ep : Nat}

theorem sparesCore_takeSout (ep : Nat) : SparesCore (fun b => takeSout b ep) := fun _ _ => rfl

/-- A send whose endpoint, port and credit are at hand is performed (R112, R242, R244, R249). -/
theorem evalSend_ok (c : Instr) (staging last : Bool) (ho : opdField o = ep) (h : SendFits s hr ep)
    (hroom : staging = true → last = false → ∀ m, (handAt s hr).staged = some m → m.words.length < 8) :
    evalSend (aloneEnv s hr false) c o staging last = writes [actOf (aloneEnv s hr false) c] := by
  obtain ⟨hopen, hcredit, hport, hhere⟩ := h
  have hx : (aloneEnv s hr false).x = handAt s hr := rfl
  have hb : envBead (aloneEnv s hr false) = beadOf s hr := rfl
  have hcred : (soutCredits (beadOf s hr) ep == 0) = false := beq_eq_false_iff_ne.2 hcredit
  cases hst : (handAt s hr).staged with
  | none => simp [evalSend, hx, hb, ho, hst, hopen, hport, hcred]
  | some m =>
    have hep : (m.ep.val != ep) = false := by simp [hhere m hst]
    have hfull : (staging && !last && decide (8 ≤ m.words.length)) = false := by
      cases staging with
      | false => rfl
      | true =>
        cases last with
        | true => rfl
        | false => simpa using hroom rfl rfl m hst
    simp [evalSend, hx, hb, ho, hst, hopen, hport, hcred, hep] at hfull ⊢
    intro h1 h2 h3
    exact absurd (hfull h1 h2) (Nat.not_lt.2 h3)

/-- The words of a hand's staged message (R112). -/
def stagedWords (x : Hand) : List W32 := match x.staged with | some m => m.words | none => []

/-- Staging a word takes a credit and keeps the message (R112). -/
theorem actSendm_stages {e : Fin 8} (ho : opdField o = e.val) (acc : W64) :
    actSendm (retire s hr id) (beadNo hr.br) hr.hand.val o acc false
      = modBead (retire s hr (fun y => { y with staged := some ⟨e, stagedWords (handAt s hr) ++ [acc.truncate 32]⟩ }))
          (beadNo hr.br) (fun b => takeSout b e.val) := by
  have hep : (⟨e.val % 8, Nat.mod_lt _ (by decide)⟩ : Fin 8) = e := Fin.ext (Nat.mod_eq_of_lt e.isLt)
  have hst : (getHand (retire s hr id) (beadNo hr.br) hr.hand.val).staged = (handAt s hr).staged := staged_retire s hr
  simp only [actSendm, hst, ho, hep, Bool.false_eq_true, if_false]
  rw [modHand_modBead (sparesCore_takeSout _), retire, modHand_retireTo]
  rfl

/-- The last word of a message takes a credit, and the message leaves (R112). -/
theorem actSendm_commits (ho : opdField o = ep) (acc : W64) :
    actSendm (retire s hr id) (beadNo hr.br) hr.hand.val o acc true
      = sendWords (modBead (retire s hr (fun y => { y with staged := none })) (beadNo hr.br) (fun b => takeSout b ep))
          (beadNo hr.br) ep (stagedWords (handAt s hr) ++ [acc.truncate 32]) := by
  have hst : (getHand (retire s hr id) (beadNo hr.br) hr.hand.val).staged = (handAt s hr).staged := staged_retire s hr
  simp only [actSendm, hst, ho]
  rw [modHand_modBead (sparesCore_takeSout _), retire, modHand_retireTo]
  rfl

theorem evalRecv_ok {v : W32} {l : Bool} {rest : List (W32 × Bool)} (c : Instr) (ho : opdField o = ep)
    (hopen : (beadOf s hr).ends.sinClosed.getLsbD ep = false) (hws : sinWords (beadOf s hr) ep = (v, l) :: rest)
    (hread : readable (sinWords (beadOf s hr) ep) ≠ 0) :
    evalRecv (aloneEnv s hr false) c o = writes [.acc (v.zeroExtend 64), actOf (aloneEnv s hr false) c] := by
  have hb : envBead (aloneEnv s hr false) = beadOf s hr := rfl
  have hfree : ((beadOf s hr).ends.sinClosed.getLsbD ep || decide (readable (sinWords (beadOf s hr) ep) = 0)) = false := by
    rw [hopen, decide_eq_false hread]
    rfl
  rw [hws] at hfree
  simp only [evalRecv, hb, ho, hws, hfree]
  rfl

end Sends

/-- Settles O16: each glyph's checks pass, and its act takes its credit or its word as the line retires. -/
theorem scalarQueueGlyphs : Obligations.ScalarQueueGlyphs := by
  intro s hr e o g i b w ws put ho
  refine ⟨fun q h => ?send, fun q h hlen => ?sendm, fun q h => ?sendl, fun v l rest q hopen hws hread => ?recv,
    fun q => ?qpoll, fun q hclosed => ?closed, fun q hopen => ?credits⟩
  case send =>
    refine next_act q (evalSend_ok _ false true ho h (fun h _ => absurd h Bool.false_ne_true)) rfl rfl rfl (.inr rfl)
      (roomStop_plain rfl s _) ?_
    change actSend (retire s hr id) i o _ = _
    rw [actSend, ho]
    rfl
  case sendm =>
    have hroom : ∀ m, (handAt s hr).staged = some m → m.words.length < 8 := by
      intro m hm
      simp only [ws, hm] at hlen
      exact hlen
    exact next_act q (evalSend_ok _ true false ho h (fun _ _ => hroom)) rfl rfl rfl (.inr rfl) (roomStop_plain rfl s _)
      (actSendm_stages ho _)
  case sendl =>
    exact next_act q (evalSend_ok _ true true ho h (fun _ h => absurd h Bool.noConfusion)) rfl rfl rfl (.inr rfl)
      (roomStop_plain rfl s _) (actSendm_commits ho _)
  case recv =>
    refine next_plain q (evalRecv_ok _ ho hopen hws hread) rfl rfl rfl rfl rfl ?_
    rw [List.foldl_cons, List.foldl_cons, List.foldl_nil, landEff_acc]
    change actRecv _ i o = _
    have hdrop (t : Bead) (ht : t.ends = b.ends) : (sinWords t e.val).drop 1 = rest := by
      rw [sinWords, ht, ← sinWords, hws]
      rfl
    simp only [actRecv, ho]
    refine congrArg (fun t => returnCredits t .scalar i e.val 1 false) (modBead_retireTo_congr (fun t _ ht _ => ?_))
    rw [hdrop t ht]
  case qpoll => exact issue_acc q _ rfl rfl (by rw [← ho]; rfl)
  case closed =>
    exact issue_acc q _ rfl rfl (congrArg (fun v => writes [.acc v]) ((congrArg (qcredValue b) ho).trans (if_pos hclosed)))
  case credits =>
    exact issue_acc q _ rfl rfl
      (congrArg (fun v => writes [.acc v]) ((congrArg (qcredValue b) ho).trans (if_neg (Bool.eq_false_iff.1 hopen))))

/-! Tallies (R113, R261, R262). -/

/-- The identifier that form N names (R113). -/
theorem tallyId_of {x : Hand} {o : BitVec 22} {t : Nat} (h : TallyNo x o t) : tallyId x o = t := by
  rcases h with ⟨hm, -, rfl⟩ | ⟨hm, rfl⟩ | ⟨hm, rfl⟩
  · rw [tallyId, hm]
    exact Nat.mod_mod_of_dvd _ (by decide)
  · rw [tallyId, hm]
    rfl
  · rw [tallyId, hm]
    rfl

section Tallies
variable {s : State} {hr : HandRef} {o : BitVec 22} {p : Nat}

theorem glyphTally_named (h : TallyNamed s hr o p) : glyphTally (aloneEnv s hr false) o = .ok p := by
  obtain ⟨k, t, hctx, hno, hp⟩ := h
  have hctx' : beadCtx (envBead (aloneEnv s hr false)) = some k := hctx
  have hp' : tallyOf (aloneEnv s hr false).s ((aloneEnv s hr false).i / 256) k (tallyId (aloneEnv s hr false).x o) = some p := by
    rw [show tallyId (aloneEnv s hr false).x o = t from tallyId_of hno]
    exact hp
  simp only [glyphTally, hctx', hp']

theorem glyphTally_missing {t : Nat} (hno : TallyNo (handAt s hr) o t)
    (h : ∀ k, beadCtx (beadOf s hr) = some k → tallyOf s (beadNo hr.br / 256) k t = none) :
    glyphTally (aloneEnv s hr false) o = raise 0x04 (BitVec.ofNat 32 t) := by
  have hid : tallyId (aloneEnv s hr false).x o = t := tallyId_of hno
  simp only [glyphTally, hid]
  split
  · rfl
  next k hk =>
    have hnone : tallyOf (aloneEnv s hr false).s ((aloneEnv s hr false).i / 256) k t = none := h k hk
    rw [hnone]

/-- A raise joins those that wait behind its hand's stores (R262). -/
theorem evalTadd_ok (c : Instr) (h : TallyNamed s hr o p) (hroom : (handAt s hr).raises.length < 4) :
    evalTadd (aloneEnv s hr false) c o = writes [actOf (aloneEnv s hr false) c] := by
  rw [evalTadd, glyphTally_named h]
  exact if_neg (Nat.not_le.2 hroom)

theorem actTadd_queues (h : TallyNamed s hr o p) (n : BitVec 48) :
    actTadd (retire s hr id) (beadNo hr.br) hr.hand.val (handAt s hr) o n
      = retire s hr (fun y => { y with raises := y.raises ++ [⟨(beadOf s hr).core.seq, p, n⟩] }) := by
  obtain ⟨k, t, hctx, hno, hp⟩ := h
  have hbead : getBead (retire s hr id) (beadNo hr.br) = _ := getBead_retireTo s hr none id
  have hctx' : beadCtx (getBead (retire s hr id) (beadNo hr.br)) = some k := by
    rw [hbead]
    exact hctx
  have hp' : tallyOf (retire s hr id) (beadNo hr.br / 256) k (tallyId (handAt s hr) o) = some p := by
    rw [tallyId_of hno]
    exact hp
  have hseq : (getBead (retire s hr id) (beadNo hr.br)).core.seq = (beadOf s hr).core.seq := by
    rw [hbead]
    rfl
  simp only [actTadd, hctx', hp', hseq]
  exact modHand_retireTo s hr none id _

/-- A ready glyph that asks for a tally's value is held, its request in the hand's latch (R261). -/
theorem issue_ask {c : Instr} {g : Glyph} {l : TallyLatch} (q : Ready s hr c g) (hc : hasLexit [c] = false)
    (he : evalGlyph (aloneEnv s hr false) c = .error (.ask l)) :
    issue hr true c s = modHand s (beadNo hr.br) hr.hand.val (fun x => { x with latch := l }) := by
  rw [issue_alone q]
  obtain ⟨hg, hs, hn, h1, h2, h3, h4, h5, h6, h7, h8, h9⟩ := q
  simp only [beadOf, handAt] at *
  simp only [aloneEnv, handAt] at he
  simp [tryLine, h7, h8, h9, slot_legal g hs (glyphOf_slot hg), lineResults, hn, hc, he, isHold]

theorem evalTwait_met {a : Bool} (c : Instr) (h : TallyNamed s hr o p)
    (hl : (handAt s hr).latch = ⟨true, true, false, BitVec.ofNat 12 p, (handAt s hr).acc.truncate 48, a⟩) :
    evalTwait (aloneEnv s hr false) c o = writes [actOf (aloneEnv s hr false) c] := by
  rw [evalTwait, glyphTally_named h, show (aloneEnv s hr false).x = handAt s hr from rfl, hl]
  simp [Bind.bind, Except.bind]

theorem evalTwait_asks (c : Instr) (h : TallyNamed s hr o p) (hl : (handAt s hr).latch = {}) :
    evalTwait (aloneEnv s hr false) c o = .error (.asleep .twait
      (some ⟨true, false, false, BitVec.ofNat 12 p, (handAt s hr).acc.truncate 48, true⟩)) := by
  rw [evalTwait, glyphTally_named h, show (aloneEnv s hr false).x = handAt s hr from rfl, hl]
  simp [Bind.bind, Except.bind]

theorem evalTread_met {a : Bool} {v : BitVec 48} (c : Instr) (h : TallyNamed s hr o p)
    (hl : (handAt s hr).latch = ⟨true, true, true, BitVec.ofNat 12 p, v, a⟩) :
    evalTread (aloneEnv s hr false) c o = writes [.acc (v.zeroExtend 64), actOf (aloneEnv s hr false) c] := by
  rw [evalTread, glyphTally_named h, show (aloneEnv s hr false).x = handAt s hr from rfl, hl]
  simp [Bind.bind, Except.bind]

theorem evalTread_asks (c : Instr) (h : TallyNamed s hr o p) (hl : (handAt s hr).latch = {}) :
    evalTread (aloneEnv s hr false) c o = .error (.ask ⟨true, false, true, BitVec.ofNat 12 p, 0, true⟩) := by
  rw [evalTread, glyphTally_named h, show (aloneEnv s hr false).x = handAt s hr from rfl, hl]
  simp [Bind.bind, Except.bind]

/-- A tally glyph without a translation raises XMISS with its identifier (R113). -/
theorem raisesAt_tally {c : Instr} {t : Nat} (hc : c ∈ tallyGlyphs hr o) (hno : TallyNo (handAt s hr) o t)
    (h : ∀ k, beadCtx (beadOf s hr) = some k → tallyOf s (beadNo hr.br / 256) k t = none) :
    RaisesAt s hr c 4 0x04 (BitVec.ofNat 32 t) := by
  have hmiss := glyphTally_missing hno h
  simp only [tallyGlyphs, List.mem_cons, List.not_mem_nil, or_false] at hc
  rcases hc with rfl | rfl | rfl | rfl
  all_goals refine ⟨rfl, rfl, fun g hg => by injection hg with hg; rw [← hg], ?_⟩
  · exact congrArg (· >>= _) hmiss
  · exact congrArg (· >>= _) hmiss
  · exact congrArg (· >>= _) hmiss
  · exact congrArg (· >>= _) hmiss

/-- A tally glyph whose operand names no tally is reserved (R113, R120). -/
theorem glyphReserved_tally {c : Instr} {g : Glyph} (hc : c ∈ tallyGlyphs hr o) (hg : glyphOf c = some g)
    (h : ∀ t, ¬ TallyNo (handAt s hr) o t) : g.hand = hr ∧ g.slot = 4 ∧ glyphReserved g = true := by
  have hmode : formOk .tally o = false := by
    have h4 : ¬ (opdMode o = 4 ∧ fld o.toNat 18 10 = 0) := fun q => h _ (.inl ⟨q.1, q.2, rfl⟩)
    have h1 : opdMode o ≠ 1 := fun q => h _ (.inr (.inl ⟨q, rfl⟩))
    have h2 : opdMode o ≠ 2 := fun q => h _ (.inr (.inr ⟨q, rfl⟩))
    simpa [formOk, h1, h2] using h4
  simp only [tallyGlyphs, List.mem_cons, List.not_mem_nil, or_false] at hc
  rcases hc with rfl | rfl | rfl | rfl
  all_goals
    injection hg with hg
    subst hg
    exact ⟨rfl, rfl, by rw [glyphReserved, hmode]; rfl⟩

end Tallies

/-- Settles O18: the tally is named or missing, and the latch tells whether the glyph waits, asks or is performed. -/
theorem tallyGlyphs_hold : Obligations.TallyGlyphs := by
  intro s hr o g p x target queued asks
  refine ⟨fun h q hroom => ?tadd, fun h q hroom => ?tinc, fun a h q hl => ?twait, fun h q hl => ?sleeps, fun h q hl => ?tasks,
    fun v a h q hl => ?tread, fun c hc t hno q hnone => ?missing, fun c hc hno q => ?reserved⟩
  case tadd => exact next_plain q (evalTadd_ok _ h hroom) rfl rfl rfl rfl rfl (actTadd_queues h target)
  case tinc => exact next_plain q (evalTadd_ok _ h hroom) rfl rfl rfl rfl rfl (actTadd_queues h 1)
  case twait => exact next_plain q (evalTwait_met _ h hl) rfl rfl rfl rfl rfl (modHand_retireTo s hr none id unlatched)
  case sleeps => exact congrArg Host.Outcome.next (issue_asleep q (evalTwait_asks _ h hl))
  case tasks => exact congrArg Host.Outcome.next (issue_ask q rfl (evalTread_asks _ h hl))
  case tread =>
    refine next_plain q (evalTread_met _ h hl) rfl rfl rfl rfl rfl ?_
    rw [List.foldl_cons, List.foldl_cons, List.foldl_nil, landEff_acc]
    exact modHand_retireTo s hr none _ unlatched
  case missing => exact (raisesAt_tally hc hno hnone).faultsAs q (by decide) (by decide)
  case reserved =>
    obtain ⟨hhand, hslot, hres⟩ := glyphReserved_tally hc q.glyph hno
    have hfault := faultsAs_reserved q hhand hres
    rwa [hslot] at hfault

/-! The quill (R111, R160, R166). -/

/-- A quill slot of a bead (R160). -/
def quillSlotOf (b : Bead) (n : Nat) : QuillSlot := mapGet (fun _ => {}) b.quills n

theorem freeQuill_lowest {b : Bead} {k : Nat} (hk : k < 8) (hfree : (quillSlotOf b k).busy = false)
    (hbusy : ∀ n < k, (quillSlotOf b n).busy = true) : freeQuill b = some k := by
  refine List.find?_range_eq_some.2 ⟨?_, List.mem_range.2 hk, fun n hn => ?_⟩
  · exact (congrArg not hfree).trans rfl
  · exact (congrArg (fun v => !(!v)) (hbusy n hn)).trans rfl

/-- QUILL gives its descriptor to the lowest free slot where the scoreboard has entries for its ranges and no drain holds any
of them (R138, R160, R166). -/
theorem evalQuill_ok {s : State} {hr : HandRef} {o : BitVec 22} {k : Nat} {d : List W8}
    (hl : LocalOk s hr (localEa (handAt s hr) o).toNat 64)
    (hd : d = loadBytes s (localAt hr (localEa (handAt s hr) o).toNat) 64) (hslot : freeQuill (beadOf s hr) = some k)
    (hroom : heldEntries (beadOf s hr) + (qRanges d).length ≤ 8)
    (hapart : ∀ n ∈ (beadOf s hr).nibDrains, ∀ q ∈ drainRange n.desc :: (drainScales n.desc).toList, ∀ r ∈ qRanges d,
      overlaps r q = false) :
    evalQuill (aloneEnv s hr false) o = writes [.acc (BitVec.ofNat 64 k), .quill d] := by
  have hb : envBead (aloneEnv s hr false) = beadOf s hr := rfl
  have hx : (aloneEnv s hr false).x = handAt s hr := rfl
  have hdrains : (qRanges d).any (fun r => ((beadOf s hr).nibDrains.flatMap
      (fun n => drainRange n.desc :: (drainScales n.desc).toList)).any (overlaps r)) = false := by
    refine List.any_eq_false.2 (fun r hr' => ?_)
    rw [Bool.not_eq_true, List.any_eq_false]
    intro q hq
    obtain ⟨n, hn, hq⟩ := List.mem_flatMap.1 hq
    rw [Bool.not_eq_true]
    exact hapart n hn q hq r hr'
  simp only [evalQuill, hb, hx, hslot, localLoad_ok false hl, ← hd, Bind.bind, Except.bind, hdrains, Bool.or_false,
    decide_eq_true_eq, if_neg (Nat.not_lt.2 hroom)]

/-- A descriptor takes as many scoreboard entries as it has local ranges (R166). -/
theorem roomStop_quill {s : State} {i : Nat} {d : List W8} (v : W64)
    (h : heldEntries (getBead s i) + (qRanges d).length ≤ 8) : roomStop s i [.acc v, .quill d] = none := by
  have hsum : ¬ 8 < (qRanges d).length + heldEntries (getBead s i) := by omega
  simp [roomStop, effNeeds, hsum]

/-- A sum of powers of two, one for each number that satisfies p, has just those bits. -/
theorem testBit_sum (p : Nat → Bool) (n k : Nat) :
    ((List.range n).map (fun k => if p k then 2 ^ k else 0)).sum.testBit k = (decide (k < n) && p k)
      ∧ ((List.range n).map (fun k => if p k then 2 ^ k else 0)).sum < 2 ^ n := by
  induction n with
  | zero => simp
  | succ n ih =>
    obtain ⟨hbit, hlt⟩ := ih
    have hsum : ((List.range (n + 1)).map (fun k => if p k then 2 ^ k else 0)).sum
        = 2 ^ n * (p n).toNat + ((List.range n).map (fun k => if p k then 2 ^ k else 0)).sum := by
      rw [List.range_succ, List.map_append, List.sum_append, Nat.add_comm]
      cases hp : p n <;> simp [hp]
    rw [hsum, Nat.testBit_two_pow_mul_add _ hlt, hbit, Nat.pow_succ]
    constructor
    · rcases lt_trichotomy k n with h | rfl | h
      · simp [h, h.trans (Nat.lt_succ_self n)]
      · cases p k <;> simp
      · have hnot : ¬ k < n + 1 := by omega
        have hpos : k - n ≠ 0 := by omega
        simp only [if_neg h.not_gt, hnot, decide_false, Bool.false_and]
        exact Nat.testBit_lt_two_pow ((Bool.toNat_lt _).trans_le (Nat.le_self_pow hpos 2))
    · have hp := Bool.toNat_le (p n)
      have hmul := Nat.mul_le_mul_left (2 ^ n) hp
      omega

/-- QUILLST's word: the busy slots in bits 7:0, those with an error in bits 15:8 (R111). -/
theorem quillstValue_bits (b : Bead) {n : Nat} (h : n < 8) :
    (quillstValue b).getLsbD n = (quillSlotOf b n).busy ∧ (quillstValue b).getLsbD (8 + n) = (quillSlotOf b n).qerr := by
  obtain ⟨hbusy, hlt⟩ := testBit_sum (fun k => (quillSlotOf b k).busy) 8 n
  obtain ⟨herr, -⟩ := testBit_sum (fun k => (quillSlotOf b k).qerr) 8 n
  have hword : quillstValue b = BitVec.ofNat 64
      (2 ^ 8 * ((List.range 8).map (fun k => if (quillSlotOf b k).qerr then 2 ^ k else 0)).sum
        + ((List.range 8).map (fun k => if (quillSlotOf b k).busy then 2 ^ k else 0)).sum) := by
    rw [Nat.add_comm]
    rfl
  have hn : n < 64 := by omega
  have hn' : 8 + n < 64 := by omega
  have hhigh : ¬ 8 + n < 8 := by omega
  constructor
  · rw [hword, BitVec.getLsbD_ofNat, Nat.testBit_two_pow_mul_add _ hlt, if_pos h, hbusy]
    simp [hn, h]
  · rw [hword, BitVec.getLsbD_ofNat, Nat.testBit_two_pow_mul_add _ hlt, if_neg hhigh, Nat.add_sub_cancel_left, herr]
    simp [hn', h]

/-- Settles O20: QUILL's checks pass and its descriptor takes the slot as the line retires; QUILLST's word is a sum of
bits. -/
theorem quillGlyphs : Obligations.QuillGlyphs := by
  intro s hr o g k i b x a d slot
  refine ⟨fun q hl hk hfree hbusy hroom hapart => ?quill, fun q => ?quillst⟩
  case quill =>
    have hslot : freeQuill b = some k := freeQuill_lowest hk hfree hbusy
    have heval := evalQuill_ok (d := d) hl rfl hslot hroom hapart
    have hhand : (⟨hr.hand.val % 4, Nat.mod_lt _ (by decide)⟩ : Fin 4) = hr.hand :=
      Fin.ext (Nat.mod_eq_of_lt hr.hand.isLt)
    refine next_writes q heval rfl rfl rfl rfl (roomStop_quill _ hroom) _ ?_
    change actQuill (landEff s hr none (retire s hr id) (.acc (BitVec.ofNat 64 k))) i hr.hand.val x d = _
    rw [retire, landEff_acc, actQuill]
    refine modBead_retireTo_congr (fun t _ _ ht => ?_)
    have hslot' : freeQuill t = some k := by
      rw [← hslot, freeQuill, ht]
      rfl
    have hold : (mapGet (fun _ => {}) t.quills k : QuillSlot) = slot k := by
      rw [ht]
    simp only [hslot', hhand, hold]
  case quillst =>
    refine ⟨quillstValue b, next_plain q rfl rfl rfl rfl rfl rfl ?_, fun n hn => quillstValue_bits b hn⟩
    rw [List.foldl_cons, List.foldl_cons, List.foldl_nil, landEff_acc]
    rfl

/-! Device addresses: their checks and translation (R99, R100, R314). -/

/-- A check that raises where it fails has passed. -/
theorem passed_of_ok {α : Type} {p : Prop} [Decidable p] {cause va : Nat} {b : Ev α} {k : α}
    (h : (if p then raiseDev cause va else b) = .ok k) : b = .ok k := by
  split at h
  · cases h
  · exact h

/-- What an access reaches that its Slate does not refuse (R5, R21). -/
theorem reached_of_ok {o : Option Nat} {f : Nat → GFault} {k k' : DevTarget}
    (h : (match o with | some c => .error (.fault (f c)) | none => .ok k : Ev DevTarget) = .ok k') : k = k' := by
  split at h
  · cases h
  · exact Except.ok.inj h

/-- A device-address access that passes its checks lies in tally space and reaches a tally word, or reaches memory through
its translation (R100, R264, R314). -/
theorem checkDev_ok {e : Env} {va : W64} {n al : Nat} {write atomic : Bool} {k : DevTarget}
    (h : checkDev e va n al write atomic = .ok k) : va.toNat < 2 ^ 48
      ∧ ((inTallySpace (va.toNat % 2 ^ 48) = true ∧ ∃ t q up, k = .tally t q up)
        ∨ (inTallySpace (va.toNat % 2 ^ 48) = false
          ∧ ∃ x, k = .mem x ∧ translate e.s (beadCtx (envBead e)) (va.toNat % 2 ^ 48) write = some x)) := by
  unfold checkDev at h
  extract_lets a v ctx refuse at h
  split at h
  · cases h
  next hlow =>
    refine ⟨Nat.not_le.1 hlow, ?_⟩
    split at h
    next hspace =>
      refine .inl ⟨hspace, ?_⟩
      have hword := passed_of_ok h
      split at hword
      · exact ⟨_, _, _, (reached_of_ok hword).symm⟩
      · split at hword
        · exact ⟨_, _, _, (reached_of_ok hword).symm⟩
        · cases hword
    next hspace =>
      refine .inr ⟨Bool.eq_false_iff.2 hspace, ?_⟩
      split at h
      · cases h
      next x hx =>
        refine ⟨x, ?_, hx⟩
        have hhome := passed_of_ok (passed_of_ok (passed_of_ok h))
        cases hr : refuse ((regionSlate (regionOf x.pa)).getD 0) (.mem x) with
        | error stop =>
          rw [hr] at hhome
          cases hhome
        | ok k' =>
          rw [hr, ← reached_of_ok hr] at hhome
          change (match regionOf x.pa with
            | .folio j off => if folioRefuses e.s j off n then raiseDev 0x05 v else .ok (.mem x)
            | _ => .ok (.mem x)) = Except.ok k at hhome
          split at hhome
          · exact (Except.ok.inj (passed_of_ok hhome)).symm
          · exact (Except.ok.inj hhome).symm

theorem checkDev_mem {e : Env} {va : W64} {n al : Nat} {write atomic : Bool} {x : Xlat}
    (h : checkDev e va n al write atomic = .ok (.mem x)) : va.toNat < 2 ^ 48 ∧ inTallySpace (va.toNat % 2 ^ 48) = false
      ∧ translate e.s (beadCtx (envBead e)) (va.toNat % 2 ^ 48) write = some x := by
  obtain ⟨hlow, ⟨-, t, q, up, hk⟩ | ⟨hspace, y, hk, hx⟩⟩ := checkDev_ok h
  · cases hk
  · cases hk
    exact ⟨hlow, hspace, hx⟩

theorem checkDev_tally {e : Env} {va : W64} {n al : Nat} {write atomic : Bool} {t q : Nat} {up : Bool}
    (h : checkDev e va n al write atomic = .ok (.tally t q up)) :
    va.toNat < 2 ^ 48 ∧ inTallySpace (va.toNat % 2 ^ 48) = true := by
  obtain ⟨hlow, ⟨hspace, -⟩ | ⟨-, y, hk, -⟩⟩ := checkDev_ok h
  · exact ⟨hlow, hspace⟩
  · cases hk

/-- A translation does not read what a bead with the same registers has otherwise (R314). -/
theorem translate_putBead {s : State} {i : Nat} {b : Bead} (h : b.regs = (getBead s i).regs) (c : Option Nat) (va : Nat)
    (w : Bool) : translate (putBead s i b) c va w = translate s c va w := by
  have hctx (j : Nat) : beadCtx (getBead (putBead s i b) j) = beadCtx (getBead s j) := by
    by_cases hj : j = i
    · rw [hj, getBead_putBead_same, beadCtx, h, ← beadCtx]
    · rw [getBead_putBead_ne s i j b hj]
  have hpages : getCtx (putBead s i b) = getCtx s := rfl
  have hbrush : getBrush (putBead s i b) = getBrush s := rfl
  unfold translate
  simp only [hctx, hpages, hbrush]

/-! A lookup of the blotter (R148, R167). -/

theorem mapFind_mapDrop_same {α : Type} (m : SMap α) (i : Nat) : mapFind (mapDrop m i) i = none := by
  induction m with
  | nil => rfl
  | cons p m ih =>
    obtain ⟨k, v⟩ := p
    by_cases hk : k = i
    · rw [mapDrop, List.filter_cons_of_neg (by simp [hk]), ← mapDrop, ih]
    · rw [mapDrop, List.filter_cons_of_pos (by simp [hk]), ← mapDrop, mapFind, if_neg hk, ih]

theorem mapFind_mapDrop_ne {α : Type} (m : SMap α) {i j : Nat} (h : j ≠ i) : mapFind (mapDrop m i) j = mapFind m j := by
  induction m with
  | nil => rfl
  | cons p m ih =>
    obtain ⟨k, v⟩ := p
    by_cases hk : k = i
    · rw [mapDrop, List.filter_cons_of_neg (by simp [hk]), ← mapDrop, ih, mapFind, if_neg (by omega)]
    · rw [mapDrop, List.filter_cons_of_pos (by simp [hk]), ← mapDrop, mapFind, mapFind, ih]

theorem wayAt_dropWay_same (b : Bead) (k : Nat) : wayAt (dropWay b k) k = {} := by
  simp [wayAt, dropWay, mapGet, mapFind_mapDrop_same]

theorem wayAt_dropWay_ne (b : Bead) {k j : Nat} (h : j ≠ k) : wayAt (dropWay b k) j = wayAt b j := by
  simp [wayAt, dropWay, mapGet, mapFind_mapDrop_ne _ h]

/-- Whether a way's tag has a parity error (R167). -/
def tagFails (w : BlotWay) : Bool := w.valid && w.tagBad

/-- A bead whose ways are as before, but that some with a parity error in their tag have been invalidated (R167). -/
def Scrubbed (b b' : Bead) : Prop :=
  b'.blot.size = b.blot.size ∧ ∀ k, wayAt b' k = wayAt b k ∨ (tagFails (wayAt b k) = true ∧ wayAt b' k = {})

/-- One way of a set scrubbed. -/
def scrubWay (b : Bead) (k : Nat) : Bead := if tagFails (wayAt b k) then countPerr (dropWay b k) else b

theorem scrubTags_eq (b : Bead) (line : Nat) : scrubTags b line
    = if b.blot.size = 0 then b else (List.range 4).foldl (fun c w => scrubWay c (setBase c line + w)) b := rfl

theorem scrubWay_scrubbed {b c : Bead} (h : Scrubbed b c) (k : Nat) : Scrubbed b (scrubWay c k) := by
  obtain ⟨hsize, hways⟩ := h
  unfold scrubWay
  split
  next hbad =>
    refine ⟨hsize, fun j => ?_⟩
    change wayAt (dropWay c k) j = _ ∨ _ ∧ wayAt (dropWay c k) j = _
    by_cases hj : j = k
    · subst hj
      rw [wayAt_dropWay_same]
      rcases hways j with hsame | ⟨hfails, -⟩
      · exact .inr ⟨hsame ▸ hbad, rfl⟩
      · exact .inr ⟨hfails, rfl⟩
    · rw [wayAt_dropWay_ne c hj]
      exact hways j
  · exact ⟨hsize, hways⟩

theorem scrubbed_scrubTags (b : Bead) (line : Nat) : Scrubbed b (scrubTags b line) := by
  have hrefl : Scrubbed b b := ⟨rfl, fun _ => .inl rfl⟩
  rw [scrubTags_eq]
  split
  · exact hrefl
  · exact List.foldlRecOn _ _ hrefl (fun c hc w _ => scrubWay_scrubbed hc _)

/-- Whether a way holds a line (R148, R167). -/
def holdsLine (w : BlotWay) (line : Nat) : Bool := w.valid && !w.tagBad && w.line == line

theorem blotFind_eq (b : Bead) (line : Nat) : blotFind b line = if b.blot.size = 0 then none
    else (List.range 4).findSome? (fun w =>
      if holdsLine (wayAt b (setBase b line + w)) line then some (setBase b line + w) else none) := rfl

theorem holdsLine_fails {w : BlotWay} (line : Nat) (h : tagFails w = true) : holdsLine w line = false := by
  obtain ⟨hvalid, hbad⟩ := Bool.and_eq_true_iff.1 h
  rw [holdsLine, hvalid, hbad]
  rfl

/-- A scrub takes no line from the blotter that a lookup would find. -/
theorem Scrubbed.blotFind {b b' : Bead} (h : Scrubbed b b') (line : Nat) : blotFind b' line = blotFind b line := by
  obtain ⟨hsize, hways⟩ := h
  have hbase : setBase b' line = setBase b line := by rw [setBase, blotSets, hsize]; rfl
  have hholds (k : Nat) : holdsLine (wayAt b' k) line = holdsLine (wayAt b k) line := by
    rcases hways k with hsame | ⟨hfails, hgone⟩
    · rw [hsame]
    · rw [hgone, holdsLine_fails line hfails]
      rfl
  rw [blotFind_eq, blotFind_eq, hsize, hbase]
  simp only [hholds]

/-- The way that a lookup finds keeps its data through a scrub. -/
theorem Scrubbed.wayAt {b b' : Bead} (h : Scrubbed b b') {line k : Nat} (hk : Machine.blotFind b line = some k) :
    wayAt b' k = wayAt b k := by
  refine (h.2 k).resolve_right (fun hgone => ?_)
  rw [blotFind_eq] at hk
  split at hk
  · cases hk
  · obtain ⟨w, -, hw⟩ := List.exists_of_findSome?_eq_some hk
    split at hw
    next hholds =>
      cases hw
      rw [holdsLine_fails line hgone.1] at hholds
      cases hholds
    · cases hw

theorem scrubWay_withCore (b : Bead) (c : BeadCore) (k : Nat) :
    scrubWay { b with core := c } k = { scrubWay b k with core := c } := by
  have hway : Machine.wayAt { b with core := c } k = Machine.wayAt b k := rfl
  unfold scrubWay
  rw [hway]
  split
  · rfl
  · rfl

theorem scrubWays_withCore (line : Nat) (l : List Nat) (b : Bead) (c : BeadCore) :
    l.foldl (fun d w => scrubWay d (setBase d line + w)) { b with core := c }
      = { l.foldl (fun d w => scrubWay d (setBase d line + w)) b with core := c } := by
  induction l generalizing b with
  | nil => rfl
  | cons w l ih =>
    have hbase : setBase { b with core := c } line = setBase b line := rfl
    rw [List.foldl_cons, List.foldl_cons, hbase, scrubWay_withCore, ih]

/-- A scrub neither reads nor changes its bead's core. -/
theorem sparesCore_scrubTags (line : Nat) : SparesCore (fun b => scrubTags b line) := by
  intro b c
  dsimp only
  rw [scrubTags_eq, scrubTags_eq, scrubWays_withCore]
  by_cases h : b.blot.size = 0
  · rw [if_pos h, if_pos h]
  · rw [if_neg h, if_neg h]

/-! Loads from device addresses (R142, R147, R149, R151, R155, R167). -/

theorem blotFind_congr {b b' : Bead} (h : b'.blot = b.blot) (line : Nat) : blotFind b' line = blotFind b line :=
  Scrubbed.blotFind ⟨by rw [h], fun k => .inl (by rw [wayAt, h, ← wayAt])⟩ line

/-- A bead's accesses reach, and find in its blotter, the same in the two states. -/
structure SeesAlike (s t : State) (i : Nat) : Prop where
  regs : (getBead t i).regs = (getBead s i).regs
  blot : (getBead t i).blot = (getBead s i).blot
  reach : ∀ c va w, translate t c va w = translate s c va w

theorem seesAlike_putBead {s : State} {i : Nat} {b : Bead} (hregs : b.regs = (getBead s i).regs)
    (hblot : b.blot = (getBead s i).blot) : SeesAlike s (putBead s i b) i where
  regs := by rw [getBead_putBead_same, hregs]
  blot := by rw [getBead_putBead_same, hblot]
  reach := translate_putBead hregs

theorem seesAlike_retireTo (s : State) (hr : HandRef) (j : Option (W32 × Bool)) (f : Hand → Hand) :
    SeesAlike s (retireTo s hr j f) (beadNo hr.br) := seesAlike_putBead rfl rfl

theorem seesAlike_pointTo (s : State) (i h : Nat) : SeesAlike s (pointTo s i h) i := seesAlike_putBead rfl rfl

theorem SeesAlike.ctx {s t : State} {i : Nat} (h : SeesAlike s t i) : beadCtx (getBead t i) = beadCtx (getBead s i) := by
  rw [beadCtx, h.regs, ← beadCtx]

theorem SeesAlike.looks {s t : State} {i : Nat} (h : SeesAlike s t i) (x : Xlat) :
    looksUp (getBead t i) x = looksUp (getBead s i) x := by rw [looksUp, h.blot, ← looksUp]

theorem SeesAlike.ways {s t : State} {i : Nat} (h : SeesAlike s t i) (k : Nat) :
    wayAt (getBead t i) k = wayAt (getBead s i) k := by rw [wayAt, h.blot, ← wayAt]

/-- The address of ACC-indirect mode as a translation takes it (R99). -/
def devVa (s : State) (hr : HandRef) (o : BitVec 22) : Nat := (devAt s hr o).toNat % 2 ^ 48

/-- The request side of a load that is alone on its line, in a state that the line has led to. -/
def loadAct (s t : State) (hr : HandRef) (slot : Nat) (o : BitVec 22) (n : Nat) (dest : LoadDest) : State :=
  actDevLoad t (beadNo hr.br) hr.hand.val (handAt s hr).pc 1 slot o (handAt s hr).acc n dest false

/-- A bead whose lookup of a line has scrubbed the tags of its set (R167). -/
def scrubbedAt (t : State) (i : Nat) (x : Xlat) : State := modBead t i (fun b => scrubTags b (x.pa / 64))

section Accesses
variable {s t : State} {hr : HandRef} {o : BitVec 22} {x : Xlat} {slot n : Nat} {dest : LoadDest}

theorem loadAct_tally (hspace : inTallySpace (devVa s hr o) = true) : loadAct s t hr slot o n dest
    = requested s t hr slot (devVa s hr o) ⟨devVa s hr o, none, false⟩ (.load n dest) := by
  rw [loadAct, actDevLoad]
  exact if_pos hspace

/-- What an access reaches is the same in both states. -/
theorem SeesAlike.reaches (hsee : SeesAlike s t (beadNo hr.br)) {w : Bool}
    (hx : translate s (beadCtx (beadOf s hr)) (devVa s hr o) w = some x) :
    translate t (beadCtx (getBead t (beadNo hr.br))) (devVa s hr o) w = some x := by
  rw [hsee.ctx, hsee.reach]
  exact hx

/-- What an access finds in the scrubbed set is what it found before. -/
theorem SeesAlike.finds (hsee : SeesAlike s t (beadNo hr.br)) {k : Nat} (hfind : blotFind (beadOf s hr) (x.pa / 64) = some k) :
    blotFind (scrubTags (getBead t (beadNo hr.br)) (x.pa / 64)) (x.pa / 64) = some k
      ∧ wayAt (scrubTags (getBead t (beadNo hr.br)) (x.pa / 64)) k = wayAt (beadOf s hr) k := by
  have hfind' : blotFind (getBead t (beadNo hr.br)) (x.pa / 64) = some k := (blotFind_congr hsee.blot _).trans hfind
  exact ⟨((scrubbed_scrubTags _ _).blotFind _).trans hfind', ((scrubbed_scrubTags _ _).wayAt hfind').trans (hsee.ways k)⟩

variable (hsee : SeesAlike s t (beadNo hr.br)) (hspace : inTallySpace (devVa s hr o) = false)
  (hx : translate s (beadCtx (beadOf s hr)) (devVa s hr o) false = some x)
include hsee hspace hx

/-- An access that looks nothing up puts its request in flight, its line's merging-buffer entries draining (R147, R155). -/
theorem loadAct_out (hlook : looksUp (beadOf s hr) x = false) : loadAct s t hr slot o n dest
    = requested s (modBead t (beadNo hr.br) (fun b => startDrain b (x.pa / 64))) hr slot (devVa s hr o) x (.load n dest) := by
  have hspace' : inTallySpace ((devEa (handAt s hr).acc o).toNat % 2 ^ 48) = false := hspace
  have hreach := hsee.reaches hx
  have hlook' : looksUp (getBead t (beadNo hr.br)) x = false := (hsee.looks x).trans hlook
  rw [devVa, devAt] at hreach
  simp only [loadAct, actDevLoad, hspace', hreach, hlook', Bool.false_eq_true, if_false]
  rfl

variable (hlook : looksUp (beadOf s hr) x = true)
include hlook

/-- A miss takes a fill entry (R151). -/
theorem loadAct_miss (hfind : blotFind (beadOf s hr) (x.pa / 64) = none) : loadAct s t hr slot o n dest
    = requested s (demandMiss (scrubbedAt t (beadNo hr.br) x) (beadNo hr.br) (devVa s hr o) x true) hr slot
        (devVa s hr o) x (.load n dest) := by
  have hspace' : inTallySpace ((devEa (handAt s hr).acc o).toNat % 2 ^ 48) = false := hspace
  have hreach := hsee.reaches hx
  have hlook' : looksUp (getBead t (beadNo hr.br)) x = true := (hsee.looks x).trans hlook
  have hfind' : blotFind (scrubTags (getBead t (beadNo hr.br)) (x.pa / 64)) (x.pa / 64) = none :=
    ((scrubbed_scrubTags _ _).blotFind _).trans ((blotFind_congr hsee.blot _).trans hfind)
  rw [devVa, devAt] at hreach
  simp only [loadAct, actDevLoad, hspace', hreach, hlook', Bool.false_eq_true, if_false, if_true, getBead_modBead_same, hfind']
  rfl

section Present
variable {k : Nat} (hfind : blotFind (beadOf s hr) (x.pa / 64) = some k)
include hfind

/-- A hit touches its way (R149). -/
theorem loadAct_hit (hgood : wayBad (wayAt (beadOf s hr) k) (x.pa % 64) n = false) : loadAct s t hr slot o n dest
    = modBead (scrubbedAt t (beadNo hr.br) x) (beadNo hr.br) (fun b => touchWay b k) := by
  have hspace' : inTallySpace ((devEa (handAt s hr).acc o).toNat % 2 ^ 48) = false := hspace
  have hreach := hsee.reaches hx
  have hlook' : looksUp (getBead t (beadNo hr.br)) x = true := (hsee.looks x).trans hlook
  obtain ⟨hfind', hway⟩ := hsee.finds hfind
  rw [devVa, devAt] at hreach
  simp only [loadAct, actDevLoad, hspace', hreach, hlook', Bool.false_eq_true, if_false, if_true, getBead_modBead_same, hfind',
    hway, hgood]
  rfl

/-- A hit on a line with a parity error drops it and fetches it again (R167). -/
theorem loadAct_dropped (hbad : wayBad (wayAt (beadOf s hr) k) (x.pa % 64) n = true) : loadAct s t hr slot o n dest
    = requested s (demandMiss (modBead (scrubbedAt t (beadNo hr.br) x) (beadNo hr.br) (fun b => countPerr (dropWay b k)))
        (beadNo hr.br) (devVa s hr o) x true) hr slot (devVa s hr o) x (.load n dest) := by
  have hspace' : inTallySpace ((devEa (handAt s hr).acc o).toNat % 2 ^ 48) = false := hspace
  have hreach := hsee.reaches hx
  have hlook' : looksUp (getBead t (beadNo hr.br)) x = true := (hsee.looks x).trans hlook
  obtain ⟨hfind', hway⟩ := hsee.finds hfind
  rw [devVa, devAt] at hreach
  simp only [loadAct, actDevLoad, hspace', hreach, hlook', Bool.false_eq_true, if_false, if_true, getBead_modBead_same, hfind',
    hway, hbad]
  rfl

end Present

end Accesses

/-! What a load from a device address finds at hand (R147, R148, R151). -/

section Finds
variable {s : State} {hr : HandRef} {o : BitVec 22} {n : Nat} {x : Xlat}

theorem devLoad_tally {t q : Nat} {up : Bool} (hopen : devHeld (aloneEnv s hr false) = false)
    (hc : checkDev (aloneEnv s hr false) (devAt s hr o) n n false false = .ok (.tally t q up)) :
    devLoad (aloneEnv s hr false) o n = .ok none := by
  have hc' : checkDev (aloneEnv s hr false) (devEa (aloneEnv s hr false).x.acc o) n n false false = .ok (.tally t q up) := hc
  rw [devLoad, hc']
  simp only [Bind.bind, Except.bind, hopen]
  rfl

variable (h : DevFits s hr o n false false x)
include h

theorem devLoad_checked : checkDev (aloneEnv s hr false) (devEa (aloneEnv s hr false).x.acc o) n n false false = .ok (.mem x) :=
  h.checked

theorem devLoad_out (hlook : looksUp (beadOf s hr) x = false) : devLoad (aloneEnv s hr false) o n = .ok none := by
  have hlook' : looksUp (envBead (aloneEnv s hr false)) x = false := hlook
  simp [devLoad, devLoad_checked h, Bind.bind, Except.bind, h.open_, hlook']

variable (hlook : looksUp (beadOf s hr) x = true)
include hlook

theorem devLoad_miss (hfind : blotFind (beadOf s hr) (x.pa / 64) = none) (hroom : fillRoom (beadOf s hr) (x.pa / 64) = true) :
    devLoad (aloneEnv s hr false) o n = .ok none := by
  have hlook' : looksUp (envBead (aloneEnv s hr false)) x = true := hlook
  have hfind' : blotFind (envBead (aloneEnv s hr false)) (x.pa / 64) = none := hfind
  have hroom' : fillRoom (envBead (aloneEnv s hr false)) (x.pa / 64) = true := hroom
  simp [devLoad, devLoad_checked h, Bind.bind, Except.bind, h.open_, hlook', hfind', hroom']

section Present
variable {k : Nat} (hfind : blotFind (beadOf s hr) (x.pa / 64) = some k)
include hfind

theorem devLoad_hit (hgood : wayBad (wayAt (beadOf s hr) k) (x.pa % 64) n = false) :
    devLoad (aloneEnv s hr false) o n = .ok (some (((wayAt (beadOf s hr) k).data.drop (x.pa % 64)).take n)) := by
  have hlook' : looksUp (envBead (aloneEnv s hr false)) x = true := hlook
  have hfind' : blotFind (envBead (aloneEnv s hr false)) (x.pa / 64) = some k := hfind
  have hgood' : wayBad (wayAt (envBead (aloneEnv s hr false)) k) (x.pa % 64) n = false := hgood
  simp only [devLoad, devLoad_checked h, Bind.bind, Except.bind, h.open_, hlook', hfind', hgood', Bool.false_eq_true, if_false,
    if_true]
  rfl

theorem devLoad_dropped (hbad : wayBad (wayAt (beadOf s hr) k) (x.pa % 64) n = true)
    (hroom : fillRoom (beadOf s hr) (x.pa / 64) = true) : devLoad (aloneEnv s hr false) o n = .ok none := by
  have hlook' : looksUp (envBead (aloneEnv s hr false)) x = true := hlook
  have hfind' : blotFind (envBead (aloneEnv s hr false)) (x.pa / 64) = some k := hfind
  have hbad' : wayBad (wayAt (envBead (aloneEnv s hr false)) k) (x.pa % 64) n = true := hbad
  have hroom' : fillRoom (envBead (aloneEnv s hr false)) (x.pa / 64) = true := hroom
  simp [devLoad, devLoad_checked h, Bind.bind, Except.bind, h.open_, hlook', hfind', hbad', hroom']

end Present

end Finds

/-! The glyphs that load from device addresses, and their line (R95, R106, R107, R151). -/

theorem modBead_modBead (s : State) (i : Nat) (f g : Bead → Bead) :
    modBead (modBead s i f) i g = modBead s i (fun b => g (f b)) := by
  simp only [modBead, getBead_putBead_same, putBead_putBead_same]

theorem SparesCore.comp {f g : Bead → Bead} (hf : SparesCore f) (hg : SparesCore g) : SparesCore (fun b => g (f b)) :=
  fun b c => (congrArg g (hf b c)).trans (hg (f b) c)

theorem sparesCore_touchWay (k : Nat) : SparesCore (fun b => touchWay b k) := fun _ _ => rfl

/-- The glyphs that may load from a device address, performed as `actDevLoad` says. -/
structure DevLoadGlyph (hr : HandRef) (o : BitVec 22) (c : Instr) (slot n : Nat) (dest : LoadDest) : Prop where
  runs : ∀ s, exec c s = .next (issue hr true c s)
  stays : hasLexit [c] = false
  draws : drawsFree c = false
  exits : ∀ acc x0 x1, effLexit [.act c acc x0 x1] = false
  operand : ∃ g, glyphOf c = some g ∧ g.opd = o
  loads : opdMode o = 5 → isDevLoad c = true
  order : ∀ acc x0 x1, isLocalAtomic (.act c acc x0 x1) = false
  performs : ∀ old s i h pc len succ x out acc x0 x1,
    performAct old s i h pc len succ x out c acc x0 x1 = actDevLoad s i h pc len slot o acc n dest out

/-- The write of one register of a hand. -/
structure RegWrite (f : Eff) (g : Hand → Hand) : Prop where
  lands : ∀ old i h pc len succ x out s, applyEff old i h pc len succ x out s f = modHand s i h g
  plain : effPlain f = true
  stays : effLexit [f] = false
  keeps : lostOf [f] = none
  falls : jumpOf [f] = none

theorem regWrite_acc (v : W64) : RegWrite (.acc v) (fun y => { y with acc := v }) :=
  ⟨fun _ _ _ _ _ _ _ _ _ => rfl, rfl, rfl, rfl, rfl⟩

theorem regWrite_fp (v : W32) : RegWrite (.fp v) (fun y => { y with fp := v }) :=
  ⟨fun _ _ _ _ _ _ _ _ _ => rfl, rfl, rfl, rfl, rfl⟩

theorem regWrite_xr (r : XReg) (v : W32) : RegWrite (.xr r v) (fun y => setX y r v) := by
  cases r
  all_goals exact ⟨fun _ _ _ _ _ _ _ _ _ => rfl, rfl, rfl, rfl, rfl⟩

/-- A load of R106 or R107: its data goes to a register through `put`. -/
structure RegLoadGlyph (hr : HandRef) (o : BitVec 22) (c : Instr) (slot n : Nat) (dest : LoadDest) (put : List W8 → Eff) : Prop
    extends DevLoadGlyph hr o c slot n dest where
  evals : ∀ e, opdMode o = 5 → evalGlyph e c = evalLoad e c o n put
  puts : ∀ bs, RegWrite (put bs) (loaded dest bs)

theorem evalLd_dev (e : Env) (c : Instr) {o : BitVec 22} (n : Nat) (signed : Bool) (h : opdMode o = 5) :
    evalLd e c o n signed = evalLoad e c o n (fun bs => .acc (extend signed bs)) := if_neg (by omega)

theorem regLoadGlyph_memLoads {hr : HandRef} {r : XReg} {o : BitVec 22} {p : Instr × Nat × Nat × LoadDest}
    (hp : p ∈ memLoads hr r o) : ∃ put, RegLoadGlyph hr o p.1 p.2.1 p.2.2.1 p.2.2.2 put := by
  have hmode {b : Bool} (hb : b = true) (h : opdMode o = 5) : (opdMode o == 5 && b) = true := by rw [hb, h]; rfl
  simp only [memLoads, List.mem_cons, List.not_mem_nil, or_false] at hp
  rcases hp with rfl | rfl | rfl | rfl | rfl | rfl | rfl | rfl | rfl
  on_goal 8 =>
    exact ⟨_, ⟨fun _ => rfl, rfl, rfl, fun _ _ _ => rfl, ⟨_, rfl, rfl⟩, hmode (by cases r <;> rfl), fun _ _ _ => rfl,
      fun _ _ _ _ _ _ _ _ _ _ _ _ => rfl⟩, fun _ _ => rfl, fun _ => regWrite_xr r _⟩
  on_goal 8 =>
    exact ⟨_, ⟨fun _ => rfl, rfl, rfl, fun _ _ _ => rfl, ⟨_, rfl, rfl⟩, hmode rfl, fun _ _ _ => rfl,
      fun _ _ _ _ _ _ _ _ _ _ _ _ => rfl⟩, fun _ _ => rfl, fun _ => regWrite_fp _⟩
  all_goals
    exact ⟨_, ⟨fun _ => rfl, rfl, rfl, fun _ _ _ => rfl, ⟨_, rfl, rfl⟩, hmode rfl, fun _ _ _ => rfl,
      fun _ _ _ _ _ _ _ _ _ _ _ _ => rfl⟩, fun e h => evalLd_dev e _ _ _ h, fun _ => regWrite_acc _⟩

theorem devLoadGlyph_aluGlyph (op : AluOp) (hr : HandRef) (o : BitVec 22) :
    DevLoadGlyph hr o (aluGlyph op hr true o) 1 8 (.alu op) := by
  have hmode {b : Bool} (hb : b = true) (h : opdMode o = 5) : (opdMode o == 5 && b) = true := by rw [hb, h]; rfl
  cases op
  all_goals
    exact ⟨fun _ => rfl, rfl, rfl, fun _ _ _ => rfl, ⟨_, rfl, rfl⟩, hmode rfl, fun _ _ _ => rfl,
      fun _ _ _ _ _ _ _ _ _ _ _ _ => rfl⟩

section Room
variable {s : State} {hr : HandRef} {o : BitVec 22} {c : Instr} {slot n : Nat} {dest : LoadDest}

/-- What a device-address load takes of the fill entries: at most one, for a line that is absent (R151). -/
theorem effNeeds_load (d : DevLoadGlyph hr o c slot n dest) (hm : opdMode o = 5) (acc : W64) (x0 x1 : W32)
    (hroom : ∀ x, effLine s (beadNo hr.br) c acc false = some x → looksUp (beadOf s hr) x = true →
      blotFind (beadOf s hr) (x.pa / 64) = none → fillRoom (beadOf s hr) (x.pa / 64) = true) :
    effNeeds s (beadNo hr.br) {} (.act c acc x0 x1) = {}
      ∨ ∃ line, effNeeds s (beadNo hr.br) {} (.act c acc x0 x1) = { misses := [line] }
        ∧ (beadOf s hr).blot.fills.length < 8 := by
  simp only [effNeeds, d.loads hm, if_true]
  split
  next x hx =>
    split
    next hmiss =>
      simp only [Bool.and_eq_true] at hmiss
      obtain ⟨⟨hlook, hfind⟩, hnew⟩ := hmiss
      have hentry := hroom x hx hlook (Option.isNone_iff_eq_none.1 hfind)
      have hnew' : (beadOf s hr).blot.fills.any (fun f => f.line == x.pa / 64) = false :=
        Bool.not_inj hnew
      rw [fillRoom, hnew', Bool.or_false] at hentry
      exact .inr ⟨_, rfl, of_decide_eq_true hentry⟩
    · exact .inl rfl
  · exact .inl rfl

/-- A device-address load alone on its line finds the fill entry that it needs (R151). -/
theorem roomStop_load {l : List Eff} (d : DevLoadGlyph hr o c slot n dest) (hm : opdMode o = 5) (acc : W64) (x0 x1 : W32)
    (hl : l.all effPlain = true)
    (hroom : ∀ x, effLine s (beadNo hr.br) c acc false = some x → looksUp (beadOf s hr) x = true →
      blotFind (beadOf s hr) (x.pa / 64) = none → fillRoom (beadOf s hr) (x.pa / 64) = true) :
    roomStop s (beadNo hr.br) (.act c acc x0 x1 :: l) = none := by
  have hneeds : (Eff.act c acc x0 x1 :: l).foldl (effNeeds s (beadNo hr.br)) {}
      = effNeeds s (beadNo hr.br) {} (.act c acc x0 x1) := by rw [List.foldl_cons, needs_plain hl]
  rcases effNeeds_load d hm acc x0 x1 hroom with hnone | ⟨line, hone, hfills⟩
  · exact roomStop_none (hneeds.trans hnone)
  · have hfew : ¬ 8 < 1 + (getBead s (beadNo hr.br)).blot.fills.length := by
      have hfills' : (getBead s (beadNo hr.br)).blot.fills.length < 8 := hfills
      omega
    simp [roomStop, hneeds, hone, hfew]

/-- The line that a device-address load reaches in memory. -/
theorem effLine_mem (d : DevLoadGlyph hr o c slot n dest) {x y : Xlat} (h : DevFits s hr o n false false x)
    (hy : effLine s (beadNo hr.br) c (handAt s hr).acc false = some y) : y = x := by
  obtain ⟨g, hg, rfl⟩ := d.operand
  obtain ⟨hlow, hspace, hx⟩ := checkDev_mem h.checked
  rw [Nat.mod_eq_of_lt hlow] at hspace hx
  have hspace' : inTallySpace (devEa (handAt s hr).acc g.opd).toNat = false := hspace
  have hlow' : ¬ 2 ^ 48 ≤ (devEa (handAt s hr).acc g.opd).toNat := Nat.not_le.2 hlow
  have hx' : translate s (beadCtx (getBead s (beadNo hr.br))) (devEa (handAt s hr).acc g.opd).toNat false = some x := hx
  simp only [effLine, hg, hspace', ge_iff_le, hlow', decide_false, Bool.or_false, Bool.false_eq_true, if_false, hx'] at hy
  exact (Option.some.inj (Option.eq_some_of_filter_eq_some hy)).symm

/-- A load from tally space reaches no line of memory. -/
theorem effLine_tally (d : DevLoadGlyph hr o c slot n dest) {t q : Nat} {up : Bool}
    (h : checkDev (aloneEnv s hr false) (devAt s hr o) n n false false = .ok (.tally t q up)) :
    effLine s (beadNo hr.br) c (handAt s hr).acc false = none := by
  obtain ⟨g, hg, rfl⟩ := d.operand
  obtain ⟨hlow, hspace⟩ := checkDev_tally h
  rw [Nat.mod_eq_of_lt hlow] at hspace
  have hspace' : inTallySpace (devEa (handAt s hr).acc g.opd).toNat = true := hspace
  simp only [effLine, hg, hspace', Bool.or_true, if_true]

end Room

/-! A load from a device address alone on its line: it retires as its request goes out, or with the blotter's data. -/

section Loads
variable {s : State} {hr : HandRef} {o : BitVec 22} {c : Instr} {g : Glyph} {slot n : Nat} {dest : LoadDest}
  {put : List W8 → Eff} {t : State}

/-- A load that does not find its data at hand retires, and its access goes out. -/
theorem next_load (d : RegLoadGlyph hr o c slot n dest put) (q : Ready s hr c g) (hm : opdMode o = 5)
    (hroom : roomStop s (beadNo hr.br) [actOf (aloneEnv s hr false) c] = none)
    (hfind : devLoad (aloneEnv s hr false) o n = .ok none)
    (ht : loadAct s (retire s hr id) hr slot o n dest = t) : exec c s = .next t := by
  have heval : evalGlyph (aloneEnv s hr false) c = writes [actOf (aloneEnv s hr false) c] := by
    rw [d.evals _ hm, evalLoad, operandBytes, if_pos hm, hfind]
    rfl
  rw [d.runs]
  refine next_act q heval d.stays d.draws (d.exits _ _ _) (.inr (d.order _ _ _)) hroom ?_
  rw [actOf, landEff_act, d.performs]
  exact ht

/-- The room of a load from memory whose miss finds a fill entry. -/
theorem roomStop_mem {x : Xlat} {l : List Eff} (d : DevLoadGlyph hr o c slot n dest) (h : DevFits s hr o n false false x)
    (hl : l.all effPlain = true) (hroom : looksUp (beadOf s hr) x = true → blotFind (beadOf s hr) (x.pa / 64) = none →
      fillRoom (beadOf s hr) (x.pa / 64) = true) :
    roomStop s (beadNo hr.br) (actOf (aloneEnv s hr false) c :: l) = none := by
  refine roomStop_load d h.mode _ _ _ hl (fun y hy => ?_)
  rw [effLine_mem d h hy]
  exact hroom

/-- A register write of a line whose start has changed its bead outside the core: it retires, and the change stays. -/
theorem commitLine_regWrite {f : Eff} {w : Hand → Hand} {u : Bead → Bead} (hw : RegWrite f w) (hu : SparesCore u) :
    commitLine (modBead (pointTo s (beadNo hr.br) hr.hand.val) (beadNo hr.br) u) (beadNo hr.br) hr.hand.val (handAt s hr).pc 1
      [f] false false = modBead (retire s hr w) (beadNo hr.br) u := by
  have hhand : getHand (modBead (pointTo s (beadNo hr.br) hr.hand.val) (beadNo hr.br) u) (beadNo hr.br) hr.hand.val
      = handAt s hr := by
    rw [getHand, getBead_modBead_same, handOf, hu.core, ← handOf]
    exact getHand_pointTo s _ _ _
  have hput (t : State) (y : Hand) : putHand t (beadNo hr.br) hr.hand.val y = modHand t (beadNo hr.br) hr.hand.val (fun _ => y) :=
    rfl
  have hretire (y : Hand) : modHand (pointTo s (beadNo hr.br) hr.hand.val) (beadNo hr.br) hr.hand.val (fun _ => y)
      = putBead s (beadNo hr.br) (setHand (issuedBy (beadOf s hr) hr.hand) hr.hand.val y) := by
    rw [pointTo_hand]
    simp only [modHand, putHand, modBead, getBead_putBead_same, putBead_putBead_same]
    rfl
  simp only [commitLine, hhand, hw.stays, hw.falls, hw.keeps, Bool.false_eq_true, if_false,
    applyEffs_one (.inl (effPlain_order hw.plain).1), hw.lands, hput, modHand_modBead hu, hretire]
  exact congrArg (modBead · (beadNo hr.br) u) (modHand_retireTo s hr none id w)

/-- A load whose data the blotter holds writes its register at once, and touches its way (R147, R149). -/
theorem next_hit {x : Xlat} {k : Nat} {bs : List W8} (d : RegLoadGlyph hr o c slot n dest put) (q : Ready s hr c g)
    (h : DevFits s hr o n false false x) (hfind : blotFind (beadOf s hr) (x.pa / 64) = some k)
    (hdata : devLoad (aloneEnv s hr false) o n = .ok (some bs))
    (hact : loadAct s (pointTo s (beadNo hr.br) hr.hand.val) hr slot o n dest
      = modBead (scrubbedAt (pointTo s (beadNo hr.br) hr.hand.val) (beadNo hr.br) x) (beadNo hr.br) (fun b => touchWay b k)) :
    exec c s = .next (modBead (scrubbedAt (retire s hr (loaded dest bs)) (beadNo hr.br) x) (beadNo hr.br)
      (fun b => touchWay b k)) := by
  have heval : evalGlyph (aloneEnv s hr (hasLexit [c])) c
      = .ok { effs := [put bs], start := [actOf (aloneEnv s hr false) c] } := by
    rw [d.stays, d.evals _ h.mode, evalLoad, operandBytes, if_pos h.mode, hdata]
    simp only [Bind.bind, Except.bind, if_pos h.mode]
  have hroom : roomStop s (beadNo hr.br) ([actOf (aloneEnv s hr false) c] ++ [put bs]) = none := by
    refine roomStop_mem d.toDevLoadGlyph h (by simp [(d.puts bs).plain]) (fun _ hnone => ?_)
    rw [hfind] at hnone
    cases hnone
  have hstart (succ : W32) : applyEffs (pointTo s (beadNo hr.br) hr.hand.val) (beadNo hr.br) hr.hand.val (handAt s hr).pc 1 succ
      (handAt s hr) false [actOf (aloneEnv s hr false) c]
        = loadAct s (pointTo s (beadNo hr.br) hr.hand.val) hr slot o n dest :=
    (applyEffs_one (.inr (d.order _ _ _)) _ _ _ _ _ _ _ _).trans (d.performs _ _ _ _ _ _ _ _ _ _ _ _)
  have hline (succ : W32) : lineIssues s (beadNo hr.br) hr.hand.val (handAt s hr).pc 1 succ [c]
      [(g.slot, { effs := [put bs], start := [actOf (aloneEnv s hr false) c] })]
        = commitLine (loadAct s (pointTo s (beadNo hr.br) hr.hand.val) hr slot o n dest) (beadNo hr.br) hr.hand.val
          (handAt s hr).pc 1 [put bs] false false := by
    have hfree : [c].any drawsFree = false := by rw [List.any_cons, d.draws]; rfl
    rw [← hstart succ, lineIssues, if_neg (Bool.eq_false_iff.1 hfree)]
    rfl
  rw [d.runs, issue_ok q heval hroom, hline, hact, scrubbedAt, modBead_modBead, scrubbedAt, modBead_modBead,
    commitLine_regWrite (d.puts bs) ((sparesCore_scrubTags _).comp (sparesCore_touchWay k))]

end Loads

/-- Settles O11: the lookup gives the data at hand, or the access goes out as the line retires. -/
theorem deviceLoads : Obligations.DeviceLoads := by
  intro s hr r o g p x i b va op scrubbed hp q
  obtain ⟨put, d⟩ := regLoadGlyph_memLoads hp
  have hsee : SeesAlike s (retire s hr id) (beadNo hr.br) := seesAlike_retireTo s hr none id
  refine ⟨fun h hlook => ?out, fun h hlook hfind hroom => ?miss, fun k h hlook hfind hgood => ?hit,
    fun k h hlook hfind hbad hroom => ?dropped, fun t u up hm hopen hc => ?tally⟩
  case out =>
    obtain ⟨-, hspace, hx⟩ := checkDev_mem h.checked
    refine next_load d q h.mode (roomStop_mem d.toDevLoadGlyph h rfl (fun hl => ?_)) (devLoad_out h hlook)
      (loadAct_out hsee hspace hx hlook)
    rw [hlook] at hl
    cases hl
  case miss =>
    obtain ⟨-, hspace, hx⟩ := checkDev_mem h.checked
    exact next_load d q h.mode (roomStop_mem d.toDevLoadGlyph h rfl (fun _ _ => hroom)) (devLoad_miss h hlook hfind hroom)
      (loadAct_miss hsee hspace hx hlook hfind)
  case hit =>
    obtain ⟨-, hspace, hx⟩ := checkDev_mem h.checked
    exact next_hit d q h hfind (devLoad_hit h hlook hfind hgood)
      (loadAct_hit (seesAlike_pointTo s _ _) hspace hx hlook hfind hgood)
  case dropped =>
    obtain ⟨-, hspace, hx⟩ := checkDev_mem h.checked
    exact next_load d q h.mode (roomStop_mem d.toDevLoadGlyph h rfl (fun _ _ => hroom))
      (devLoad_dropped h hlook hfind hbad hroom) (loadAct_dropped hsee hspace hx hlook hfind hbad)
  case tally =>
    refine next_load d q hm (roomStop_load d.toDevLoadGlyph hm _ _ _ rfl (fun y hy => ?_)) (devLoad_tally hopen hc)
      (loadAct_tally (checkDev_tally hc).2)
    have hnone := hy.symm.trans (effLine_tally d.toDevLoadGlyph hc)
    cases hnone

/-! Atomics and S-slot operands at device addresses (R104, R129, R157, R269). -/

/-- A bead without its blotter's copy of a line (R157). -/
def lineDropped (b : Bead) (line : Nat) : Bead := match blotFind b line with | some k => dropWay b k | none => b

section Operands
variable {s t : State} {hr : HandRef} {o : BitVec 22} {x : Xlat}

/-- An atomic drains and drops its line, and its request goes out (R157). -/
theorem actAtomic_dev (hm : opdMode o = 5) (hsee : SeesAlike s t (beadNo hr.br))
    (hx : translate s (beadCtx (beadOf s hr)) (devVa s hr o) true = some x) (op : AtomOp) (x0 x1 : W32) :
    actAtomic t (beadNo hr.br) hr.hand.val (handAt s hr).pc 1 (handAt s hr) o op (handAt s hr).acc x0 x1
      = requested s (modBead t (beadNo hr.br) (fun b => lineDropped (startDrain b (x.pa / 64)) (x.pa / 64))) hr 1
          (devVa s hr o) x (.atomic op (handAt s hr).acc (x1x0 x0 x1)) := by
  have hreach := hsee.reaches hx
  rw [devVa, devAt] at hreach
  simp only [actAtomic, if_pos hm, hreach]
  rfl

/-- A line of one glyph that starts its act and waits stays open for it (R104, R129). -/
theorem lineIssues_waits {c : Instr} {f : Eff} (n : Nat) (succ : W32) (why : Pending) (hd : drawsFree c = false)
    (hlate : isLate c = false) (hone : isReadEff f = false ∨ isLocalAtomic f = false) :
    lineIssues s (beadNo hr.br) hr.hand.val (handAt s hr).pc 1 succ [c] [(n, { effs := [], start := [f], opens := some why })]
      = modHand (applyEff (pointTo s (beadNo hr.br) hr.hand.val) (beadNo hr.br) hr.hand.val (handAt s hr).pc 1 succ
          (handAt s hr) false (pointTo s (beadNo hr.br) hr.hand.val) f) (beadNo hr.br) hr.hand.val
        (opened s hr succ why) := by
  have hfree : [c].any drawsFree = false := by rw [List.any_cons, hd]; rfl
  have hfind : [c].find? isLate = none := by rw [List.find?_cons, hlate]; rfl
  rw [← applyEffs_one hone, lineIssues, if_neg (Bool.eq_false_iff.1 hfree), hfind]
  rfl

end Operands

/-- Settles O13: the atomic's request goes out as its line retires, the operand's as its line stays open. -/
theorem deviceOperands : Obligations.DeviceOperands := by
  intro aop op s hr o g x i h va dropped
  refine ⟨fun fits q => ?atomic, fun fits hlook q => ?operand⟩
  case atomic =>
    have ag := atomicGlyph_atomGlyph aop hr o
    obtain ⟨-, -, hx⟩ := checkDev_mem fits.checked
    have heval : evalAtomic (aloneEnv s hr false) (atomGlyph aop hr true o) o
        = writes [actOf (aloneEnv s hr false) (atomGlyph aop hr true o)] := by
      have hchecked : checkDev (aloneEnv s hr false) (devEa (aloneEnv s hr false).x.acc o) 8 8 true true = .ok (.mem x) :=
        fits.checked
      rw [evalAtomic, if_pos fits.mode, hchecked, fits.open_]
      rfl
    rw [ag.runs]
    refine next_act q ((ag.evals _).trans heval) ag.stays ag.draws (ag.exits _ _ _) (.inl ag.loads)
      (roomStop_act ag.loads ag.stores) ?_
    rw [actOf, landEff_act, ag.performs]
    exact actAtomic_dev fits.mode (seesAlike_retireTo s hr none id) hx aop _ _
  case operand =>
    have d := devLoadGlyph_aluGlyph op hr o
    obtain ⟨-, hspace, hx⟩ := checkDev_mem fits.checked
    have hlate : isLate (aluGlyph op hr true o) = false := by cases op <;> rfl
    have heval : evalGlyph (aloneEnv s hr (hasLexit [aluGlyph op hr true o])) (aluGlyph op hr true o)
        = .ok { effs := [], start := [actOf (aloneEnv s hr false) (aluGlyph op hr true o)], opens := some .operand } := by
      have hglyph (e : Env) : evalGlyph e (aluGlyph op hr true o) = evalAlu e (aluGlyph op hr true o) op o := by
        cases op <;> rfl
      have h4 : opdMode o ≠ 4 := by rw [fits.mode]; decide
      rw [d.stays, hglyph, evalAlu, if_neg h4, operandBytes, if_pos fits.mode, devLoad_out fits hlook]
      rfl
    have hroom : roomStop s i ([actOf (aloneEnv s hr false) (aluGlyph op hr true o)] ++ []) = none := by
      refine roomStop_mem d fits rfl (fun hl => ?_)
      rw [hlook] at hl
      cases hl
    have hact := loadAct_out (slot := 1) (n := 8) (dest := .alu op) (seesAlike_pointTo s i hr.hand.val) hspace hx hlook
    rw [pointTo_hand, modBead_modBead, ← pointTo_hand] at hact
    rw [d.runs, issue_ok q heval hroom, d.stays,
      lineIssues_waits (f := actOf (aloneEnv s hr false) _) _ _ _ d.draws hlate (.inr (d.order _ _ _))]
    refine congrArg (fun t => Host.Outcome.next (modHand t i hr.hand.val _)) (Eq.trans ?_ hact)
    exact d.performs _ _ _ _ _ _ _ _ _ _ _ _

/-! Device-address requests at their homes and on their way back (R104, R142, R144, R151, R267, R269). -/

/-- A request that its home has answered. -/
def answered (bs : List W8) (q : DevReq) : DevReq := { q with served := some bs }

/-- A request alone under its number that its home has not answered, and whose turn it is (R267, R268). -/
structure Asks (s : State) (i h n : Nat) (r : DevReq) : Prop where
  runs : beadRuns s i = true
  place : (getHand s i h).reqs[n]? = some r
  alone : ∀ q ∈ (getHand s i h).reqs, q.seq = r.seq → q = r
  unserved : r.served = none
  accepted : r.refused = false
  alive : r.dead = false
  good : r.bad = false
  single : r.mirror = none
  turn : reqTurn (getBead s i) (getHand s i h) r = true

section Requests
variable {s t : State} {i h n : Nat} {r : DevReq} {f : DevReq → DevReq}

theorem reqAt_asks (w : Asks s i h n r) : reqAt s i h n = some r := (if_pos w.runs).trans w.place

theorem reqs_modReq : (getHand (modReq s i h n f) i h).reqs
    = (getHand s i h).reqs.map (fun q => if q.seq = n then f q else q) := by rw [modReq, getHand_modHand_same]

/-- A changed request is found at its place. -/
theorem place_modReq (hn : (getHand s i h).reqs[n]? = some r) : (getHand (modReq s i h r.seq f) i h).reqs[n]? = some (f r) := by
  rw [reqs_modReq, List.getElem?_map, hn, Option.map_some, if_pos rfl]

/-- A changed request that keeps its number is found under it, where no other has that number. -/
theorem reqBySeq_modReq (hn : (getHand s i h).reqs[n]? = some r) (hone : ∀ q ∈ (getHand s i h).reqs, q.seq = r.seq → q = r)
    (hseq : (f r).seq = r.seq) : reqBySeq (modReq s i h r.seq f) i h r.seq = some (f r) := by
  have hmem : r ∈ (getHand s i h).reqs := List.mem_of_getElem? hn
  have hfirst : (getHand s i h).reqs.find? (fun q => (if q.seq = r.seq then f q else q).seq == r.seq) = some r := by
    cases hfind : (getHand s i h).reqs.find? (fun q => (if q.seq = r.seq then f q else q).seq == r.seq) with
    | none =>
      have hnot := List.find?_eq_none.1 hfind r hmem
      simp [hseq] at hnot
    | some q =>
      have hq := List.find?_some hfind
      have hqseq : q.seq = r.seq := by
        by_contra hne
        simp [hne] at hq
      rw [hone q (List.mem_of_find?_eq_some hfind) hqseq]
  have hfound : ((getHand s i h).reqs.map (fun q => if q.seq = r.seq then f q else q)).find? (fun q => q.seq == r.seq)
      = some (f r) := by
    rw [List.find?_map]
    exact (congrArg (Option.map _) hfirst).trans (congrArg some (if_pos rfl))
  rw [reqBySeq, reqs_modReq, hfound]

/-- A changed request leaves as the unchanged one would. -/
theorem dropReq_modReq (hseq : ∀ q, (f q).seq = q.seq) : dropReq (modReq s i h n f) i h n = dropReq s i h n := by
  have hreqs (l : List DevReq) : (l.map (fun q => if q.seq = n then f q else q)).filter (fun q => q.seq != n)
      = l.filter (fun q => q.seq != n) := by
    induction l with
    | nil => rfl
    | cons q l ih =>
      by_cases hq : q.seq = n
      · simp [hq, hseq, ih]
      · simp [hq, ih]
  simp only [dropReq, modReq, modHand, getHand_putHand_same, hreqs]
  simp [putHand]

end Requests

/-! Where a request finds its home (R142, R144, R345). -/

section Homes
variable {s : State} {i h n size : Nat} {r : DevReq} {dest : LoadDest} {bs : List W8} {op : AtomOp} {a b : W64}

theorem perform_turn (w : Asks s i h n r) :
    (r.served.isSome || r.refused || !reqTurn (getBead s i) (handOf (getBead s i) h) r) = false := by
  rw [w.unserved, w.accepted, show handOf (getBead s i) h = getHand s i h from rfl, w.turn]
  rfl

section Hbm
variable (w : Asks s i h n r) (hbm : inHbm r.pa = true) (hhome : homeRefuses s i r.pa = none)
include w hbm hhome

theorem perform_load (hop : r.op = .load size dest) (hpar : parityFind s.parity r.pa size = none) :
    perform s i h r false = modReq s i h r.seq (answered (loadBytes s r.pa size)) := by
  simp only [perform, perform_turn w, hbm, hhome, hop, reqBytes, hbmRead_good _ hpar, Bool.false_eq_true, if_false, if_true]
  rfl

theorem perform_store (hop : r.op = .store bs) :
    perform s i h r false = modReq (storeBytes s r.pa bs) i h r.seq (answered []) := by
  simp only [perform, perform_turn w, hbm, hhome, hop, performPlain, hbmWrite, w.single, Bool.false_eq_true, if_false, if_true]
  rfl

theorem perform_atomic (hop : r.op = .atomic op a b) (hpar : parityFind s.parity r.pa 8 = none) :
    perform s i h r false = modReq (storeBytes s r.pa (toBytes 8 (atomSays op (BitVec.ofNat 64 (loadNat s r.pa 8)) a b).toNat))
      i h r.seq (answered (loadBytes s r.pa 8)) := by
  simp only [perform, perform_turn w, hbm, hhome, hop, reqBytes, hbmRead_good _ hpar, performPlain, hbmWrite, w.single, atomNew_eq,
    Bool.false_eq_true, if_false, if_true]
  rfl

end Hbm

/-- Whether a request reads nothing (R142). -/
def storesOnly (op : DevOp) : Bool := match op with | .store _ => true | _ => false

section Away
variable {j off : Nat} (w : Asks s i h n r) (hregion : regionOf r.pa = .folio j off)
  (hslate : slateRefuses s (some (i / 256)) (j / 256) = none)
include hregion

theorem inHbm_folio : inHbm r.pa = false := by rw [inHbm, hregion]

include w hslate

theorem perform_away : perform s i h r false = if folioRefuses s j off (reqBytes r)
    then modReq s i h r.seq (fun q => { q with refused := true })
    else if !storesOnly r.op && (parityFind s.parity r.pa (reqBytes r)).isSome then
      modReq s i h r.seq (fun q => { q with served := some [], bad := true })
    else modReq (performPlain s r).2 i h r.seq (answered (performPlain s r).1) := by
  have hhome : homeRefuses s i r.pa = none := by
    have hmap := congrArg (Option.map (fun c => (c, j / 256))) hslate
    rw [homeRefuses, hregion]
    exact hmap
  simp only [perform, perform_turn w, inHbm_folio hregion, serveAway, hhome, hregion, Bool.false_eq_true, if_false]
  rfl

theorem perform_away_store (hop : r.op = .store bs) (hin : folioRefuses s j off bs.length = false) :
    perform s i h r false = modReq (storeBytes s r.pa bs) i h r.seq (answered []) := by
  have hin' : folioRefuses s j off (reqBytes r) = false := by rw [reqBytes, hop]; exact hin
  rw [perform_away w hregion hslate, if_neg (Bool.eq_false_iff.1 hin'), hop]
  simp only [performPlain, hop, hbmWrite, w.single]
  rfl

theorem perform_away_load (hop : r.op = .load size dest) (hin : folioRefuses s j off size = false)
    (hpar : parityFind s.parity r.pa size = none) :
    perform s i h r false = modReq s i h r.seq (answered (loadBytes s r.pa size)) := by
  have hbytes : reqBytes r = size := by rw [reqBytes, hop]
  rw [perform_away w hregion hslate, hbytes, if_neg (Bool.eq_false_iff.1 hin), hpar, hop]
  simp only [performPlain, hop]
  rfl

theorem perform_away_refused (hop : r.op = .load size dest) (hout : folioRefuses s j off size = true) :
    perform s i h r false = modReq s i h r.seq (fun q => { q with refused := true }) := by
  have hbytes : reqBytes r = size := by rw [reqBytes, hop]
  rw [perform_away w hregion hslate, hbytes, if_pos hout]

end Away

end Homes

/-! What a hand has once its request has been answered (R104, R142). -/

section Returns
variable {s t : State} {i h n size : Nat} {r : DevReq} {dest : LoadDest} {bs : List W8}

/-- A load's data goes to the register that its glyph names (R142). -/
theorem deliver_load {q : DevReq} (hop : q.op = .load size dest) (hdest : ¬ ∃ o, dest = .alu o) (hlive : q.dead = false) :
    deliver s i h q bs = modHand s i h (loaded dest bs) := by
  cases dest with
  | alu o => exact absurd ⟨o, rfl⟩ hdest
  | acc k sg => simp only [deliver, hop, hlive]; rfl
  | fp => simp only [deliver, hop, hlive]; rfl
  | xr x =>
    cases x with
    | x0 => simp only [deliver, hop, hlive]; rfl
    | x1 => simp only [deliver, hop, hlive]; rfl

/-- An atomic's old value goes to ACC (R104). -/
theorem deliver_atomic {q : DevReq} {op : AtomOp} {a b : W64} (hop : q.op = .atomic op a b) (hlive : q.dead = false) :
    deliver s i h q bs = modHand s i h (fun x => { x with acc := extend false bs }) := by
  simp only [deliver, hop, hlive]
  rfl

/-- A good answer leaves the hand's requests and is delivered. -/
theorem returnReq_answered (haccept : r.refused = false) (hgood : r.bad = false) :
    returnReq s i h (answered bs r) = (deliver (dropReq s i h r.seq) i h (answered bs r) bs, false) := by
  simp only [returnReq, answered, haccept, hgood, Bool.false_eq_true, if_false]

/-- A hand without one of its requests. -/
def withoutReq (n : Nat) (x : Hand) : Hand := { x with reqs := x.reqs.filter (fun q => q.seq != n) }

theorem dropReq_eq : dropReq s i h n = modHand s i h (withoutReq n) := rfl

/-- A region of HBM or of a folio is no reservoir's, whose taps hold stores (R170). -/
theorem storeWaits_not (hr : ∀ kb off, regionOf r.pa ≠ .reservoir kb off) : storeWaits s r = false := by
  unfold storeWaits tapHolds
  split
  next kb off heq => exact absurd heq (hr kb off)
  · rfl

section Answered
variable (w : Asks s i h n r) (hreqs : (getHand t i h).reqs = (getHand s i h).reqs)
include w hreqs

theorem reqBySeq_answered : reqBySeq (modReq t i h r.seq (answered bs)) i h r.seq = some (answered bs r) :=
  reqBySeq_modReq (n := n) (hreqs ▸ w.place) (hreqs ▸ w.alone) rfl

/-- The return of a request that its home answers and that no fill answers (R142, R151). -/
theorem loadReturn_answered (hstore : ∀ l, r.op ≠ .store l)
    (hfill : ∀ g ∈ (getBead s i).blot.fills, g.line ≠ r.pa / 64)
    (hperf : perform s i h r false = modReq t i h r.seq (answered bs)) :
    loadReturn s i h n false = (deliver (dropReq t i h r.seq) i h (answered bs r) bs, false) := by
  have hnone : (getBead s i).blot.fills.any (fun g => g.line == r.pa / 64) = false :=
    List.any_eq_false.2 (fun g hg => by simp [hfill g hg])
  have hfound := reqBySeq_answered (bs := bs) w hreqs
  have hback := returnReq_answered (s := modReq t i h r.seq (answered bs)) (i := i) (h := h) (bs := bs) w.accepted w.good
  rw [dropReq_modReq (f := answered bs) (fun _ => rfl)] at hback
  have hrefused : (answered bs r).refused = false := w.accepted
  have hserved : (answered bs r).served = some bs := rfl
  rw [← hback]
  cases hop : r.op with
  | store l => exact absurd hop (hstore l)
  | load => simp [loadReturn, reqAt_asks w, hnone, hop, hperf, hfound, hrefused, hserved]
  | atomic => simp [loadReturn, reqAt_asks w, hnone, hop, hperf, hfound, hrefused, hserved]

end Answered

end Returns

section Events
variable {s t : State} {hr : HandRef} {n size : Nat} {r : DevReq} {dest : LoadDest} {bs : List W8}

/-- A store that its home performs leaves once it is acknowledged (R267). -/
theorem execStoreAcknowledge_answered (w : Asks s (beadNo hr.br) hr.hand.val n r)
    (hreqs : (getHand t (beadNo hr.br) hr.hand.val).reqs = (getHand s (beadNo hr.br) hr.hand.val).reqs)
    (hop : r.op = .store bs) (hwait : ∀ kb off, regionOf r.pa ≠ .reservoir kb off)
    (hperf : perform s (beadNo hr.br) hr.hand.val r false = modReq t (beadNo hr.br) hr.hand.val r.seq (answered [])) :
    execStoreAcknowledge hr n s = .next (dropReq t (beadNo hr.br) hr.hand.val r.seq) := by
  have hfound := reqBySeq_answered (bs := []) w hreqs
  have hrefused : (answered [] r).refused = false := w.accepted
  have hserved : (answered [] r).served = some [] := rfl
  have hplain (u : State) : storeWaits u (answered [] r) = false := storeWaits_not hwait
  have hdrop : dropReq (modReq t (beadNo hr.br) hr.hand.val r.seq (answered [])) (beadNo hr.br) hr.hand.val r.seq
      = dropReq t (beadNo hr.br) hr.hand.val r.seq := dropReq_modReq (f := answered []) (fun _ => rfl)
  simp [execStoreAcknowledge, handNo, reqAt_asks w, hop, hperf, hfound, hrefused, hserved, hplain, hdrop]

/-- A read of HBM meets no folio or reservoir word that a segment copy could cure (R167, R348). -/
theorem cureRead_hbm (i k : Nat) (h : inHbm r.pa = true) : cureRead s i k r = s := by
  obtain ⟨stack, off, hregion⟩ := regionOf_of_inHbm h
  simp only [cureRead, hregion, ite_self]

/-- The return of a request of HBM that its home answers (R142). -/
theorem execDeviceLoadReturn_answered (w : Asks s (beadNo hr.br) hr.hand.val n r)
    (hreqs : (getHand t (beadNo hr.br) hr.hand.val).reqs = (getHand s (beadNo hr.br) hr.hand.val).reqs)
    (hstore : ∀ l, r.op ≠ .store l) (hin : inHbm r.pa = true)
    (hfill : ∀ g ∈ (getBead s (beadNo hr.br)).blot.fills, g.line ≠ r.pa / 64)
    (hperf : perform s (beadNo hr.br) hr.hand.val r false = modReq t (beadNo hr.br) hr.hand.val r.seq (answered bs)) :
    exec (.deviceLoadReturn hr n false) s
      = .next (deliver (dropReq t (beadNo hr.br) hr.hand.val r.seq) (beadNo hr.br) hr.hand.val (answered bs r) bs) := by
  change execDeviceLoadReturn hr n false s = _
  simp [execDeviceLoadReturn, handNo, reqAt_asks w, cureRead_hbm _ _ hin, loadReturn_answered w hreqs hstore hfill hperf]

/-- A request to another folio is performed there (R144). -/
theorem execRemoteRequestServe_away {j off : Nat} (w : Asks s (beadNo hr.br) hr.hand.val n r)
    (hregion : regionOf r.pa = .folio j off) (hperf : perform s (beadNo hr.br) hr.hand.val r false = t) :
    exec (.remoteRequestServe hr n) s = .next t := by
  change execRemoteRequestServe hr n s = _
  simp [execRemoteRequestServe, handNo, reqAt_asks w, inHbm_folio hregion, hperf]

end Events

/-! A fill, the load that waits for it, and the way that it takes (R149, R151). -/

/-- A bead with another's core and fill entries. -/
def KeepsFills (b c : Bead) : Prop := c.core = b.core ∧ c.blot.fills = b.blot.fills

theorem keepsFills_ageSet (b : Bead) (base : Nat) : KeepsFills b (ageSet b base) := by
  have hstep (c : Bead) (hc : KeepsFills b c) (k : Nat) (y : BlotWay) : KeepsFills b (putWay c k y) := hc
  exact List.foldlRecOn (motive := KeepsFills b) _ _ ⟨rfl, rfl⟩ (fun c hc _ _ => hstep c hc _ _)

theorem keepsFills_placeLine (b : Bead) (line : Nat) (age : BitVec 2) (data : List W8) :
    KeepsFills b (placeLine b line age data) := by
  unfold placeLine
  extract_lets base put
  have hput (c : Bead) (hc : KeepsFills b c) (k : Nat) : KeepsFills b (put c k) := hc
  split
  · exact hput b ⟨rfl, rfl⟩ _
  · split
    · exact hput _ (keepsFills_ageSet b base) _
    · exact keepsFills_ageSet b base

/-- A fill frees its entry and changes nothing of its bead's core (R151). -/
theorem placeFill_keeps (b : Bead) (f : Fill) (data : List W8) : (placeFill b f data).core = b.core
    ∧ (placeFill b f data).blot.fills = b.blot.fills.filter (fun g => g.line != f.line) := by
  unfold placeFill
  extract_lets c merged
  split
  · exact ⟨rfl, rfl⟩
  · exact keepsFills_placeLine c f.line f.age merged

/-- Bytes of a run, read as a run of their own. -/
theorem loadBytes_slice (s : State) {a p n m : Nat} (ha : a ≤ p) (hn : p + m ≤ a + n) :
    ((loadBytes s a n).drop (p - a)).take m = loadBytes s p m := by
  refine List.ext_getElem (by simp [loadBytes_length]; omega) (fun k hk _ => ?_)
  simp only [loadBytes, memReadN, List.getElem_take, List.getElem_drop, List.getElem_map, List.getElem_range]
  congr 1
  omega

section Fills
variable {s : State} {br : BeadRef} {h n line size : Nat} {r : DevReq} {dest : LoadDest} {f : Fill}

/-- A fill answers the one load that waits for its line (R151). -/
theorem execBlotterFill_answers (w : Asks s (beadNo br) h n r) (hop : r.op = .load size dest) (hdest : ¬ ∃ o, dest = .alu o)
    (hline : line = r.pa / 64) (hfit : r.pa % 64 + size ≤ 64) (hhome : homeRefuses s (beadNo br) (64 * line) = none)
    (hfills : (getBead s (beadNo br)).blot.fills = [f]) (hf : f.line = line)
    (hwait : fillWaiters s (beadNo br) line = [(h, r)]) (hpar : parityFind s.parity (64 * line) 64 = none) :
    execBlotterFill br line false s
      = .next (modBead (modHand (dropReq s (beadNo br) h r.seq) (beadNo br) h (loaded dest (loadBytes s r.pa size)))
          (beadNo br) (fun b => placeFill b f (loadBytes s (64 * line) 64))) := by
  have hfind : [f].find? (fun g => g.line == line) = some f := by simp [hf]
  have hready : [(h, r)].filter (fun p => reqTurn (getBead s (beadNo br)) (getHand s (beadNo br) p.1) p.2) = [(h, r)] := by
    simp [w.turn]
  have hbytes : reqBytes r = size := by rw [reqBytes, hop]
  have hslice : ((loadBytes s (64 * line) 64).drop (r.pa - 64 * line)).take size = loadBytes s r.pa size :=
    loadBytes_slice s (by omega) (by omega)
  have hanswer : answerFill s (beadNo br) line (some (loadBytes s (64 * line) 64)) [(h, r)]
      = modHand (dropReq s (beadNo br) h r.seq) (beadNo br) h (loaded dest (loadBytes s r.pa size)) := by
    rw [answerFill, List.foldl_cons, List.foldl_nil, hbytes]
    dsimp only
    rw [hslice]
    exact (congrArg Prod.fst (returnReq_answered w.accepted w.good)).trans (deliver_load hop hdest w.alive)
  simp only [execBlotterFill, hfills, hfind, w.runs, hwait, hhome, hready, hbmRead_good _ hpar, hanswer]
  rfl

end Fills

/-- Settles O42: a request at its home is served, refused or performed, and its answer leaves the hand's requests. -/
theorem requestEvents : Obligations.RequestEvents := by
  intro s hr n line r bs size dest op a b j off f i h x old rest toAlu mine hbm away
  have hasks (hm : mine) : Asks s i h n r := by
    obtain ⟨hup, hplace, halone, hserved, hrefused, hdead, hbad, hmirror, hturn⟩ := hm
    exact ⟨beadRuns_of hup, hplace, halone, hserved, hrefused, hdead, hbad, hmirror, hturn⟩
  have hdropped (t : State) (g : Hand → Hand) (ht : getHand t i h = x) :
      handAt (modHand (dropReq t i h r.seq) i h g) hr = g { x with reqs := rest } := by
    rw [handAt, getHand_modHand_same, dropReq_eq, getHand_modHand_same, ht]
    rfl
  have hleft (t : State) (ht : getHand t i h = x) : handAt (dropReq t i h r.seq) hr = { x with reqs := rest } := by
    rw [handAt, dropReq_eq, getHand_modHand_same, ht]
    rfl
  refine ⟨fun hb hop hdest hpar => ?load, fun hb hop hpar => ?atomic, fun hb hop => ?store, fun ha hop hin => ?awayStore,
    fun ha hop hin hpar => ?awayLoad, fun ha hop hout => ?awayRefused,
    fun hm hop hdest hin hline hfit hhome hfills hf hwait _ hpar _ => ?fill⟩
  case load =>
    obtain ⟨hm, hin, hhome, hfill⟩ := hb
    have w := hasks hm
    have hret := execDeviceLoadReturn_answered (t := s) w rfl (fun l hl => by rw [hop] at hl; cases hl) hin hfill
      (perform_load w hin hhome hop hpar)
    rw [deliver_load (q := answered _ r) hop hdest w.alive] at hret
    exact ⟨_, hret, rfl, hdropped s (loaded dest (loadBytes s r.pa size)) rfl⟩
  case atomic =>
    obtain ⟨hm, hin, hhome, hfill⟩ := hb
    have w := hasks hm
    have hret := execDeviceLoadReturn_answered (t := storeBytes s r.pa _) w rfl (fun l hl => by rw [hop] at hl; cases hl) hin
      hfill (perform_atomic w hin hhome hop hpar)
    rw [deliver_atomic (q := answered _ r) hop w.alive] at hret
    exact ⟨_, hret, hdropped (storeBytes s r.pa _) (fun y => { y with acc := old }) rfl, rfl⟩
  case store =>
    obtain ⟨hm, hin, hhome, -⟩ := hb
    have w := hasks hm
    obtain ⟨stack, o, hregion⟩ := regionOf_of_inHbm hin
    exact ⟨_, execStoreAcknowledge_answered (t := storeBytes s r.pa bs) w rfl hop (fun kb k hk => by rw [hregion] at hk; cases hk)
      (perform_store w hin hhome hop), rfl, hleft _ rfl⟩
  case awayStore =>
    obtain ⟨hm, hregion, hslate⟩ := ha
    have w := hasks hm
    exact ⟨_, execStoreAcknowledge_answered (t := storeBytes s r.pa bs) w rfl hop (fun kb k hk => by rw [hregion] at hk; cases hk)
      (perform_away_store w hregion hslate hop hin), rfl, hleft _ rfl⟩
  case awayLoad =>
    obtain ⟨hm, hregion, hslate⟩ := ha
    have w := hasks hm
    refine ⟨modReq s i h r.seq (answered (loadBytes s r.pa size)), ?_, rfl, place_modReq w.place⟩
    exact execRemoteRequestServe_away w hregion (perform_away_load w hregion hslate hop hin hpar)
  case awayRefused =>
    obtain ⟨hm, hregion, hslate⟩ := ha
    have w := hasks hm
    refine ⟨modReq s i h r.seq (fun q => { q with refused := true }), ?_, rfl, place_modReq w.place⟩
    exact execRemoteRequestServe_away w hregion (perform_away_refused w hregion hslate hop hout)
  case fill =>
    have w := hasks hm
    refine ⟨_, execBlotterFill_answers w hop hdest hline hfit hhome hfills hf hwait hpar, rfl, ?_, ?_⟩
    · rw [← hdropped s (loaded dest (loadBytes s r.pa size)) rfl, handAt, getHand, getBead_modBead_same, handOf,
        (placeFill_keeps _ _ _).1, ← handOf]
      rfl
    · rw [beadOf, getBead_modBead_same, (placeFill_keeps _ _ _).2]
      have hsame : (getBead (modHand (dropReq s i h r.seq) i h (loaded dest (loadBytes s r.pa size))) i).blot.fills = [f] := by
        rw [modHand, putHand, getBead_putBead_same, dropReq, modHand, putHand, getBead_putBead_same]
        exact hfills
      rw [hsame]
      simp

end Sys2Proof.Machine

end GlyphAndLineProofs

/-! SUPPORT. Proofs of the statements of family 05: rows and tiles, their transfers, and the bead's registers (O24, O26,
O35, O38). -/

section TileProofs

namespace Sys2Proof.Machine

/-! Bitwise, row and lane glyphs (R132, R246). -/

/-- A glyph's slot, from the command that it is. -/
theorem slot_of_glyphOf {c : Instr} {g : Glyph} {n : Nat} (h : glyphOf c = some g)
    (hn : (glyphOf c).map (·.slot) = some n) : g.slot = n := by
  rw [h] at hn
  exact Option.some.inj hn

/-- A glyph whose tiles pass their checks goes on to its result (R122, R123, R246). -/
theorem VFits.passes {s : State} {hr : HandRef} {u : VUse} {ok : Bool} (h : VFits s hr u ok) (k : Unit → Ev Out) :
    (vCheck (aloneEnv s hr false) u ok >>= k) = k () := congrArg (· >>= k) h

section Rows
variable {s : State} {hr : HandRef} {c : Instr} {g : Glyph} {o : BitVec 22}

/-- The formats that a bitwise glyph asks for: one plain format for its three tiles (R132). -/
def bitShapes (b : Bead) (o : BitVec 22) : Bool :=
  !fmtMx (tileFmt b (rTd o)) && tileFmt b (rTa o) == tileFmt b (rTd o) && tileFmt b (rTb o) == tileFmt b (rTd o)

/-- A bitwise glyph whose checks pass writes its row with the scale word that stands (R132). -/
theorem evalBits_ok (c : Instr) (third : Bool) (f : Row → Row → Row → Row)
    (h : VFits s hr (useOf (aloneEnv s hr false) o true third) (bitShapes (beadOf s hr) o)) :
    evalBits (aloneEnv s hr false) c o third f = vWrites (aloneEnv s hr false) c o
      (f (vData s hr (rTa o) (vRow (handAt s hr) o)) (vData s hr (rTb o) (vRowB (handAt s hr) o))
        (vData s hr (rTd o) (vRow (handAt s hr) o)))
      (tileRow (beadOf s hr) (rTd o) (vRow (handAt s hr) o)).scale 0 := by
  unfold evalBits
  exact h.passes _

/-- A bitwise glyph alone on its line writes its row, sets no flag and takes its rows of bound in-endpoints. -/
theorem issue_bits (third : Bool) (f : Row → Row → Row → Row) (r : Ready s hr c g)
    (hslot : (glyphOf c).map (·.slot) = some 2) (hx : hasLexit [c] = false)
    (hl : ∀ a b d, effLexit [.act c a b d] = false) (hd : drawsFree c = false)
    (he : evalGlyph (aloneEnv s hr false) c = evalBits (aloneEnv s hr false) c o third f)
    (hact : ∀ t acc x0 x1, performAct (retire s hr id) t (beadNo hr.br) hr.hand.val (handAt s hr).pc 1
      (successor (handAt s hr) (handAt s hr).pc 1 false) (handAt s hr) false c acc x0 x1
        = takeRows t (beadNo hr.br) (useOf (aloneEnv s hr false) o true third).reads)
    (hu : VFits s hr (useOf (aloneEnv s hr false) o true third) (bitShapes (beadOf s hr) o)) :
    (Host.Outcome.next (issue hr true c s) : Host.Outcome State Fault Refusal)
      = .next (vDone s hr (rTd o) (vRow (handAt s hr) o)
          (f (vData s hr (rTa o) (vRow (handAt s hr) o)) (vData s hr (rTb o) (vRowB (handAt s hr) o))
            (vData s hr (rTd o) (vRow (handAt s hr) o)))
          (tileRow (beadOf s hr) (rTd o) (vRow (handAt s hr) o)).scale 0
          (useOf (aloneEnv s hr false) o true third).reads) :=
  issue_vWrites r (slot_of_glyphOf r.glyph hslot).ge hx hl hd rfl hu (he.trans (evalBits_ok c third f hu)) hact

/-- VMOV whose checks pass writes the row that it reads, with its scale word (R132, R246). -/
theorem evalVmov_ok (c : Instr) (h : VFits s hr (useOf (aloneEnv s hr false) o false false)
      (tileFmt (beadOf s hr) (rTa o) == tileFmt (beadOf s hr) (rTd o))) :
    evalVmov (aloneEnv s hr false) c o = vWrites (aloneEnv s hr false) c o
      (vRead (beadOf s hr) (rTa o) (vRow (handAt s hr) o) 0).data
      (vRead (beadOf s hr) (rTa o) (vRow (handAt s hr) o) 0).scale 0 := by
  unfold evalVmov
  exact h.passes _

/-- VGETL whose checks pass writes ACC with its lane (R132). -/
theorem evalVgetl_ok (c : Instr) (h : VFits s hr ⟨[(rTa o, vRow (handAt s hr) o, 1)], none⟩
      (laneable (tileFmt (beadOf s hr) (rTa o)))) :
    evalVgetl (aloneEnv s hr false) c o = writes [.acc (BitVec.ofNat 64
      (lane (fmtBits (tileFmt (beadOf s hr) (rTa o))) (vData s hr (rTa o) (vRow (handAt s hr) o))
        ((handAt s hr).x1.toNat % fmtLanes (tileFmt (beadOf s hr) (rTa o))))), actOf (aloneEnv s hr false) c] := by
  unfold evalVgetl
  exact h.passes _

/-- VPUTL whose checks pass writes its lane of TD's row (R132). -/
theorem evalVputl_ok (c : Instr) (h : VFits s hr
      ⟨[(rTd o, vRow (handAt s hr) o, 1)], some (rTd o, vRow (handAt s hr) o)⟩ (laneable (tileFmt (beadOf s hr) (rTd o)))) :
    evalVputl (aloneEnv s hr false) c o = vWrites (aloneEnv s hr false) c o
      (putLanes (fmtBits (tileFmt (beadOf s hr) (rTd o))) (vData s hr (rTd o) (vRow (handAt s hr) o))
        ((handAt s hr).x1.toNat % fmtLanes (tileFmt (beadOf s hr) (rTd o)))
        [(handAt s hr).acc.toNat % 2 ^ fmtBits (tileFmt (beadOf s hr) (rTd o))])
      (tileRow (beadOf s hr) (rTd o) (vRow (handAt s hr) o)).scale 0 := by
  unfold evalVputl
  exact h.passes _

/-- VBCAST whose checks pass writes every lane of TD's row (R132). -/
theorem evalVbcast_ok (c : Instr) (h : VFits s hr ⟨[], some (rTd o, vRow (handAt s hr) o)⟩
      (laneable (tileFmt (beadOf s hr) (rTd o)))) :
    evalVbcast (aloneEnv s hr false) c o = vWrites (aloneEnv s hr false) c o
      (putLanes (fmtBits (tileFmt (beadOf s hr) (rTd o))) 0 0 (List.replicate (fmtLanes (tileFmt (beadOf s hr) (rTd o)))
        ((handAt s hr).acc.toNat % 2 ^ fmtBits (tileFmt (beadOf s hr) (rTd o)))))
      (tileRow (beadOf s hr) (rTd o) (vRow (handAt s hr) o)).scale 0 := by
  unfold evalVbcast
  exact h.passes _

end Rows

/-- A glyph that reads no tile takes no row. -/
theorem takeRows_nil (s : State) (i : Nat) : takeRows s i [] = s := by
  have hnone : vTakes (getBead s i) [] = [] := by
    rw [vTakes, List.filterMap_eq_nil_iff]
    intro t _
    split
    next hread => cases hread
    · rfl
  rw [takeRows, hnone, List.foldl_nil]

/-- Settles O24: each glyph's checks pass, and its row or its lane is written as the line retires. -/
theorem rowGlyphs : Obligations.RowGlyphs := by
  intro s hr o g b x e r td ta tb scale plain two three done fd fa k v
  refine ⟨fun q hu _ => ?vand, fun q hu _ => ?vor, fun q hu _ => ?vxor, fun q hu _ => ?vbsl, fun q hu _ => ?vmov,
    fun q hu _ => ?vgetl, fun q hu _ => ?vputl, fun q hu _ => ?vbcast⟩
  case vand => exact issue_bits false (fun a b _ => a &&& b) q rfl rfl (fun _ _ _ => rfl) rfl rfl (fun _ _ _ _ => rfl) hu
  case vor => exact issue_bits false (fun a b _ => a ||| b) q rfl rfl (fun _ _ _ => rfl) rfl rfl (fun _ _ _ _ => rfl) hu
  case vxor => exact issue_bits false (fun a b _ => a ^^^ b) q rfl rfl (fun _ _ _ => rfl) rfl rfl (fun _ _ _ _ => rfl) hu
  case vbsl =>
    exact issue_bits true (fun a b d => (d &&& a) ||| (~~~d &&& b)) q rfl rfl (fun _ _ _ => rfl) rfl rfl
      (fun _ _ _ _ => rfl) hu
  case vmov =>
    exact issue_vWrites q (slot_of_glyphOf q.glyph rfl).ge rfl (fun _ _ _ => rfl) rfl rfl hu (evalVmov_ok _ hu)
      (fun _ _ _ _ => rfl)
  case vgetl =>
    refine next_plain q (evalVgetl_ok _ hu) rfl rfl rfl rfl rfl ?_
    rw [List.foldl_cons, List.foldl_cons, List.foldl_nil, landEff_acc]
    rfl
  case vputl =>
    exact issue_vWrites q (slot_of_glyphOf q.glyph rfl).ge rfl (fun _ _ _ => rfl) rfl rfl hu (evalVputl_ok _ hu)
      (fun _ _ _ _ => rfl)
  case vbcast =>
    exact issue_vWrites q (slot_of_glyphOf q.glyph rfl).ge rfl (fun _ _ _ => rfl) rfl rfl hu (evalVbcast_ok _ hu)
      (fun t _ _ _ => (takeRows_nil t _).symm)

/-! TZERO and TCFG (R123, R124). -/

section Tiles
variable {s : State} {hr : HandRef} {o : BitVec 22}

theorem evalTzero_ok (c : Instr)
    (h : mayWriteTile (beadOf s hr) hr.hand.val (pswPl (handAt s hr).psw) (opdField o) = true) :
    evalTzero (aloneEnv s hr false) o c = writes [actOf (aloneEnv s hr false) c] := by
  have hmay : mayWriteTile (envBead (aloneEnv s hr false)) (aloneEnv s hr false).h (envPl (aloneEnv s hr false))
      (opdField o) = true := h
  rw [evalTzero, hmay]
  rfl

/-- TCFG of a quiet tile that the hand may write, with a shape word that R122 gives a meaning (R124). -/
theorem evalTcfg_ok (c : Instr)
    (hmay : mayWriteTile (beadOf s hr) hr.hand.val (pswPl (handAt s hr).psw) (opdField o) = true)
    (hquiet : tileQuiet (beadOf s hr) (opdField o) = true)
    (hfmt : shapeOk ((handAt s hr).acc.truncate 32 &&& 0xFFFF) = true)
    (hres : ((handAt s hr).acc.truncate 32 &&& 0xFFFF : W32) &&& 0xF0E0 = 0) :
    evalTcfg (aloneEnv s hr false) o c = writes [actOf (aloneEnv s hr false) c] := by
  have hmay' : mayWriteTile (envBead (aloneEnv s hr false)) (aloneEnv s hr false).h (envPl (aloneEnv s hr false))
      (opdField o) = true := hmay
  have hquiet' : tileQuiet (envBead (aloneEnv s hr false)) (opdField o) = true := hquiet
  have hfmt' : shapeOk ((aloneEnv s hr false).x.acc.truncate 32 &&& 0xFFFF) = true := hfmt
  have hres' : ((aloneEnv s hr false).x.acc.truncate 32 &&& 0xFFFF : W32) &&& 0xF0E0 = 0 := hres
  simp only [evalTcfg, hmay', hquiet', hfmt', hres', Bool.not_true, Bool.false_eq_true, if_false, ne_eq, not_true,
    decide_false, Bool.or_self]

end Tiles

/-- A word of 16 bits without TCFG's reserved bits lies within the fields of a shape word (R124). -/
theorem shape_of_unreserved (w : W32) (h : (w &&& 0xFFFF) &&& 0xF0E0 = 0) : (w &&& 0xFFFF) &&& 0xF1F = w &&& 0xFFFF := by
  calc (w &&& 0xFFFF) &&& 0xF1F = ((w &&& 0xFFFF) &&& 0xF1F) ||| ((w &&& 0xFFFF) &&& 0xF0E0) := by
        rw [h]; exact BitVec.or_zero.symm
    _ = w &&& 0xFFFF := by rw [← BitVec.and_or_distrib_left, BitVec.and_assoc]; rfl

theorem reshape_same {b : Bead} {t : Nat} {v : W32} (h : v &&& 0xF1F = tcfgOf b t) : reshape b t v = b := if_pos h

/-- A bead with a new shape word for a tile, whose rows are zero (R124). -/
def reshaped (b : Bead) (t : Nat) (v : W32) : Bead :=
  zeroTile { b with regs := { b.regs with tcfg := mapPut b.regs.tcfg t v } } t

theorem reshape_changed {b : Bead} {t : Nat} {v : W32} (h : v &&& 0xF1F ≠ tcfgOf b t) :
    reshape b t v = reshaped b t (v &&& 0xF1F) := if_neg h

/-- A change of a retired line's bead that leaves the bead as it is changes nothing. -/
theorem modBead_retire_id {s : State} {hr : HandRef} {f : Bead → Bead}
    (h : f (beadOf (retire s hr id) hr) = beadOf (retire s hr id) hr) :
    modBead (retire s hr id) (beadNo hr.br) f = retire s hr id := by
  rw [modBead, show f (getBead (retire s hr id) (beadNo hr.br)) = getBead (retire s hr id) (beadNo hr.br) from h, retire,
    retireTo, getBead_putBead_same, putBead_putBead_same]

/-- A retired line leaves its bead's tile shapes. -/
theorem tcfgOf_retire (s : State) (hr : HandRef) (t : Nat) :
    tcfgOf (beadOf (retire s hr id) hr) t = tcfgOf (beadOf s hr) t := by
  rw [beadOf, retire, retireTo, getBead_putBead_same]
  rfl

/-! TLD and TST at issue (R123, R128, R129, R131). -/

/-- A lone glyph that keeps its line open waits, where its one effect at issue changes its bead by f in each state in which
the bead's accesses reach the same. -/
theorem next_waiting_alike {s : State} {hr : HandRef} {c : Instr} {g : Glyph} {w : Pending} {f : Bead → Bead} {a : Eff}
    (r : Ready s hr c g) (hc : hasLexit [c] = false) (hd : drawsFree c = false) (hlate : isLate c = false)
    (he : evalGlyph (aloneEnv s hr false) c = .ok { effs := [], start := [a], opens := some w }) (hp : effPlain a = true)
    (hf : ∀ u, SeesAlike s u (beadNo hr.br) → applyEff u (beadNo hr.br) hr.hand.val (handAt s hr).pc 1
      (successor (handAt s hr) (handAt s hr).pc 1 false) (handAt s hr) false u a = modBead u (beadNo hr.br) f) :
    (Host.Outcome.next (issue hr true c s) : Host.Outcome State Fault Refusal) = .next (waiting s hr f w) := by
  have hplain : [a].all effPlain = true := by simp [hp]
  rw [issue_ok r (by rw [hc]; exact he) (roomStop_plain (by simpa using hp) s _), hc]
  simp only [lineIssues, pointTo_hand, List.any_cons, List.any_nil, hd, Bool.or_false, Bool.false_eq_true, if_false,
    List.flatMap_cons, List.flatMap_nil, List.filterMap_cons, List.filterMap_nil, List.append_nil, List.find?_cons, hlate,
    List.find?_nil, applyEffs_plain hplain, List.foldl_cons, List.foldl_nil]
  rw [show getHand s (beadNo hr.br) hr.hand.val = handAt s hr from rfl,
    hf _ (pointTo_hand s hr ▸ seesAlike_pointTo s (beadNo hr.br) hr.hand.val)]
  rfl

section Transfers
variable {s u : State} {hr : HandRef} {o : BitVec 22}

/-- TLD and TST whose checks pass begin their transfer (R123, R128, R131, R166). -/
theorem evalTransfer_ok {st : Bool} (c : Instr) (h : TransferFits s hr (transferOf (handAt s hr) o st)) :
    evalTransfer (aloneEnv s hr false) c o st = .ok ⟨[], [actOf (aloneEnv s hr false) c],
      some (.transfer (transferOf (handAt s hr) o st))⟩ := by
  obtain ⟨hlayout, hgranted, hshape, hrow, hreach, haligned, hopen, hunheld⟩ := h
  have henv : envBead (aloneEnv s hr false) = beadOf s hr := rfl
  have hpl : envPl (aloneEnv s hr false) = pswPl (handAt s hr).psw := rfl
  have hx : (aloneEnv s hr false).x = handAt s hr := rfl
  have hh : (aloneEnv s hr false).h = hr.hand.val := rfl
  have hstore : (transferOf (handAt s hr) o st).store = st := rfl
  have hacc : (transferOf (handAt s hr) o st).acc = (handAt s hr).acc := rfl
  rw [hstore] at hgranted
  rw [hacc] at hreach
  have hfar : ((transferOf (handAt s hr) o st).dev && decide ((handAt s hr).acc.toNat ≥ 2 ^ 48)) = false := by
    rw [Bool.and_eq_false_imp]
    intro hdev
    exact decide_eq_false (Nat.not_le.2 (hreach hdev))
  have hfree : ((transferOf (handAt s hr) o st).dev && devHeld (aloneEnv s hr false)) = false := by
    rw [Bool.and_eq_false_imp]
    exact hopen
  have hclear : (!(transferOf (handAt s hr) o st).dev && (transferHulls (transferOf (handAt s hr) o st)
      (tileFmt (beadOf s hr) (transferOf (handAt s hr) o st).tile.val)
      (tileRows (beadOf s hr) (transferOf (handAt s hr) o st).tile.val)).any
        (fun r => (heldRanges (beadOf s hr)).any (overlaps r))) = false := by
    rw [Bool.and_eq_false_imp, Bool.not_eq_true']
    intro hdev
    simpa only [List.any_eq_false, Bool.not_eq_true] using hunheld hdev
  have hfits : (!transferShape (beadOf s hr) (transferOf (handAt s hr) o st)
      || decide ((transferOf (handAt s hr) o st).next ≥ tileRows (beadOf s hr) (transferOf (handAt s hr) o st).tile.val))
        = false := by
    rw [hshape, decide_eq_false (Nat.not_le.2 hrow)]
    rfl
  simp only [evalTransfer, henv, hpl, hx, hh, hlayout, hfar, haligned, hgranted, hfits, hfree, hclear, Bool.not_true,
    Bool.false_eq_true, if_false]

/-- The HBM lines of a transfer's pieces in a state in which the bead's accesses reach the same (R314). -/
theorem spanLines_congr {i : Nat} (h : SeesAlike s u i) (t : Transfer) (ps : List (Nat × Nat)) :
    spanLines u i t ps = spanLines s i t ps := by
  simp only [spanLines, h.ctx, h.reach]

/-- A transfer begun starts to drain the merging-buffer entries of the lines that its rows name (R154, R155). -/
theorem actTransfer_drains {i : Nat} (h : SeesAlike s u i) (x : Hand) (o : BitVec 22) (st : Bool) :
    actTransfer u i x o st = modBead u i (fun b => (spanLines s i (transferOf x o st)
      (((List.range (tileRows (getBead s i) (transferOf x o st).tile.val)).filter
        (fun j => (transferOf x o st).next ≤ j)).flatMap
          (allSpans (transferOf x o st) (tileFmt b (transferOf x o st).tile.val)))).foldl startDrain b) := by
  have hrows (t : Nat) : tileRows (getBead u i) t = tileRows (getBead s i) t := by
    rw [tileRows, tcfgOf, h.regs, ← tcfgOf, ← tileRows]
  rw [actTransfer, drainLines, spanLines_congr h, hrows]
  rfl

end Transfers

/-- Settles O26: each glyph's checks pass; TZERO and TCFG land as their line retires, TLD and TST keep it open. -/
theorem tileGlyphs : Obligations.TileGlyphs := by
  intro s hr o g i b x k v mine
  refine ⟨fun q hmay => ?tzero, fun q hmay hquiet hres hfmt hv => ?same, fun q hmay hquiet hres hfmt hv => ?changed,
    fun st q hfits => ?transfer⟩
  case tzero => exact next_plain q (evalTzero_ok _ hmay) rfl rfl rfl rfl rfl rfl
  case same =>
    have hshape : v &&& 0xF1F = tcfgOf b k := (shape_of_unreserved _ hres).trans hv
    refine next_plain q (evalTcfg_ok _ hmay hquiet (decide_eq_true hfmt) hres) rfl rfl rfl rfl rfl ?_
    exact modBead_retire_id (f := fun b => reshape b k v) (reshape_same (hshape.trans (tcfgOf_retire s hr k).symm))
  case changed =>
    have hshape : v &&& 0xF1F = v := shape_of_unreserved _ hres
    have hnew : v &&& 0xF1F ≠ tcfgOf (beadOf (retire s hr id) hr) k := by rwa [hshape, tcfgOf_retire]
    refine next_plain q (evalTcfg_ok _ hmay hquiet (decide_eq_true hfmt) hres) rfl rfl rfl rfl rfl ?_
    exact modBead_congr (f := fun b => reshape b k v) (f' := fun b => reshaped b k v)
      ((reshape_changed hnew).trans (by rw [hshape]; rfl))
  case transfer =>
    cases st with
    | false =>
      exact next_waiting_alike q rfl rfl rfl (evalTransfer_ok _ hfits) rfl (fun u hu => actTransfer_drains hu x o false)
    | true =>
      exact next_waiting_alike q rfl rfl rfl (evalTransfer_ok _ hfits) rfl (fun u hu => actTransfer_drains hu x o true)

/-! Maps and tiles after a deletion (R124, R248). -/

/-- What a map holds after the entries that satisfy p have been dropped. -/
theorem mapFind_mapDropWhere {α : Type} (m : SMap α) (p : Nat → Bool) (k : Nat) :
    mapFind (mapDropWhere m p) k = if p k then none else mapFind m k := by
  induction m with
  | nil => simp [mapDropWhere, mapFind]
  | cons e m ih =>
    obtain ⟨j, v⟩ := e
    by_cases hj : p j = true
    · rw [mapDropWhere, List.filter_cons_of_neg (by simp [hj]), ← mapDropWhere, ih, mapFind]
      by_cases hk : j = k
      · rw [if_pos (hk ▸ hj), if_pos (hk ▸ hj)]
      · rw [if_neg hk]
    · rw [mapDropWhere, List.filter_cons_of_pos (by simp [hj]), ← mapDropWhere, mapFind, mapFind, ih]
      by_cases hk : j = k
      · rw [if_pos hk, if_pos hk, if_neg (hk ▸ hj)]
      · rw [if_neg hk, if_neg hk]

theorem mapGet_mapDropWhere {α : Type} (d : Nat → α) (m : SMap α) (p : Nat → Bool) (k : Nat) :
    mapGet d (mapDropWhere m p) k = if p k then d k else mapGet d m k := by
  rw [mapGet, mapFind_mapDropWhere, mapGet]
  split
  · rfl
  · rfl

theorem tileRow_zeroTile (b : Bead) (t q : Nat) {r : Nat} (hr : r < 32) :
    tileRow (zeroTile b t) q r = if q = t then {} else tileRow b q r := by
  have htile : (32 * q + r) / 32 = q := by omega
  rw [tileRow, zeroTile, mapGet_mapDropWhere, htile]
  simp only [beq_iff_eq, tileRow]

theorem tcfgOf_reshaped_same (b : Bead) (t : Nat) (v : W32) : tcfgOf (reshaped b t v) t = v := mapGet_mapPut_same _ _ _ _

theorem tcfgOf_reshaped_ne (b : Bead) {t q : Nat} (v : W32) (h : q ≠ t) : tcfgOf (reshaped b t v) q = tcfgOf b q :=
  mapGet_mapPut_ne _ _ _ _ _ h

theorem tileRow_reshaped (b : Bead) (t q : Nat) (v : W32) {r : Nat} (hr : r < 32) :
    tileRow (reshaped b t v) q r = if q = t then {} else tileRow b q r := tileRow_zeroTile _ t q hr

/-! Writes of a bead's registers through control space that may have to wait (R124, R146, R246, R401). -/

section SpaceWrites
variable {s : State} {p : Path} {b : BeadRef} {o : Nat} {v : W32}

theorem locOf_beadAddr (hf : SpaceFits s p b o true) (ho : o < 0x1000) (h4 : o % 4 = 0) (hreg : beadRegAt o = true) :
    locOf s (BitVec.ofNat 30 (beadAddr b o)).toNat = .bead (beadNo b) o :=
  (locOf_ofNat (beadAddr_lt b ho)).trans (locOf_bead hf.present hf.site ho h4 hreg)

theorem spaceWrite_acts (hf : SpaceFits s p b o true) (ho : o < 0x1000) (h4 : o % 4 = 0) (hreg : beadRegAt o = true)
    (hw : beadWriteWaits (beadIn s b) o v = false) :
    spaceWrite s p (beadAddr b o) v = writeBeadReg s (beadNo b) o v .space :=
  access_bead v hf (locOf_beadAddr hf ho h4 hreg) hw

/-- A write that has to wait at its register is held for its requester (R401). -/
theorem spaceWrite_waits (hf : SpaceFits s p b o true) (ho : o < 0x1000) (h4 : o % 4 = 0) (hreg : beadRegAt o = true)
    (hw : beadWriteWaits (beadIn s b) o v = true) :
    spaceWrite s p (beadAddr b o) v = setHeld s p [.bead (beadNo b) o v] := by
  rw [spaceWrite, access_of_quiet _ hf.up hf.quiet, performAcc, writeNow, placeLoc, locOf_beadAddr hf ho h4 hreg]
  dsimp only
  rw [locWrite_bead v hf, writeBead, show beadWriteWaits (getBead s (beadNo b)) o v = true from hw, if_pos rfl, hf.quiet,
    List.nil_append]

end SpaceWrites

/-! BEAD_TCFG_t (R124). -/

/-- What is decided of the offset of BEAD_TCFG_t. -/
theorem tcfg_offset (t : Fin 8) : 0x80 + 4 * t.val < 0x1000 ∧ (0x80 + 4 * t.val) % 4 = 0
    ∧ beadRegAt (0x80 + 4 * t.val) = true ∧ (0x80 + 4 * t.val - 0x80) / 4 = t.val := by
  revert t
  decide

theorem writeBeadReg_tcfg (s : State) (i : Nat) (t : Fin 8) (v : W32) (w : Writer) :
    writeBeadReg s i (0x80 + 4 * t.val) v w = modBead s i (fun b => writeTcfg b t.val v) := by
  fin_cases t <;> rfl

theorem beadWriteWaits_tcfg (b : Bead) (t : Fin 8) (v : W32) :
    beadWriteWaits b (0x80 + 4 * t.val) v = (shapeOk v && !tileQuiet b t.val) := by
  obtain ⟨-, -, -, htile⟩ := tcfg_offset t
  have ht := t.isLt
  rw [beadWriteWaits, if_pos (by omega), htile]

section Shapes
variable {s : State} {p : Path} {br : BeadRef} {t : Fin 8} {v : W32}

/-- A shape word that a write does not have to wait with is judged and taken (R124). -/
theorem beadTcfgWrite_acts (hf : SpaceFits s p br (0x80 + 4 * t.val) true)
    (hw : shapeOk v = true → tileQuiet (beadIn s br) t.val = true) :
    exec (.beadTcfgWrite p br t v) s = .next (modBead s (beadNo br) (fun b => writeTcfg b t.val v)) := by
  obtain ⟨hlt, h4, hreg, -⟩ := tcfg_offset t
  have hwait : beadWriteWaits (beadIn s br) (0x80 + 4 * t.val) v = false := by
    rw [beadWriteWaits_tcfg, Bool.and_eq_false_imp, Bool.not_eq_false']
    exact hw
  exact congrArg Host.Outcome.next ((spaceWrite_acts hf hlt h4 hreg hwait).trans (writeBeadReg_tcfg s _ t v .space))

theorem beadTcfgWrite_waits (hf : SpaceFits s p br (0x80 + 4 * t.val) true) (hfmt : shapeOk v = true)
    (hbusy : tileQuiet (beadIn s br) t.val = false) :
    exec (.beadTcfgWrite p br t v) s = .next (setHeld s p [.bead (beadNo br) (0x80 + 4 * t.val) v]) := by
  obtain ⟨hlt, h4, hreg, -⟩ := tcfg_offset t
  have hwait : beadWriteWaits (beadIn s br) (0x80 + 4 * t.val) v = true := by
    rw [beadWriteWaits_tcfg, hfmt, hbusy]
    rfl
  exact congrArg Host.Outcome.next (spaceWrite_waits hf hlt h4 hreg hwait)

theorem writeTcfg_taken {b : Bead} {t : Nat} (h : shapeOk v = true) : writeTcfg b t v = reshape b t v := if_pos h

theorem writeTcfg_reserved {b : Bead} {t : Nat} (h : shapeOk v = false) : writeTcfg b t v = b :=
  if_neg (Bool.eq_false_iff.1 h)

end Shapes

/-! BEAD_QCLOSE (R248, R250). -/

/-- Returning credits leaves every bead. -/
theorem beads_returnCredits (s : State) (net : Net) (i ep n : Nat) (closure : Bool) :
    (returnCredits s net i ep n closure).beads = s.beads := by
  have hadd (l : List (Nat × Credit)) : ∀ s : State, (addCredits s l).beads = s.beads := by
    induction l with
    | nil => exact fun _ => rfl
    | cons c l ih => exact fun s => ih _
  unfold returnCredits
  dsimp only
  split
  · exact hadd _ s
  · exact hadd _ s

theorem beads_foldl {α : Type} {f : State → α → State} (h : ∀ s a, (f s a).beads = s.beads) (l : List α) :
    ∀ s : State, (l.foldl f s).beads = s.beads := by
  induction l with
  | nil => exact fun _ => rfl
  | cons a l ih => exact fun s => (ih _).trans (h s a)

/-- A bead's endpoints after some in-endpoints and slots have closed: they lose what they hold (R248). -/
structure ClosesIns (e u : Endpoints) (sin : BitVec 8) (vin : BitVec 4) : Prop where
  sinClosed : u.sinClosed = e.sinClosed ||| sin
  vinClosed : u.vinClosed = e.vinClosed ||| vin
  sin : u.sin = mapDropWhere e.sin (fun k => sin.getLsbD k)
  vin : u.vin = mapDropWhere e.vin (fun k => vin.getLsbD k)
  soutClosed : u.soutClosed = e.soutClosed

theorem closeIns_closes (s : State) (i : Nat) (sin : BitVec 8) (vin : BitVec 4) (tok : BitVec 16) :
    ClosesIns (getBead s i).ends (getBead (closeIns s i sin vin tok) i).ends sin vin := by
  unfold closeIns
  extract_lets b e ss vs ts nS nV nT total s₁ s₂ s₃
  have hbeads : s₃.beads = s.beads := (beads_foldl (fun s _ => beads_returnCredits s _ _ _ _ _) ts s₂).trans
    ((beads_foldl (fun s _ => beads_returnCredits s _ _ _ _ _) vs s₁).trans
      (beads_foldl (fun s _ => beads_returnCredits s _ _ _ _ _) ss s))
  have hbead : getBead s₃ i = getBead s i := by rw [getBead, hbeads, ← getBead]
  rw [getBead_modBead_same, hbead]
  exact ⟨rfl, rfl, rfl, rfl, rfl⟩

theorem writeQclose_closes (s : State) (i : Nat) (v : W32) : ClosesIns (getBead s i).ends
    (getBead (writeQclose s i v) i).ends (v.truncate 8) ((v >>> 8).truncate 4) := closeIns_closes s i _ _ _

/-! BEAD_BLOT_CFG (R145, R146). -/

theorem beadBlotCfgWrite_acts {s : State} {p : Path} {br : BeadRef} {v : W32} (hf : SpaceFits s p br 0x68 true)
    (hs : (beadIn s br).blot.switching = none) :
    exec (.beadBlotCfgWrite p br v) s = .next (modBead s (beadNo br) (fun b => writeBlotCfg b v)) := by
  have hwait : beadWriteWaits (beadIn s br) 0x68 v = false := by
    rw [show beadWriteWaits (beadIn s br) 0x68 v = (beadIn s br).blot.switching.isSome from rfl, hs]
    rfl
  exact congrArg Host.Outcome.next (spaceWrite_acts hf (by decide) (by decide) rfl hwait)

theorem blotAsk_pf {b : Bead} {v : W32} (hsize : fld v.toNat 2 0 = b.blot.size.toNat) (h4 : b.blot.size ≤ 4) :
    blotAsk b v = .pf := by
  have hle : ¬ fld v.toNat 2 0 > 4 := by rw [hsize]; exact Nat.not_lt.2 h4
  exact (if_neg hle).trans (if_pos hsize)

/-- A SIZE that would take the bank of an enabled tray is refused (R146). -/
theorem blotAsk_refuse {b : Bead} {v : W32} (h4 : fld v.toNat 2 0 ≤ 4) (hgrow : b.blot.size.toNat < fld v.toNat 2 0)
    (hon : trayOn b = true) (hin : trayIn b.regs.trayCfg (fld v.toNat 2 0) = true) : blotAsk b v = .refuse :=
  (if_neg (Nat.not_lt.2 h4)).trans ((if_neg hgrow.ne').trans (if_pos ⟨hgrow, hon, hin⟩))

theorem writeBlotCfg_pf {b : Bead} {v : W32} (h : blotAsk b v = .pf) :
    writeBlotCfg b v = { b with blot := { b.blot with pf := v.getLsbD 8 } } := by rw [writeBlotCfg, h]

theorem writeBlotCfg_refuse {b : Bead} {v : W32} (h : blotAsk b v = .refuse) :
    writeBlotCfg b v = { b with blot := { b.blot with refused := true } } := by rw [writeBlotCfg, h]

theorem writeBlotCfg_switch {b : Bead} {v : W32} (h : blotAsk b v = .switch) :
    writeBlotCfg b v = startSwitch b (v.truncate 3) (v.getLsbD 8) := by rw [writeBlotCfg, h]

/-- Settles O38: each write reaches its register or waits for it, and the register's own rule says what it does. -/
theorem beadRegisterWrites : Obligations.BeadRegisterWrites := by
  unfold Obligations.BeadRegisterWrites
  intro s br p t v i b held o shape
  refine ⟨fun hf hfmt hq hsame => ?same, fun hf hfmt hq hnew => ?changed, fun hf hfmt hq => ?waits,
    fun hf hfmt => ?reserved, fun hf hq => ?bind, fun hf hq => ?bindWaits, fun hf => ?close,
    fun hf hs hsize h4 => ?pf, fun hf hs hask => ?switch, fun hf hs h4 hgrow hon hin => ?refuse⟩
  case same =>
    refine (beadTcfgWrite_acts hf (fun _ => hq)).trans (congrArg Host.Outcome.next (modBead_congr ?_))
    exact (writeTcfg_taken (decide_eq_true hfmt)).trans (reshape_same hsame)
  case changed =>
    have hbead : beadIn (modBead s i (fun b => writeTcfg b t.val v)) br = reshaped b t.val shape := by
      rw [beadIn, getBead_modBead_same, writeTcfg_taken (decide_eq_true hfmt)]
      exact reshape_changed hnew
    refine ⟨_, beadTcfgWrite_acts hf (fun _ => hq), ?_⟩
    rw [hbead]
    refine ⟨tcfgOf_reshaped_same b t.val shape, fun r hr => ?_, fun q hne => ?_⟩
    · rw [tileRow_reshaped b _ _ _ hr, if_pos rfl]
    · have hval : q.val ≠ t.val := fun h => hne (Fin.ext h)
      exact ⟨tcfgOf_reshaped_ne b shape hval, fun r hr => by rw [tileRow_reshaped b _ _ _ hr, if_neg hval]⟩
  case waits => exact beadTcfgWrite_waits hf (decide_eq_true hfmt) hq
  case reserved =>
    have hbad : shapeOk v = false := decide_eq_false (Nat.not_le.2 hfmt)
    exact (beadTcfgWrite_acts hf (fun h => by rw [hbad] at h; cases h)).trans (congrArg Host.Outcome.next
      (modBead_congr (writeTcfg_reserved hbad)))
  case bind =>
    have hwait : beadWriteWaits b 0x520 v = false := congrArg (!·) hq
    exact congrArg Host.Outcome.next (spaceWrite_acts hf (by decide) (by decide) rfl hwait)
  case bindWaits =>
    have hwait : beadWriteWaits b 0x520 v = true := congrArg (!·) hq
    exact congrArg Host.Outcome.next (spaceWrite_waits hf (by decide) (by decide) rfl hwait)
  case close =>
    obtain ⟨hsin, hvin, hwords, hrows, hsout⟩ := writeQclose_closes s i v
    have hgo := spaceWrite_bead v hf (by decide) (by decide) rfl (by unfold NeverWaits; decide)
    refine ⟨_, congrArg Host.Outcome.next hgo, hsin, hvin, fun e he hv => ?_, fun e he hv => ?_, fun e he hv => ?_, hsout⟩
    · exact (congrArg (fun m => mapGet (fun _ => []) m e) hwords).trans ((mapGet_mapDropWhere _ _ _ _).trans
        (if_pos (by simp [he, hv])))
    · exact (congrArg (fun m => mapGet (fun _ => []) m e) hrows).trans ((mapGet_mapDropWhere _ _ _ _).trans
        (if_pos (by simp [he, hv])))
    · exact (congrArg (fun m => mapGet (fun _ => []) m e) hwords).trans ((mapGet_mapDropWhere _ _ _ _).trans
        (if_neg (by simp [hv])))
  case pf =>
    exact (beadBlotCfgWrite_acts hf hs).trans (congrArg Host.Outcome.next
      (modBead_congr (writeBlotCfg_pf (blotAsk_pf hsize h4))))
  case switch =>
    exact (beadBlotCfgWrite_acts hf hs).trans (congrArg Host.Outcome.next (modBead_congr (writeBlotCfg_switch hask)))
  case refuse =>
    exact (beadBlotCfgWrite_acts hf hs).trans (congrArg Host.Outcome.next
      (modBead_congr (writeBlotCfg_refuse (blotAsk_refuse h4 hgrow hon hin))))

/-! Rows of the own folio, of 64 bytes each (R128, R130). -/

/-- The address of row j of a transfer of the own folio (R99, R128). -/
def rowAddr (i : Nat) (t : Transfer) (j : Nat) : Nat := folioBase i + (t.x0.toNat + j * t.x1.toNat) % 2 ^ 32

/-- A transfer of 64-byte rows of the own folio whose tile is plain and bound to no endpoint. -/
structure LocalRows (b : Bead) (t : Transfer) : Prop where
  dev : t.dev = false
  trn : t.trn = false
  lay : t.lay = false
  es : t.es = 0
  plain : fmtMx (tileFmt b t.tile.val) = false
  unboundIn : boundIn b t.tile.val = none
  unboundOut : boundOuts b t.tile.val = []
  snap : t.snap = []

theorem LocalRows.congr {b b' : Bead} {t : Transfer} (h : LocalRows b t) (hregs : b'.regs = b.regs)
    (hends : b'.ends = b.ends) : LocalRows b' t where
  dev := h.dev
  trn := h.trn
  lay := h.lay
  es := h.es
  plain := by rw [tileFmt, tcfgOf, hregs]; exact h.plain
  unboundIn := by rw [boundIn, hends]; exact h.unboundIn
  unboundOut := by rw [boundOuts, hends]; exact h.unboundOut
  snap := h.snap

/-- A base with a signed pitch is formed modulo 2^32 (R128). -/
theorem trAddr_pitch {t : Transfer} (h : t.dev = false) (j : Nat) :
    trAddr t (j * trPitch t) = (t.x0.toNat + j * t.x1.toNat) % 2 ^ 32 := by
  have hoff : BitVec.ofInt 32 (j * trPitch t) = BitVec.ofNat 32 j * t.x1 := by
    rw [trPitch, BitVec.ofInt_mul, BitVec.ofInt_natCast, BitVec.ofInt_toInt]
  rw [trAddr, h, hoff]
  simp only [Bool.false_eq_true, if_false, BitVec.toNat_add, BitVec.toNat_mul, BitVec.toNat_ofNat]
  rw [Nat.mod_mul_mod, Nat.add_mod_mod]

section LocalRows
variable {s : State} {i : Nat} {t : Transfer} {b : Bead}

theorem rowSpans_local (h : LocalRows b t) (j : Nat) :
    rowSpans t (tileFmt b t.tile.val) j = [((t.x0.toNat + j * t.x1.toNat) % 2 ^ 32, 64)] := by
  simp only [rowSpans, h.trn, h.lay, h.es, h.plain, trAddr_pitch h.dev, Bool.false_eq_true, if_false, ne_eq, not_true]

theorem scaleSpan_local (h : LocalRows b t) (j : Nat) : scaleSpan t (tileFmt b t.tile.val) j = none := by
  rw [scaleSpan, h.plain]
  rfl

theorem rowBytes_length (r : Row) : (rowBytes r).length = 64 := toBytes_length 64 _

/-- A row of a TLD takes the 64 bytes at its address, and its scale word stands (R128). -/
theorem moveRow_load (h : LocalRows (getBead s i) t) (hst : t.store = false) (j : Nat) :
    moveRow s i t j = modBead s i (fun b => putRow b t.tile.val j
      ⟨bytesRow (loadBytes s (rowAddr i t j) 64), (tileRow b t.tile.val j).scale⟩) := by
  have hsnap : t.snap[j]? = none := by rw [h.snap]; rfl
  have hout (v : TileRow) : boundOuts (getBead (modBead s i (fun b => putRow b t.tile.val j v)) i) t.tile.val = [] := by
    rw [getBead_modBead_same]
    exact h.unboundOut
  simp only [moveRow, hst, hsnap, rowSpans_local h, scaleSpan_local h, h.dev, readSpans, List.append_nil,
    Bool.false_eq_true, if_false, writeRow, hout, List.foldl_nil]
  rfl

/-- A row of a TST goes to its address (R128). -/
theorem moveRow_store (h : LocalRows (getBead s i) t) (hst : t.store = true) (j : Nat) :
    moveRow s i t j = storeBytes s (rowAddr i t j) (rowBytes (tileRow (getBead s i) t.tile.val j).data) := by
  simp only [moveRow, hst, h.unboundIn, rowSpans_local h, scaleSpan_local h, h.dev, writeSpans, if_true,
    Bool.false_eq_true, if_false, List.take_of_length_le (rowBytes_length _).le]
  rfl

/-- A row of the own folio that does not fail moves at once (R130). -/
theorem moveRows_step {pc : W32} {len h fuel stop : Nat} (hp : LocalRows (getBead s i) t) (hlt : t.next < stop)
    (hf : rowFault ⟨s, i, h, getHand s i h, pc, len, pc⟩ t t.next = none) :
    moveRows pc len i h (fuel + 1) stop s t
      = moveRows pc len i h fuel stop (moveRow s i t t.next) { t with next := t.next + 1 } := by
  have hclosed : rowClosed (getBead s i) t = none := by
    unfold rowClosed
    split
    · rfl
    · rw [outClosedFault, hp.unboundOut]
      rfl
  have hclear (ps : List (Nat × Nat)) : rowClear s i t ps = true := by rw [rowClear, hp.dev]; rfl
  have hsample : sampleSource s i t = (s, t) := by rw [sampleSource, hp.trn]; rfl
  have hready : rowReady s i t t.next = true := by
    rw [rowReady, hclear, Bool.or_true, Bool.true_and]
    split
    · rw [hp.unboundIn]
    · rw [outReady, hp.unboundOut]
      rfl
  simp only [moveRows, if_neg (Nat.not_le.2 hlt), hf, hclosed, hclear, hsample, hready, Option.isSome_none, Bool.or_self,
    Bool.or_true, Bool.false_eq_true, if_false, if_true]

/-- Rows that none stops all move, whatever I says of the state as they do. -/
theorem moveRows_reaches {pc : W32} {len h stop : Nat} {I : Nat → State → Prop}
    (hrow : ∀ n u, n < stop → I n u → LocalRows (getBead u i) t
      ∧ rowFault ⟨u, i, h, getHand u i h, pc, len, pc⟩ t n = none ∧ I (n + 1) (moveRow u i t n)) (fuel : Nat) :
    ∀ (n : Nat) (u : State), I n u → stop ≤ n + fuel →
      ∃ v, moveRows pc len i h fuel stop u { t with next := n } = (v, { t with next := max n stop })
        ∧ I (max n stop) v := by
  induction fuel with
  | zero =>
    intro n u hI hle
    rw [Nat.max_eq_left (show stop ≤ n from hle)]
    exact ⟨u, rfl, hI⟩
  | succ fuel ih =>
    intro n u hI hle
    by_cases hn : stop ≤ n
    · rw [Nat.max_eq_left hn]
      exact ⟨u, if_pos hn, hI⟩
    · have hlt : n < stop := Nat.not_le.1 hn
      obtain ⟨hp, hf, hI'⟩ := hrow n u hlt hI
      obtain ⟨v, hv, hIv⟩ := ih (n + 1) (moveRow u i t n) hI' (by omega)
      rw [show max (n + 1) stop = max n stop by omega] at hv hIv
      have hp' : LocalRows (getBead u i) { t with next := n } := ⟨hp.dev, hp.trn, hp.lay, hp.es, hp.plain, hp.unboundIn,
        hp.unboundOut, hp.snap⟩
      exact ⟨v, (moveRows_step hp' hlt hf).trans hv, hIv⟩

/-- Where every row has moved nothing is tried again (R130). -/
theorem movePast_moved {l : OpenLine} {k stop : Nat} {v : State} {t' : Transfer} (fuel : Nat)
    (h : moveRows l.pc l.len i k 32 stop s t = (v, t')) (hstop : stop ≤ t'.next) :
    movePast l i k (fuel + 1) stop s t = (v, t') := by
  simp only [movePast, h, ge_iff_le, hstop, decide_true, Bool.true_or, if_true]

end LocalRows

/-! What decides whether a row of the own folio fails (R70, R130, R167). -/

theorem localOk_congr {b b' : Bead} (hregs : b'.regs = b.regs) (hblot : b'.blot = b.blot) (x : Hand) (pl a n : Nat) :
    localOk b' x pl a n = localOk b x pl a n := by
  simp only [localOk, granuleOk, hregs, hblot]

/-- The fault of a row of the own folio depends on the hand, the bead's registers and endpoints, what the blotter takes
of the folio, and the parity of what is read. -/
theorem rowFault_congr {s u : State} {i h : Nat} {x y : Hand} {pc succ : W32} {len : Nat} {t : Transfer}
    (hdev : t.dev = false) (hx : y = x) (hregs : (getBead u i).regs = (getBead s i).regs)
    (hblot : (getBead u i).blot = (getBead s i).blot) (hends : (getBead u i).ends = (getBead s i).ends)
    (hpar : t.store = false → u.parity = s.parity)
    (hbad : t.store = true → (getBead u i).rowBad = (getBead s i).rowBad) (j : Nat) :
    rowFault ⟨u, i, h, y, pc, len, succ⟩ t j = rowFault ⟨s, i, h, x, pc, len, succ⟩ t j := by
  subst hx
  have hrefused : pieceRefused ⟨u, i, h, y, pc, len, succ⟩ t = pieceRefused ⟨s, i, h, y, pc, len, succ⟩ t := by
    funext p
    simp only [pieceRefused, hdev, Bool.false_eq_true, if_false, envBead, envPl, localOk_congr hregs hblot] <;> rfl
  have hpiece (hst : t.store = false) :
      pieceBad ⟨u, i, h, y, pc, len, succ⟩ t = pieceBad ⟨s, i, h, y, pc, len, succ⟩ t := by
    funext p
    simp only [pieceBad, hdev, Bool.false_eq_true, if_false, hpar hst]
  have hfmt : tileFmt (getBead u i) t.tile.val = tileFmt (getBead s i) t.tile.val := by
    rw [tileFmt, tcfgOf, hregs, ← tcfgOf, ← tileFmt]
  have hbound : boundIn (getBead u i) t.tile.val = boundIn (getBead s i) t.tile.val := by rw [boundIn, hends, ← boundIn]
  cases hst : t.store with
  | false => simp only [rowFault, envBead, hfmt, hrefused, hst, hpiece hst, Bool.not_false, if_true]
  | true =>
    simp only [rowFault, envBead, hfmt, hrefused, hst, hbad hst, hbound, Bool.not_true, Bool.false_eq_true, if_false] <;> rfl

/-! The rows of a TLD and of a TST (R129, R130). -/

/-- The state with the rows of a TLD below row n in their tile. -/
structure LoadedTo (s : State) (i : Nat) (t : Transfer) (n : Nat) (u : State) : Prop where
  mem : u.mem = s.mem
  parity : u.parity = s.parity
  cores : SameCores s u
  regs : (getBead u i).regs = (getBead s i).regs
  blot : (getBead u i).blot = (getBead s i).blot
  ends : (getBead u i).ends = (getBead s i).ends
  rows : ∀ j, t.next ≤ j → j < n → (tileRow (getBead u i) t.tile.val j).data = bytesRow (loadBytes s (rowAddr i t j) 64)

/-- The state with the rows of a TST below row n in memory. -/
structure StoredTo (s : State) (i : Nat) (t : Transfer) (n : Nat) (u : State) : Prop where
  beads : u.beads = s.beads
  begun : t.next ≤ n
  mem : u.mem = ((List.range (n - t.next)).map (t.next + ·)).foldl (fun m j => memWriteN m (rowAddr i t j)
    (rowBytes (tileRow (getBead s i) t.tile.val j).data)) s.mem

section Moved
variable {s u : State} {i n : Nat} {t : Transfer}

theorem tileRow_putRow_same (b : Bead) (t r : Nat) (v : TileRow) : tileRow (putRow b t r v) t r = v :=
  mapGet_mapPut_same _ _ _ _

theorem tileRow_putRow_ne (b : Bead) (t : Nat) {r j : Nat} (v : TileRow) (h : j ≠ r) :
    tileRow (putRow b t r v) t j = tileRow b t j := mapGet_mapPut_ne _ _ _ _ _ (by omega)

theorem LoadedTo.moves (h : LoadedTo s i t n u) (hp : LocalRows (getBead u i) t) (hst : t.store = false) :
    LoadedTo s i t (n + 1) (moveRow u i t n) := by
  have hcores := h.cores.trans (sameCores_moveRow u i t n)
  rw [moveRow_load hp hst] at hcores ⊢
  refine ⟨h.mem, h.parity, hcores, ?_, ?_, ?_, fun j hle hlt => ?_⟩
  · rw [getBead_modBead_same]
    exact h.regs
  · rw [getBead_modBead_same]
    exact h.blot
  · rw [getBead_modBead_same]
    exact h.ends
  · rw [getBead_modBead_same]
    by_cases hj : j = n
    · rw [hj, tileRow_putRow_same, loadBytes, h.mem, ← loadBytes]
    · rw [tileRow_putRow_ne _ _ _ hj]
      exact h.rows j hle (by omega)

theorem StoredTo.bead (h : StoredTo s i t n u) : getBead u i = getBead s i := by rw [getBead, h.beads, ← getBead]

theorem beads_storeBytes (s : State) (a : Nat) (bs : List W8) : (storeBytes s a bs).beads = s.beads := rfl

theorem mem_storeBytes (s : State) (a : Nat) (bs : List W8) : (storeBytes s a bs).mem = memWriteN s.mem a bs := rfl

theorem StoredTo.moves (h : StoredTo s i t n u) (hp : LocalRows (getBead u i) t) (hst : t.store = true) :
    StoredTo s i t (n + 1) (moveRow u i t n) := by
  rw [moveRow_store hp hst]
  refine ⟨(beads_storeBytes _ _ _).trans h.beads, Nat.le_succ_of_le h.begun, ?_⟩
  have hrow : t.next + (n - t.next) = n := Nat.add_sub_cancel' h.begun
  rw [mem_storeBytes, Nat.succ_sub h.begun, List.range_succ, List.map_append, List.foldl_append, ← h.mem, List.map_cons,
    List.map_nil, List.foldl_cons, List.foldl_nil, hrow, h.bead]

/-- A TLD of the own folio whose remaining rows do not fail takes them all (R129). -/
theorem movePast_loads {l : OpenLine} {h rows : Nat} (hp : LocalRows (getBead s i) t) (hst : t.store = false)
    (hrows : rows ≤ 32)
    (hf : ∀ j, t.next ≤ j → j < rows → rowFault ⟨s, i, h, getHand s i h, l.pc, l.len, l.pc⟩ t j = none) :
    ∃ v, movePast l i h 32 rows s t = (v, { t with next := max t.next rows }) ∧ LoadedTo s i t (max t.next rows) v := by
  have hstart : LoadedTo s i t t.next s :=
    ⟨rfl, rfl, .refl s, rfl, rfl, rfl, fun j hle hlt => absurd hlt (Nat.not_lt.2 hle)⟩
  obtain ⟨v, hv, hI, -⟩ := moveRows_reaches (t := t) (I := fun n u => LoadedTo s i t n u ∧ t.next ≤ n)
    (fun n u hlt hI => by
      obtain ⟨hI, hle⟩ := hI
      have hpu := hp.congr hI.regs hI.ends
      refine ⟨hpu, ?_, hI.moves hpu hst, Nat.le_succ_of_le hle⟩
      rw [rowFault_congr hp.dev (hI.cores.getHand i h) hI.regs hI.blot hI.ends (fun _ => hI.parity)
        (fun hs => by rw [hst] at hs; cases hs)]
      exact hf n hle hlt) 32 t.next s ⟨hstart, le_rfl⟩ (by omega)
  exact ⟨v, movePast_moved 31 hv (Nat.le_max_right _ _), hI⟩

/-- A TST of the own folio whose remaining rows do not fail stores them all (R129). -/
theorem movePast_stores {l : OpenLine} {h rows : Nat} (hp : LocalRows (getBead s i) t) (hst : t.store = true)
    (hrows : rows ≤ 32)
    (hf : ∀ j, t.next ≤ j → j < rows → rowFault ⟨s, i, h, getHand s i h, l.pc, l.len, l.pc⟩ t j = none) :
    ∃ v, movePast l i h 32 rows s t = (v, { t with next := max t.next rows }) ∧ StoredTo s i t (max t.next rows) v := by
  have hstart : StoredTo s i t t.next s :=
    ⟨rfl, le_rfl, by rw [Nat.sub_self, List.range_zero, List.map_nil, List.foldl_nil]⟩
  obtain ⟨v, hv, hI⟩ := moveRows_reaches (t := t) (I := StoredTo s i t)
    (fun n u hlt hI => by
      have hb := hI.bead
      have hpu : LocalRows (getBead u i) t := hb ▸ hp
      refine ⟨hpu, ?_, hI.moves hpu hst⟩
      have hx : getHand u i h = getHand s i h := by rw [getHand, hb, ← getHand]
      rw [rowFault_congr hp.dev hx (congrArg Bead.regs hb) (congrArg Bead.blot hb) (congrArg Bead.ends hb)
        (fun hs => by rw [hst] at hs; cases hs) (fun _ => congrArg Bead.rowBad hb)]
      exact hf n hI.begun hlt) 32 t.next s hstart (by omega)
  exact ⟨v, movePast_moved 31 hv (Nat.le_max_right _ _), hI⟩

end Moved

/-! TRANSFER_COMPLETE (R129, R131). -/

theorem openTransfer_alone {x : Hand} {l : OpenLine} {t : Transfer} (hl : x.openLine = some l)
    (hwhy : l.why = [.transfer t]) : openTransfer x = some t := by
  rw [openTransfer, hl]
  dsimp only
  rw [hwhy]
  rfl

/-- Whose rows have all moved, a transfer of the own folio alone on its line lets the line retire, and TSR.ROW is 0. -/
theorem transferComplete_next {s u : State} {hr : HandRef} {l : OpenLine} {t t' : Transfer} (hup : BeadUp s hr.br)
    (hl : (handAt s hr).openLine = some l) (hwhy : l.why = [.transfer t]) (heffs : l.effs = []) (hkill : l.killed = false)
    (hlate : l.late = none) (hstop : (handAt s hr).stopAfter = false) (hheld : (handAt s hr).heldFaults = [])
    (hmove : movePast l (beadNo hr.br) hr.hand.val 32 (tileRows (beadOf s hr) t.tile.val) s t = (u, t'))
    (hall : tileRows (beadOf s hr) t.tile.val ≤ t'.next) (hdev : t'.dev = false) (hcores : SameCores s u) :
    exec (.transferComplete hr) s = .next (putHand u (beadNo hr.br) hr.hand.val
      { continueAt { handAt s hr with tsr := 0 } l.pc l.len false none with heldLine := [], openLine := none }) := by
  have hx : getHand u (beadNo hr.br) hr.hand.val = handAt s hr := hcores.getHand _ _
  have hy : getHand (modHand u (beadNo hr.br) hr.hand.val (fun x => { x with tsr := 0 })) (beadNo hr.br) hr.hand.val
      = { handAt s hr with tsr := 0 } := by rw [getHand_modHand_same, hx]
  have hgo : (decide (t'.next < tileRows (beadOf s hr) t.tile.val) || rowsWait u (beadNo hr.br) t') = false := by
    rw [decide_eq_false (Nat.not_lt.2 hall), rowsWait, hdev, Bool.and_false]
    rfl
  have hwent := closePending_went (done := isTransfer) (w := .transfer t) ((congrArg Hand.openLine hy).trans hl) hwhy
    heffs hkill hlate ((congrArg Hand.stopAfter hy).trans hstop) ((congrArg Hand.heldFaults hy).trans hheld) rfl
  have hopen := openTransfer_alone hl hwhy
  have hexec : exec (.transferComplete hr) s = .next (closePending (modHand u (beadNo hr.br) hr.hand.val
      (fun x => { x with tsr := 0 })) (beadNo hr.br) hr.hand.val isTransfer []) := by
    change execTransferComplete hr s = _
    rw [handAt] at hl hopen
    rw [beadOf] at hmove hgo
    simp only [execTransferComplete, handNo, hl, hopen, beadRuns_of hup, hmove, hgo, Bool.not_true, Bool.false_eq_true,
      if_false]
  rw [hexec, hwent, hy, modHand, putHand_putHand_same]

/-! TRANSFER_ROW_FAULT (R130). -/

/-- The causes of the faults that a step of a check may raise. -/
def FaultsIn (cs : List Nat) {α : Type} (r : Ev α) : Prop := ∀ f, r = .error (.fault f) → f.cause ∈ cs

section FaultsIn
variable {α : Type} {cs : List Nat}

theorem faultsIn_ok (a : α) : FaultsIn cs (.ok a : Ev α) := fun _ h => by cases h

theorem faultsIn_raiseDev {c va : Nat} (h : c ∈ cs) : FaultsIn cs (raiseDev c va : Ev α) := fun f hf => by
  cases hf
  exact h

theorem FaultsIn.ite {p : Prop} [Decidable p] {a b : Ev α} (ha : FaultsIn cs a) (hb : FaultsIn cs b) :
    FaultsIn cs (if p then a else b) := by
  split
  · exact ha
  · exact hb

theorem FaultsIn.bind {β : Type} {a : Ev α} {k : α → Ev β} (ha : FaultsIn cs a) (hk : ∀ v, FaultsIn cs (k v)) :
    FaultsIn cs (a >>= k) := by
  intro f hf
  cases a with
  | error e =>
    cases hf
    exact ha f rfl
  | ok v => exact hk v f hf

end FaultsIn

/-- A check of a device address raises XMISS and FBOUND alone (R100, R101). -/
theorem faultsIn_checkDev (e : Env) (va : W64) (n al : Nat) (write atomic : Bool) :
    FaultsIn [4, 5] (checkDev e va n al write atomic) := by
  unfold checkDev
  extract_lets a v ctx refuse
  have hmiss : FaultsIn [4, 5] (raiseDev 0x04 v : Ev DevTarget) := faultsIn_raiseDev (by decide)
  have hbound : FaultsIn [4, 5] (raiseDev 0x05 v : Ev DevTarget) := faultsIn_raiseDev (by decide)
  have hrefuse (t : Nat) (k : DevTarget) : FaultsIn [4, 5] (refuse t k) := by
    simp only [refuse]
    split
    · intro f hf
      cases hf
      exact List.mem_cons_of_mem 4 List.mem_cons_self
    · exact faultsIn_ok _
  refine hmiss.ite (.ite (hmiss.ite ?_) ?_)
  · extract_lets
    split
    · exact hrefuse _ _
    · exact (hrefuse _ _).ite hmiss
  · split
    · exact hmiss
    · dsimp only
      refine hmiss.ite (hmiss.ite (hbound.ite ((hrefuse _ _).bind (fun k => ?_))))
      split
      · exact hbound.ite (faultsIn_ok k)
      · exact faultsIn_ok k

/-- A fault found, if any, has a cause of R130 or R249: 4 to 7. -/
def RowCause (o : Option GFault) : Prop := ∀ f, o = some f → f.cause ≤ 7

theorem rowCause_none : RowCause none := fun _ h => by cases h

theorem rowCause_some {f : GFault} (h : f.cause ≤ 7) : RowCause (some f) := fun _ hg => Option.some.inj hg ▸ h

theorem RowCause.ite {p : Prop} [Decidable p] {a b : Option GFault} (ha : RowCause a) (hb : RowCause b) :
    RowCause (if p then a else b) := by
  split
  · exact ha
  · exact hb

theorem rowCause_map {α : Type} (o : Option α) {q : α → GFault} (hq : ∀ a, (q a).cause ≤ 7) : RowCause (o.map q) := by
  intro f hf
  obtain ⟨a, -, rfl⟩ := Option.map_eq_some_iff.1 hf
  exact hq a

theorem rowCause_findSome {α : Type} {q : α → Option GFault} (hq : ∀ p, RowCause (q p)) (ps : List α) :
    RowCause (ps.findSome? q) := by
  intro f hf
  obtain ⟨p, -, hp⟩ := List.exists_of_findSome?_eq_some hf
  exact hq p f hp

theorem rowCause_pieceRefused (e : Env) (t : Transfer) (p : Nat × Nat) : RowCause (pieceRefused e t p) := by
  unfold pieceRefused
  refine .ite ?_ (.ite (rowCause_some (by simp)) rowCause_none)
  split
  next f hf =>
    have hin := faultsIn_checkDev _ _ _ _ _ _ _ hf
    simp only [List.mem_cons, List.not_mem_nil, or_false] at hin
    exact rowCause_some (by omega)
  · exact .ite (rowCause_some (by simp)) rowCause_none
  · exact rowCause_none

theorem rowCause_pieceBad (e : Env) (t : Transfer) (p : Nat × Nat) : RowCause (pieceBad e t p) := by
  unfold pieceBad
  refine .ite ?_ (rowCause_map _ (fun w => by simp))
  split
  · exact rowCause_none
  · exact .ite rowCause_none (rowCause_some (by simp))

/-- A row's fault at its request or in what it reads is XMISS, FBOUND or FPARITY (R130). -/
theorem rowCause_rowFault (e : Env) (t : Transfer) (j : Nat) : RowCause (rowFault e t j) := by
  unfold rowFault
  extract_lets b ps
  refine .ite rowCause_none ?_
  cases hreq : ps.findSome? (pieceRefused e t) with
  | some f => exact rowCause_some (rowCause_findSome (rowCause_pieceRefused e t) ps f hreq)
  | none =>
    refine .ite (rowCause_findSome (rowCause_pieceBad e t) ps) (.ite ?_ rowCause_none)
    exact rowCause_some (by simp)

theorem rowCause_rowClosed (b : Bead) (t : Transfer) : RowCause (rowClosed b t) :=
  .ite rowCause_none (rowCause_map _ (fun v => by simp))

/-- A transfer's fault is XMISS, FBOUND, FPARITY or QCLOSED (R130, R249). -/
theorem rowCause_transferFault (s : State) (i k : Nat) (l : OpenLine) (t : Transfer) :
    RowCause (transferFault s i k l t) := by
  unfold transferFault
  split
  next f hf => exact rowCause_some (rowCause_rowFault _ t _ f hf)
  · split
    next f hf => exact rowCause_some (rowCause_rowClosed _ t f hf)
    · exact .ite (rowCause_some (by simp)) rowCause_none

/-- The ladder's third rung finds no segment of a Slate that holds no page's job (R348). -/
theorem cureRow_none {s : State} {i : Nat} {t : Transfer} (hdev : t.dev = false)
    (hjob : (getSlate s (i / 256)).pg.job = none) : cureRow s i t = s := by
  have hpiece (p : Nat × Nat) : curePiece s i t p = s := by
    have hrefetch (target : Nat) : refetch s (i / 256) 0 target p.1 p.2 = none := by rw [refetch, hjob]
    simp only [curePiece, hdev, hrefetch, Option.getD_none, Bool.not_false, if_true, ite_self]
  have hfold (l : List (Nat × Nat)) : l.foldl (fun s p => curePiece s i t p) s = s := by
    induction l with
    | nil => rfl
    | cons p l ih => rw [List.foldl_cons, hpiece, ih]
  rw [cureRow, hfold, ite_self]

/-- A row of the own folio that FPARITY fails leaves nothing further behind. -/
theorem noteRowFault_local {s : State} {i k : Nat} {l : OpenLine} {t : Transfer} (hdev : t.dev = false) :
    noteRowFault s i k l t = s := by
  have hnone (ps : List (Nat × Nat)) (q : Nat × Nat → Bool) : ps.find? (fun p => t.dev && !t.store && q p) = none := by
    rw [List.find?_eq_none, hdev]
    simp
  simp only [noteRowFault, hnone]

/-- Rows that a transfer has already passed do not move again (R130). -/
theorem movePast_stays {s : State} {i k stop : Nat} {l : OpenLine} {t : Transfer} (h : stop ≤ t.next) :
    movePast l i k 32 stop s t = (s, t) := movePast_moved 31 (if_pos h) h

/-- A hand whose open line is recorded as it stands is as before. -/
theorem hand_openLine_map {x : Hand} {l : OpenLine} {f : OpenLine → OpenLine} (hl : x.openLine = some l) (hf : f l = l) :
    { x with openLine := x.openLine.map f } = x := by
  rw [hl, Option.map_some, hf, ← hl]

/-- A transfer that a line already waits for is recorded as it stands. -/
theorem putTransfer_same {s : State} {i h : Nat} {l : OpenLine} {t : Transfer} (hl : (getHand s i h).openLine = some l)
    (hwhy : l.why = [.transfer t]) : getHand (putTransfer s i h t) i h = getHand s i h := by
  refine (getHand_modHand_same s i h _).trans (hand_openLine_map hl ?_)
  obtain ⟨pc, len, succ, why, effs, late, killed⟩ := l
  cases hwhy
  rfl

/-- A hand of which a row's fault has ended the transfer: its line is given up at that row (R130). -/
def transferEnded (x : Hand) (t : Transfer) : Hand :=
  { dropOperand { x with tsr := BitVec.ofNat 32 t.next } with openLine := none }

/-- A precise fault of slot 3 of a line (R77). -/
def rowFaultRec (l : OpenLine) (f : GFault) : FaultRec :=
  { cause := BitVec.ofNat 8 f.cause, slot := 3, dev := f.dev, len := BitVec.ofNat 3 l.len, sfa := f.sfa }

/-- A hand stopped by a row's fault at user level, with the line's address in its save set and TSR.ROW at the row (R76,
R130). -/
def rowStopped (x : Hand) (l : OpenLine) (t : Transfer) (f : GFault) : Hand :=
  { emptied (transferEnded x t) with
    st := .stopped .fault, save1 := ⟨l.pc, (transferEnded x t).psw, scauseOf (rowFaultRec l f), (rowFaultRec l f).sfa⟩ }

section RowStopped
variable (x : Hand) (l : OpenLine) (t : Transfer) (f : GFault)

theorem stopAfter_rowStopped : (rowStopped x l t f).stopAfter = x.stopAfter := rfl
theorem heldFaults_rowStopped : (rowStopped x l t f).heldFaults = x.heldFaults := rfl
theorem psw_transferEnded : (transferEnded x t).psw = x.psw := rfl

end RowStopped

/-- After a line whose hand neither stops nor holds a fault, nothing follows (R66, R411). -/
theorem afterLine_calm {s : State} {i h : Nat} (hstop : (getHand s i h).stopAfter = false)
    (hheld : (getHand s i h).heldFaults = []) : afterLine s i h = s := by
  rw [afterLine, hstop, takeImprecise_none hheld]
  rfl

theorem modHand_modHand (s : State) (i h : Nat) (f g : Hand → Hand) :
    modHand (modHand s i h f) i h g = putHand s i h (g (f (getHand s i h))) := by
  rw [modHand, getHand_modHand_same, modHand, putHand_putHand_same]

section RowFault
variable {s : State} {i h : Nat} {l : OpenLine} {t : Transfer} {f : GFault}

/-- A fault that no staged message, log record or second address goes with (R78). -/
theorem glyphFault_alone (hlog : f.log = none) (habort : f.abort = false) (hothers : f.others = []) :
    glyphFault s i h l.pc l.len 3 f = takeFault s i h l.pc (rowFaultRec l f) := by
  simp only [glyphFault, hlog, habort, hothers, Bool.false_eq_true, if_false]
  rfl

/-- The fault of a row of a Running hand's transfer, at the row that the transfer has come to (R77, R130). -/
theorem faultOpen_running (hl : (getHand s i h).openLine = some l) (hwhy : l.why = [.transfer t])
    (hkill : l.killed = false) (hst : (getHand s i h).st = .running) : faultOpen s i h 3 f
      = afterLine (glyphFault (putHand s i h (transferEnded (getHand s i h) t)) i h l.pc l.len 3 f) i h := by
  have hopen := openTransfer_alone hl hwhy
  simp only [faultOpen, hl, hopen, hkill, hst, Bool.false_eq_true, if_false]
  rw [modHand_modHand]
  rfl

/-- A row's fault at user level of hands 1 to 3 stops the hand with the line's address and TSR.ROW at the row (R76,
R130). -/
theorem faultOpen_stops (hl : (getHand s i h).openLine = some l) (hwhy : l.why = [.transfer t])
    (hkill : l.killed = false) (hst : (getHand s i h).st = .running) (hstop : (getHand s i h).stopAfter = false)
    (hheld : (getHand s i h).heldFaults = []) (hlog : f.log = none) (habort : f.abort = false) (hothers : f.others = [])
    (hcause : BitVec.ofNat 8 f.cause ≠ 0x0D) (hpl : pswPl (getHand s i h).psw = 0) (hh : h ≠ 0)
    (h0 : (getHand s i 0).heldFaults = []) :
    getHand (faultOpen s i h 3 f) i h = rowStopped (getHand s i h) l t f := by
  have hself : getHand (putHand s i h (transferEnded (getHand s i h) t)) i h = transferEnded (getHand s i h) t :=
    getHand_putHand_same _ _ _ _
  have hzero : (getHand (putHand s i h (transferEnded (getHand s i h) t)) i 0).heldFaults = [] := by
    rw [getHand_putHand_ne _ _ _ _ _ _ (.inr hh.symm), h0]
  have hlevel : pswPl (getHand (putHand s i h (transferEnded (getHand s i h) t)) i h).psw = 0 := by
    rw [hself, psw_transferEnded, hpl]
  obtain ⟨htaken, -⟩ := takeFault_stopped (spc := l.pc) (f := rowFaultRec l f) hcause hlevel hh hzero
  rw [hself, ← rowStopped] at htaken
  have hcalm := afterLine_calm (by rw [htaken, stopAfter_rowStopped, hstop])
    (by rw [htaken, heldFaults_rowStopped, hheld])
  rw [faultOpen_running hl hwhy hkill hst, glyphFault_alone hlog habort hothers, hcalm, htaken]

end RowFault

/-- TRANSFER_ROW_FAULT at the row that a transfer has come to, which has a fault that the ladder's third rung leaves
(R130, R348). -/
theorem transferRowFault_next {s : State} {hr : HandRef} {l : OpenLine} {t : Transfer} {f : GFault} {row : Fin 32}
    (hup : BeadUp s hr.br) (hl : (handAt s hr).openLine = some l) (hwhy : l.why = [.transfer t])
    (hrow : row.val = t.next) (hlt : t.next < tileRows (beadOf s hr) t.tile.val)
    (hf : transferFault (putTransfer s (beadNo hr.br) hr.hand.val t) (beadNo hr.br) hr.hand.val l t = some f)
    (hcure : f.cause = 6 → t.dev = false ∧ (getSlate s (beadNo hr.br / 256)).pg.job = none) :
    exec (.transferRowFault hr row) s
      = .next (faultOpen (putTransfer s (beadNo hr.br) hr.hand.val t) (beadNo hr.br) hr.hand.val 3 f) := by
  have hopen := openTransfer_alone hl hwhy
  have hcured : (if (nextFault (putTransfer s (beadNo hr.br) hr.hand.val t) (beadNo hr.br) hr.hand.val l t).any
      (fun f => f.cause == 6) then cureRow (putTransfer s (beadNo hr.br) hr.hand.val t) (beadNo hr.br) t
      else putTransfer s (beadNo hr.br) hr.hand.val t) = putTransfer s (beadNo hr.br) hr.hand.val t := by
    split
    next hany =>
      obtain ⟨f', hnext, h6⟩ := (Option.any_eq_true _ _).1 hany
      have hff : f' = f := by
        rw [transferFault, hnext] at hf
        exact Option.some.inj hf
      obtain ⟨hdev, hjob⟩ := hcure (by rw [← hff]; exact beq_iff_eq.1 h6)
      exact cureRow_none hdev hjob
    · rfl
  have hnoted : (if f.cause = 6 then
      noteRowFault (putTransfer s (beadNo hr.br) hr.hand.val t) (beadNo hr.br) hr.hand.val l t
      else putTransfer s (beadNo hr.br) hr.hand.val t) = putTransfer s (beadNo hr.br) hr.hand.val t := by
    split
    next h6 => exact noteRowFault_local (hcure h6).1
    · rfl
  change execTransferRowFault hr row s = _
  rw [handAt] at hl hopen
  rw [beadOf] at hlt
  simp only [execTransferRowFault, handNo, hl, hopen, movePast_stays hrow.le, if_neg (Nat.not_lt.2 hrow.le), hcured, hf,
    hnoted]
  rw [if_neg (by simp [beadRuns_of hup, hrow, hlt])]

/-! NIB_DRAIN (R138). -/

theorem mem_storeAll {α : Type} (at_ : α → Nat) (bytes : α → List W8) (l : List α) : ∀ s : State,
    (l.foldl (fun s p => storeBytes s (at_ p) (bytes p)) s).mem
      = l.foldl (fun m p => memWriteN m (at_ p) (bytes p)) s.mem := by
  induction l with
  | nil => exact fun _ => rfl
  | cons p l ih => exact fun s => ih _

/-- The rows and then the scale bytes of a drain, written (R138). -/
def drainStores (s : State) (i : Nat) (d : NibDrain) : State :=
  d.scales.zipIdx.foldl (fun s p => storeBytes s (folioBase i + ngScaleBase d.desc + p.2) [p.1])
    (d.rows.zipIdx.foldl (fun s p => storeBytes s (folioBase i + ngBase d.desc + p.2 * ngPitch d.desc) p.1) s)

theorem beads_drainStores (s : State) (i : Nat) (d : NibDrain) : (drainStores s i d).beads = s.beads :=
  (beads_foldl (fun _ _ => beads_storeBytes _ _ _) _ _).trans (beads_foldl (fun _ _ => beads_storeBytes _ _ _) _ _)

theorem mem_drainStores (s : State) (i : Nat) (d : NibDrain) : (drainStores s i d).mem
    = d.scales.zipIdx.foldl (fun m p => memWriteN m (folioBase i + ngScaleBase d.desc + p.2) [p.1])
        (d.rows.zipIdx.foldl (fun m p => memWriteN m (folioBase i + ngBase d.desc + p.2 * ngPitch d.desc) p.1)
          s.mem) := by
  rw [drainStores, mem_storeAll, mem_storeAll]

/-- The bead's oldest drain lands: its rows and scale bytes, and its summary in FSW (R138). -/
theorem drainLands_eq {s : State} {i : Nat} {d : NibDrain} {ds : List NibDrain} (h : (getBead s i).nibDrains = d :: ds) :
    drainLands s i = modHand (drainStores (modBead s i (fun b => { b with nibDrains := ds })) i d) i d.hand.val
      (fun x => { x with fsw := x.fsw ||| d.summary }) := by
  rw [drainLands, h]
  rfl

theorem nibDrain_next {s : State} {b : BeadRef} {d : NibDrain} {ds : List NibDrain} (hup : BeadUp s b)
    (h : (beadIn s b).nibDrains = d :: ds) : exec (.nibDrain b) s
      = .next (modHand (drainStores (modBead s (beadNo b) (fun b => { b with nibDrains := ds })) (beadNo b) d) (beadNo b)
          d.hand.val (fun x => { x with fsw := x.fsw ||| d.summary })) :=
  congrArg Host.Outcome.next ((if_pos (beadRuns_of hup)).trans (drainLands_eq h))

/-- What the rows of a drain leave of its bead. -/
theorem getBead_drainStores (s : State) (i : Nat) (d : NibDrain) (ds : List NibDrain) :
    getBead (drainStores (modBead s i (fun b => { b with nibDrains := ds })) i d) i
      = { getBead s i with nibDrains := ds } := by
  rw [getBead, beads_drainStores, ← getBead, getBead_modBead_same]

/-- Settles O35: the rows of the own folio all move and the line goes; a row's fault is its hand's, as at user level; a
drain lands. -/
theorem transferEvents : Obligations.TransferEvents := by
  unfold Obligations.TransferEvents
  intro s hr l t f row d ds i b x rows at_ e left plain calm kept
  have hleft {j : Nat} : j ∈ left ↔ t.next ≤ j ∧ j < max t.next rows := by
    simp only [left, List.mem_map, List.mem_range]
    constructor
    · rintro ⟨k, hk, rfl⟩
      omega
    · rintro ⟨hle, hlt⟩
      exact ⟨j - t.next, by omega, by omega⟩
  refine ⟨fun hc hp hf => ?complete, fun hc hst hpl hh h0 hrow hlt hf hlog habort hothers hcure => ?fault,
    fun hup hd => ?drain⟩
  case complete =>
    obtain ⟨hup, hl, hwhy, heffs, hkill, hlate, hstop, hheld⟩ := hc
    obtain ⟨hdev, htrn, hlay, hes, hmx, hin, hout, hsnap⟩ := hp
    have hlocal : LocalRows b t := ⟨hdev, htrn, hlay, hes, hmx, hin, List.head?_eq_none_iff.1 hout, hsnap⟩
    have hrows : rows ≤ 32 := by
      have hlt : fld (tcfgOf b t.tile.val).toNat 4 0 < 32 := Nat.mod_lt _ (by decide)
      exact hlt
    have hfree (j : Nat) (hle : t.next ≤ j) (hlt : j < rows) : rowFault e t j = none := hf j (hleft.2 ⟨hle, by omega⟩)
    cases hst : t.store with
    | false =>
      obtain ⟨u, hmove, hu⟩ := movePast_loads hlocal hst hrows hfree
      refine ⟨_, transferComplete_next hup hl hwhy heffs hkill hlate hstop hheld hmove (Nat.le_max_right _ _) hdev
        hu.cores, ?_⟩
      refine ⟨getHand_putHand_same _ _ _ _, fun _ => ⟨hu.mem, fun j hj => ?_⟩, fun h => by cases h⟩
      obtain ⟨hle, hlt⟩ := hleft.1 hj
      rw [beadOf, getBead_putHand_same]
      exact hu.rows j hle hlt
    | true =>
      obtain ⟨u, hmove, hu⟩ := movePast_stores hlocal hst hrows hfree
      refine ⟨_, transferComplete_next hup hl hwhy heffs hkill hlate hstop hheld hmove (Nat.le_max_right _ _) hdev
        (.of_beads hu.beads), ?_⟩
      refine ⟨getHand_putHand_same _ _ _ _, ?_, fun _ => ⟨?_, ?_⟩⟩
      · intro h
        cases h
      · rw [beadOf, getBead_putHand_same]
        exact (congrArg Bead.tiles hu.bead : (getBead u i).tiles = b.tiles)
      · have hcount : max t.next rows - t.next = rows - t.next := by omega
        have hmem := hu.mem
        rw [hcount] at hmem
        exact hmem
  case fault =>
    obtain ⟨hup, hl, hwhy, -, hkill, -, hstop, hheld⟩ := hc
    have hx : getHand kept i hr.hand.val = x := putTransfer_same hl hwhy
    have hne : hr.hand.val ≠ 0 := fun h => hh (Fin.ext h)
    have hzero : (getHand kept i 0).heldFaults = [] :=
      (congrArg Hand.heldFaults (getHand_modHand_ne s i hr.hand.val _ hne.symm)).trans h0
    have hcause : BitVec.ofNat 8 f.cause ≠ 0x0D := by
      have h7 := rowCause_transferFault _ _ _ _ _ f hf
      intro h
      have hnat : f.cause % 2 ^ 8 = 13 := congrArg BitVec.toNat h
      omega
    have hstops := faultOpen_stops (f := f) (t := t) ((congrArg Hand.openLine hx).trans hl) hwhy hkill
      ((congrArg Hand.st hx).trans hst) ((congrArg Hand.stopAfter hx).trans hstop)
      ((congrArg Hand.heldFaults hx).trans hheld) hlog habort hothers hcause (by rw [hx]; exact hpl) hne hzero
    refine ⟨_, transferRowFault_next hup hl hwhy hrow hlt hf hcure, ?_⟩
    rw [handAt, hstops, hx, hrow]
    exact ⟨rfl, rfl, rfl, rfl⟩
  case drain =>
    refine ⟨_, nibDrain_next hup hd, ?_, mem_drainStores _ i d, ?_⟩
    · rw [beadOf, modHand, getBead_putHand_same, getBead_drainStores]
      rfl
    · rw [getHand_modHand_same, getHand, getBead_drainStores]
      rfl

end Sys2Proof.Machine

end TileProofs

/-! SUPPORT. Proofs of the statements of family 06: stores to device addresses, the blotter and its merging buffer, and the
quill (O12, O14, O43, O44). -/

section BlotterAndQuillProofs

namespace Sys2Proof.Machine

/-! Stores to device addresses (R142, R153, R264). -/

/-- The glyphs that may store to a device address, performed as `actDevStore` says; `x` is the hand as the line found it. -/
structure DevStoreGlyph (hr : HandRef) (o : BitVec 22) (c : Instr) (slot : Nat) (x : Hand) (bs : List W8) : Prop where
  runs : ∀ s, exec c s = .next (issue hr true c s)
  stays : hasLexit [c] = false
  draws : drawsFree c = false
  exits : ∀ acc x0 x1, effLexit [.act c acc x0 x1] = false
  operand : ∃ g, glyphOf c = some g ∧ g.opd = o
  loads : isDevLoad c = false
  stores : opdMode o = 5 → isDevStore c = true
  evals : ∀ e : Env, e.x = x → evalGlyph e c = evalSt e c o bs
  performs : ∀ old s i h pc len succ out x0 x1,
    performAct old s i h pc len succ x out c x.acc x0 x1 = actDevStore s i h pc len slot o x.acc bs

theorem devStoreGlyph_memStores {hr : HandRef} {r : XReg} {o : BitVec 22} {x : Hand} {p : Instr × Nat × List W8}
    (hp : p ∈ memStores x hr r o) : DevStoreGlyph hr o p.1 p.2.1 x p.2.2 := by
  have hmode {b : Bool} (hb : b = true) (h : opdMode o = 5) : (opdMode o == 5 && b) = true := by rw [hb, h]; rfl
  simp only [memStores, List.mem_cons, List.not_mem_nil, or_false] at hp
  rcases hp with rfl | rfl | rfl | rfl | rfl | rfl
  on_goal 5 =>
    exact ⟨fun _ => rfl, rfl, rfl, fun _ _ _ => rfl, ⟨_, rfl, rfl⟩, by cases r <;> exact Bool.and_false _,
      hmode (by cases r <;> rfl), fun _ h => by rw [← h]; rfl, fun _ _ _ _ _ _ _ _ _ _ => rfl⟩
  all_goals
    exact ⟨fun _ => rfl, rfl, rfl, fun _ _ _ => rfl, ⟨_, rfl, rfl⟩, Bool.and_false _, hmode rfl,
      fun _ h => by rw [← h]; rfl, fun _ _ _ _ _ _ _ _ _ _ => rfl⟩

section Stores
variable {s : State} {hr : HandRef} {o : BitVec 22} {c : Instr} {g : Glyph} {slot : Nat} {bs : List W8} {x : Xlat}

/-- The line of HBM that a device-address store reaches. -/
theorem effLine_store {h : Hand} (d : DevStoreGlyph hr o c slot h bs) (fits : DevFits s hr o bs.length true false x) :
    effLine s (beadNo hr.br) c (handAt s hr).acc true = (some x).filter (fun y => inHbm y.pa) := by
  obtain ⟨g, hg, rfl⟩ := d.operand
  obtain ⟨hlow, hspace, hx⟩ := checkDev_mem fits.checked
  rw [Nat.mod_eq_of_lt hlow] at hspace hx
  have hspace' : inTallySpace (devEa (handAt s hr).acc g.opd).toNat = false := hspace
  have hlow' : ¬ 2 ^ 48 ≤ (devEa (handAt s hr).acc g.opd).toNat := Nat.not_le.2 hlow
  have hx' : translate s (beadCtx (getBead s (beadNo hr.br))) (devEa (handAt s hr).acc g.opd).toNat true = some x := hx
  simp only [effLine, hg, hspace', ge_iff_le, hlow', decide_false, Bool.or_false, Bool.false_eq_true, if_false, hx']

/-- A store to tally space reaches no line of HBM. -/
theorem effLine_storeTally {h : Hand} {n t q : Nat} {up : Bool} (d : DevStoreGlyph hr o c slot h bs)
    (hc : checkDev (aloneEnv s hr false) (devAt s hr o) n n true false = .ok (.tally t q up)) :
    effLine s (beadNo hr.br) c (handAt s hr).acc true = none := by
  obtain ⟨g, hg, rfl⟩ := d.operand
  obtain ⟨hlow, hspace⟩ := checkDev_tally hc
  rw [Nat.mod_eq_of_lt hlow] at hspace
  have hspace' : inTallySpace (devEa (handAt s hr).acc g.opd).toNat = true := hspace
  simp only [effLine, hg, hspace', Bool.or_true, if_true]

/-- A device-address store finds room: it reaches no line of HBM, or one that the merging buffer can take (R153). -/
theorem roomStop_store {h : Hand} (d : DevStoreGlyph hr o c slot h bs) (hm : opdMode o = 5) (acc : W64) (x0 x1 : W32)
    (hroom : ∀ y, effLine s (beadNo hr.br) c acc true = some y → mergeRoom (beadOf s hr) (y.pa / 64) = true) :
    roomStop s (beadNo hr.br) [.act c acc x0 x1] = none := by
  cases hline : effLine s (beadNo hr.br) c acc true with
  | none => exact roomStop_none (by simp [effNeeds, d.loads, d.stores hm, hline])
  | some y =>
    have hroom' : (decide ((getBead s (beadNo hr.br)).blot.merge.length < 8)
        || (getBead s (beadNo hr.br)).blot.merge.any (fun m => m.line == y.pa / 64 && !m.draining)) = true := hroom y hline
    cases hjoin : (getBead s (beadNo hr.br)).blot.merge.any (fun m => m.line == y.pa / 64 && !m.draining) with
    | true => exact roomStop_none (by simp [effNeeds, d.loads, d.stores hm, hline, hjoin])
    | false =>
      rw [hjoin, Bool.or_false, decide_eq_true_iff] at hroom'
      have hfew : ¬ 8 < 1 + (getBead s (beadNo hr.br)).blot.merge.length := by omega
      simp [roomStop, effNeeds, d.loads, d.stores hm, hline, hjoin, hfew]

/-- A store to a device address that its checks let through: its line retires, and the store goes to memory. -/
theorem next_store {t : State} (d : DevStoreGlyph hr o c slot (handAt s hr) bs) (q : Ready s hr c g)
    (heval : evalSt (aloneEnv s hr false) c o bs = writes [actOf (aloneEnv s hr false) c])
    (hroom : roomStop s (beadNo hr.br) [actOf (aloneEnv s hr false) c] = none)
    (ht : actDevStore (retire s hr id) (beadNo hr.br) hr.hand.val (handAt s hr).pc 1 slot o (handAt s hr).acc bs = t) :
    exec c s = .next t := by
  rw [d.runs]
  refine next_act q ((d.evals _ rfl).trans heval) d.stays d.draws (d.exits _ _ _) (.inl d.loads) hroom ?_
  rw [actOf, landEff_act]
  exact (d.performs _ _ _ _ _ _ _ _ _ _).trans ht

theorem evalSt_tally {t q : Nat} {up : Bool} (hm : opdMode o = 5) (hopen : devHeld (aloneEnv s hr false) = false)
    (hc : checkDev (aloneEnv s hr false) (devAt s hr o) bs.length bs.length true false = .ok (.tally t q up)) :
    evalSt (aloneEnv s hr false) c o bs = writes [actOf (aloneEnv s hr false) c] := by
  have hc' : checkDev (aloneEnv s hr false) (devEa (aloneEnv s hr false).x.acc o) bs.length bs.length true false
      = .ok (.tally t q up) := hc
  simp only [evalSt, if_pos hm, hc', Bind.bind, Except.bind, hopen]
  rfl

theorem evalSt_mem (fits : DevFits s hr o bs.length true false x)
    (hroom : ∀ k off, regionOf x.pa = .hbm k off → mergeRoom (beadOf s hr) (x.pa / 64) = true) :
    evalSt (aloneEnv s hr false) c o bs = writes [actOf (aloneEnv s hr false) c] := by
  have hc : checkDev (aloneEnv s hr false) (devEa (aloneEnv s hr false).x.acc o) bs.length bs.length true false
      = .ok (.mem x) := fits.checked
  simp only [evalSt, if_pos fits.mode, hc, Bind.bind, Except.bind, fits.open_, Bool.false_eq_true, if_false]
  split
  next k off hregion => exact if_pos (hroom k off hregion)
  · rfl

theorem actDevStore_tally {t : State} (hspace : inTallySpace (devVa s hr o) = true) :
    actDevStore t (beadNo hr.br) hr.hand.val (handAt s hr).pc 1 slot o (handAt s hr).acc bs
      = requested s t hr slot (devVa s hr o) ⟨devVa s hr o, none, false⟩ (.store bs) := if_pos hspace

section Translated
variable {t : State} (hsee : SeesAlike s t (beadNo hr.br)) (hspace : inTallySpace (devVa s hr o) = false)
  (hx : translate s (beadCtx (beadOf s hr)) (devVa s hr o) true = some x)
include hsee hspace hx

/-- A store to HBM goes to the blotter and the merging buffer (R153). -/
theorem actDevStore_hbm {k off : Nat} (hregion : regionOf x.pa = .hbm k off) :
    actDevStore t (beadNo hr.br) hr.hand.val (handAt s hr).pc 1 slot o (handAt s hr).acc bs
      = modBead t (beadNo hr.br) (fun b => hbmStore b hr.hand.val slot 1 (BitVec.ofNat 48 (devVa s hr o)) x bs) := by
  have hspace' : inTallySpace ((devEa (handAt s hr).acc o).toNat % 2 ^ 48) = false := hspace
  have hreach := hsee.reaches hx
  rw [devVa, devAt] at hreach
  simp only [actDevStore, hspace', hreach, hregion, Bool.false_eq_true, if_false]
  rfl

/-- A store to another home puts its request in flight (R142). -/
theorem actDevStore_out (hregion : ∀ k off, regionOf x.pa ≠ .hbm k off) :
    actDevStore t (beadNo hr.br) hr.hand.val (handAt s hr).pc 1 slot o (handAt s hr).acc bs
      = requested s t hr slot (devVa s hr o) x (.store bs) := by
  have hspace' : inTallySpace ((devEa (handAt s hr).acc o).toNat % 2 ^ 48) = false := hspace
  have hreach := hsee.reaches hx
  rw [devVa, devAt] at hreach
  simp only [actDevStore, hspace', hreach, Bool.false_eq_true, if_false]
  rfl

end Translated

end Stores

/-- Settles O12: the store's checks pass, and it reaches the merging buffer or its request goes out as its line retires. -/
theorem deviceStores : Obligations.DeviceStores := by
  intro s hr r o g p x i n va put hp q
  have d := devStoreGlyph_memStores hp
  have hsee : SeesAlike s (retire s hr id) (beadNo hr.br) := seesAlike_retireTo s hr none id
  have hmem (fits : DevFits s hr o n true false x)
      (hroom : ∀ k off, regionOf x.pa = .hbm k off → mergeRoom (beadOf s hr) (x.pa / 64) = true) {t : State}
      (ht : actDevStore (retire s hr id) i hr.hand.val (handAt s hr).pc 1 p.2.1 o (handAt s hr).acc p.2.2 = t) :
      exec p.1 s = .next t := by
    refine next_store d q (evalSt_mem fits hroom) (roomStop_store d fits.mode _ _ _ (fun y hy => ?_)) ht
    obtain ⟨hsome, hhbm⟩ := Option.filter_eq_some_iff.1 ((effLine_store d fits).symm.trans hy)
    obtain rfl := Option.some.inj hsome
    obtain ⟨k, off, hregion⟩ := regionOf_of_inHbm hhbm
    exact hroom k off hregion
  refine ⟨fun k off fits hregion hroom => ?hbm, fun fits hregion => ?other, fun t u up hm hopen hc => ?tally⟩
  case hbm =>
    obtain ⟨-, hspace, hx⟩ := checkDev_mem fits.checked
    exact hmem fits (fun _ _ _ => hroom) (actDevStore_hbm hsee hspace hx hregion)
  case other =>
    obtain ⟨-, hspace, hx⟩ := checkDev_mem fits.checked
    exact hmem fits (fun k off h => absurd h (hregion k off)) (actDevStore_out hsee hspace hx hregion)
  case tally =>
    refine next_store d q (evalSt_tally hm hopen hc) (roomStop_store d hm _ _ _ (fun y hy => ?_))
      (actDevStore_tally (checkDev_tally hc).2)
    rw [show (aloneEnv s hr false).x.acc = (handAt s hr).acc from rfl, effLine_storeTally d hc] at hy
    cases hy

/-! Blotter maintenance and PREF (R152, R158, R159). -/

/-- A glyph whose one effect takes none of the entries that lines share. -/
structure QuietGlyph (hr : HandRef) (c : Instr) : Prop where
  runs : ∀ s, exec c s = .next (issue hr true c s)
  stays : hasLexit [c] = false
  draws : drawsFree c = false
  exits : ∀ acc x0 x1, effLexit [.act c acc x0 x1] = false
  loads : isDevLoad c = false
  stores : isDevStore c = false

/-- The maintenance glyphs of the A slot, and PREF (R106). -/
def maintGlyphs (hr : HandRef) (o : BitVec 22) : List Instr :=
  [.blcln hr true o, .blinv hr true o, .blci hr true o, .blswClean hr true o, .blswInvalidate hr true o,
    .blswCleanInvalidate hr true o, .blswAll hr true o, .pref hr true o]

theorem quietGlyph_maintGlyphs {hr : HandRef} {o : BitVec 22} {c : Instr} (hc : c ∈ maintGlyphs hr o) : QuietGlyph hr c := by
  simp only [maintGlyphs, List.mem_cons, List.not_mem_nil, or_false] at hc
  rcases hc with rfl | rfl | rfl | rfl | rfl | rfl | rfl | rfl
  all_goals exact ⟨fun _ => rfl, rfl, rfl, fun _ _ _ => rfl, Bool.and_false _, Bool.and_false _⟩

/-- A quiet glyph whose one effect is its act retires at once, and the act is performed as its line retires. -/
theorem QuietGlyph.next {s t : State} {hr : HandRef} {c : Instr} {g : Glyph} (d : QuietGlyph hr c) (q : Ready s hr c g)
    (heval : evalGlyph (aloneEnv s hr false) c = writes [actOf (aloneEnv s hr false) c])
    (ht : landEff s hr none (retire s hr id) (actOf (aloneEnv s hr false) c) = t) : exec c s = .next t := by
  rw [d.runs]
  exact next_act q heval d.stays d.draws (d.exits _ _ _) (.inl d.loads) (roomStop_act d.loads d.stores) ht

section Maintenance
variable {s t : State} {hr : HandRef} {o : BitVec 22} {x : Xlat} {line : Nat}

/-- A maintenance glyph names this line: that of its translated address, or that at its place in the data array (R158). -/
def MaintFinds (s : State) (hr : HandRef) (o : BitVec 22) (line : Nat) : Prop :=
  maintLine s (beadNo hr.br) (handAt s hr) (handAt s hr).acc o = some line
    ∧ ∀ c, evalMaint (aloneEnv s hr false) c o = writes [actOf (aloneEnv s hr false) c]

theorem maintFinds_dev (hm : opdMode o = 5) (hlow : (devAt s hr o).toNat < 2 ^ 48)
    (hx : translate s (beadCtx (beadOf s hr)) (devAt s hr o).toNat false = some x) : MaintFinds s hr o (x.pa / 64) := by
  have hx' : translate s (beadCtx (getBead s (beadNo hr.br))) (devEa (handAt s hr).acc o).toNat false = some x := hx
  have hlow' : (devEa (handAt s hr).acc o).toNat < 2 ^ 48 := hlow
  refine ⟨?_, fun c => ?_⟩
  · rw [maintLine, if_pos hm, Nat.mod_eq_of_lt hlow', hx']
    rfl
  · have hnone : ¬ ((devEa (aloneEnv s hr false).x.acc o).toNat ≥ 2 ^ 48
        ∨ (translate (aloneEnv s hr false).s (beadCtx (envBead (aloneEnv s hr false)))
            (devEa (aloneEnv s hr false).x.acc o).toNat false).isNone = true) := by
      rintro (h | h)
      · exact absurd hlow' (Nat.not_lt.2 h)
      · have hsome : (some x).isNone = true := (congrArg Option.isNone hx').symm.trans h
        cases hsome
    rw [evalMaint, if_pos hm]
    exact if_neg hnone

theorem maintFinds_local (hm : opdMode o ≤ 3) (hin : inBlotter (beadOf s hr) (localEa (handAt s hr) o).toNat = true)
    (hline : maintLine s (beadNo hr.br) (handAt s hr) (handAt s hr).acc o = some line) : MaintFinds s hr o line := by
  refine ⟨hline, fun c => ?_⟩
  have hmode : opdMode o ≠ 5 := by omega
  have hplace : ¬ ((localEa (handAt s hr) o).toNat ≥ 0x200000
      ∨ (!inBlotter (beadOf s hr) (localEa (handAt s hr) o).toNat) = true) := by
    have hend : (localEa (handAt s hr) o).toNat < 0x200000 := of_decide_eq_true (Bool.and_eq_true_iff.1 hin).2
    rw [hin]
    simpa using hend
  rw [evalMaint, if_neg hmode]
  exact if_neg hplace

theorem SeesAlike.maintLine (hsee : SeesAlike s t (beadNo hr.br)) (h : Hand) (acc : W64) (o : BitVec 22) :
    maintLine t (beadNo hr.br) h acc o = Machine.maintLine s (beadNo hr.br) h acc o := by
  simp only [Machine.maintLine, hsee.ctx, hsee.reach, hsee.ways, hsee.blot, blotSets]
  rfl

/-- The line that a maintenance glyph names is cleaned, invalidated or both (R158). -/
theorem actMaint_finds (hfinds : MaintFinds s hr o line) (hsee : SeesAlike s t (beadNo hr.br)) (clean inval : Bool) :
    actMaint t (beadNo hr.br) (handAt s hr) (handAt s hr).acc o clean inval
      = modBead t (beadNo hr.br) (fun b => maintain b line clean inval) := by
  rw [actMaint, hsee.maintLine, hfinds.1]

/-- The position in the blotter that a BLSW word names (R159). -/
def blswWay (acc : W64) : Nat := 4 * fld acc.toNat 18 8 + fld acc.toNat 5 4

/-- A BLSW word for OP 0 to 2 with no bit outside its fields, whose set the blotter has (R159). -/
def BlswLegal (s : State) (hr : HandRef) : Prop :=
  (handAt s hr).acc &&& 0xFFFFFFFFFFF800CC = 0 ∧ fld (handAt s hr).acc.toNat 18 8 < blotSets (beadOf s hr)

/-- BADOP set (R159). -/
def badOp (b : Bead) : Bead := { b with blot := { b.blot with badop := true } }

theorem SeesAlike.blswOk_iff (hsee : SeesAlike s t (beadNo hr.br)) :
    blswOk (getBead t (beadNo hr.br)) (handAt s hr).acc = true ↔ BlswLegal s hr := by
  rw [blswOk, blotSets, hsee.blot, BlswLegal, Bool.and_eq_true, beq_iff_eq, decide_eq_true_iff]
  rfl

section Legal
variable (hsee : SeesAlike s t (beadNo hr.br)) (hlegal : BlswLegal s hr) (clean inval : Bool)
include hsee hlegal

theorem actBlsw_held {acc : W64} (ha : (handAt s hr).acc = acc) (hv : (wayAt (beadOf s hr) (blswWay acc)).valid = true) :
    actBlsw t (beadNo hr.br) acc clean inval = modBead t (beadNo hr.br)
      (fun b => maintain b (wayAt b (blswWay acc)).line clean inval) := by
  subst ha
  have hv' : (wayAt (getBead t (beadNo hr.br)) (blswWay (handAt s hr).acc)).valid = true :=
    (congrArg BlotWay.valid (hsee.ways _)).trans hv
  refine modBead_congr ?_
  rw [if_pos (hsee.blswOk_iff.2 hlegal)]
  exact if_pos hv'

theorem actBlsw_empty {acc : W64} (ha : (handAt s hr).acc = acc) (hv : (wayAt (beadOf s hr) (blswWay acc)).valid = false) :
    actBlsw t (beadNo hr.br) acc clean inval = modBead t (beadNo hr.br) id := by
  subst ha
  have hv' : (wayAt (getBead t (beadNo hr.br)) (blswWay (handAt s hr).acc)).valid = false :=
    (congrArg BlotWay.valid (hsee.ways _)).trans hv
  refine modBead_congr ?_
  rw [if_pos (hsee.blswOk_iff.2 hlegal)]
  exact if_neg (Bool.eq_false_iff.1 hv')

end Legal

theorem actBlsw_illegal (hsee : SeesAlike s t (beadNo hr.br)) (hillegal : ¬ BlswLegal s hr) (clean inval : Bool) :
    actBlsw t (beadNo hr.br) (handAt s hr).acc clean inval = modBead t (beadNo hr.br) badOp :=
  modBead_congr (if_neg (mt hsee.blswOk_iff.1 hillegal))

theorem modBead_id_retireTo (s : State) (hr : HandRef) (j : Option (W32 × Bool)) (f : Hand → Hand) :
    modBead (retireTo s hr j f) (beadNo hr.br) id = retireTo s hr j f := by
  rw [modBead, id, getBead_retireTo]
  exact putBead_putBead_same s _ _ _

theorem evalBlsw_acts {op : Nat} (c : Instr) (hpl : pswPl (handAt s hr).psw ≠ 0) (hop : fld (handAt s hr).acc.toNat 1 0 = op)
    (hscan : ¬ (op = 3 ∧ (handAt s hr).acc &&& 0xFFFFFFFFFFF800CC = 0)) :
    evalBlsw (aloneEnv s hr false) c op = writes [actOf (aloneEnv s hr false) c] := by
  have hpl' : envPl (aloneEnv s hr false) ≠ 0 := hpl
  have hop' : ¬ fld (aloneEnv s hr false).x.acc.toNat 1 0 ≠ op := not_not_intro hop
  rw [evalBlsw, if_neg hpl', if_neg hop']
  exact if_neg hscan

theorem evalBlsw_scans (c : Instr) (hpl : pswPl (handAt s hr).psw ≠ 0) (hop : fld (handAt s hr).acc.toNat 1 0 = 3)
    (hzero : (handAt s hr).acc &&& 0xFFFFFFFFFFF800CC = 0) : evalBlsw (aloneEnv s hr false) c 3
      = .ok { effs := [], start := [actOf (aloneEnv s hr false) c], opens := some .scan } := by
  have hpl' : envPl (aloneEnv s hr false) ≠ 0 := hpl
  have hop' : ¬ fld (aloneEnv s hr false).x.acc.toNat 1 0 ≠ 3 := not_not_intro hop
  rw [evalBlsw, if_neg hpl', if_neg hop']
  exact if_pos ⟨rfl, hzero⟩

/-- BLSW with OP 3 drains every merging-buffer entry, or sets BADOP (R159). -/
theorem actBlswAll_eq (i : Nat) (acc : W64) :
    actBlswAll t i acc = modBead t i (if acc &&& 0xFFFFFFFFFFF800CC = 0 then startDrainAll else badOp) := by
  refine modBead_congr ?_
  dsimp only
  split
  · rfl
  · rfl

theorem fills_scrubTags (b : Bead) (l : Nat) : (scrubTags b l).blot.fills = b.blot.fills := by
  rw [scrubTags_eq]
  split
  · rfl
  · refine List.foldlRecOn (motive := fun c : Bead => c.blot.fills = b.blot.fills) _ _ rfl (fun c hc w _ => ?_)
    unfold scrubWay
    split
    · exact hc
    · exact hc

/-- PREF of a line that is absent and not being filled takes a fill entry (R152). -/
theorem actPref_miss (hsee : SeesAlike s t (beadNo hr.br)) (hlow : (devAt s hr o).toNat < 2 ^ 48)
    (hx : translate s (beadCtx (beadOf s hr)) (devAt s hr o).toNat false = some x) (hlook : looksUp (beadOf s hr) x = true)
    (hfind : blotFind (beadOf s hr) (x.pa / 64) = none) (hnew : ∀ f ∈ (beadOf s hr).blot.fills, f.line ≠ x.pa / 64)
    (hroom : (beadOf s hr).blot.fills.length < 8) : actPref t (beadNo hr.br) (handAt s hr).acc o
      = demandMiss (modBead t (beadNo hr.br) (fun b => scrubTags b (x.pa / 64))) (beadNo hr.br) (devAt s hr o).toNat x false := by
  have hlow' : (devEa (handAt s hr).acc o).toNat < 2 ^ 48 := hlow
  have hreach : translate t (beadCtx (getBead t (beadNo hr.br))) (devEa (handAt s hr).acc o).toNat false = some x := by
    rw [hsee.ctx, hsee.reach]
    exact hx
  have hlook' : looksUp (getBead t (beadNo hr.br)) x = true := (hsee.looks x).trans hlook
  have hfind' : blotFind (scrubTags (getBead t (beadNo hr.br)) (x.pa / 64)) (x.pa / 64) = none :=
    ((scrubbed_scrubTags _ _).blotFind _).trans ((blotFind_congr hsee.blot _).trans hfind)
  have hfills : (scrubTags (getBead t (beadNo hr.br)) (x.pa / 64)).blot.fills = (beadOf s hr).blot.fills := by
    rw [fills_scrubTags, hsee.blot]
    rfl
  have hnone : (beadOf s hr).blot.fills.any (fun f => f.line == x.pa / 64) = false :=
    List.any_eq_false.2 (fun f hf => by simp [hnew f hf])
  simp only [actPref, if_pos hlow', hreach, hlook', getBead_modBead_same, hfind', hfills, hnone, hroom, decide_true,
    Bool.not_true, Bool.false_eq_true, if_false, Option.isNone_none, Bool.not_false, Bool.and_self, if_true]
  rfl

end Maintenance

/-- BLSW with OP 0 to 2 (R159). -/
structure BlswGlyph (hr : HandRef) (c : Instr) (op : Nat) (clean inval : Bool) : Prop extends QuietGlyph hr c where
  noScan : op ≠ 3
  evals : ∀ e, evalGlyph e c = evalBlsw e c op
  performs : ∀ old s i h pc len succ x out acc x0 x1,
    performAct old s i h pc len succ x out c acc x0 x1 = actBlsw s i acc clean inval

section Blsw
variable {s : State} {hr : HandRef} {c : Instr} {g : Glyph} {op : Nat} {clean inval : Bool}
  (d : BlswGlyph hr c op clean inval) (q : Ready s hr c g) (hpl : pswPl (handAt s hr).psw ≠ 0)
  (hop : fld (handAt s hr).acc.toNat 1 0 = op)
include d q hpl hop

theorem BlswGlyph.next {t : State} (ht : actBlsw (retire s hr id) (beadNo hr.br) (handAt s hr).acc clean inval = t) :
    exec c s = .next t := by
  refine d.toQuietGlyph.next q ((d.evals _).trans (evalBlsw_acts c hpl hop (fun h => d.noScan h.1))) ?_
  rw [actOf, landEff_act, d.performs]
  exact ht

theorem BlswGlyph.maintains (hl : BlswLegal s hr) (hv : (wayAt (beadOf s hr) (blswWay (handAt s hr).acc)).valid = true) :
    exec c s = .next (modBead (retire s hr id) (beadNo hr.br)
      (fun b => maintain b (wayAt b (blswWay (handAt s hr).acc)).line clean inval)) :=
  d.next q hpl hop (actBlsw_held (seesAlike_retireTo s hr none id) hl _ _ rfl hv)

theorem BlswGlyph.finds_none (hl : BlswLegal s hr)
    (hv : (wayAt (beadOf s hr) (blswWay (handAt s hr).acc)).valid = false) : exec c s = .next (retire s hr id) :=
  d.next q hpl hop ((actBlsw_empty (seesAlike_retireTo s hr none id) hl _ _ rfl hv).trans (modBead_id_retireTo s hr none id))

theorem BlswGlyph.refuses (hl : ¬ BlswLegal s hr) : exec c s = .next (modBead (retire s hr id) (beadNo hr.br) badOp) :=
  d.next q hpl hop (actBlsw_illegal (seesAlike_retireTo s hr none id) hl _ _)

end Blsw

/-- Settles O14: each glyph evaluates to its act, which names its line or its BLSW word as its line retires; BLSW_ALL's line
stays open for the scan. -/
theorem blotterGlyphs : Obligations.BlotterGlyphs := by
  intro s hr o g x line i b a way acts named finds word legal bad one
  have hsee : SeesAlike s (retire s hr id) i := seesAlike_retireTo s hr none id
  have hnames (h : finds) : MaintFinds s hr o line := by
    rcases h with ⟨hm, hlow, hx, rfl⟩ | ⟨hm, hin, hline⟩
    · exact maintFinds_dev hm hlow hx
    · exact maintFinds_local hm hin hline
  have hone {c : Instr} {op : Nat} {clean inval : Bool} (d : BlswGlyph hr c op clean inval) : one c op clean inval :=
    ⟨fun q hw => d.maintains q hw.1 hw.2, fun q hw => d.finds_none q hw.1 hw.2, fun q hw => d.refuses q hw.1 hw.2⟩
  have hquiet {c : Instr} (hc : c ∈ maintGlyphs hr o) : QuietGlyph hr c := quietGlyph_maintGlyphs hc
  refine ⟨fun h q => ?blcln, fun h q => ?blinv, fun h q => ?blci, hone ?clean, hone ?invalidate, hone ?both,
    fun q hw hz => ?all, fun q hw hz => ?badAll, fun hn q hlook hfind hnew hroom => ?pref⟩
  case blcln =>
    exact (hquiet (by simp [maintGlyphs])).next q ((hnames h).2 _)
      (actMaint_finds (hnames h) hsee true false)
  case blinv =>
    exact (hquiet (by simp [maintGlyphs])).next q ((hnames h).2 _)
      (actMaint_finds (hnames h) hsee false true)
  case blci =>
    exact (hquiet (by simp [maintGlyphs])).next q ((hnames h).2 _)
      (actMaint_finds (hnames h) hsee true true)
  case clean =>
    exact ⟨hquiet (by simp [maintGlyphs]), by decide, fun _ => rfl,
      fun _ _ _ _ _ _ _ _ _ _ _ _ => rfl⟩
  case invalidate =>
    exact ⟨hquiet (by simp [maintGlyphs]), by decide, fun _ => rfl,
      fun _ _ _ _ _ _ _ _ _ _ _ _ => rfl⟩
  case both =>
    exact ⟨hquiet (by simp [maintGlyphs]), by decide, fun _ => rfl,
      fun _ _ _ _ _ _ _ _ _ _ _ _ => rfl⟩
  case all =>
    have heval := evalBlsw_scans (.blswAll hr true o) hw.1 hw.2 hz
    have hroom : roomStop s i ([actOf (aloneEnv s hr false) (.blswAll hr true o)] ++ []) = none :=
      roomStop_act (Bool.and_false _) (Bool.and_false _)
    have hact := (actBlswAll_eq (t := pointTo s i hr.hand.val) i a).trans (congrArg _ (if_pos hz))
    change Host.Outcome.next (issue hr true (.blswAll hr true o) s) = _
    rw [issue_ok q heval hroom, lineIssues_waits (c := .blswAll hr true o)
      (f := actOf (aloneEnv s hr false) (.blswAll hr true o)) _ _ _ rfl rfl (.inl (Bool.and_false _)), waiting,
      ← pointTo_hand, ← hact]
    rfl
  case badAll =>
    refine (hquiet (by simp [maintGlyphs])).next q (evalBlsw_acts _ hw.1 hw.2 (fun h => hz h.2)) ?_
    exact (actBlswAll_eq i a).trans (congrArg _ (if_neg hz))
  case pref =>
    obtain ⟨hm, hlow, hx, rfl⟩ := hn
    exact (hquiet (by simp [maintGlyphs])).next q rfl
      (actPref_miss hsee hlow hx hlook hfind hnew hroom)

/-! A fold over a range of numbers, and the bytes that a merging-buffer entry writes (R154). -/

/-- What holds at first and is kept by step k, at k, holds after the n steps of a fold. -/
theorem foldl_range_reaches {α : Type} {f : α → Nat → α} (P : Nat → α → Prop) (n : Nat) {a : α} (h0 : P 0 a)
    (hstep : ∀ k x, k < n → P k x → P (k + 1) (f x k)) : P n ((List.range n).foldl f a) := by
  induction n with
  | zero => exact h0
  | succ n ih =>
    rw [List.range_succ, List.foldl_append, List.foldl_cons, List.foldl_nil]
    exact hstep n _ (Nat.lt_succ_self n) (ih (fun k x hk => hstep k x (Nat.lt_succ_of_lt hk)))

/-- The masked bytes of an entry below byte n are in memory, which is otherwise as in s. -/
structure EntryWritten (s : State) (m : MergeEntry) (n : Nat) (t : State) : Prop where
  beads : t.beads = s.beads
  sound : MemOk t
  bytes : ∀ k < n, m.mask.getLsbD k = true → some (memRead t.mem (64 * m.line + k)) = m.data[k]?
  others : ∀ a, (∀ k < n, m.mask.getLsbD k = true → a ≠ 64 * m.line + k) → memRead t.mem a = memRead s.mem a

section EntryWrites
variable {s t : State} {m : MergeEntry} {n l : Nat}

theorem EntryWritten.skips (h : EntryWritten s m n t) (hn : m.mask.getLsbD n = false) : EntryWritten s m (n + 1) t where
  beads := h.beads
  sound := h.sound
  bytes k hk hm := by
    refine h.bytes k (Nat.lt_of_le_of_ne (Nat.le_of_lt_succ hk) (fun hkn => ?_)) hm
    rw [hkn, hn] at hm
    cases hm
  others a ha := h.others a (fun k hk => ha k (Nat.lt_succ_of_lt hk))

/-- A run of masked bytes stored. -/
theorem EntryWritten.stores (h : EntryWritten s m n t) (hfit : n + l ≤ m.data.length)
    (hmask : ∀ k, n ≤ k → k < n + l → m.mask.getLsbD k = true) :
    EntryWritten s m (n + l) (storeBytes t (64 * m.line + n) ((m.data.drop n).take l)) := by
  have hlen : ((m.data.drop n).take l).length = l := by rw [List.length_take, List.length_drop]; omega
  refine ⟨h.beads, memOk_storeBytes _ _ h.sound, fun k hk hm => ?_, fun a ha => ?_⟩
  · rw [mem_storeBytes]
    by_cases hkn : n ≤ k
    · have hin : k - n < ((m.data.drop n).take l).length := by omega
      rw [show 64 * m.line + k = 64 * m.line + n + (k - n) by omega, memRead_memWriteN_in _ _ _ hin h.sound,
        List.getElem_take, List.getElem_drop, List.getElem?_eq_getElem (by omega)]
      congr 2
      omega
    · rw [memRead_memWriteN_out _ _ _ h.sound (.inl (by omega))]
      exact h.bytes k (by omega) hm
  · rw [mem_storeBytes, memRead_memWriteN_out _ _ _ h.sound ?_]
    · exact h.others a (fun k hk => ha k (by omega))
    · by_contra hout
      exact ha (a - 64 * m.line) (by omega) (hmask _ (by omega) (by omega)) (by omega)

/-- A word of a mask that is all ones. -/
theorem mask_word {v : BitVec 64} {w : Nat} (h : (v >>> (4 * w)) &&& 0xF = 0xF) {k : Nat} (hk : 4 * w ≤ k)
    (hlt : k < 4 * w + 4) : v.getLsbD k = true := by
  obtain ⟨j, hj, rfl⟩ : ∃ j < 4, k = 4 * w + j := ⟨k - 4 * w, by omega, by omega⟩
  have hbit := congrArg (fun u : BitVec 64 => u.getLsbD j) h
  simp only [BitVec.getLsbD_and, BitVec.getLsbD_ushiftRight] at hbit
  have hones : (0xF : BitVec 64).getLsbD j = true := by interval_cases j <;> rfl
  rwa [hones, Bool.and_true] at hbit

/-- An entry without a mirror writes its masked bytes, and no others (R154). -/
theorem entryWritten_writeEntry (hmem : MemOk s) (hmirror : m.mirror = none) (hlen : m.data.length = 64) :
    EntryWritten s m 64 (writeEntry s m) := by
  have hstart : EntryWritten s m (4 * 0) s :=
    ⟨rfl, hmem, fun k hk => absurd hk (Nat.not_lt_zero k), fun _ _ => rfl⟩
  unfold writeEntry
  simp only [hmirror]
  refine foldl_range_reaches (fun w t => EntryWritten s m (4 * w) t) 16 hstart (fun w t hw ht => ?_)
  split
  next hword => exact ht.stores (l := 4) (by omega) (fun k hk hlt => mask_word hword hk hlt)
  next =>
    refine foldl_range_reaches (fun j u => EntryWritten s m (4 * w + j) u) 4 ht (fun j u hj hu => ?_)
    split
    next hbit =>
      refine hu.stores (l := 1) (by omega) (fun k hk hlt => ?_)
      rwa [show k = 4 * w + j by omega]
    next hbit => exact hu.skips (Bool.eq_false_iff.2 hbit)

end EntryWrites

/-! A filled line in its set (R148, R149). -/

theorem wayAt_putWay_same (b : Bead) (k : Nat) (w : BlotWay) : wayAt (putWay b k w) k = w := mapGet_mapPut_same _ _ _ _

theorem wayAt_putWay_ne (b : Bead) {k j : Nat} (w : BlotWay) (h : j ≠ k) : wayAt (putWay b k w) j = wayAt b j :=
  mapGet_mapPut_ne _ _ _ _ _ h

theorem blotFind_none {b : Bead} {line : Nat} (hsize : b.blot.size ≠ 0) : blotFind b line = none
    ↔ ∀ w < 4, holdsLine (wayAt b (setBase b line + w)) line = false := by
  rw [blotFind_eq, if_neg hsize, List.findSome?_eq_none_iff]
  refine forall_congr' (fun w => ?_)
  rw [List.mem_range]
  cases holdsLine (wayAt b (setBase b line + w)) line <;> simp

/-- The one way of a set that holds a line is found by a lookup. -/
theorem blotFind_putWay {b : Bead} {line w : Nat} {y : BlotWay} (hsize : b.blot.size ≠ 0) (hw : w < 4)
    (hnone : blotFind b line = none) (hy : holdsLine y line = true) :
    blotFind (putWay b (setBase b line + w) y) line = some (setBase b line + w) := by
  have hbase : setBase (putWay b (setBase b line + w) y) line = setBase b line := rfl
  have hsize' : (putWay b (setBase b line + w) y).blot.size ≠ 0 := hsize
  have habsent := (blotFind_none hsize).1 hnone
  have hholds (v : Nat) (hv : v < 4) :
      holdsLine (wayAt (putWay b (setBase b line + w) y) (setBase b line + v)) line = decide (v = w) := by
    by_cases hvw : v = w
    · rw [hvw, wayAt_putWay_same, hy, decide_eq_true rfl]
    · rw [wayAt_putWay_ne _ _ (by omega), habsent v hv, decide_eq_false hvw]
  rw [blotFind_eq, if_neg hsize', hbase]
  cases hfind : (List.range 4).findSome? (fun v =>
      if holdsLine (wayAt (putWay b (setBase b line + w) y) (setBase b line + v)) line then some (setBase b line + v)
      else none) with
  | none =>
    have hgone := List.findSome?_eq_none_iff.1 hfind w (List.mem_range.2 hw)
    rw [hholds w hw, decide_eq_true rfl, if_pos rfl] at hgone
    cases hgone
  | some k =>
    obtain ⟨v, hv, hk⟩ := List.exists_of_findSome?_eq_some hfind
    rw [hholds v (List.mem_range.1 hv)] at hk
    by_cases hvw : v = w
    · rw [hvw, decide_eq_true rfl, if_pos rfl] at hk
      exact hk.symm
    · rw [decide_eq_false hvw, if_neg Bool.false_ne_true] at hk
      cases hk

/-- A way whose age has been raised. -/
def agedBy (w : BlotWay) (n : Nat) : BlotWay := { w with age := BitVec.ofNat 2 (w.age.toNat + n) }

/-- The largest age of the four ways from a base (R149). -/
def topAge (b : Bead) (base : Nat) : Nat := ((List.range 4).map (fun w => (wayAt b (base + w)).age.toNat)).foldl Nat.max 0

theorem topAge_reached (b : Bead) (base : Nat) : ∃ w < 4, (wayAt b (base + w)).age.toNat = topAge b base := by
  have htop : topAge b base = max (max (max (max 0 (wayAt b (base + 0)).age.toNat) (wayAt b (base + 1)).age.toNat)
    (wayAt b (base + 2)).age.toNat) (wayAt b (base + 3)).age.toNat := rfl
  by_contra hnot
  have hne (w : Nat) (hw : w < 4) : (wayAt b (base + w)).age.toNat ≠ topAge b base := fun h => hnot ⟨w, hw, h⟩
  have h0 := hne 0 (by omega)
  have h1 := hne 1 (by omega)
  have h2 := hne 2 (by omega)
  have h3 := hne 3 (by omega)
  omega

/-- Ageing raises the ages of a set by 3 minus the largest, and changes nothing else of the blotter's ways (R149). -/
theorem ageSet_ages (b : Bead) (base : Nat) : (ageSet b base).blot.size = b.blot.size
    ∧ ∀ w < 4, wayAt (ageSet b base) (base + w) = agedBy (wayAt b (base + w)) (3 - topAge b base) := by
  have hfold := foldl_range_reaches (f := fun c w => putWay c (base + w) (agedBy (wayAt c (base + w)) (3 - topAge b base)))
    (fun n c => c.blot.size = b.blot.size ∧ ∀ w < 4, wayAt c (base + w)
      = if w < n then agedBy (wayAt b (base + w)) (3 - topAge b base) else wayAt b (base + w)) 4 (a := b)
    ⟨rfl, fun w _ => (if_neg (Nat.not_lt_zero w)).symm⟩ (fun n c _ hc => ⟨hc.1, fun w hw => ?_⟩)
  · exact ⟨hfold.1, fun w hw => (hfold.2 w hw).trans (if_pos hw)⟩
  · obtain ⟨-, hways⟩ := hc
    by_cases hwn : w = n
    · rw [hwn, wayAt_putWay_same, if_pos (Nat.lt_succ_self n), hways n (hwn ▸ hw), if_neg (Nat.lt_irrefl n)]
    · rw [wayAt_putWay_ne _ _ (by omega), hways w hw]
      exact if_congr (by omega) rfl rfl

theorem holdsLine_agedBy (w : BlotWay) (n line : Nat) : holdsLine (agedBy w n) line = holdsLine w line := rfl

/-- After ageing, a way of the set has age 3 (R149). -/
theorem ageSet_oldest (b : Bead) (base : Nat) : ∃ w < 4, (wayAt (ageSet b base) (base + w)).age = 3 := by
  obtain ⟨w, hw, htop⟩ := topAge_reached b base
  have hle : (wayAt b (base + w)).age.toNat < 4 := (wayAt b (base + w)).age.isLt
  refine ⟨w, hw, ?_⟩
  rw [(ageSet_ages b base).2 w hw, agedBy, htop, show topAge b base + (3 - topAge b base) = 3 by omega]
  rfl

/-- A line placed in the blotter that lacks it is found there, with its data and age (R149). -/
theorem placeLine_found {b : Bead} {line : Nat} (age : BitVec 2) (data : List W8) (hsize : b.blot.size ≠ 0)
    (hnone : blotFind b line = none) : ∃ k, blotFind (placeLine b line age data) line = some k
      ∧ wayAt (placeLine b line age data) k = { valid := true, line := line, age := age, data := data } := by
  have hholds : holdsLine { valid := true, line := line, age := age, data := data } line = true := by simp [holdsLine]
  unfold placeLine
  extract_lets base put
  split
  next w hfind =>
    exact ⟨base + w, blotFind_putWay hsize (List.mem_range.1 (List.mem_of_find?_eq_some hfind)) hnone hholds,
      wayAt_putWay_same _ _ _⟩
  next =>
    obtain ⟨hsame, hways⟩ := ageSet_ages b base
    have hsize' : (ageSet b base).blot.size ≠ 0 := hsame ▸ hsize
    have hbase : setBase (ageSet b base) line = base := by rw [setBase, blotSets, hsame]; rfl
    have hnone' : blotFind (ageSet b base) line = none := by
      rw [blotFind_none hsize']
      intro w hw
      rw [hbase, hways w hw, holdsLine_agedBy]
      exact (blotFind_none hsize).1 hnone w hw
    split
    next w hfind =>
      have hput := blotFind_putWay hsize' (List.mem_range.1 (List.mem_of_find?_eq_some hfind)) hnone' hholds
      rw [hbase] at hput
      exact ⟨base + w, hput, wayAt_putWay_same _ _ _⟩
    next hfind =>
      obtain ⟨w, hw, hage⟩ := ageSet_oldest b base
      exact absurd (beq_iff_eq.2 hage) (List.find?_eq_none.1 hfind w (List.mem_range.2 hw))

/-! The events of the blotter and its merging buffer (R146, R151, R154). -/

/-- A fill of a line that no store waits to change enters the blotter and frees its entry (R151). -/
theorem placeFill_enters {b : Bead} {f : Fill} (data : List W8) (hmerge : b.blot.merge = []) (hsize : b.blot.size ≠ 0)
    (hnone : blotFind b f.line = none) : placeFill b f data = placeLine (dropFill b f.line) f.line f.age data := by
  have hnone' : blotFind (dropFill b f.line) f.line = none :=
    (Scrubbed.blotFind (b := b) ⟨rfl, fun _ => .inl rfl⟩ _).trans hnone
  have hsize' : ¬ (dropFill b f.line).blot.size = 0 := hsize
  have hmerge' : (dropFill b f.line).blot.merge = [] := hmerge
  simp only [placeFill, hmerge', List.filter_nil, List.foldl_nil, hnone', Option.isSome_none, Bool.or_false,
    decide_eq_true_eq, if_neg hsize']

theorem memRead_endSwitch {s : State} (hmem : MemOk s) (i : Nat) (size : BitVec 3) (pf : Bool) (a : Nat) :
    memRead (endSwitch s i size pf).mem a
      = if folioBase i + (32 - 2 * (getBead s i).blot.size.toNat) * 0x10000 ≤ a
          ∧ a < folioBase i + (32 - 2 * size.toNat) * 0x10000 then 0 else memRead s.mem a := by
  unfold endSwitch
  extract_lets old f s₁
  rw [modBead_mem]
  dsimp only [s₁]
  split
  next hless => exact memRead_memZero _ _ a hmem
  next hless =>
    rw [if_neg]
    omega

section Events
variable {s : State} {br : BeadRef} {line : Nat} {m : MergeEntry} {ms : List MergeEntry} {f : Fill}

section Acknowledged
variable (hup : BeadUp s br) (hm : (beadIn s br).blot.merge = m :: ms) (hline : m.line = line) (hdrain : m.draining = true)
  (hwait : drainWaits (beadIn s br) m = false) (hhome : homeRefuses s (beadNo br) (64 * line) = none)

include hm hline hdrain in
/-- The acknowledgement names the oldest draining entry of its line. -/
theorem drain_found :
    (getBead s (beadNo br)).blot.merge.find? (fun e => e.line == line && e.draining) = some m := by
  rw [beadIn] at hm
  simp [hm, hline, hdrain]

include hup hwait in
theorem drain_free : (!beadRuns s (beadNo br) || drainWaits (getBead s (beadNo br)) m) = false := by
  rw [beadRuns_of hup, show drainWaits (getBead s (beadNo br)) m = false from hwait]
  rfl

include hup hm hline hdrain hwait hhome

/-- A drain that arrives well writes its entry and frees it (R154). -/
theorem mergeDrainAck_writes : exec (.mergeDrainAck br line false) s
    = .next (modBead (writeEntry s m) (beadNo br) (fun b => dropEntry b m.seq)) := by
  have hhome' : homeRefuses s (beadNo br) (64 * m.line) = none := hline.symm ▸ hhome
  change execMergeDrainAck br line false s = _
  simp only [execMergeDrainAck, drain_found hm hline hdrain, drain_free hup hwait, hhome', Bool.not_false,
    Bool.false_eq_true, if_false, if_true]

/-- A drain that fails its parity check for the first time is sent again from its entry (R154, R167). -/
theorem mergeDrainAck_resends (hresent : m.resent = false) : exec (.mergeDrainAck br line true) s
    = .next (modBead s (beadNo br) (fun b => { b with blot := { b.blot with
        merge := b.blot.merge.map (fun e => if e.seq = m.seq then { e with resent := true } else e) } })) := by
  have hhome' : homeRefuses s (beadNo br) (64 * m.line) = none := hline.symm ▸ hhome
  change execMergeDrainAck br line true s = _
  simp only [execMergeDrainAck, drain_found hm hline hdrain, drain_free hup hwait, hhome', hresent, Bool.not_true,
    Bool.not_false, Bool.false_eq_true, if_false, if_true]

end Acknowledged

/-- What is left of the merging buffer once its oldest entry has been written. -/
theorem merge_written (hmem : MemOk s) (hm : (beadIn s br).blot.merge = m :: ms) (hmirror : m.mirror = none)
    (hlen : m.data.length = 64) (hseq : ∀ q ∈ ms, q.seq ≠ m.seq) :
    (beadIn (modBead (writeEntry s m) (beadNo br) (fun b => dropEntry b m.seq)) br).blot.merge = ms := by
  have hbead : getBead (writeEntry s m) (beadNo br) = beadIn s br := by
    rw [getBead, (entryWritten_writeEntry hmem hmirror hlen).beads, beadIn, getBead]
  have hkeep : ms.filter (fun e => e.seq != m.seq) = ms :=
    List.filter_eq_self.2 (fun q hq => bne_iff_ne.2 (hseq q hq))
  rw [beadIn, getBead_modBead_same, hbead, dropEntry]
  dsimp only
  rw [hm, List.filter_cons_of_neg (by simp), hkeep]

/-- A fill that no load waits for enters the blotter (R151). -/
theorem blotterFill_next (hup : BeadUp s br) (hfills : (beadIn s br).blot.fills = [f]) (hf : f.line = line)
    (hwait : fillWaiters s (beadNo br) line = []) (hpar : parityFind s.parity (64 * line) 64 = none)
    (hhome : homeRefuses s (beadNo br) (64 * line) = none) : exec (.blotterFill br line false) s
      = .next (modBead s (beadNo br) (fun b => placeFill b f (loadBytes s (64 * line) 64))) := by
  have hfind : [f].find? (fun g => g.line == line) = some f := by simp [hf]
  rw [beadIn] at hfills
  change execBlotterFill br line false s = _
  simp only [execBlotterFill, hfills, hfind, beadRuns_of hup, hwait, hhome, List.filter_nil, hbmRead_good _ hpar]
  rfl

theorem blotSwitchEnd_next {size : BitVec 3} {pf : Bool} (hup : BeadUp s br)
    (hsw : (beadIn s br).blot.switching = some (size, pf)) (hdrained : switchDrained (beadIn s br) size = true) :
    exec (.blotSwitchEnd br) s = .next (endSwitch s (beadNo br) size pf) := by
  rw [beadIn] at hsw hdrained
  change execBlotSwitchEnd br s = _
  simp only [execBlotSwitchEnd, hsw, beadRuns_of hup, hdrained]
  rfl

end Events

/-- Settles O43: each event evaluates to its change of the blotter, and what that leaves in memory is as the lemmas above
say. -/
theorem blotterEvents : Obligations.BlotterEvents := by
  intro s br line m ms f size pf hmem i b base lo hi
  refine ⟨fun hup hm hline hd => ?timeout, fun hup hm hline hd hmirror hlen hseq hwait hhome => ?drained,
    fun hup hm hline hd hresent hwait hhome => ?again,
    fun hup hfills hf hwait hmerge hsize hnone _ hpar hhome => ?fill, fun hup hsw hdrained _ _ => ?switch⟩
  case timeout =>
    have hexec : exec (.mergeEntryTimeout br line) s = .next (modBead s i (fun b => startDrain b line)) :=
      congrArg Host.Outcome.next (if_pos (beadRuns_of hup))
    refine ⟨_, hexec, ms.map (fun e => if e.line = line then { e with draining := true } else e), ?_, rfl⟩
    rw [beadIn, getBead_modBead_same, startDrain, show (getBead s i).blot.merge = m :: ms from hm]
    exact congrArg (· :: _) (if_pos hline)
  case drained =>
    have hw := entryWritten_writeEntry hmem hmirror hlen
    have hexec := mergeDrainAck_writes hup hm hline hd hwait hhome
    subst hline
    exact ⟨_, hexec, merge_written hmem hm hmirror hlen hseq, hw.bytes, hw.others⟩
  case again =>
    refine ⟨_, mergeDrainAck_resends hup hm hline hd hwait hhome hresent, ?_, rfl⟩
    rw [beadIn, getBead_modBead_same, show (getBead s i).blot.merge = [m] from hm]
    exact congrArg (· :: []) (if_pos rfl)
  case fill =>
    subst hf
    have hplace := placeFill_enters (loadBytes s (64 * f.line) 64) hmerge hsize hnone
    refine ⟨_, blotterFill_next hup hfills rfl hwait hpar hhome, ?_, rfl, ?_⟩
    · rw [beadIn, getBead_modBead_same, (placeFill_keeps _ _ _).2, show (getBead s i).blot.fills = [f] from hfills]
      simp
    · have hnone' : blotFind (dropFill b f.line) f.line = none :=
        (Scrubbed.blotFind (b := b) ⟨rfl, fun _ => .inl rfl⟩ _).trans hnone
      obtain ⟨k, hk, hway⟩ := placeLine_found (b := dropFill b f.line) f.age (loadBytes s (64 * f.line) 64) hsize hnone'
      rw [← hplace] at hk hway
      rw [beadIn, getBead_modBead_same]
      exact ⟨k, hk, congrArg BlotWay.data hway, congrArg BlotWay.age hway⟩
  case switch =>
    refine ⟨_, blotSwitchEnd_next hup hsw hdrained, ?_, ?_, ?_, ?_, memRead_endSwitch hmem i size pf⟩
    all_goals rw [beadIn, endSwitch, getBead_modBead_same]

/-! What an interrupt leaves of its bead's quill (R81, R164). -/

/-- The quills, and the pending interrupts, of every bead are the same in two states. -/
def SameQuills (s t : State) : Prop :=
  ∀ i, (getBead t i).quills = (getBead s i).quills ∧ (getBead t i).regs.intPend = (getBead s i).regs.intPend

namespace SameQuills

theorem refl (s : State) : SameQuills s s := fun _ => ⟨rfl, rfl⟩

theorem trans {s t u : State} (h : SameQuills s t) (k : SameQuills t u) : SameQuills s u :=
  fun i => ⟨(k i).1.trans (h i).1, (k i).2.trans (h i).2⟩

/-- A change that leaves the beads alone. -/
theorem of_beads {s t : State} (h : t.beads = s.beads) : SameQuills s t := fun i => by
  rw [show getBead t i = getBead s i by rw [getBead, h, ← getBead]]
  exact ⟨rfl, rfl⟩

theorem putBead (s : State) (i : Nat) {b : Bead} (hq : b.quills = (getBead s i).quills)
    (hp : b.regs.intPend = (getBead s i).regs.intPend) : SameQuills s (putBead s i b) := by
  intro j
  by_cases hj : j = i
  · subst hj
    rw [getBead_putBead_same]
    exact ⟨hq, hp⟩
  · rw [getBead_putBead_ne s i j b hj]
    exact ⟨rfl, rfl⟩

theorem modBead (s : State) (i : Nat) {f : Bead → Bead} (hq : ∀ b, (f b).quills = b.quills)
    (hp : ∀ b, (f b).regs.intPend = b.regs.intPend) : SameQuills s (modBead s i f) := .putBead s i (hq _) (hp _)

theorem putHand (s : State) (i h : Nat) (x : Hand) : SameQuills s (putHand s i h x) := .putBead s i rfl rfl

end SameQuills

theorem sameQuills_closeIns (s : State) (i : Nat) (sin : BitVec 8) (vin : BitVec 4) (tok : BitVec 16) :
    SameQuills s (closeIns s i sin vin tok) := by
  unfold closeIns
  extract_lets b e ss vs ts nS nV nT total s₁ s₂ s₃
  have h₁ : SameQuills s s₁ := .of_beads (beads_foldl (fun s _ => beads_returnCredits s _ _ _ _ _) ss s)
  have h₂ : SameQuills s₁ s₂ := .of_beads (beads_foldl (fun s _ => beads_returnCredits s _ _ _ _ _) vs s₁)
  have h₃ : SameQuills s₂ s₃ := .of_beads (beads_foldl (fun s _ => beads_returnCredits s _ _ _ _ _) ts s₂)
  exact ((h₁.trans h₂).trans h₃).trans (.modBead s₃ i (fun _ => rfl) (fun _ => rfl))

theorem sameQuills_closeAll (s : State) (i : Nat) : SameQuills s (closeAll s i) :=
  (sameQuills_closeIns s i _ _ _).trans (.modBead _ i (fun _ => rfl) (fun _ => rfl))

theorem sameQuills_lockup (s : State) (i h : Nat) (cause : W8) (entry : Bool) : SameQuills s (lockup s i h cause entry) := by
  have hr : List.range 4 = [0, 1, 2, 3] := rfl
  unfold lockup
  rw [hr]
  exact (sameQuills_closeAll s i).trans (.modBead _ i (fun _ => rfl) (fun _ => rfl))

theorem sameQuills_takeInside (s : State) (i h : Nat) (spc : W32) (f : FaultRec) : SameQuills s (takeInside s i h spc f) := by
  unfold takeInside
  extract_lets x
  split
  · exact sameQuills_lockup s i h _ _
  · exact .putHand s i h _

theorem sameQuills_noteFault (s : State) (i : Nat) (f : FaultRec) : SameQuills s (noteFault s i f) := by
  unfold noteFault
  split
  · exact .putBead s i rfl rfl
  · exact .refl s

theorem sameQuills_deliverSupervisor (s : State) (i : Nat) : SameQuills s (deliverSupervisor s i) := by
  unfold deliverSupervisor
  extract_lets x
  split
  next f fs _ =>
    split
    · exact ((SameQuills.putHand s i 0 { x with heldFaults := fs }).trans (sameQuills_noteFault _ i f)).trans
        (sameQuills_takeInside _ i 0 _ f)
    · exact .refl s
  · exact .refl s

theorem sameQuills_postNotice (s : State) (i : Nat) (n : Notice) : SameQuills s (postNotice s i n) := by
  rw [postNotice_cases]
  split
  · exact (SameQuills.modBead s i (f := withWake n) (fun _ => rfl) (fun _ => rfl)).trans (sameQuills_deliverSupervisor _ i)
  · exact .putBead s i rfl rfl

/-- What raising an interrupt source leaves (R81): its PEND bit set, the quills and memory as they were. -/
structure Raised (s : State) (i k : Nat) (t : State) : Prop where
  quills : (getBead t i).quills = (getBead s i).quills
  pend : (getBead t i).regs.intPend.getLsbD k = true
  mem : t.mem = s.mem

theorem raised_setInterrupt (s : State) (i : Nat) (k : Fin 8) (detail : W32) :
    Raised s i k.val (setInterrupt s i k.val detail) := by
  unfold setInterrupt
  extract_lets b t
  split
  next hp => exact ⟨rfl, hp, rfl⟩
  next =>
    have hset : Raised s i k.val t := by
      refine ⟨?_, ?_, rfl⟩
      · rw [getBead_modBead_same]
      · have hk : k.val < 32 := k.isLt.trans (by decide)
        rw [getBead_modBead_same, BitVec.getLsbD_or, show flag true k.val = BitVec.ofNat 32 (2 ^ k.val) from rfl,
          BitVec.getLsbD_ofNat, Nat.testBit_two_pow_self, decide_eq_true hk, Bool.and_true, Bool.or_true]
    split
    · have hq := sameQuills_postNotice t i ⟨8 + k.val, noticeWord0 2 0 k.val 0, 0, detail, noticeTick t i⟩
      obtain ⟨bs, ts, hwork⟩ := beadWork_postNotice t i ⟨8 + k.val, noticeWord0 2 0 k.val 0, 0, detail, noticeTick t i⟩
      exact ⟨(hq i).1.trans hset.quills, (congrArg (·.getLsbD k.val) (hq i).2).trans hset.pend,
        (congrArg State.mem hwork).trans hset.mem⟩
    · exact hset

theorem raised_raiseInt (s : State) (i : Nat) (k : Fin 8) : Raised s i k.val (raiseInt s i k.val) := by
  have h := raised_setInterrupt (freeBits s).2 i k ((freeBits s).1.truncate 32)
  exact ⟨h.quills, h.pend, h.mem⟩

/-! A descriptor's completion (R164). -/

/-- The slot of a descriptor that has completed (R164). -/
def doneSlot (q : QuillSlot) (rows code : Nat) : QuillSlot :=
  { q with busy := false, started := false, fenced := false, err := code != 0, ecode := BitVec.ofNat 6 code
           rows := BitVec.ofNat 24 rows, qerr := q.qerr || code != 0 }

/-- The state in which a slot's status has been written. -/
def slotDone (s : State) (i k rows code : Nat) : State :=
  modBead s i (fun b => { b with quills := mapPut b.quills k (doneSlot (quillAt (getBead s i) k) rows code) })

theorem quillAt_slotDone (s : State) (i k rows code : Nat) :
    quillAt (getBead (slotDone s i k rows code) i) k = doneSlot (quillAt (getBead s i) k) rows code := by
  rw [slotDone, getBead_modBead_same]
  exact mapGet_mapPut_same _ _ _ _

theorem quillTally_slotDone (s : State) (i k rows code t w : Nat) :
    quillTally (slotDone s i k rows code) i t w = quillTally s i t w := by
  have hctx : beadCtx (getBead (slotDone s i k rows code) i) = beadCtx (getBead s i) := by
    rw [slotDone, getBead_modBead_same]
    rfl
  simp only [quillTally, hctx]
  rfl

/-- The completion tally's raise (R164), if there is one. -/
def tallied (s : State) (t : Nat) (o : Option (Option Nat)) : State :=
  match o with
  | some (some p) => queueRaise s t p 1
  | _ => s

theorem finishQuill_eq (s : State) (i k rows code : Nat) : finishQuill s i k rows code
    = if code ≠ 0 then
        raiseInt (tallied (slotDone s i k rows code) (i / 256)
          (quillTally s i (i / 256) (qCtally (quillAt (getBead s i) k).desc))) i intQerr
      else tallied (slotDone s i k rows code) (i / 256)
        (quillTally s i (i / 256) (qCtally (quillAt (getBead s i) k).desc)) := by
  rw [← quillTally_slotDone s i k rows code]
  rfl

theorem tallied_beads (s : State) (t : Nat) (o : Option (Option Nat)) : (tallied s t o).beads = s.beads := by
  unfold tallied
  split
  · rfl
  · rfl

theorem tallied_mem (s : State) (t : Nat) (o : Option (Option Nat)) : (tallied s t o).mem = s.mem := by
  unfold tallied
  split
  · rfl
  · rfl

/-- A completed descriptor's slot holds its status, and no byte of memory changes (R164). -/
theorem finishQuill_leaves (s : State) (i k rows code : Nat) :
    quillAt (getBead (finishQuill s i k rows code) i) k = doneSlot (quillAt (getBead s i) k) rows code
      ∧ (finishQuill s i k rows code).mem = s.mem
      ∧ (code ≠ 0 → (getBead (finishQuill s i k rows code) i).regs.intPend.getLsbD intQerr = true) := by
  rw [finishQuill_eq]
  generalize quillTally s i (i / 256) (qCtally (quillAt (getBead s i) k).desc) = o
  have hquills : (getBead (tallied (slotDone s i k rows code) (i / 256) o) i).quills
      = (getBead (slotDone s i k rows code) i).quills := by rw [getBead, tallied_beads, ← getBead]
  have hmem : (tallied (slotDone s i k rows code) (i / 256) o).mem = s.mem := tallied_mem _ _ _
  split
  next hcode =>
    have h := raised_raiseInt (tallied (slotDone s i k rows code) (i / 256) o) i ⟨intQerr, by decide⟩
    refine ⟨?_, h.mem.trans hmem, fun _ => h.pend⟩
    rw [← quillAt_slotDone, quillAt, quillAt, h.quills, hquills]
  next hcode =>
    refine ⟨?_, hmem, fun h => absurd h hcode⟩
    rw [← quillAt_slotDone, quillAt, quillAt, hquills]

/-- A descriptor with a completion tally raises it by 1 (R164). -/
theorem finishQuill_raises {s : State} {i k p : Nat} (rows : Nat)
    (h : quillTally s i (i / 256) (qCtally (quillAt (getBead s i) k).desc) = some (some p)) :
    (getSlate (finishQuill s i k rows 0) (i / 256)).tallies.raises
      = (getSlate s (i / 256)).tallies.raises ++ [⟨p, 1⟩] := by
  rw [finishQuill_eq, if_neg (not_not_intro rfl), h, tallied, queueRaise, modTally, getSlate_modSlate_same]
  rfl

/-! A row moved within the own folio, piece by piece (R161, R163). -/

/-- A state that differs in its memory and its parity bits alone. -/
def MemoryIs (s : State) (m : List Host.Cell) (t : State) : Prop := ∃ p, t = { s with mem := m, parity := p }

theorem memWriteN_append (bs cs : List W8) : ∀ (m : List Host.Cell) (a : Nat),
    memWriteN m a (bs ++ cs) = memWriteN (memWriteN m a bs) (a + bs.length) cs := by
  induction bs with
  | nil => exact fun _ _ => rfl
  | cons b bs ih =>
    intro m a
    rw [List.cons_append, memWriteN, memWriteN, ih, List.length_cons, Nat.add_right_comm, Nat.add_assoc a]

theorem loadBytes_append (s : State) (a m n : Nat) : loadBytes s a (m + n) = loadBytes s a m ++ loadBytes s (a + m) n := by
  simp only [loadBytes, memReadN, List.range_add, List.map_append, List.map_map]
  congr 1
  refine List.map_congr_left (fun k _ => ?_)
  rw [Function.comp, Nat.add_assoc]

theorem parityFind_none {p : List Nat} {a n : Nat} :
    parityFind p a n = none ↔ ∀ w ∈ p, ¬ (4 * w < a + n ∧ a < 4 * w + 4) := by
  have hsome (l : List Nat) (v : Nat) : l.foldl (fun (o : Option Nat) w =>
      match o with | none => some (4 * w) | some v => some (min v (4 * w))) (some v) ≠ none := by
    induction l generalizing v with
    | nil => exact fun h => by cases h
    | cons w l ih => exact ih _
  have hfilter : parityFind p a n = none ↔ p.filter (fun w => 4 * w < a + n && a < 4 * w + 4) = [] := by
    unfold parityFind
    cases p.filter (fun w => 4 * w < a + n && a < 4 * w + 4) with
    | nil => exact ⟨fun _ => rfl, fun _ => rfl⟩
    | cons w l => exact ⟨fun h => absurd h (hsome l _), fun h => by cases h⟩
  rw [hfilter, List.filter_eq_nil_iff]
  simp only [Bool.and_eq_true, decide_eq_true_eq]

/-- Fewer bytes meet no parity error that more do not. -/
theorem parityFind_within {p : List Nat} {a n b m : Nat} (h : parityFind p a n = none) (ha : a ≤ b) (hn : b + m ≤ a + n) :
    parityFind p b m = none :=
  parityFind_none.2 (fun w hw hmeets => parityFind_none.1 h w hw (by omega))

/-- The first piece of a run, and what is left of it. -/
theorem cutPieces_succ {fuel a n : Nat} (hn : n ≠ 0) : cutPieces (fuel + 1) a n
    = (a, min n (64 - a % 64)) :: cutPieces fuel (a + min n (64 - a % 64)) (n - min n (64 - a % 64)) := if_neg hn

theorem cutPieces_zero (fuel a : Nat) : cutPieces fuel a 0 = [] := by cases fuel <;> rfl

/-- The fuel that is left suffices for what is left of the run. -/
theorem cutFuel {fuel a n : Nat} (h : n + a % 64 ≤ 64 * (fuel + 1)) :
    n - min n (64 - a % 64) = 0
      ∨ n - min n (64 - a % 64) + (a + min n (64 - a % 64)) % 64 ≤ 64 * fuel := by
  omega

theorem pieces_within {fuel a n : Nat} {p : Nat × Nat} (hp : p ∈ cutPieces fuel a n) : a ≤ p.1 ∧ p.1 + p.2 ≤ a + n := by
  induction fuel generalizing a n with
  | zero => cases hp
  | succ fuel ih =>
    by_cases hn : n = 0
    · rw [hn, cutPieces_zero] at hp
      cases hp
    · rw [cutPieces_succ hn, List.mem_cons] at hp
      rcases hp with rfl | hp
      · exact ⟨le_rfl, by dsimp only; omega⟩
      · have h := ih hp
        omega

section Pieces
variable {i : Nat}

/-- A run in the own folio written piece by piece is written whole. -/
theorem writePieces_local (k : Nat) (count : Option (Nat × Nat × BitVec 48)) (fuel : Nat) : ∀ (a : Nat) (bs : List W8)
    (s : State), (bs.length = 0 ∨ bs.length + a % 64 ≤ 64 * fuel) → ∃ t,
      writePieces i k false count (cutPieces fuel a bs.length) bs s = (t, .ok ())
        ∧ MemoryIs s (memWriteN s.mem (folioBase i + a) bs) t := by
  induction fuel with
  | zero =>
    intro a bs s h
    obtain rfl : bs = [] := List.length_eq_zero_iff.1 (by omega)
    exact ⟨s, rfl, s.parity, rfl⟩
  | succ fuel ih =>
    intro a bs s h
    by_cases hn : bs.length = 0
    · obtain rfl := List.length_eq_zero_iff.1 hn
      exact ⟨s, rfl, s.parity, rfl⟩
    · obtain ⟨m, hm⟩ : ∃ m, m = min bs.length (64 - a % 64) := ⟨_, rfl⟩
      have hle : m ≤ bs.length := by omega
      have hfuel := cutFuel (h.resolve_left hn)
      rw [cutPieces_succ hn, ← hm]
      rw [← hm] at hfuel
      have hlen : (bs.drop m).length = bs.length - m := List.length_drop
      obtain ⟨t, ht, p, hmem⟩ := ih (a + m) (bs.drop m) (storeBytes s (folioBase i + a) (bs.take m)) (by omega)
      rw [hlen] at ht
      refine ⟨t, ht, p, ?_⟩
      have hsplit := memWriteN_append (bs.take m) (bs.drop m) s.mem (folioBase i + a)
      rw [List.take_append_drop, List.length_take, Nat.min_eq_left hle] at hsplit
      rw [hmem, mem_storeBytes, ← Nat.add_assoc, hsplit]
      rfl

/-- A run in the own folio without a parity error is read whole, piece by piece. -/
theorem readPieces_local {s : State} (fuel : Nat) : ∀ (a n : Nat) (acc : List W8), (n = 0 ∨ n + a % 64 ≤ 64 * fuel) →
    parityFind s.parity (folioBase i + a) n = none →
      readPieces i false (cutPieces fuel a n) acc s = (s, .ok (acc ++ loadBytes s (folioBase i + a) n)) := by
  induction fuel with
  | zero =>
    intro a n acc h _
    obtain rfl : n = 0 := by omega
    rw [show loadBytes s (folioBase i + a) 0 = [] from rfl, List.append_nil]
    rfl
  | succ fuel ih =>
    intro a n acc h hpar
    by_cases hn : n = 0
    · rw [hn, show loadBytes s (folioBase i + a) 0 = [] from rfl, List.append_nil]
      rfl
    · obtain ⟨m, hm⟩ : ∃ m, m = min n (64 - a % 64) := ⟨_, rfl⟩
      have hfuel := cutFuel (h.resolve_left hn)
      rw [cutPieces_succ hn, ← hm]
      rw [← hm] at hfuel
      have hhead : parityFind s.parity (folioBase i + a) m = none := parityFind_within hpar le_rfl (by omega)
      have htail : parityFind s.parity (folioBase i + (a + m)) (n - m) = none :=
        parityFind_within hpar (by omega) (by omega)
      have hread : quillRead s i false a m = (s, .ok (loadBytes s (folioBase i + a) m)) := by
        simp only [quillRead, hhead]
        rfl
      rw [readPieces, hread]
      dsimp only
      rw [ih _ _ _ hfuel htail, List.append_assoc, ← Nat.add_assoc, ← loadBytes_append,
        Nat.add_sub_of_le (by omega)]

end Pieces

theorem piecesFuel (a n : Nat) : n + a % 64 ≤ 64 * (n / 64 + 2) := by omega

/-- A descriptor whose destination is local and that counts no rows (R160, R164). -/
structure LandsLocal (d : List W8) : Prop where
  dev : qDdev d = false
  count : bitAt (qAtally d) 31 = false

theorem quillTally_invalid {w : Nat} (s : State) (i t : Nat) (h : bitAt w 31 = false) : quillTally s i t w = some none := by
  simp [quillTally, h]

theorem rowCount_none {d : List W8} (h : LandsLocal d) (s : State) (i : Nat) : rowCount s i d = none := by
  simp only [rowCount, quillTally_invalid _ _ _ h.count]

/-- A destination row in the own folio is written whole (R161). -/
theorem landRow_local {d : List W8} (h : LandsLocal d) (s : State) (i k dst : Nat) {bs : List W8}
    (hlen : bs.length = (qDstShape d).2) : ∃ t, landRow s i k d dst false bs = (t, .ok ())
      ∧ MemoryIs s (memWriteN s.mem (folioBase i + dst) bs) t := by
  obtain ⟨t, ht, hmem⟩ := writePieces_local (i := i) k none (bs.length / 64 + 2) dst bs s (.inr (piecesFuel _ _))
  refine ⟨t, ?_, hmem⟩
  have hwaits (l : List (Nat × Nat)) : l.any (fun p => quillWriteWaits s i false p.1 p.2) = false :=
    List.any_eq_false.2 (fun _ _ => Bool.false_ne_true)
  have hpieces : piecesOf dst (qDstShape d).2 = cutPieces (bs.length / 64 + 2) dst bs.length := by rw [piecesOf, hlen]
  simp only [landRow, h.dev, hwaits, rowCount_none h, hpieces, ht, Bool.false_and, Bool.false_eq_true, if_false]
  split
  · rfl
  · rfl

/-- The bytes of a row of a fill (R161). -/
def fillRow (d : List W8) : List W8 := (List.range (qRbytes d)).map (fun k => ((qFill d)[k % 8]?).getD 0)

theorem qDstShape_eq {d : List W8} (h : qKind d ≠ 1) : qDstShape d = (qRows d, qRbytes d) := if_neg h

theorem rowAt_up {base : Nat} {pitch : Int} (h : 0 ≤ pitch) (j : Nat) : rowAt base pitch j = some (base + j * pitch.toNat) := by
  have hsum : (base : Int) + pitch * j = ((base + j * pitch.toNat : Nat) : Int) := by
    rw [Nat.cast_add, Nat.cast_mul, Int.toNat_of_nonneg h, mul_comm]
  have hpos : (0 : Int) ≤ base + pitch * j := by omega
  rw [rowAt, if_pos hpos, hsum, Int.toNat_natCast]

theorem rowAt_zero (base : Nat) (pitch : Int) : rowAt base pitch 0 = some base := by simp [rowAt]

theorem toNat_qDpitch {d : List W8} (h : 0 ≤ qDpitch d) : (qDpitch d).toNat = (wordAt d 0x14).toNat := by
  have hint := BitVec.toInt_eq_toNat_cond (wordAt d 0x14)
  rw [qDpitch] at h ⊢
  have hlt := (wordAt d 0x14).isLt
  omega

/-- Row j of a fill takes the pattern (R161). -/
theorem quillRow_fill {d : List W8} (h : LandsLocal d) (hkind : qKind d = 2) (hup : 0 ≤ qDpitch d) (s : State) (i k j : Nat) :
    ∃ t, quillRow s i k d j false = (t, .ok ())
      ∧ MemoryIs s (memWriteN s.mem (folioBase i + (qDst d + j * (wordAt d 0x14).toNat)) (fillRow d)) t := by
  have hshape : (qDstShape d).2 = qRbytes d := by rw [qDstShape_eq (by omega)]
  obtain ⟨t, ht, hmem⟩ := landRow_local h s i k (qDst d + j * (wordAt d 0x14).toNat) (bs := fillRow d)
    (by rw [hshape, fillRow, List.length_map, List.length_range])
  refine ⟨t, ?_, hmem⟩
  rw [← ht, quillRow, rowAt_up hup, toNat_qDpitch hup, hshape]
  exact if_pos hkind

/-- A copy's source bytes, none of them in its own destination range, are taken as they were read (R161). -/
theorem selfOverlap_apart {s : State} {d : List W8} {dst src n fuel : Nat} {bs : List W8} (hshape : qDstShape d = (1, n))
    (hapart : src + n ≤ qDst d ∨ qDst d + n ≤ src) : selfOverlap s d dst (cutPieces fuel src n) bs = (bs, s) := by
  have hrange : pitchRange (qDst d) (qDpitch d) 1 n = (qDst d, qDst d + n) := by simp [pitchRange]
  have hany : ((cutPieces fuel src n).flatMap (fun p => (List.range p.2).map (p.1 + ·))).any
      (fun a => decide (qDst d ≤ a) && decide (a < qDst d + n)) = false := by
    refine List.any_eq_false.2 (fun a ha => ?_)
    obtain ⟨p, hp, ha⟩ := List.mem_flatMap.1 ha
    obtain ⟨v, hv, rfl⟩ := List.mem_map.1 ha
    have hin := pieces_within hp
    have hlt := List.mem_range.1 hv
    simp only [Bool.and_eq_true, decide_eq_true_eq]
    omega
  simp only [selfOverlap, hshape, hrange, hany, Bool.and_false, Bool.false_eq_true, if_false]

/-- The one row of a local copy takes the bytes of its source (R161). -/
theorem quillRow_copy {s : State} {d : List W8} (h : LandsLocal d) (i k : Nat) (hkind : qKind d = 0) (hsdev : qSdev d = false)
    (hrows : qRows d = 1) (hapart : qSrc d + qRbytes d ≤ qDst d ∨ qDst d + qRbytes d ≤ qSrc d)
    (hpar : parityFind s.parity (folioBase i + qSrc d) (qRbytes d) = none) :
    ∃ t, quillRow s i k d 0 false = (t, .ok ()) ∧ MemoryIs s
      (memWriteN s.mem (folioBase i + qDst d) (loadBytes s (folioBase i + qSrc d) (qRbytes d))) t := by
  have hshape : qDstShape d = (1, qRbytes d) := by rw [qDstShape_eq (by omega), hrows]
  obtain ⟨t, ht, hmem⟩ := landRow_local h s i k (qDst d) (bs := loadBytes s (folioBase i + qSrc d) (qRbytes d))
    (by rw [loadBytes_length, hshape])
  refine ⟨t, ?_, hmem⟩
  have h1 : qKind d ≠ 1 := by omega
  have h2 : qKind d ≠ 2 := by omega
  have hsources : quillSources d 0 = some (piecesOf (qSrc d) (qRbytes d)) := by
    rw [quillSources, if_neg h1, rowAt_zero]
    rfl
  have hfolio (l : List (Nat × Nat)) : (!transposeOk s i d l) = false := by
    rw [transposeOk, hsdev, Bool.and_false]
    rfl
  have hread : readPieces i false (piecesOf (qSrc d) (qRbytes d)) [] s
      = (s, .ok (loadBytes s (folioBase i + qSrc d) (qRbytes d))) :=
    readPieces_local _ _ _ [] (.inr (piecesFuel _ _)) hpar
  have hself := selfOverlap_apart (s := s) (dst := qDst d) (fuel := qRbytes d / 64 + 2)
    (bs := loadBytes s (folioBase i + qSrc d) (qRbytes d)) hshape hapart
  rw [← piecesOf] at hself
  rw [← ht]
  simp only [quillRow, rowAt_zero, if_neg h2, hsources, hfolio, hsdev, hread, hself, Bool.false_eq_true, if_false]

/-- The rows of a descriptor that each find their way to memory, which one after the other they change by g: it then
completes (R163, R164). -/
theorem quillRows_all {i k : Nat} {d : List W8} {g : List Host.Cell → Nat → List Host.Cell}
    (hrow : ∀ s j, ∃ t, quillRow s i k d j false = (t, .ok ()) ∧ MemoryIs s (g s.mem j) t) (fuel : Nat) :
    ∀ (j : Nat) (s : State), quillWaits s i k = false →
      ∃ t, quillRows i k d fuel j false s = finishQuill t i k (j + fuel) 0
        ∧ MemoryIs s ((List.range' j fuel).foldl g s.mem) t := by
  induction fuel with
  | zero =>
    intro j s hw
    exact ⟨s, if_neg (Bool.eq_false_iff.1 hw), s.parity, rfl⟩
  | succ fuel ih =>
    intro j s hw
    obtain ⟨u, hu, p, rfl⟩ := hrow s j
    obtain ⟨t, ht, p', hmem⟩ := ih (j + 1) { s with mem := g s.mem j, parity := p } hw
    refine ⟨t, ?_, p', hmem⟩
    rw [quillRows, hu]
    dsimp only
    rw [ht, Nat.add_right_comm, Nat.add_assoc]

theorem quillRows_one {s t : State} {i k : Nat} {d : List W8} (hrow : quillRow s i k d 0 false = (t, .ok ()))
    (hw : quillWaits t i k = false) : quillRows i k d 1 0 false s = finishQuill t i k 1 0 := by
  rw [quillRows, hrow]
  exact if_neg (Bool.eq_false_iff.1 hw)

/-! The events of the quill (R160 to R165). -/

section Events
variable {s : State} {br : BeadRef} {slot : Fin 8}

/-- A started descriptor's remaining rows move (R164). -/
theorem quillComplete_next (hup : BeadUp s br) (hbusy : (quillAt (beadIn s br) slot.val).busy = true)
    (hstarted : (quillAt (beadIn s br) slot.val).started = true) (hfenced : (quillAt (beadIn s br) slot.val).fenced = false) :
    exec (.quillComplete br ⟨slot, false⟩) s = .next (quillRows (beadNo br) slot.val (quillAt (beadIn s br) slot.val).desc
      ((qDstShape (quillAt (beadIn s br) slot.val).desc).1 - (quillAt (beadIn s br) slot.val).rows.toNat)
      (quillAt (beadIn s br) slot.val).rows.toNat false s) := by
  rw [beadIn] at hbusy hstarted hfenced ⊢
  change execQuillComplete br ⟨slot, false⟩ s = _
  simp only [execQuillComplete, beadRuns_of hup, hbusy, hstarted, hfenced, Bool.and_self, Bool.false_eq_true, if_false,
    if_true]

/-- A descriptor that none holds back and that passes its checks starts (R162, R165). -/
theorem quillStart_next (hup : BeadUp s br) (hbusy : (quillAt (beadIn s br) slot.val).busy = true)
    (hidle : (quillAt (beadIn s br) slot.val).started = false)
    (hfree : quillBlocked (beadIn s br) (quillAt (beadIn s br) slot.val) = false)
    (herr : quillErrors s (beadNo br) (quillAt (beadIn s br) slot.val) = []) : exec (.quillDescriptorStart br slot) s
      = .next (modBead s (beadNo br) (fun b => { b with
          quills := mapPut b.quills slot.val { quillAt (beadIn s br) slot.val with started := true, rows := 0 } })) := by
  rw [beadIn] at hbusy hidle hfree herr ⊢
  change execQuillDescriptorStart br slot s = _
  simp only [execQuillDescriptorStart, beadRuns_of hup, hbusy, hidle, hfree, herr, Bool.not_true, Bool.or_false,
    Bool.false_eq_true, if_false]

/-- One that fails a check completes with its code (R162, R164). -/
theorem quillStart_fails {code : Nat} (hup : BeadUp s br) (hbusy : (quillAt (beadIn s br) slot.val).busy = true)
    (hidle : (quillAt (beadIn s br) slot.val).started = false)
    (hfree : quillBlocked (beadIn s br) (quillAt (beadIn s br) slot.val) = false)
    (herr : quillErrors s (beadNo br) (quillAt (beadIn s br) slot.val) = [code]) :
    exec (.quillDescriptorStart br slot) s = .next (finishQuill s (beadNo br) slot.val 0 code) := by
  rw [beadIn] at hbusy hidle hfree herr
  change execQuillDescriptorStart br slot s = _
  simp only [execQuillDescriptorStart, beadRuns_of hup, hbusy, hidle, hfree, herr, Bool.not_true, Bool.or_false,
    Bool.false_eq_true, if_false]

/-- One that an earlier descriptor holds back waits (R165). -/
theorem quillStart_waits (hblocked : quillBlocked (beadIn s br) (quillAt (beadIn s br) slot.val) = true) :
    exec (.quillDescriptorStart br slot) s = .next s := by
  rw [beadIn] at hblocked
  refine congrArg Host.Outcome.next (if_pos ?_)
  rw [hblocked, Bool.or_true]

end Events

/-- A slot's descriptor has completed without error (R164). -/
def SlotEnded (b : Bead) (k rows : Nat) : Prop :=
  ∃ u, quillAt b k = u ∧ u.busy = false ∧ u.err = false ∧ u.ecode = 0 ∧ u.rows = BitVec.ofNat 24 rows

theorem finishQuill_ended (s : State) (i k rows : Nat) : SlotEnded (getBead (finishQuill s i k rows 0) i) k rows :=
  ⟨_, (finishQuill_leaves s i k rows 0).1, rfl, rfl, rfl, rfl⟩

/-- Settles O44: a start answers to its checks, and a completion moves the rows that are left and writes the slot's status. -/
theorem quillEvents : Obligations.QuillEvents := by
  intro s br slot code p i q d base at_ plain ended
  refine ⟨fun hup hbusy hidle hfree herr => ?starts, fun hup hbusy hidle hblocked => quillStart_waits hblocked,
    fun hup hbusy hidle hfree herr hpos hlt => ?fails, fun hp hkind hup => ?fill,
    fun hp hkind hsdev hrows hapart hpar => ?copy, fun hup hbusy hstarted hrows hlt hfenced hwaits htally => ?tally⟩
  case starts =>
    refine ⟨_, quillStart_next hup hbusy hidle hfree herr, rfl, ?_⟩
    rw [beadIn, getBead_modBead_same]
    exact mapGet_mapPut_same _ _ _ _
  case fails =>
    obtain ⟨hslot, hmem, hpend⟩ := finishQuill_leaves s i slot.val 0 code
    have hcode : code ≠ 0 := by omega
    refine ⟨_, quillStart_fails hup hbusy hidle hfree herr, hmem, ?_, ?_, ?_, hpend hcode⟩
    · exact congrArg QuillSlot.busy hslot
    · exact (congrArg QuillSlot.err hslot).trans (bne_iff_ne.2 hcode)
    · exact congrArg QuillSlot.ecode hslot
  case fill =>
    obtain ⟨hup', hbusy, hstarted, hrows, hddev, -, hatally, -, hfenced, hwaits⟩ := hp
    have hshape : qDstShape d = (qRows d, qRbytes d) := qDstShape_eq (by omega)
    obtain ⟨t, ht, m, hmem⟩ := quillRows_all (i := i) (k := slot.val) (d := d)
      (g := fun m j => memWriteN m (at_ j) (fillRow d)) (fun s j => quillRow_fill ⟨hddev, hatally⟩ hkind hup s i slot.val j)
      (qRows d) 0 s hwaits
    have hexec := quillComplete_next hup' hbusy hstarted hfenced
    rw [show (quillAt (beadIn s br) slot.val).rows = 0 from hrows, show qDstShape _ = _ from hshape] at hexec
    refine ⟨_, hexec.trans (congrArg Host.Outcome.next ht), ?_, ?_⟩
    · rw [Nat.zero_add]
      exact finishQuill_ended t i slot.val (qRows d)
    · rw [(finishQuill_leaves t i slot.val _ 0).2.1, hmem, ← List.range_eq_range']
      rfl
  case copy =>
    obtain ⟨hup', hbusy, hstarted, hq, hddev, -, hatally, -, hfenced, hwaits⟩ := hp
    have hshape : qDstShape d = (1, qRbytes d) := by rw [qDstShape_eq (by omega), hrows]
    obtain ⟨t, ht, m, rfl⟩ := quillRow_copy ⟨hddev, hatally⟩ i slot.val hkind hsdev hrows hapart hpar
    have hmoved := quillRows_one ht hwaits
    have hexec := quillComplete_next hup' hbusy hstarted hfenced
    rw [show (quillAt (beadIn s br) slot.val).rows = 0 from hq, show qDstShape _ = _ from hshape] at hexec
    exact ⟨_, hexec.trans (congrArg Host.Outcome.next hmoved), finishQuill_ended _ i slot.val 1,
      (finishQuill_leaves _ i slot.val 1 0).2.1⟩
  case tally =>
    have hcount : (quillAt (beadIn s br) slot.val).rows.toNat = (qDstShape d).1 := by
      rw [show (quillAt (beadIn s br) slot.val).rows = _ from hrows, BitVec.toNat_ofNat, Nat.mod_eq_of_lt hlt]
    have hexec := quillComplete_next hup hbusy hstarted hfenced
    rw [hcount, show qDstShape (quillAt (beadIn s br) slot.val).desc = qDstShape d from rfl, Nat.sub_self, quillRows,
      if_neg (Bool.eq_false_iff.1 hwaits)] at hexec
    exact ⟨_, hexec, finishQuill_ended s i slot.val _, finishQuill_raises _ htally⟩

end Sys2Proof.Machine

end BlotterAndQuillProofs

/-! SUPPORT. Proofs of the statements of family 07: orders, drains and failures of the brushes (O49), the beats of the slot
fabric and the end of a shift (O48), and the control writes that act on a unit (O40). -/

section BrushAndFabricProofs

namespace Sys2Proof.Machine

/-! Brushes and Slates by number (R397). -/

theorem brushNo_div (k : BrushRef) : brushNo k / 6 = k.slate.val := by
  rw [brushNo, Nat.mul_add_div (by decide), Nat.div_eq_of_lt k.brush.isLt, Nat.add_zero]

theorem brushNo_mod (k : BrushRef) : brushNo k % 6 = k.brush.val := by
  rw [brushNo, Nat.mul_add_mod, Nat.mod_eq_of_lt k.brush.isLt]

@[simp] theorem getSlate_modBrush (s : State) (k t : Nat) (f : Brush → Brush) :
    getSlate (modBrush s k f) t = getSlate s t := rfl

@[simp] theorem getBrush_modSlate (s : State) (t k : Nat) (f : Slate → Slate) :
    getBrush (modSlate s t f) k = getBrush s k := rfl

@[simp] theorem getBrush_storeBytes (s : State) (a k : Nat) (bs : List W8) :
    getBrush (storeBytes s a bs) k = getBrush s k := rfl

@[simp] theorem getBrush_sendCount (s : State) (c : Option (Nat × Nat × BitVec 48)) (k : Nat) :
    getBrush (sendCount s c) k = getBrush s k := by
  cases c <;> rfl

@[simp] theorem sendCount_mem (s : State) (c : Option (Nat × Nat × BitVec 48)) : (sendCount s c).mem = s.mem := by
  cases c <;> rfl

@[simp] theorem performTap_mem (s : State) (w : TapWrite) : (performTap s w).mem = memWriteN s.mem w.pa w.data := by
  rw [performTap, sendCount_mem]
  rfl

@[simp] theorem getBrush_performTap (s : State) (w : TapWrite) (k : Nat) :
    getBrush (performTap s w) k = getBrush s k := by
  rw [performTap, getBrush_sendCount, getBrush_storeBytes]

/-! Orders that complete (R181, R186). -/

/-- A brush with one more order completed: its record and the count (R186). -/
def orderDone (ws : List W32) (rec_ : W64) (b : Brush) : Brush :=
  { b with crec := mapPut b.crec (oTag ws % 16) rec_, done := b.done + 1 }

/-- The raise that a completed order sends, where its tally has a translation and the brush has not failed (R186). -/
def orderRaise (s : State) (t : Nat) (c : Option Nat) (ws : List W32) (st : W8) : State :=
  match oCtally ws, c with
  | some v, some c => if st = 0x09 then s else (match tallyOf s t c v with
      | some p => queueRaise s t p 1
      | none => s)
  | _, _ => s

/-- The error that an order's completion leaves in BRUSH_k_ERRINFO, where it has one (R189). -/
def orderErrinfo (s : State) (k : Nat) (ws : List W32) (st : W8) (place : Option W8) : State :=
  if st = 0 then s
  else
    modBrush (errPlace s place).2 k (fun b => { b with
      errinfo := BitVec.ofNat 32 (oTag ws * 2 ^ 16 + (errPlace s place).1.toNat * 2 ^ 8 + st.toNat) })

theorem completeOrder_eq (s : State) (k : Nat) (ws : List W32) (sum : BitVec 5) (st : W8) (place : Option W8) :
    completeOrder s k ws sum st place = orderErrinfo (orderRaise
      (modBrush s k (orderDone ws (crecWord ws sum st (getSlate s (k / 6)).tick))) (k / 6) (brushCtx (getBrush s k)) ws st)
      k ws st place := rfl

@[simp] theorem orderRaise_mem (s : State) (t : Nat) (c : Option Nat) (ws : List W32) (st : W8) :
    (orderRaise s t c ws st).mem = s.mem := by
  unfold orderRaise
  split
  · split
    · rfl
    · split <;> rfl
  · rfl

@[simp] theorem getBrush_orderRaise (s : State) (t : Nat) (c : Option Nat) (ws : List W32) (st : W8) (k : Nat) :
    getBrush (orderRaise s t c ws st) k = getBrush s k := by
  unfold orderRaise
  split
  · split
    · rfl
    · split <;> rfl
  · rfl

theorem orderRaise_raises {s : State} {t v c p : Nat} {ws : List W32} {st : W8} (hv : oCtally ws = some v)
    (hst : st ≠ 0x09) (hp : tallyOf s t c v = some p) : orderRaise s t (some c) ws st = queueRaise s t p 1 := by
  simp only [orderRaise, hv, if_neg hst, hp]

@[simp] theorem errPlace_mem (s : State) (p : Option W8) : (errPlace s p).2.mem = s.mem := by
  cases p <;> rfl

@[simp] theorem getBrush_errPlace (s : State) (p : Option W8) (k : Nat) : getBrush (errPlace s p).2 k = getBrush s k := by
  cases p <;> rfl

@[simp] theorem getSlate_errPlace (s : State) (p : Option W8) (t : Nat) : getSlate (errPlace s p).2 t = getSlate s t := by
  cases p <;> rfl

@[simp] theorem orderErrinfo_mem (s : State) (k : Nat) (ws : List W32) (st : W8) (p : Option W8) :
    (orderErrinfo s k ws st p).mem = s.mem := by
  unfold orderErrinfo
  split
  · rfl
  · exact errPlace_mem s p

@[simp] theorem getSlate_orderErrinfo (s : State) (k : Nat) (ws : List W32) (st : W8) (p : Option W8) (t : Nat) :
    getSlate (orderErrinfo s k ws st p) t = getSlate s t := by
  unfold orderErrinfo
  split
  · rfl
  · exact getSlate_errPlace s p t

theorem getBrush_orderErrinfo (s : State) (k : Nat) (ws : List W32) (st : W8) (p : Option W8) :
    ∃ e, getBrush (orderErrinfo s k ws st p) k = { getBrush s k with errinfo := e } := by
  unfold orderErrinfo
  split
  · exact ⟨_, rfl⟩
  · exact ⟨_, by rw [getBrush_modBrush_same, getBrush_errPlace]⟩

@[simp] theorem completeOrder_mem (s : State) (k : Nat) (ws : List W32) (sum : BitVec 5) (st : W8) (p : Option W8) :
    (completeOrder s k ws sum st p).mem = s.mem := by
  rw [completeOrder_eq, orderErrinfo_mem, orderRaise_mem, modBrush_mem]

/-- A completed order leaves its record, counts, and may leave its error (R186). -/
theorem getBrush_completeOrder (s : State) (k : Nat) (ws : List W32) (sum : BitVec 5) (st : W8) (p : Option W8) :
    ∃ e, getBrush (completeOrder s k ws sum st p) k
      = { orderDone ws (crecWord ws sum st (getSlate s (k / 6)).tick) (getBrush s k) with errinfo := e } := by
  rw [completeOrder_eq]
  obtain ⟨e, he⟩ := getBrush_orderErrinfo (orderRaise
    (modBrush s k (orderDone ws (crecWord ws sum st (getSlate s (k / 6)).tick))) (k / 6) (brushCtx (getBrush s k)) ws st)
    k ws st p
  exact ⟨e, by rw [he, getBrush_orderRaise, getBrush_modBrush_same]⟩

/-- A completed order raises its tally by 1 (R186). -/
theorem raises_completeOrder {s : State} {k v c q : Nat} {ws : List W32} (sum : BitVec 5) {st : W8} (p : Option W8)
    (hv : oCtally ws = some v) (hc : brushCtx (getBrush s k) = some c) (hq : tallyOf s (k / 6) c v = some q)
    (hst : st ≠ 0x09) : (getSlate (completeOrder s k ws sum st p) (k / 6)).tallies.raises
      = (getSlate s (k / 6)).tallies.raises ++ [⟨q, 1⟩] := by
  have hraise := orderRaise_raises hv hst
    (show tallyOf (modBrush s k (orderDone ws (crecWord ws sum st (getSlate s (k / 6)).tick))) (k / 6) c v = some q from hq)
  rw [completeOrder_eq, getSlate_orderErrinfo, hc, hraise, queueRaise, modTally, getSlate_modSlate_same, getSlate_modBrush]

/-! Orders that start (R181, R183). -/

section Heads
variable {s : State} {k : BrushRef} {o : QueuedOrder} {os : List QueuedOrder}
  (hruns : brushRuns s (brushNo k) = true) (hq : (getBrush s (brushNo k)).queue = o :: os)
include hruns hq

theorem orderStart_checked (hst : o.status ≠ 0) : exec (.orderStart k) s
    = .next (completeOrder (popOrder s (brushNo k)) (brushNo k) o.words 0 o.status none) := by
  change execOrderStart k s = _
  simp only [execOrderStart, hq, hruns, Bool.not_true, Bool.false_eq_true, if_false, bne_iff_ne, ne_eq, hst,
    not_false_eq_true, if_true]

theorem orderStart_untranslated (hst : o.status = 0) (ht : orderTallies s (brushNo k) o.words = false) :
    exec (.orderStart k) s = .next (completeOrder (popOrder s (brushNo k)) (brushNo k) o.words 0 0x05 none) := by
  change execOrderStart k s = _
  simp only [execOrderStart, hq, hruns, hst, ht, Bool.not_true, Bool.not_false, bne_self_eq_false, Bool.false_eq_true,
    if_false, if_true]

theorem orderStart_waits (hst : o.status = 0) (ht : orderTallies s (brushNo k) o.words = true)
    (hr : orderReady s (brushNo k) o.words = false) : exec (.orderStart k) s = .next s := by
  change execOrderStart k s = _
  simp only [execOrderStart, hq, hruns, hst, ht, hr, Bool.not_true, Bool.not_false, bne_self_eq_false,
    Bool.false_eq_true, if_false, if_true]

theorem orderStart_starts (hst : o.status = 0) (ht : orderTallies s (brushNo k) o.words = true)
    (hr : orderReady s (brushNo k) o.words = true) (h0 : startStatus s (brushNo k) o.words = 0) {u : State}
    (hu : startOrder (popOrder s (brushNo k)) (brushNo k) o.words = (u, none)) : exec (.orderStart k) s = .next u := by
  change execOrderStart k s = _
  simp only [execOrderStart, hq, hruns, hst, ht, hr, h0, hu, Bool.not_true, bne_self_eq_false, Bool.false_eq_true,
    if_false]

end Heads

theorem getBrush_popOrder (s : State) (k : Nat) :
    getBrush (popOrder s k) k = { getBrush s k with queue := (getBrush s k).queue.drop 1 } := by
  rw [popOrder, getBrush_modBrush_same]

/-- The head order completed leaves the queue, its record and its count (R181, R186). -/
theorem getBrush_completeHead {s : State} {k : Nat} {o : QueuedOrder} {os : List QueuedOrder}
    (hq : (getBrush s k).queue = o :: os) (st : W8) :
    ∃ e, getBrush (completeOrder (popOrder s k) k o.words 0 st none) k
      = { orderDone o.words (crecWord o.words 0 st (getSlate s (k / 6)).tick) (getBrush s k) with
          queue := os, errinfo := e } := by
  obtain ⟨e, he⟩ := getBrush_completeOrder (popOrder s k) k o.words 0 st none
  refine ⟨e, ?_⟩
  rw [he, getBrush_popOrder, hq]
  rfl

/-- What an order that starts adds its products to: its group as it stands, or emptied and open (R50, R183). -/
def openedBrush (ws : List W32) (b : Brush) : Brush :=
  if oAcu ws then b
  else { b with groups := mapPut b.groups (oGroup ws) ⟨true, false⟩, cells := openCells b.cells (oGroup ws)
                cellBad := b.cellBad.filter (fun i => i / 65536 != oGroup ws) }

/-- An order that reads no bad word adds its products and runs (R183). -/
theorem startOrder_adds {s : State} {k : Nat} {ws : List W32} (hadds : oNoadd ws = false)
    (hgood : startError s k ws = none) : ∃ u, startOrder s k ws = (u, none) ∧ u.mem = s.mem
      ∧ getBrush u k = { openedBrush ws (getBrush s k) with
          cells := addOrder s k ws
          running := (getBrush s k).running ++ [{ words := ws, drains := oDrn ws }] } := by
  unfold startOrder openedBrush
  simp only [hadds, hgood, Bool.false_eq_true, if_false]
  refine ⟨_, rfl, ?_, ?_⟩
  · split <;> rfl
  · split <;> simp [addRunning]

theorem startError_popOrder (s : State) (k : Nat) (ws : List W32) : startError (popOrder s k) k ws = startError s k ws := by
  have hbad (u v : Brush) (h : u.cellBad = v.cellBad) : cellError u ws = cellError v ws := by rw [cellError, cellError, h]
  unfold startError
  rw [hbad (getBrush (popOrder s k) k) (getBrush s k) (by rw [getBrush_popOrder])]
  rfl

theorem addOrder_popOrder (s : State) (k : Nat) (ws : List W32) : addOrder (popOrder s k) k ws = addOrder s k ws := by
  unfold addOrder
  rw [getBrush_popOrder]
  rfl

/-! Drains and completions (R184 to R186). -/

theorem brushDrain_single {s : State} {k : BrushRef} {r : RunningOrder} (hruns : brushRuns s (brushNo k) = true)
    (hr : (getBrush s (brushNo k)).running = [r]) (hdrains : r.drains = true) (hformed : r.formed = false)
    (hgood : drainError (getBrush s (brushNo k)) r.words = false) :
    exec (.brushDrain k) s = .next (modBrush (emitDrain s (brushNo k) r.words).1 (brushNo k) (fun b =>
      { b with running := listSet b.running 0 { r with formed := true, summary := (emitDrain s (brushNo k) r.words).2 } })) := by
  change execBrushDrain k s = _
  simp [execBrushDrain, hr, hdrains, hformed, hruns, hgood, List.findIdx?_cons]

/-- What a drain emits: its rows, its split scales and its flags (R184), with free MX bits from the counter on (log 1). -/
def brushDrainOf (s : State) (k : Nat) (ws : List W32) : List (List W8) × List W8 × W32 :=
  drainBytes (fun j => (Config.freeValue (s.freeCtr + j)).toNat) (getBrush s k) ws

/-- The beats that a drain's rows and split scales make (R185). -/
def drainBeats (ws : List W32) (d : List (List W8) × List W8 × W32) : List Row :=
  (d.1 ++ if splitScales ws then [d.2.1] else []).flatMap beatsOf

/-- A drain that goes to the out ports spreads its beats over them and closes its group (R50, R184, R185). -/
theorem emitDrain_ports {s : State} {k : Nat} {ws : List W32} (hport : oDink ws = false) :
    (emitDrain s k ws).2 = summaryBits (brushDrainOf s k ws).2.2 ∧ (emitDrain s k ws).1.mem = s.mem
      ∧ getBrush (emitDrain s k ws).1 k = { getBrush s k with
          groups := mapPut (getBrush s k).groups (oGroup ws) ⟨false, false⟩
          outQ := spreadBeats (getBrush s k).outQ (oPorts ws) (drainBeats ws (brushDrainOf s k ws)) } := by
  unfold emitDrain
  dsimp only
  rw [hport, if_neg Bool.false_ne_true]
  refine ⟨rfl, rfl, ?_⟩
  rw [getBrush_modBrush_same, getBrush_modBrush_same]
  rfl

/-- The oldest running order completes once its beats have left (R186). -/
theorem orderComplete_oldest {s : State} {k : BrushRef} {r : RunningOrder} {rs : List RunningOrder}
    (hruns : brushRuns s (brushNo k) = true) (hr : (getBrush s (brushNo k)).running = r :: rs)
    (hgone : beatsGone (getBrush s (brushNo k)) r = true) : exec (.orderComplete k) s
      = .next (completeOrder (modBrush s (brushNo k) (fun b => { b with
          running := listDrop b.running (b.running.findIdx (beatsGone b)) })) (brushNo k) r.words r.summary r.status r.place) := by
  change execOrderComplete k s = _
  simp only [execOrderComplete, hr, List.find?_cons_of_pos hgone, hruns, if_true]

/-- The oldest running order, its beats gone, is the one that leaves. -/
theorem listDrop_oldest {b : Brush} {r : RunningOrder} {rs : List RunningOrder} (hr : b.running = r :: rs)
    (hgone : beatsGone b r = true) : listDrop b.running (b.running.findIdx (beatsGone b)) = rs := by
  rw [hr, List.findIdx_cons, hgone]
  rfl

/-! Reservoir writes and the end of zeroing (R170, R188). -/

theorem reservoirWrite_performs {s : State} {k : BrushRef} {w : TapWrite} {ws : List TapWrite}
    (hruns : brushRuns s (brushNo k) = true) (hz : (getBrush s (brushNo k)).zeroing = false)
    (hw : (getBrush s (brushNo k)).waiting = w :: ws) : exec (.reservoirWrite k) s
      = .next (performTap (modBrush s (brushNo k) (fun b => { b with waiting := ws })) w) := by
  change execReservoirWrite k s = _
  simp only [execReservoirWrite, hw, hruns, hz, Bool.not_false, Bool.and_self, if_true]

/-- A read after the two memories of a brush were zeroed (R188). -/
theorem memRead_zeroed {s : State} (hm : MemOk s) (a b c d e : Nat) :
    memRead (zeroRange (zeroRange s a b) c d).mem e
      = if (a ≤ e ∧ e < b) ∨ (c ≤ e ∧ e < d) then 0 else memRead s.mem e := by
  have houter := memRead_memZero c d e (memOk_zeroRange a b hm)
  have hinner := memRead_memZero a b e hm
  change memRead (memZero (zeroRange s a b).mem c d) e = _
  rw [houter]
  by_cases hc : c ≤ e ∧ e < d
  · rw [if_pos hc, if_pos (.inr hc)]
  · rw [if_neg hc]
    exact hinner.trans (if_congr (by simp [hc]) rfl rfl)

theorem brushZeroingEnd_zeroes {s : State} {k : BrushRef} (hs : slateRuns s k.slate.val = true)
    (hz : (getBrush s (brushNo k)).zeroing = true) : exec (.brushZeroingEnd k) s
      = .next (modBrush (zeroRange (zeroRange s (reservoirBase (brushNo k)) (reservoirBase (brushNo k) + 0x1000000))
          (inkBase (brushNo k)) (inkBase (brushNo k) + 0x100000)) (brushNo k) (fun b => { b with zeroing := false })) := by
  change execBrushZeroingEnd k s = _
  simp only [execBrushZeroingEnd, hs, hz, Bool.and_self, if_true]

/-! What Slates and brushes say of failures, resets, recoveries and shifts, and the device's own blocks: most of what a
reset, a recovery or an abort does leaves them as they are (R190, R230, R236, R349 to R352, R384). -/

/-- What a Slate's controller says of its failures, resets, recoveries and shifts. -/
structure SlateStatus where
  failed : Bool
  inReset : Bool
  recovering : Bool
  rodShifting : BitVec 16
  brushAvail : BitVec 6
  brushFailed : BitVec 6

def slateStatus (x : Slate) : SlateStatus :=
  ⟨x.failed, x.inReset, x.recovering, x.rodShifting, x.brushAvail, x.brushFailed⟩

/-- The status of every Slate, the failure and the running orders of every brush, and the registers of the spine, of
security and of power. -/
structure Status where
  slates : Nat → SlateStatus
  brushes : Nat → Bool × List RunningOrder
  spine : SpineRegs
  sec : Sec
  pwr : Pwr
  vfOn : Bool

def status (s : State) : Status :=
  ⟨fun t => slateStatus (getSlate s t), fun k => ((getBrush s k).failed, (getBrush s k).running), s.spine, s.sec, s.pwr,
    s.vfOn⟩

theorem status_foldl {α : Type} {f : State → α → State} (h : ∀ s a, status (f s a) = status s) (l : List α) (s : State) :
    status (l.foldl f s) = status s := by
  induction l generalizing s with
  | nil => rfl
  | cons a l ih => rw [List.foldl_cons, ih, h]

theorem getSlate_modSlate_ne {s : State} {t j : Nat} (f : Slate → Slate) (h : j ≠ t) :
    getSlate (modSlate s t f) j = getSlate s j :=
  getSlate_putSlate_ne s t j _ h

theorem getBrush_modBrush_ne {s : State} {k j : Nat} (f : Brush → Brush) (h : j ≠ k) :
    getBrush (modBrush s k f) j = getBrush s j :=
  getBrush_putBrush_ne s k j _ h

theorem status_modSlate {s : State} {t : Nat} {f : Slate → Slate}
    (hf : slateStatus (f (getSlate s t)) = slateStatus (getSlate s t)) : status (modSlate s t f) = status s := by
  have hall : (fun j => slateStatus (getSlate (modSlate s t f) j)) = fun j => slateStatus (getSlate s j) := by
    funext j
    by_cases h : j = t
    · rw [h, getSlate_modSlate_same, hf]
    · rw [getSlate_modSlate_ne f h]
  exact congrArg (fun l => (⟨l, _, _, _, _, _⟩ : Status)) hall

theorem status_modBrush {s : State} {k : Nat} {f : Brush → Brush} (hf : (f (getBrush s k)).failed = (getBrush s k).failed)
    (hr : (f (getBrush s k)).running = (getBrush s k).running) : status (modBrush s k f) = status s := by
  have hall : (fun j => ((getBrush (modBrush s k f) j).failed, (getBrush (modBrush s k f) j).running))
      = fun j => ((getBrush s j).failed, (getBrush s j).running) := by
    funext j
    by_cases h : j = k
    · rw [h, getBrush_modBrush_same, hf, hr]
    · rw [getBrush_modBrush_ne f h]
  exact congrArg (fun l => (⟨_, l, _, _, _, _⟩ : Status)) hall

@[simp] theorem status_putBead (s : State) (i : Nat) (b : Bead) : status (putBead s i b) = status s := rfl
@[simp] theorem status_modBead (s : State) (i : Nat) (f : Bead → Bead) : status (modBead s i f) = status s := rfl
@[simp] theorem status_putHand (s : State) (i h : Nat) (x : Hand) : status (putHand s i h x) = status s := rfl
@[simp] theorem status_modHand (s : State) (i h : Nat) (f : Hand → Hand) : status (modHand s i h f) = status s := rfl
@[simp] theorem status_modPage (s : State) (t : Nat) (f : PageState → PageState) : status (modPage s t f) = status s :=
  status_modSlate rfl
@[simp] theorem status_modTally (s : State) (t : Nat) (f : TallyUnit → TallyUnit) : status (modTally s t f) = status s :=
  status_modSlate rfl
@[simp] theorem status_queueRaise (s : State) (t p : Nat) (n : BitVec 48) : status (queueRaise s t p n) = status s :=
  status_modTally s t _
@[simp] theorem status_zeroRange (s : State) (lo hi : Nat) : status (zeroRange s lo hi) = status s := rfl
@[simp] theorem status_freeBits (s : State) : status (freeBits s).2 = status s := rfl
@[simp] theorem status_modEntry (s : State) (f n : Nat) (g : LEntry → LEntry) : status (modEntry s f n g) = status s := rfl

@[simp] theorem status_report (s : State) (r : LogRec) (d : List W32) : status (report s r d) = status s := by
  obtain ⟨l, h⟩ := report_frame s r d
  rw [h]
  rfl

@[simp] theorem status_logSlate (s : State) (c t : Nat) (d : W32) : status (logSlate s c t d) = status s :=
  status_report s _ _

@[simp] theorem status_logUnit (s : State) (c t k n : Nat) (d : W32) : status (logUnit s c t k n d) = status s :=
  status_report s _ _

@[simp] theorem status_logJob (s : State) (c : Nat) (e : LEntry) (d : W32) (ev : List W32) :
    status (logJob s c e d ev) = status s :=
  status_report s _ _

@[simp] theorem status_postEvent (s : State) (kind about slate ctx : Nat) (d : List W32) :
    status (postEvent s kind about slate ctx d) = status s := by
  obtain ⟨l, h⟩ := postEvent_frame s kind about slate ctx d
  rw [h]
  rfl

@[simp] theorem status_postWide (s : State) (kind : Nat) (d : List W32) : status (postWide s kind d) = status s :=
  status_postEvent s _ _ _ _ _

/-! Writes at their homes (R154, R170, R345). -/

@[simp] theorem status_hbmWrite (s : State) (a : Nat) (q : Option Nat) (bs : List W8) :
    status (hbmWrite s a q bs) = status s := by
  cases q <;> rfl

@[simp] theorem status_putHbm (s : State) (a : Nat) (bs : List W8) : status (putHbm s a bs) = status s :=
  status_hbmWrite s a _ bs

@[simp] theorem status_joinTap (s : State) (k : Nat) (w : TapWrite) : status (joinTap s k w) = status s :=
  status_modBrush rfl rfl

@[simp] theorem status_writeEntry (s : State) (m : MergeEntry) : status (writeEntry s m) = status s := by
  unfold writeEntry
  extract_lets both
  have hboth (s : State) (k : Nat) (bs : List W8) : status (both s k bs) = status s := by
    dsimp only [both]
    split <;> rfl
  refine status_foldl (fun s w => ?_) _ s
  split
  · exact hboth s _ _
  · refine status_foldl (fun s k => ?_) _ s
    split
    · exact hboth s _ _
    · rfl

@[simp] theorem status_drainMerge (s : State) (i : Nat) : status (drainMerge s i) = status s := by
  unfold drainMerge
  rw [status_modBead, status_foldl status_writeEntry]

@[simp] theorem status_storeDev (s : State) (i va : Nat) (bs : List W8) : status (storeDev s i va bs) = status s := by
  unfold storeDev
  split
  · rfl
  · split
    · exact status_joinTap s _ _
    · rw [status_hbmWrite, status_modBead]

@[simp] theorem status_writeSpans (s : State) (i : Nat) (dev : Bool) (l : List (Nat × Nat)) (bs : List W8) :
    status (writeSpans s i dev l bs) = status s := by
  induction l generalizing s bs with
  | nil => rfl
  | cons p l ih =>
    unfold writeSpans
    rw [ih]
    split
    · exact status_storeDev s i _ _
    · rfl

/-! Endpoints and hands (R131, R245, R248, R261, R386). -/

@[simp] theorem status_returnCredits (s : State) (net : Net) (i ep n : Nat) (closure : Bool) :
    status (returnCredits s net i ep n closure) = status s := by
  have hadd (cs : List (Nat × Credit)) : status (addCredits s cs) = status s :=
    status_foldl (fun s _ => status_modSlate rfl) cs s
  unfold returnCredits
  dsimp only
  split
  · exact hadd _
  · exact (status_modSlate rfl).trans (hadd _)

@[simp] theorem status_closeIns (s : State) (i : Nat) (sin : BitVec 8) (vin : BitVec 4) (tok : BitVec 16) :
    status (closeIns s i sin vin tok) = status s := by
  have back (net : Net) (n : Nat → Nat) (l : List Nat) (s : State) :
      status (l.foldl (fun s k => returnCredits s net i k (n k) false) s) = status s :=
    status_foldl (fun s k => status_returnCredits s net i k (n k) false) l s
  unfold closeIns
  rw [status_modBead, back .control, back .vector, back .scalar]

@[simp] theorem status_closeAll (s : State) (i : Nat) : status (closeAll s i) = status s := by
  rw [closeAll, status_modBead, status_closeIns]

@[simp] theorem status_closeGateIns (s : State) (i h : Nat) : status (closeGateIns s i h) = status s := by
  unfold closeGateIns
  dsimp only
  split
  · exact status_closeIns s i _ _ _
  · rfl

@[simp] theorem status_abortStaged (s : State) (i h : Nat) : status (abortStaged s i h) = status s := by
  unfold abortStaged
  dsimp only
  split <;> rfl

@[simp] theorem status_cancelWait (s : State) (i h : Nat) : status (cancelWait s i h) = status s := by
  rw [cancelWait, status_modHand, status_modTally]

@[simp] theorem status_freeBytes (s : State) (n : Nat) : status (freeBytes s n).2 = status s := rfl

@[simp] theorem status_loseRow (s : State) (i : Nat) (t : Transfer) (j : Nat) : status (loseRow s i t j) = status s := by
  unfold loseRow
  dsimp only
  split
  · refine status_foldl (fun s p => ?_) _ s
    rw [status_writeSpans, status_freeBytes]
  · rw [status_modBead, status_freeBytes]

@[simp] theorem status_abandonTransfer (s : State) (i h : Nat) : status (abandonTransfer s i h) = status s := by
  unfold abandonTransfer
  dsimp only
  split
  · refine (status_foldl (fun s k => ?_) _ _).trans (status_freeBits s)
    split
    · rfl
    · exact status_loseRow s i _ _
  · rfl

@[simp] theorem status_resetHand (s : State) (i h : Nat) : status (resetHand s i h) = status s := by
  simp only [resetHand, status_modHand, status_cancelWait, status_abortStaged, status_closeGateIns, status_abandonTransfer]

/-! Aborted pages and restarted jobs (R208, R209, R230, R342, R349). -/

@[simp] theorem status_completeOrder (s : State) (k : Nat) (ws : List W32) (sum : BitVec 5) (st : W8) (p : Option W8) :
    status (completeOrder s k ws sum st p) = status s := by
  have hraise (s : State) (t : Nat) (c : Option Nat) : status (orderRaise s t c ws st) = status s := by
    unfold orderRaise
    split
    · split
      · rfl
      · split
        · exact status_queueRaise s _ _ _
        · rfl
    · rfl
  have herr (s : State) : status (orderErrinfo s k ws st p) = status s := by
    have hplace : status (errPlace s p).2 = status s := by cases p <;> rfl
    unfold orderErrinfo
    split
    · rfl
    · rw [status_modBrush rfl rfl, hplace]
  rw [completeOrder_eq, herr, hraise, status_modBrush rfl rfl]

@[simp] theorem status_flushBrush (s : State) (k : Nat) : status (flushBrush s k) = status s := by
  unfold flushBrush
  extract_lets q s1
  have h1 : status s1 = status s := status_modBrush rfl rfl
  refine (status_foldl (fun s o => ?_) q s1).trans h1
  rw [status_completeOrder]

@[simp] theorem status_abortPage (s : State) (t : Nat) : status (abortPage s t) = status s := by
  unfold abortPage
  split
  · rfl
  · have hhands (s : State) (i : Nat) : status ([1, 2, 3].foldl (fun s h => resetHand s i h) s) = status s :=
      status_foldl (fun s h => status_resetHand s i h) _ s
    exact (status_modSlate rfl).trans ((status_foldl hhands _ _).trans (status_foldl status_flushBrush _ s))

@[simp] theorem status_clearPend (s : State) (a : Nat) : status (clearPend s a) = status s := status_putHbm s _ _

@[simp] theorem status_setBusy (s : State) (a : Nat) (v : Bool) : status (setBusy s a v) = status s := status_putHbm s _ _

@[simp] theorem status_clearJobPend (s : State) (t : Nat) : status (clearJobPend s t) = status s := by
  unfold clearJobPend
  split
  · rfl
  · split
    · exact status_foldl status_clearPend _ s
    · rfl

@[simp] theorem status_raiseMiss (s : State) (late : Bool) (t port win short : Nat) :
    status (raiseMiss s late t port win short) = status s := rfl

@[simp] theorem status_abortForReplay (s : State) (t : Nat) : status (abortForReplay s t) = status s := by
  unfold abortForReplay
  dsimp only
  rw [status_abortPage]
  split
  · rw [status_raiseMiss, status_clearJobPend]
  · exact status_clearJobPend s t

@[simp] theorem status_freeTensors (s : State) (e : LEntry) : status (freeTensors s e) = status s := by
  unfold freeTensors
  split
  · refine status_foldl (fun s a => ?_) _ s
    rw [status_setBusy, status_clearPend]
  · rfl

@[simp] theorem status_returnEntry (s : State) (e : LEntry) : status (returnEntry s e) = status s := by
  rw [returnEntry, status_modEntry, status_freeTensors]

@[simp] theorem status_endEntry (s : State) (f n : Nat) (st : W8) (o : JobOutcome) :
    status (endEntry s f n st o) = status s := by
  unfold endEntry
  split
  · rfl
  · dsimp only
    split
    · rw [status_logJob, status_modEntry]
    · rfl

@[simp] theorem status_restartEntry (s : State) (f n : Nat) : status (restartEntry s f n) = status s := by
  unfold restartEntry
  split
  · rfl
  · next e _ =>
    extract_lets s1
    have h1 : status s1 = status s := status_foldl status_clearPend _ s
    split
    · rw [status_endEntry, h1]
    · rw [status_logJob]
      exact (status_returnEntry s1 e).trans h1

@[simp] theorem status_detach (s : State) (t : Nat) : status (detach s t) = status s := status_modPage s t _

@[simp] theorem status_rung4End (s : State) (t : Nat) : status (rung4End s t) = status s := by
  unfold rung4End
  split
  · rfl
  · split
    · split
      · exact status_logJob s _ _ _ _
      · rfl
    · rw [status_restartEntry, status_detach]

/-! Recoveries begun and ended (R350, R385). -/

theorem status_recoveryStarts (s : State) :
    status (recoveryStarts s) = { status s with spine := { s.spine with recovering := true } } :=
  status_postWide _ _ _

theorem status_recoveryEnds (s : State) :
    ∃ on, status (recoveryEnds s) = { status s with spine := { s.spine with recovering := on } } :=
  ⟨_, status_postWide _ _ _⟩

/-- With no Slate reset waiting for recoveries, none begins (R385). -/
theorem status_waitingResets {s : State} (h : s.spine.waits = 0) :
    ∃ r, status (waitingResets s) = { status s with spine := r } := by
  unfold waitingResets
  split
  · exact ⟨s.spine, rfl⟩
  · have hnone : (List.range 4).filter (fun t => s.spine.waits.getLsbD t) = [] := by
      rw [h]
      rfl
    dsimp only
    rw [hnone]
    exact ⟨_, rfl⟩

/-- A Slate whose recovery has ended. -/
def recovered (x : Slate) : Slate := { x with recovering := false, siteWhy := none }

/-- The end of a recovery clears its Slate's mark and leaves the status of Slates and brushes otherwise, where no Slate
reset waits for it (R350, R351, R385). -/
theorem status_finishRecovery {s : State} (t : Nat) (h : s.spine.waits = 0) :
    ∃ r, status (finishRecovery s t) = { status (modSlate s t recovered) with spine := r } := by
  unfold finishRecovery
  extract_lets x s1 s2
  have h2 : status s2 = status s1 := by
    dsimp only [s2]
    split
    · exact status_report s1 _ _
    · rfl
  have h4 : status (rung4End s2 t) = status s1 := (status_rung4End s2 t).trans h2
  obtain ⟨on, hon⟩ := status_recoveryEnds (rung4End s2 t)
  have hwaits : (recoveryEnds (rung4End s2 t)).spine.waits = 0 := by
    have hspine := congrArg (fun x => x.spine.waits) hon
    have hbefore := congrArg (fun x => x.spine.waits) h4
    exact hspine.trans (hbefore.trans h)
  obtain ⟨r, hr⟩ := status_waitingResets hwaits
  exact ⟨r, by rw [hr, hon, h4]; rfl⟩

/-! A brush that fails (R190, R191). -/

theorem bit_getLsbD {w j : Nat} (h : j < w) : (BitVec.ofNat w (2 ^ j)).getLsbD j = true := by
  rw [BitVec.getLsbD_ofNat, Nat.testBit_two_pow_self, decide_eq_true h, Bool.and_true]

theorem set_getLsbD {w j : Nat} (x : BitVec w) (h : j < w) : (x ||| BitVec.ofNat w (2 ^ j)).getLsbD j = true := by
  rw [BitVec.getLsbD_or, bit_getLsbD h, Bool.or_true]

theorem unset_getLsbD {w j : Nat} (x : BitVec w) (h : j < w) : (x &&& ~~~BitVec.ofNat w (2 ^ j)).getLsbD j = false := by
  rw [BitVec.getLsbD_and, BitVec.getLsbD_not, bit_getLsbD h, Bool.not_true, Bool.and_false, Bool.and_false]

theorem status_refuseTapped (s : State) (k : Nat) : status (refuseTapped s k) = status s := by
  unfold refuseTapped
  extract_lets mine s1
  have h1 : status s1 = status s := status_foldl (fun s p => status_modBead s _ _) _ s
  refine (status_foldl (fun s w => ?_) _ s1).trans h1
  split <;> rfl

/-- A brush that is fenced, and its Slate's masks that say so (R190). -/
def Fenced (u : State) (k : BrushRef) : Prop :=
  (getBrush u (brushNo k)).failed = true ∧ (getBrush u (brushNo k)).running = []
    ∧ (getSlate u k.slate.val).brushFailed.getLsbD k.brush.val = true
    ∧ (getSlate u k.slate.val).brushAvail.getLsbD k.brush.val = false

/-- A fence is seen in the status of Slates and brushes. -/
theorem Fenced.congr {s u : State} {k : BrushRef} (h : Fenced s k) (hs : (status u).slates = (status s).slates)
    (hb : (status u).brushes = (status s).brushes) : Fenced u k := by
  obtain ⟨hfailed, hrunning, hmask, havail⟩ := h
  have hslate := congrFun hs k.slate.val
  have hbrush := congrFun hb (brushNo k)
  exact ⟨(congrArg Prod.fst hbrush).trans hfailed, (congrArg Prod.snd hbrush).trans hrunning,
    (congrArg (fun x => x.brushFailed.getLsbD k.brush.val) hslate).trans hmask,
    (congrArg (fun x => x.brushAvail.getLsbD k.brush.val) hslate).trans havail⟩

/-- A change of a Slate that leaves its brush masks leaves a fence. -/
theorem Fenced.after_modSlate {s : State} {k : BrushRef} (h : Fenced s k) (t : Nat) {f : Slate → Slate}
    (hf : ∀ x, (f x).brushFailed = x.brushFailed) (ha : ∀ x, (f x).brushAvail = x.brushAvail) :
    Fenced (modSlate s t f) k := by
  unfold Fenced at h ⊢
  by_cases ht : k.slate.val = t
  · subst ht
    rw [getSlate_modSlate_same, hf, ha]
    exact h
  · rw [getSlate_modSlate_ne f ht]
    exact h

theorem fenceBrush_fenced (s : State) (k : BrushRef) :
    Fenced (fenceBrush s (brushNo k)) k ∧ (fenceBrush s (brushNo k)).spine = s.spine := by
  unfold fenceBrush
  extract_lets b ends s1 s2 s3 bit
  have h1 : status s1 = status s := status_refuseTapped s _
  have h3 : status s3 = status s2 := status_foldl (fun s ws => status_completeOrder s _ ws 0 0x09 none) ends s2
  have hbrush := congrFun (congrArg Status.brushes h3) (brushNo k)
  have hnew : getBrush s2 (brushNo k)
      = { getBrush s1 (brushNo k) with running := [], queue := [], outQ := [], waiting := [], failed := true } :=
    getBrush_modBrush_same s1 _ _
  have hbit : bit = BitVec.ofNat 6 (2 ^ k.brush.val) := by dsimp only [bit]; rw [brushNo_mod]
  have hfailed := (congrArg Prod.fst hbrush).trans (congrArg Brush.failed hnew)
  have hrunning := (congrArg Prod.snd hbrush).trans (congrArg Brush.running hnew)
  rw [brushNo_div, hbit]
  refine ⟨⟨hfailed, hrunning, ?_, ?_⟩, ?_⟩
  · rw [getSlate_modSlate_same]
    exact set_getLsbD _ k.brush.isLt
  · rw [getSlate_modSlate_same]
    exact unset_getLsbD _ k.brush.isLt
  · exact (congrArg Status.spine h3).trans (congrArg Status.spine h1)

theorem Fenced.same {s u : State} {k : BrushRef} (h : Fenced s k) (hu : status u = status s) : Fenced u k :=
  h.congr (congrArg Status.slates hu) (congrArg Status.brushes hu)

theorem recoveryStarts_waits (s : State) : (recoveryStarts s).spine.waits = s.spine.waits := by
  have hspine : (status (recoveryStarts s)).spine.waits = s.spine.waits := by rw [status_recoveryStarts]
  exact hspine

theorem Fenced.after_recoveryStarts {s : State} {k : BrushRef} (h : Fenced s k) : Fenced (recoveryStarts s) k :=
  h.congr (by rw [status_recoveryStarts]) (by rw [status_recoveryStarts])

theorem Fenced.after_finishRecovery {s : State} {k : BrushRef} (h : Fenced s k) (t : Nat) (hw : s.spine.waits = 0) :
    Fenced (finishRecovery s t) k := by
  obtain ⟨r, hend⟩ := status_finishRecovery t hw
  exact (h.after_modSlate t (f := recovered) (fun _ => rfl) (fun _ => rfl)).congr (by rw [hend]) (by rw [hend])

/-- A brush's failure as it is recovered from, once it is fenced: its record is written, and its Slate's page is aborted or,
where none runs, the recovery ends (R191, R350). -/
def recoverBrush (s : State) (t n : Nat) (e : W32) : State :=
  let s := recoveryStarts (modSlate (logUnit s 0x0E t 2 n e) t (fun x => { x with recovering := true }))
  if (getSlate s t).pg.phase = .idle then finishRecovery s t else abortForReplay s t

theorem Fenced.after_recoverBrush {s : State} {k : BrushRef} (h : Fenced s k) (t n : Nat) (e : W32) (hw : s.spine.waits = 0) :
    Fenced (recoverBrush s t n e) k := by
  have hlog := status_logUnit s 0x0E t 2 n e
  have hbegun := ((h.same hlog).after_modSlate t (f := fun x => { x with recovering := true }) (fun _ => rfl)
    (fun _ => rfl)).after_recoveryStarts
  have hwaits := (recoveryStarts_waits (modSlate (logUnit s 0x0E t 2 n e) t (fun x => { x with recovering := true }))).trans
    ((congrArg (fun x => x.spine.waits) hlog).trans hw)
  unfold recoverBrush
  dsimp only
  split
  · exact hbegun.after_finishRecovery t hwaits
  · exact hbegun.same (status_abortForReplay _ t)

/-- A brush that fails while its Slate recovers from nothing else, and no Slate reset waits, is fenced (R190, R191). -/
theorem brushFails_fenced {s : State} {k : BrushRef} (hr : (getSlate s k.slate.val).recovering = false)
    (hw : s.spine.waits = 0) : Fenced (brushFails s (brushNo k)) k := by
  obtain ⟨hfence, hspine⟩ := fenceBrush_fenced s k
  have heq : brushFails s (brushNo k) = recoverBrush (fenceBrush s (brushNo k)) k.slate.val (brushNo k % 6)
      (getBrush (fenceBrush s (brushNo k)) (brushNo k)).errinfo := by
    unfold brushFails
    rw [brushNo_div]
    dsimp only
    rw [hr, if_neg Bool.false_ne_true, recoverBrush]
  rw [heq]
  exact hfence.after_recoverBrush _ _ _ ((congrArg SpineRegs.waits hspine).trans hw)

theorem brushFail_fails {s : State} {k : BrushRef} (hruns : brushRuns s (brushNo k) = true) :
    exec (.brushFail k) s = .next (brushFails s (brushNo k)) := by
  change execBrushFail k s = _
  rw [execBrushFail, hruns, if_pos rfl]

/-- A watchdog that is on fails a brush that runs an order (R190). -/
theorem brushWatchdogExpire_fails {s : State} {k : BrushRef} (hruns : brushRuns s (brushNo k) = true)
    (hr : (getBrush s (brushNo k)).running ≠ []) (hw : (getBrush s (brushNo k)).wdog ≠ 0) :
    exec (.brushWatchdogExpire k) s = .next (brushFails s (brushNo k)) := by
  change execBrushWatchdogExpire k s = _
  simp only [execBrushWatchdogExpire, hruns, List.isEmpty_eq_false_iff.2 hr, bne_iff_ne.2 hw, Bool.not_false, Bool.and_self,
    if_true]

/-- Settles O49: each clause is the equation of its command for the case that it names, with what a completion, a start, a
drain and a fence leave of the brush, its Slate and memory. -/
theorem brushEvents : Obligations.BrushEvents := by
  unfold Obligations.BrushEvents
  intro s k w ws o os r rs v c p t kb b crecOf tick head free rows beats fenced fails
  have hdiv : kb / 6 = t := brushNo_div k
  refine ⟨?write, ?checked, ?untranslated, ?waits, ?starts, ?drain, ?complete, ?watchdog, ?fail, ?zeroed⟩
  case write =>
    intro hruns hz hw
    refine ⟨_, reservoirWrite_performs hruns hz hw, performTap_mem _ _, ?_⟩
    rw [getBrush_performTap, getBrush_modBrush_same]
  case checked =>
    rintro ⟨hruns, hq⟩ hst
    obtain ⟨e, he⟩ := getBrush_completeHead hq o.status
    rw [hdiv] at he
    refine ⟨_, orderStart_checked hruns hq hst, by rw [he], by rw [he]; rfl, ?_, completeOrder_mem _ _ _ _ _ _⟩
    dsimp only [crecOf]
    rw [he]
    exact mapGet_mapPut_same _ _ _ _
  case untranslated =>
    rintro ⟨hruns, hq⟩ hst ht
    obtain ⟨e, he⟩ := getBrush_completeHead hq 0x05
    rw [hdiv] at he
    refine ⟨_, orderStart_untranslated hruns hq hst ht, by rw [he], ?_⟩
    dsimp only [crecOf]
    rw [he]
    exact mapGet_mapPut_same _ _ _ _
  case waits =>
    rintro ⟨hruns, hq⟩ hst ht hr
    exact orderStart_waits hruns hq hst ht hr
  case starts =>
    rintro ⟨hruns, hq⟩ hst ht hr h0 hadds hgood
    obtain ⟨u, hu, hmem, hb⟩ := startOrder_adds hadds ((startError_popOrder s kb o.words).trans hgood)
    rw [addOrder_popOrder, getBrush_popOrder, hq] at hb
    refine ⟨u, orderStart_starts hruns hq hst ht hr h0 hu, ?_, by rw [hb], by rw [hb], fun hacu => ?_, hmem⟩
    · rw [hb]
      unfold openedBrush
      split <;> rfl
    · rw [hb, openedBrush, hacu]
      exact mapGet_mapPut_same _ _ _ _
  case drain =>
    intro hruns hr hdrains hformed hport hgood
    obtain ⟨hsum, hmem, hb⟩ := emitDrain_ports (s := s) (k := kb) hport
    have hfinal := brushDrain_single hruns hr hdrains hformed hgood
    refine ⟨_, hfinal, ?_, ?_, ?_, ?_, hmem⟩
    · rw [getBrush_modBrush_same, hb]
      rfl
    · rw [getBrush_modBrush_same, hb, hsum]
      dsimp only
      rw [hr]
      rfl
    · rw [getBrush_modBrush_same, hb]
      exact mapGet_mapPut_same _ _ _ _
    · rw [getBrush_modBrush_same, hb]
  case complete =>
    intro hruns hr hgone hv hc hp hst
    obtain ⟨e, he⟩ := getBrush_completeOrder (modBrush s kb (fun b => { b with
      running := listDrop b.running (b.running.findIdx (beatsGone b)) })) kb r.words r.summary r.status r.place
    rw [getBrush_modBrush_same, getSlate_modBrush, hdiv] at he
    have hraises := raises_completeOrder (s := modBrush s kb (fun b => { b with
      running := listDrop b.running (b.running.findIdx (beatsGone b)) })) (k := kb) r.summary r.place hv
      ((congrArg brushCtx (getBrush_modBrush_same _ _ _)).trans hc) ((congrArg (tallyOf s · c v) hdiv).trans hp) hst
    rw [hdiv] at hraises
    refine ⟨_, orderComplete_oldest hruns hr hgone, ?_, by rw [he]; rfl, ?_, hraises, completeOrder_mem _ _ _ _ _ _⟩
    · rw [he]
      exact listDrop_oldest hr hgone
    · dsimp only [crecOf]
      rw [he]
      exact mapGet_mapPut_same _ _ _ _
  case watchdog =>
    rintro ⟨hruns, hrec, hwaits⟩ hr hw
    exact ⟨_, brushWatchdogExpire_fails hruns hr hw, brushFails_fenced hrec hwaits⟩
  case fail =>
    rintro ⟨hruns, hrec, hwaits⟩
    exact ⟨_, brushFail_fails hruns, brushFails_fenced hrec hwaits⟩
  case zeroed =>
    intro hm hs hz
    refine ⟨_, brushZeroingEnd_zeroes hs hz, ?_, fun a => memRead_zeroed hm _ _ _ _ a⟩
    rw [getBrush_modBrush_same]

/-! A bead's reset (R164, R386). -/

theorem status_raiseTally (s : State) (t p : Nat) (n : BitVec 48) : status (raiseTally s t p n) = status s := by
  unfold raiseTally
  split
  · exact status_modTally s t _
  · rfl

/-- A piece that does not reach its home leaves at most a record of it. -/
theorem status_andThen {α β : Type} {p : Piece α} {s : State} {va : Nat} {f : α → State × Piece β}
    (h : ∀ v, status (f v).1 = status s) : status (p.andThen s va f).1 = status s := by
  cases p with
  | ok v => exact h v
  | waits => rfl
  | err c => rfl
  | away c t => exact status_logSlate s c t _

theorem status_quillWrite (s : State) (i k : Nat) (dev : Bool) (a : Nat) (bs : List W8)
    (count : Option (Nat × Nat × BitVec 48)) : status (quillWrite s i k dev a bs count).1 = status s := by
  unfold quillWrite
  split
  · rfl
  · split
    · refine status_andThen (fun w => ?_)
      dsimp only
      split
      · exact status_raiseTally s _ _ _
      · rfl
    · refine status_andThen (fun x => ?_)
      split
      · exact (status_hbmWrite _ _ _ bs).trans (status_foldl status_writeEntry _ s)
      · exact status_joinTap s _ _
      · rfl

theorem status_writePieces (i k : Nat) (dev : Bool) (count : Option (Nat × Nat × BitVec 48)) (l : List (Nat × Nat)) :
    ∀ (bs : List W8) (s : State), status (writePieces i k dev count l bs s).1 = status s := by
  induction l with
  | nil => exact fun _ _ => rfl
  | cons p l ih =>
    intro bs s
    unfold writePieces
    extract_lets mine
    have hwrite := status_quillWrite s i k dev p.1 (bs.take p.2) mine
    split
    · next u h =>
      rw [h] at hwrite
      exact (ih _ u).trans hwrite
    · exact hwrite

theorem spine_foldl {α : Type} {f : State → α → State} (h : ∀ s a, (f s a).spine = s.spine) (l : List α) (s : State) :
    (l.foldl f s).spine = s.spine := by
  induction l generalizing s with
  | nil => rfl
  | cons a l ih => rw [List.foldl_cons, ih, h]

theorem abandonQuill_spine (s : State) (i k : Nat) : (abandonQuill s i k).spine = s.spine := by
  have hlose : (loseTapped s i k).spine = s.spine := by
    refine spine_foldl (fun s kb => ?_) _ s
    rfl
  unfold abandonQuill
  dsimp only
  split
  · rfl
  · refine (spine_foldl (fun s j => ?_) _ _).trans hlose
    split
    · rfl
    · exact congrArg Status.spine (status_writePieces i k _ none _ _ (freeBytes s _).2)

theorem resetBead_spine (s : State) (i : Nat) : (resetBead s i).spine = s.spine := by
  have hclosed (s : State) : (closeAll s i).spine = s.spine := congrArg Status.spine (status_closeAll s i)
  have hhand (s : State) (h : Nat) : (resetHand s i h).spine = s.spine := congrArg Status.spine (status_resetHand s i h)
  have hdrained : (drainMerge s i).spine = s.spine := congrArg Status.spine (status_drainMerge s i)
  unfold resetBead
  rw [modBead_spine, hclosed, spine_foldl hhand, spine_foldl (fun s k => abandonQuill_spine s i k), hdrained]

/-! Shifts (R236, R351). -/

theorem endShift_spine (s : State) (t rod : Nat) : (endShift s t rod).spine = s.spine := by
  unfold endShift
  dsimp only
  split
  · rfl
  · exact spine_foldl (fun s p => resetBead_spine (modBead s _ _) _) _ _

/-- The end of a shift frees its rod (R236). -/
theorem endShift_frees (s : State) (t : Nat) (rod : Fin 16) :
    (getSlate (endShift s t rod.val) t).rodShifting.getLsbD rod.val = false := by
  unfold endShift
  dsimp only
  split
  · rw [getSlate_modSlate_same]
    exact unset_getLsbD _ rod.isLt
  · rw [getSlate_modSlate_same]
    exact unset_getLsbD _ rod.isLt

/-- A Slate whose rod has shifted: a rod that is disabled now is no longer in free mode (R235). -/
def rodShifted (s : State) (t rod : Nat) : State :=
  let s := endShift s t rod
  if rodDisabled (rodFailed s t rod) then
    modSlate s t (fun x => { x with freeMask := x.freeMask &&& ~~~(BitVec.ofNat 16 (2 ^ rod)) })
  else s

theorem status_rodShifted (s : State) (t rod : Nat) : status (rodShifted s t rod) = status (endShift s t rod) := by
  unfold rodShifted
  dsimp only
  split
  · exact status_modSlate rfl
  · rfl

theorem shiftEnd_recovers {s : State} {sl : Fin 4} {rod : Fin 16} (hs : slateRuns s sl.val = true)
    (hr : (getSlate s sl.val).rodShifting.getLsbD rod.val = true) (hl : (getSlate s sl.val).pg.load = none) :
    exec (.shiftEnd sl rod) s = .next (finishRecovery (rodShifted s sl.val rod.val) sl.val) := by
  change execShiftEnd sl rod s = _
  simp only [execShiftEnd, hs, hr, hl, Option.isNone_none, Bool.and_self, if_true, rodShifted]

/-- The end of a shift frees the rod and ends the recovery, where no Slate reset waits for it. -/
theorem finishRecovery_rodShifted {s : State} {t : Nat} {rod : Fin 16} (hw : s.spine.waits = 0) :
    (getSlate (finishRecovery (rodShifted s t rod.val) t) t).rodShifting.getLsbD rod.val = false
      ∧ (getSlate (finishRecovery (rodShifted s t rod.val) t) t).recovering = false := by
  have hshift := status_rodShifted s t rod.val
  have hspine : (rodShifted s t rod.val).spine = s.spine :=
    (congrArg Status.spine hshift).trans (endShift_spine s t rod.val)
  obtain ⟨r, hend⟩ := status_finishRecovery (s := rodShifted s t rod.val) t ((congrArg SpineRegs.waits hspine).trans hw)
  have hslate : slateStatus (getSlate (finishRecovery (rodShifted s t rod.val) t) t)
      = slateStatus (recovered (getSlate (rodShifted s t rod.val) t)) :=
    (congrFun (congrArg Status.slates hend) t).trans (congrArg slateStatus (getSlate_modSlate_same _ t recovered))
  have hfreed := congrArg SlateStatus.rodShifting (congrFun (congrArg Status.slates hshift) t)
  refine ⟨?_, congrArg SlateStatus.recovering hslate⟩
  have hbits := (congrArg SlateStatus.rodShifting hslate).trans hfreed
  exact (congrArg (·.getLsbD rod.val) hbits).trans (endShift_frees s t rod)

/-! The beats of the slot fabric (R219 to R222). -/

@[simp] theorem putCircuit_mem (s : State) (t c : Nat) (x : Circuit) : (putCircuit s t c x).mem = s.mem := rfl

@[simp] theorem getCircuit_putCircuit_same (s : State) (t c : Nat) (x : Circuit) :
    getCircuit (putCircuit s t c x) t c = x := by
  rw [getCircuit, putCircuit, modPage, getSlate_modSlate_same]
  exact mapGet_mapPut_same _ _ _ _

theorem getCircuit_storeBytes (s : State) (a t c : Nat) (bs : List W8) :
    getCircuit (storeBytes s a bs) t c = getCircuit s t c := rfl

theorem getCircuit_putBeat (s : State) (t c : Nat) (beat : Row) (tag : Option (Nat × Nat)) :
    getCircuit (putBeat s t c beat tag) t c = { getCircuit s t c with
      sent := (getCircuit s t c).sent + 64, flight := (getCircuit s t c).flight ++ [(beat, tag)] } :=
  getCircuit_putCircuit_same s t c _

section Beats
variable {s : State} {sl : Fin 4} {c : Fin 128} {e : CircuitEnt}
  (ha : activeCircuit s sl.val c.val = some e) (hon : fabricOn s sl.val = true)
include ha hon

/-- A gateway sends the next bytes of its window, where the release tally allows it (R219, R222). -/
theorem beatSend_gateway {rod : Nat} (hsrc : tapAt e.src = .gateway rod) : exec (.beatSend sl c) s
    = .next (if released s sl.val e (getCircuit s sl.val c.val) = true then sendFolio s sl.val c.val rod
        (e.sbase + (getCircuit s sl.val c.val).sent % Nat.max 64 e.slen) else s) := by
  change execBeatSend sl c s = _
  simp only [execBeatSend, ha, hon, hsrc, Bool.not_true, Bool.false_eq_true, if_false]

/-- A brush's out port sends its oldest beat (R179, R219). -/
theorem beatSend_brush {j : Nat} {r : Row} {q : List Row} (hsrc : tapAt e.src = .brush j)
    (hq : mapGet (fun _ => []) (getBrush s (6 * sl.val + j)).outQ e.tx = r :: q) : exec (.beatSend sl c) s
      = .next (putBeat (putBrush s (6 * sl.val + j) { getBrush s (6 * sl.val + j) with
          outQ := mapPut (getBrush s (6 * sl.val + j)).outQ e.tx q }) sl.val c.val r none) := by
  change execBeatSend sl c s = _
  simp only [execBeatSend, ha, hon, hsrc, hq, Bool.not_true, Bool.false_eq_true, if_false]

/-- A beat delivered at a gateway without an arrival tally is stored in its window (R220). -/
theorem beatDeliver_gateway {rod : Nat} {beat : Row} {rest : List (Row × Option (Nat × Nat))}
    (hf : (getCircuit s sl.val c.val).flight = (beat, none) :: rest) (hdst : tapAt e.dst = .gateway rod)
    (harr : e.arrival = none) : exec (.beatDeliver sl c) s
      = .next (storeBytes (putCircuit s sl.val c.val { getCircuit s sl.val c.val with
          received := (getCircuit s sl.val c.val).received + 64, flight := rest })
        (folioBase (gatewayBead sl.val rod) + (e.dbase + (getCircuit s sl.val c.val).received % Nat.max 64 e.dlen))
        (rowBytes beat)) := by
  change execBeatDeliver sl c s = _
  simp only [execBeatDeliver, ha, hf, hon, receiveBeat, hdst, harr, raiseTag, raiseFor, Bool.not_true, Bool.false_eq_true,
    if_false]

end Beats

/-- A gateway reads a beat without a bad word from its folio. -/
theorem sendFolio_good {s : State} {rod off : Nat} (t c : Nat)
    (h : parityFind s.parity (folioBase (gatewayBead t rod) + off) 64 = none) :
    sendFolio s t c rod off
      = putBeat s t c (bytesRow (loadBytes s (folioBase (gatewayBead t rod) + off) 64)) none := by
  unfold sendFolio
  dsimp only
  rw [h]
  rfl

/-! Beats at an in port (R179, R182). -/

/-- A brush whose in port has taken the oldest beat that reached it. -/
def tookBeat (b : Brush) (p : Nat) (rest : List (Row × Option (Nat × Nat))) : Brush :=
  { b with inFlight := mapPut b.inFlight p rest }

section InPorts
variable {s : State} {k : BrushRef} {port : Fin 4} {beat : Row} {rest : List (Row × Option (Nat × Nat))}
  (hs : slateRuns s k.slate.val = true) (hz : (getBrush s (brushNo k)).zeroing = false)
  (hf : mapGet (fun _ => []) (getBrush s (brushNo k)).inFlight port.val = (beat, none) :: rest)
include hs hz hf

/-- An in port takes the oldest beat that has reached it. -/
theorem inPortBeat_takes {u : State}
    (hu : portBeat (putBrush s (brushNo k) (tookBeat (getBrush s (brushNo k)) port.val rest)) (brushNo k) port.val beat
      = (u, false)) : exec (.inPortBeat k port) s = .next u := by
  have hgoes : ¬ (!slateRuns s k.slate.val || (getBrush s (brushNo k)).zeroing) = true := by rw [hs, hz]; decide
  change execInPortBeat k port s = _
  unfold execInPortBeat
  dsimp only
  rw [hf]
  dsimp only
  rw [if_neg hgoes]
  unfold tookBeat at hu
  rw [hu]
  rfl

end InPorts

section PortBeats
variable {s : State} {k p : Nat} (beat : Row) (hb : (getBrush s k).failed = false)
include hb

/-- An in port of MODE Ink without an arrival tally stores its beat at the pointer, which advances (R179). -/
theorem portBeat_ink {ip : InPort} (hip : mapGet (fun _ => {}) (getBrush s k).inPorts p = ip)
    (hmode : fld ip.cfg.toNat 1 0 = 1) (hraise : ip.cfg.getLsbD 31 = false) : portBeat s k p beat
      = (modBrush (storeBytes s (inkBase k + ip.ptr.toNat % 0x100000) (rowBytes beat)) k (fun b => { b with
          inPorts := mapPut b.inPorts p { ip with
            ptr := if (ip.ptr + 64) &&& 0x1FFFC0 = ip.limit then ip.base else (ip.ptr + 64) &&& 0x1FFFC0 } }), false) := by
  simp only [portBeat, hb, hip, hmode, hraise, Bool.false_eq_true, if_false, if_true]

/-- An in port of MODE Order hands its beat to the order queue (R179, R182). -/
theorem portBeat_order {ip : InPort} (hip : mapGet (fun _ => {}) (getBrush s k).inPorts p = ip)
    (hmode : fld ip.cfg.toNat 1 0 = 2) : portBeat s k p beat = enterOrder s k (bytesWords 16 (rowBytes beat)) := by
  have hne : ¬ (2 : Nat) = 1 := by decide
  simp only [portBeat, hb, hip, hmode, hne, Bool.false_eq_true, if_false, if_true]

end PortBeats

/-- An order joins a queue with room, with the status of its checks (R181, R182). -/
theorem enterOrder_joins {s : State} {k : Nat} (ws : List W32) (h : (getBrush s k).queue.length < 16) :
    enterOrder s k ws = (putBrush s k { getBrush s k with
      queue := (getBrush s k).queue ++ [⟨ws, entryStatus (getBrush s k) ws⟩] }, false) := by
  unfold enterOrder
  dsimp only
  rw [if_neg (Nat.not_le.2 h)]

/-- Settles O48: each clause is the equation of its command for the case that it names, and a shift that ends leaves the
status that a finished recovery has. -/
theorem fabricEvents : Obligations.FabricEvents := by
  unfold Obligations.FabricEvents
  intro s sl c e beat rest rod j sh k port r q t x on src dst kb b ip waits
  refine ⟨?send, ?holds, ?brushSends, ?deliver, ?ink, ?order, ?shift⟩
  case send =>
    rintro ⟨ha, hon⟩ hsrc hrel hgood
    have hsends := beatSend_gateway ha hon hsrc
    rw [if_pos hrel, sendFolio_good t c.val hgood] at hsends
    exact ⟨_, hsends, rfl, getCircuit_putBeat s t c.val _ none⟩
  case holds =>
    rintro ⟨ha, hon⟩ hsrc hrel
    exact (beatSend_gateway ha hon hsrc).trans (by rw [hrel, if_neg Bool.false_ne_true])
  case brushSends =>
    rintro ⟨ha, hon⟩ hsrc hq
    refine ⟨_, beatSend_brush ha hon hsrc hq, rfl, getCircuit_putBeat _ t c.val r none, ?_⟩
    rw [putBeat, putCircuit, modPage, getBrush_modSlate, getBrush_putBrush_same]
    exact mapGet_mapPut_same _ _ _ _
  case deliver =>
    rintro ⟨ha, hon⟩ hf hdst harr
    refine ⟨_, beatDeliver_gateway ha hon hf hdst harr, ?_, ?_⟩
    · rw [mem_storeBytes, putCircuit_mem]
    · rw [getCircuit_storeBytes, getCircuit_putCircuit_same]
  case ink =>
    rintro ⟨hs, hz, hfailed, hf⟩ hmode hraise
    have htaken := getBrush_putBrush_same s kb (tookBeat b port.val rest)
    have hbeat := portBeat_ink (s := putBrush s kb (tookBeat b port.val rest)) beat
      ((congrArg Brush.failed htaken).trans hfailed) (ip := ip) (congrArg (fun b => mapGet _ b.inPorts port.val) htaken)
      hmode hraise
    refine ⟨_, inPortBeat_takes hs hz hf hbeat, ?_, ?_, ?_⟩
    · rw [modBrush_mem, mem_storeBytes, putBrush_mem]
    · rw [getBrush_modBrush_same, getBrush_storeBytes, htaken]
      exact mapGet_mapPut_same _ _ _ _
    · rw [getBrush_modBrush_same]
      exact mapGet_mapPut_same _ _ _ _
  case order =>
    rintro ⟨hs, hz, hfailed, hf⟩ hmode hroom
    have htaken := getBrush_putBrush_same s kb (tookBeat b port.val rest)
    have hbeat := portBeat_order (s := putBrush s kb (tookBeat b port.val rest)) beat
      ((congrArg Brush.failed htaken).trans hfailed) (ip := ip) (congrArg (fun b => mapGet _ b.inPorts port.val) htaken)
      hmode
    rw [enterOrder_joins _ (by rw [htaken]; exact hroom), htaken] at hbeat
    refine ⟨_, inPortBeat_takes hs hz hf hbeat, rfl, ?_, ?_⟩
    · rw [getBrush_putBrush_same]
      exact mapGet_mapPut_same _ _ _ _
    · rw [getBrush_putBrush_same]
      exact List.map_append
  case shift =>
    intro hs hr hl hw
    exact ⟨_, shiftEnd_recovers hs hr hl, finishRecovery_rodShifted hw⟩

/-! Control space: granted writes of the registers of a brush and of the spine's blocks (R370, R400, R401). -/

theorem brushAddr_lt (k : BrushRef) {o : Nat} (ho : o < 0x1000) : brushAddr k o < 2 ^ 30 := by
  have hs := k.slate.isLt
  have hb := k.brush.isLt
  rw [brushAddr]
  omega

/-- An offset within a brush's block, where a register stands. -/
theorem locOf_brush {s : State} {k : BrushRef} {o : Nat} (hp : slatePresent s k.slate.val = true) (ho : o < 0x1000)
    (h4 : o % 4 = 0) (hreg : brushRegAt o = true) : locOf s (brushAddr k o) = .brush (brushNo k) o := by
  have hb := k.brush.isLt
  have hline : (0x10000 + k.brush.val * 0x1000 + o) / 4 * 4 = 0x10000 + k.brush.val * 0x1000 + o := by omega
  have hblock : (0x10000 + k.brush.val * 0x1000 + o - 0x10000) / 0x1000 = k.brush.val := by omega
  have hoff : (0x10000 + k.brush.val * 0x1000 + o) % 0x1000 = o := by omega
  rw [brushAddr, Nat.add_assoc, Nat.add_assoc, locOf_slate k.slate.isLt (by omega), ← Nat.add_assoc, slateLoc]
  dsimp only
  rw [hline, hp, if_neg (by simp), if_neg (by omega), if_pos (by omega), hblock, hoff, hreg, if_pos rfl, brushNo]

/-- A write of a word of control space, windows apart. -/
theorem spaceWrite_at {s : State} {p : Path} {a : Nat} {l : Loc} (v : W32) (hup : deviceUp s = true)
    (hq : heldOf s p = []) (ha : a < 2 ^ 30) (hl : locOf s a = l) (hwin : ∀ o, l ≠ .window o) (hdbg : ∀ o, l ≠ .dbgwin o) :
    spaceWrite s p a v = locWrite s p l v := by
  rw [spaceWrite, access_of_quiet _ hup hq, performAcc, writeNow, placeLoc, locOf_ofNat ha, hl]
  split
  · exact absurd rfl (hwin _)
  · exact absurd rfl (hdbg _)
  · rfl

/-- A granted write that finds a brush's register (R401). -/
theorem spaceWrite_brush {s : State} {p : Path} {k : BrushRef} {o : Nat} (v : W32) (hf : BrushFits s p k o)
    (ho : o < 0x1000) (h4 : o % 4 = 0) (hreg : brushRegAt o = true) :
    spaceWrite s p (brushAddr k o) v = writeBrushReg s (brushNo k) o v := by
  have hworks : locInReset s (.brush (brushNo k) o) = false := by rw [locInReset, brushNo_div, hf.working]
  rw [spaceWrite_at v hf.up hf.quiet (brushAddr_lt k ho) (locOf_brush hf.present ho h4 hreg) (fun _ => nofun)
    (fun _ => nofun)]
  change (if granted s p (.brush (brushNo k) o) true = true then
    (if locInReset s (.brush (brushNo k) o) = true then s else writeLoc s p v (.brush (brushNo k) o)) else _) = _
  rw [if_pos hf.grant, hworks]
  rfl

section SpineWrites
variable {s : State} {p : Path} (v : W32) (hup : deviceUp s = true) (hq : heldOf s p = [])
include hup hq

/-- A granted write of STROKE_CTL. -/
theorem spaceWrite_strokeCtl (hg : granted s p (.stroke 4) true = true) :
    spaceWrite s p (spineAddr 0x10004) v = writeStrokeReg s 4 v := by
  rw [spaceWrite_at v hup hq (by decide) (show locOf s (spineAddr 0x10004) = .stroke 4 from rfl) (fun _ => nofun)
    (fun _ => nofun)]
  exact if_pos hg

/-- A granted write of SEC_LC_CTL. -/
theorem spaceWrite_lcCtl (hg : granted s p (.sec 4) true = true) :
    spaceWrite s p (spineAddr 0x40004) v = writeLcCtl s p v := by
  rw [spaceWrite_at v hup hq (by decide) (show locOf s (spineAddr 0x40004) = .sec 4 from rfl) (fun _ => nofun)
    (fun _ => nofun)]
  exact if_pos hg

/-- A granted write of SPINE_RESET_CTL. -/
theorem spaceWrite_resetCtl (hg : granted s p (.spine 0x300) true = true) :
    spaceWrite s p (spineAddr 0x300) v = writeSpineReg s 0x300 v := by
  rw [spaceWrite_at v hup hq (by decide) (show locOf s (spineAddr 0x300) = .spine 0x300 from rfl) (fun _ => nofun)
    (fun _ => nofun)]
  exact if_pos hg

end SpineWrites

/-! Orders pushed and flushed (R182, R188). -/

/-- A brush with its last order word written. -/
def staged (b : Brush) (v : W32) : Brush := { b with stage := mapPut b.stage 15 v }

/-- The words of the order that a write of BRUSH_k_ORDER_15 completes (R182). -/
theorem stage_words (b : Brush) (v : W32) : (List.range 16).map (fun w => mapGet (fun _ => 0) (staged b v).stage w)
    = (List.range 15).map (fun w => mapGet (fun _ => 0) b.stage w) ++ [v] := by
  rw [List.range_succ, List.map_append]
  congr 1
  · refine List.map_congr_left (fun w hw => mapGet_mapPut_ne _ _ _ _ _ ?_)
    exact Nat.ne_of_lt (List.mem_range.1 hw)
  · rw [List.map_singleton]
    exact congrArg (fun v => [v]) (mapGet_mapPut_same _ _ _ _)

/-- The checks of an order look at the out ports of its brush alone. -/
theorem entryStatus_congr {b d : Brush} (ws : List W32) (h : b.outBound = d.outBound) :
    entryStatus b ws = entryStatus d ws := by
  rw [entryStatus, entryStatus, orderPorts, orderPorts, h]

/-- The order staged is pushed where its brush has not failed and its queue has room (R182). -/
theorem pushOrder_joins {s : State} {k : Nat} (hf : (getBrush s k).failed = false)
    (hroom : (getBrush s k).queue.length < 16) {ws : List W32}
    (hws : (List.range 16).map (fun w => mapGet (fun _ => 0) (getBrush s k).stage w) = ws) :
    pushOrder s k = putBrush s k { getBrush s k with
      queue := (getBrush s k).queue ++ [⟨ws, entryStatus (getBrush s k) ws⟩] } := by
  unfold pushOrder
  dsimp only
  rw [if_neg (Bool.eq_false_iff.1 hf), hws, enterOrder_joins ws hroom]
  rfl

theorem orderPush_stages {s : State} {p : Path} {k : BrushRef} {v : W32} (hf : BrushFits s p k 0x13C) :
    exec (.orderPush p k v) s = .next (pushOrder (modBrush s (brushNo k) (fun b => staged b v)) (brushNo k)) :=
  congrArg Host.Outcome.next (spaceWrite_brush v hf (by decide) (by decide) rfl)

theorem flush_flushes {s : State} {p : Path} {k : BrushRef} (hf : BrushFits s p k 0x08) :
    exec (.flush p k) s = .next (flushBrush s (brushNo k)) :=
  congrArg Host.Outcome.next (spaceWrite_brush 1 hf (by decide) (by decide) rfl)

/-- Orders that complete one after another each count (R186). -/
theorem getBrush_completeAll (k : Nat) (st : W8) (q : List QueuedOrder) : ∀ s : State, ∃ r e,
    getBrush (q.foldl (fun s o => completeOrder s k o.words 0 st none) s) k
      = { getBrush s k with crec := r, errinfo := e, done := (getBrush s k).done + BitVec.ofNat 32 q.length } := by
  induction q with
  | nil =>
    intro s
    refine ⟨(getBrush s k).crec, (getBrush s k).errinfo, ?_⟩
    rw [List.foldl_nil, List.length_nil, BitVec.add_zero]
  | cons o q ih =>
    intro s
    obtain ⟨r, e, hrest⟩ := ih (completeOrder s k o.words 0 st none)
    obtain ⟨e', hfirst⟩ := getBrush_completeOrder s k o.words 0 st none
    have hcount (a : W32) : a + BitVec.ofNat 32 (q.length + 1) = a + 1 + BitVec.ofNat 32 q.length := by bv_omega
    refine ⟨r, e, ?_⟩
    rw [List.foldl_cons, hrest, hfirst, List.length_cons, hcount]
    rfl

/-- A flush empties the queue, each order that stood in it counting as completed (R188). -/
theorem getBrush_flushBrush (s : State) (k : Nat) : ∃ r e, getBrush (flushBrush s k) k = { getBrush s k with
    queue := [], crec := r, errinfo := e,
    done := (getBrush s k).done + BitVec.ofNat 32 (getBrush s k).queue.length } := by
  obtain ⟨r, e, h⟩ := getBrush_completeAll k 0x08 (getBrush s k).queue (modBrush s k (fun b => { b with queue := [] }))
  exact ⟨r, e, h.trans (by rw [getBrush_modBrush_same])⟩

/-! The stroke unit fenced (R289, R299). -/

/-- What each step of a fold establishes for its own element, and every step keeps, holds for all elements at the end. -/
theorem foldl_establishes {α : Type} {f : State → α → State} {P : α → State → Prop} (hset : ∀ s a, P a (f s a))
    (hkeep : ∀ s a b, P b s → P b (f s a)) (l : List α) (s : State) : ∀ b, b ∈ l ∨ P b s → P b (l.foldl f s) := by
  induction l generalizing s with
  | nil => exact fun b h => h.resolve_left List.not_mem_nil
  | cons a l ih =>
    intro b h
    refine ih (f s a) b ?_
    rcases h with h | h
    · rcases List.mem_cons.1 h with rfl | h
      · exact .inr (hset s b)
      · exact .inl h
    · exact .inr (hkeep s a b h)

/-- A window slot is closed. -/
def Shut (t w : Nat) (s : State) : Prop := (getWindow s t w).isOpen = false

theorem Shut.congr {t w : Nat} {s u : State} (h : Shut t w s) (hs : (getSlate u t).pg.windows = (getSlate s t).pg.windows) :
    Shut t w u := by
  rw [Shut, getWindow, hs]
  exact h

theorem getWindow_putWindow_same (s : State) (t w : Nat) (x : Window) : getWindow (putWindow s t w x) t w = x := by
  rw [getWindow, putWindow, getSlate_modPage_pg]
  exact mapGet_mapPut_same _ _ _ _

theorem getWindow_putWindow_ne {s : State} {t w j v : Nat} (x : Window) (h : j ≠ t ∨ v ≠ w) :
    getWindow (putWindow s t w x) j v = getWindow s j v := by
  unfold getWindow putWindow
  by_cases hj : j = t
  · subst hj
    rw [getSlate_modPage_pg]
    exact mapGet_mapPut_ne _ _ _ _ _ (h.resolve_left (fun hne => hne rfl))
  · rw [modPage, getSlate_modSlate_ne _ hj]

/-- Besides its own slot, closing an open window changes ports and misses (R299 to R301). -/
theorem closeWindow_windows (s : State) (t w : Nat) (quiet : Bool) : closeWindow s t w quiet = s ∧ Shut t w s
    ∨ ∀ j, getSlate (closeWindow s t w quiet) j
      = getSlate (putWindow s t w { getWindow s t w with isOpen := false }) j := by
  unfold closeWindow
  extract_lets x p short s1 s2
  split
  · next h =>
    have hshut : x.isOpen = false := by simpa using h
    exact .inl ⟨rfl, hshut⟩
  · have h2 (j : Nat) : getSlate s2 j = getSlate s1 j := by
      dsimp only [s2]
      split <;> rfl
    refine .inr (fun j => ?_)
    split
    · exact h2 j
    · exact h2 j

theorem closeWindow_shuts (s : State) (t w : Nat) (quiet : Bool) : Shut t w (closeWindow s t w quiet) := by
  rcases closeWindow_windows s t w quiet with ⟨he, hs⟩ | h
  · rw [he]
    exact hs
  · rw [Shut, getWindow, h t, ← getWindow, getWindow_putWindow_same]

theorem closeWindow_keepsShut {s : State} {j v : Nat} (t w : Nat) (quiet : Bool) (hs : Shut j v s) :
    Shut j v (closeWindow s t w quiet) := by
  by_cases hsame : j = t ∧ v = w
  · obtain ⟨rfl, rfl⟩ := hsame
    exact closeWindow_shuts s j v quiet
  · rcases closeWindow_windows s t w quiet with ⟨he, -⟩ | h
    · rw [he]
      exact hs
    · rw [Shut, getWindow, h j, ← getWindow, getWindow_putWindow_ne _ (not_and_or.1 hsame)]
      exact hs

/-- Every window of a Slate is closed, and none opens elsewhere. -/
theorem closeWindows_shut (s : State) (t : Nat) (quiet : Bool) : ∀ w < 64, Shut t w (closeWindows s t quiet) := by
  intro w hw
  exact foldl_establishes (P := Shut t) (fun s w => closeWindow_shuts s t w quiet)
    (fun s w v h => closeWindow_keepsShut t w quiet h) (List.range 64) s w (.inl (List.mem_range.2 hw))

theorem closeWindows_keepsShut {s : State} {j v : Nat} (t : Nat) (quiet : Bool) (hs : Shut j v s) :
    Shut j v (closeWindows s t quiet) :=
  List.foldlRecOn (motive := Shut j v) (List.range 64) _ hs (fun _ h w _ => closeWindow_keepsShut t w quiet h)

/-- Every window of every present Slate is closed when each Slate's are. -/
theorem closeAllWindows_shut (s : State) {t : Nat} (ht : t ∈ presentSlates s) : ∀ w < 64,
    Shut t w ((presentSlates s).foldl (fun s t => closeWindows s t false) s) := by
  intro w hw
  exact foldl_establishes (P := fun t u => Shut t w u) (fun s t => closeWindows_shut s t false w hw)
    (fun s a b h => closeWindows_keepsShut a false h) (presentSlates s) s t (.inl ht)

theorem strokeCtl_fence (s : State) : (strokeCtl s 0).getLsbD 0 = true ∧ (strokeCtl s 0).getLsbD 1 = false := by
  unfold strokeCtl
  cases s.stroke.recovering <;> decide

theorem strokeCtl_unfence (s : State) : (strokeCtl s 1).getLsbD 0 = false ∧ (strokeCtl s 1).getLsbD 1 = true := by
  unfold strokeCtl
  cases s.stroke.recovering <;> decide

theorem postWide_frame (s : State) (kind : Nat) (d : List W32) :
    ∃ l, postWide s kind d = { s with fns := l, freeCtr := s.freeCtr + 1 } := postEvent_frame s kind 0 0xF 0 d

/-- FENCE without a SYNC Slate closes every window and fences the unit (R289, R299). -/
theorem fenceUnit_fences {s : State} (hst : s.stroke.st ≠ .fenced) (hsync : syncSlates s = []) :
    (fenceUnit s).stroke.st = .fenced ∧ ∀ t ∈ presentSlates s, ∀ w < 64, Shut t w (fenceUnit s) := by
  have hvoid : voidAll s none = s := by rw [voidAll, hsync, List.foldl_nil]
  have hshut (t : Nat) (ht : t ∈ presentSlates s) := closeAllWindows_shut s ht
  unfold fenceUnit
  rw [if_neg hst, hvoid]
  dsimp only
  set u := (presentSlates s).foldl (fun s t => closeWindows s t false) s
  obtain ⟨l, hl⟩ := postWide_frame (modStroke u (fun x => { x with st := .fenced, fly := 0 })) 0x06 [1]
  rw [hl]
  exact ⟨rfl, fun t ht w hw => (hshut t ht w hw).congr rfl⟩

theorem unfenceUnit_acquires {s : State} (hst : s.stroke.st = .fenced) : (unfenceUnit s).stroke.st = .acquiring := by
  obtain ⟨l, hl⟩ := postWide_frame (modStroke s (fun x => { x with st := .acquiring, run := 0 })) 0x06 [2]
  rw [unfenceUnit, if_pos hst, hl]
  rfl

/-- The stroke unit with RECOVERING as a write of STROKE_CTL leaves it. -/
def ctlWritten (s : State) (v : W32) : State := modStroke s (fun x => { x with recovering := v.getLsbD 8 })

theorem fenceStroke_fences {s : State} {p : Path} (hup : deviceUp s = true) (hq : heldOf s p = [])
    (hg : granted s p (.stroke 4) true = true) :
    exec (.fenceStroke p) s = .next (fenceUnit (ctlWritten s (strokeCtl s 0))) := by
  obtain ⟨h0, h1⟩ := strokeCtl_fence s
  refine congrArg Host.Outcome.next ((spaceWrite_strokeCtl _ hup hq hg).trans ?_)
  simp only [writeStrokeReg, h0, h1, ctlWritten]
  rfl

theorem unfence_unfences {s : State} {p : Path} (hup : deviceUp s = true) (hq : heldOf s p = [])
    (hg : granted s p (.stroke 4) true = true) :
    exec (.unfence p) s = .next (unfenceUnit (ctlWritten s (strokeCtl s 1))) := by
  obtain ⟨h0, h1⟩ := strokeCtl_unfence s
  refine congrArg Host.Outcome.next ((spaceWrite_strokeCtl _ hup hq hg).trans ?_)
  simp only [writeStrokeReg, h0, h1, ctlWritten]
  rfl

/-! SEAL and VOID (R361). -/

/-- The condition under which SEC_LC_CTL keeps its fields does not hold in Open, with nothing pending (R361). -/
theorem lcCtl_open {s : State} {p : Path} (hp : p ≠ .firmware) (hl : s.sec.lifecycle = .openLc)
    (hn : s.sec.pendingLc = none) :
    ¬ (p == .firmware || s.sec.lifecycle != .openLc || s.sec.pendingLc.isSome) = true := by
  rw [hl, hn, beq_eq_false_iff_ne.2 hp]
  decide

section Lifecycle
variable {s : State} {p : Path} (hup : deviceUp s = true) (hq : heldOf s p = []) (hg : granted s p (.sec 4) true = true)
include hup hq hg

theorem lcCtl_sealed (v : W32) (hl : s.sec.lifecycle = .sealed) : spaceWrite s p (spineAddr 0x40004) v = s := by
  have hkeeps : (p == .firmware || s.sec.lifecycle != .openLc || s.sec.pendingLc.isSome) = true := by
    rw [hl, show (Lifecycle.sealed != .openLc) = true from rfl, Bool.or_true, Bool.true_or]
  rw [spaceWrite_lcCtl v hup hq hg, writeLcCtl, if_pos hkeeps]

variable (hp : p ≠ .firmware) (hl : s.sec.lifecycle = .openLc) (hn : s.sec.pendingLc = none)
include hp hl hn

theorem sealLc_seals : exec (.sealLc p) s = .next { s with sec := sealNow s.sec } := by
  refine congrArg Host.Outcome.next ((spaceWrite_lcCtl 1 hup hq hg).trans ?_)
  rw [writeLcCtl, if_neg (lcCtl_open hp hl hn)]
  rfl

theorem voidLc_voids : exec (.voidLc p) s = .next { s with sec := { s.sec with pendingLc := some .voided } } := by
  refine congrArg Host.Outcome.next ((spaceWrite_lcCtl 2 hup hq hg).trans ?_)
  rw [writeLcCtl, if_neg (lcCtl_open hp hl hn)]
  rfl

end Lifecycle

/-! A debug session closed (R90, R374, R377). -/

theorem status_lockup (s : State) (i h : Nat) (cause : W8) (entry : Bool) : status (lockup s i h cause entry) = status s := by
  unfold lockup
  rw [status_modBead, status_closeAll]

theorem status_noteFault (s : State) (i : Nat) (f : FaultRec) : status (noteFault s i f) = status s := by
  unfold noteFault
  split
  · unfold noteBank
    exact status_modBead s i _
  · rfl

theorem status_takeInside (s : State) (i h : Nat) (spc : W32) (f : FaultRec) : status (takeInside s i h spc f) = status s := by
  unfold takeInside
  dsimp only
  split
  · exact status_lockup s i h _ _
  · exact status_putHand s i h _

theorem status_deliverSupervisor (s : State) (i : Nat) : status (deliverSupervisor s i) = status s := by
  unfold deliverSupervisor
  dsimp only
  split
  · split
    · rw [status_takeInside, status_noteFault, status_putHand]
    · rfl
  · rfl

theorem status_postNotice (s : State) (i : Nat) (n : Notice) : status (postNotice s i n) = status s := by
  unfold postNotice
  extract_lets
  split
  · rw [status_deliverSupervisor, status_putBead]
  · exact status_putBead s i _

theorem status_takeFault (s : State) (i h : Nat) (spc : W32) (f : FaultRec) : status (takeFault s i h spc f) = status s := by
  unfold takeFault
  dsimp only
  split
  · rw [status_takeInside, status_noteFault]
  · exact (status_postNotice _ i _).trans ((status_putHand _ i h _).trans (status_noteFault s i f))

theorem status_deliverHeld (s : State) (i h : Nat) : status (deliverHeld s i h) = status s := by
  unfold deliverHeld
  dsimp only
  split
  · split
    · rw [status_takeFault, status_putHand]
    · rfl
  · rfl

theorem status_releaseHand (s : State) (i h : Nat) : status (releaseHand s i h) = status s := by
  unfold releaseHand
  dsimp only
  split
  · exact status_putHand s i h _
  · rw [status_deliverHeld, status_putHand]
  · exact status_putHand s i h _
  · exact status_putHand s i h _
  · rfl

theorem status_closeSession (s : State) : status (closeSession s) = { status s with sec := { s.sec with session := none } } := by
  unfold closeSession
  split
  · next h => rw [← h]; rfl
  · have hreleased : status (releaseHalted s (fun _ => true)) = status s := by
      unfold releaseHalted
      refine status_foldl (fun s b => ?_) _ s
      exact status_foldl (fun s h => status_releaseHand s b.1 h) _ s
    dsimp only
    rw [status_postWide]
    exact congrArg (fun x : Status => { x with sec := { x.sec with session := none } }) hreleased

/-! Slates reset by a warm reset (R384 to R386). -/

theorem status_closeWindow (s : State) (t w : Nat) (quiet : Bool) : status (closeWindow s t w quiet) = status s := by
  unfold closeWindow
  extract_lets x p short s1 s2
  have h1 : status s1 = status s := status_modPage s t _
  have h2 : status s2 = status s1 := by
    dsimp only [s2]
    split <;> rfl
  split
  · rfl
  · split
    · rw [h2, h1]
    · rw [status_raiseMiss, h2, h1]

theorem status_closeWindows (s : State) (t : Nat) (quiet : Bool) : status (closeWindows s t quiet) = status s :=
  status_foldl (fun s w => status_closeWindow s t w quiet) _ s

theorem status_pairChannels (s : State) : status (pairChannels s) = status s :=
  status_foldl (fun s t => status_modPage s t _) _ s

theorem status_recross (old s : State) (t : Nat) : status (recross old s t) = status s := by
  unfold recross
  split
  · rfl
  · exact status_foldl (fun s i => status_modBead s i _) _ s

/-- A Slate whose state is lost, save what its failures left; its crossings are closed (R386). -/
def blankSlate (x : Slate) : Slate := { rodFailed := x.rodFailed, failed := x.failed, offline := true }

theorem status_zeroSlate (s : State) (t : Nat) : status (zeroSlate s t) = status s := by
  simp only [zeroSlate, status_zeroRange]

theorem status_dropEntries (s : State) (t : Nat) : status (dropEntries s t) = status s := rfl

/-- Besides beads, brushes and the stroke unit's entries, a Slate reset without retraining changes the status of its own
Slate alone (R384, R386). -/
theorem status_resetSlate (s : State) (t : Nat) : ∃ v bs ks a, status v = status s ∧ status (resetSlate s t false)
    = status (modSlate { v with beads := bs, brushes := ks, aux := a } t blankSlate) := by
  unfold resetSlate
  extract_lets old s1 s2 s3 x s4 s5 s6 s7
  have h1 : status s1 = status s := status_foldl status_returnEntry _ s
  have h2 : status s2 = status s1 := status_closeWindows s1 t false
  have h3 : status s3 = status s2 := by
    dsimp only [s3]
    rw [status_dropEntries, status_zeroSlate]
  have h6 : s6 = s5 := by simp only [s6, Bool.false_eq_true, if_false]
  have h7 : status s7 = status s5 := by rw [show status s7 = status s6 from status_pairChannels s6, h6]
  have hall : status ((List.range 4).foldl (fun s u => if u = t then s else recross old s u) s7) = status s7 := by
    refine status_foldl (fun s u => ?_) _ s7
    split
    · rfl
    · exact status_recross old s u
  exact ⟨s3, _, _, _, h3.trans (h2.trans h1), hall.trans h7⟩

/-- What a reset of a Slate leaves: the status of the other Slates, and the device's own blocks. -/
structure OtherwiseSame (t : Nat) (s u : State) : Prop where
  slates : ∀ j, j ≠ t → slateStatus (getSlate u j) = slateStatus (getSlate s j)
  spine : u.spine = s.spine
  sec : u.sec = s.sec
  pwr : u.pwr = s.pwr
  vfOn : u.vfOn = s.vfOn

theorem beginSlateReset_otherwise (s : State) (t : Nat) : OtherwiseSame t s (beginSlateReset s t false) := by
  obtain ⟨v, bs, ks, a, hv, hr⟩ := status_resetSlate s t
  refine ⟨fun j hj => ?_, ?_, ?_, ?_, ?_⟩
  · have hreset := congrFun (congrArg Status.slates hr) j
    have hbefore := congrFun (congrArg Status.slates hv) j
    rw [beginSlateReset, getSlate_modSlate_ne _ hj]
    refine Eq.trans hreset (Eq.trans (congrArg slateStatus ?_) hbefore)
    exact getSlate_modSlate_ne _ hj
  · exact (congrArg Status.spine hr).trans (congrArg Status.spine hv)
  · exact (congrArg Status.sec hr).trans (congrArg Status.sec hv)
  · exact (congrArg Status.pwr hr).trans (congrArg Status.pwr hv)
  · exact (congrArg Status.vfOn hr).trans (congrArg Status.vfOn hv)

theorem beginSlateReset_inReset (s : State) (t : Nat) (retrain : Bool) :
    (getSlate (beginSlateReset s t retrain) t).inReset = true := by
  rw [beginSlateReset, getSlate_modSlate_same]

/-- The Slates of a list reset one after another: each is in reset, and the device's own blocks are as they were. -/
theorem beginResets (l : List Nat) (s : State) :
    (∀ t ∈ l, (getSlate (l.foldl (fun s t => beginSlateReset s t false) s) t).inReset = true)
      ∧ (l.foldl (fun s t => beginSlateReset s t false) s).spine = s.spine
      ∧ (l.foldl (fun s t => beginSlateReset s t false) s).sec = s.sec
      ∧ (l.foldl (fun s t => beginSlateReset s t false) s).pwr = s.pwr
      ∧ (l.foldl (fun s t => beginSlateReset s t false) s).vfOn = s.vfOn := by
  have hkeep (s : State) (a b : Nat) (h : (getSlate s b).inReset = true) :
      (getSlate (beginSlateReset s a false) b).inReset = true := by
    by_cases hb : b = a
    · rw [hb]
      exact beginSlateReset_inReset s a false
    · exact (congrArg SlateStatus.inReset ((beginSlateReset_otherwise s a).slates b hb)).trans h
  refine ⟨fun t ht => foldl_establishes (P := fun t s => (getSlate s t).inReset = true)
    (fun s t => beginSlateReset_inReset s t false) hkeep l s t (.inl ht), ?_⟩
  refine List.foldlRecOn (motive := fun (u : State) => u.spine = s.spine ∧ u.sec = s.sec ∧ u.pwr = s.pwr ∧ u.vfOn = s.vfOn) l _
    ⟨rfl, rfl, rfl, rfl⟩ (fun u hu t _ => ?_)
  obtain ⟨hspine, hsec, hpwr, hvf⟩ := hu
  have h := beginSlateReset_otherwise u t
  exact ⟨h.spine.trans hspine, h.sec.trans hsec, h.pwr.trans hpwr, h.vfOn.trans hvf⟩

/-! The device reset by WARM (R384). -/

theorem warm_resets {s : State} {p : Path} (hup : deviceUp s = true) (hq : heldOf s p = [])
    (hg : granted s p (.spine 0x300) true = true) : exec (.warm p) s = .next (warmReset s 5) :=
  congrArg Host.Outcome.next (spaceWrite_resetCtl 1 hup hq hg)

/-- What a warm reset leaves where no recovery goes on (R383 to R385). -/
theorem warmReset_quiet {s : State} (kind : BitVec 3) (hr : s.spine.recovering = false) (hw : s.spine.warms ≠ 0xFFFF) :
    (warmReset s kind).spine.resetKind = kind ∧ (warmReset s kind).spine.warms = s.spine.warms + 1
      ∧ (warmReset s kind).sec.session = none ∧ (warmReset s kind).pwr.st = .run ∧ (warmReset s kind).vfOn = false
      ∧ ∀ t < 4, slatePresent s t = true → (getSlate s t).failed = false →
        (getSlate (warmReset s kind) t).inReset = true := by
  have hclosed := status_closeSession s
  have hspine : (closeSession s).spine = s.spine := congrArg Status.spine hclosed
  have hsession : (closeSession s).sec.session = none := congrArg (fun x => x.sec.session) hclosed
  have hfailed (t : Nat) : (getSlate (closeSession s) t).failed = (getSlate s t).failed :=
    congrArg (fun x => (x.slates t).failed) hclosed
  unfold warmReset
  extract_lets s1 x s2 ts
  have hquiet : ¬ s2.spine.recovering = true := by
    rw [show s2.spine.recovering = s1.spine.recovering from rfl, hspine, hr]
    exact Bool.false_ne_true
  have hcount : (if x.warms = BitVec.allOnes 16 then x.warms else x.warms + 1) = s.spine.warms + 1 := by
    rw [show x = s.spine from hspine]
    exact if_neg hw
  obtain ⟨hreset, hsp, hsec, hpwr, hvf⟩ := beginResets ts s2
  rw [if_neg hquiet]
  refine ⟨congrArg SpineRegs.resetKind hsp, (congrArg SpineRegs.warms hsp).trans hcount,
    (congrArg Sec.session hsec).trans hsession, congrArg Pwr.st hpwr, hvf, fun t ht hpresent hworks => ?_⟩
  refine hreset t (List.mem_filter.2 ⟨List.mem_filter.2 ⟨List.mem_range.2 ht, ?_⟩, ?_⟩)
  · exact (congrArg (fun y => slatePresent { s with spine := y } t) hspine).trans hpresent
  · exact congrArg not ((hfailed t).trans hworks)

/-- Settles O40: each write is granted and finds its register, whose effect is a lemma of its own. -/
theorem unitWrites : Obligations.UnitWrites := by
  unfold Obligations.UnitWrites
  intro s k p v kb b words
  refine ⟨fun hf hfailed hroom => ?push, fun hf => ?flush, fun hup hq hg hst hsync => ?fence, fun hup hq hg hst => ?unfence,
    fun hup hq hg hp hl hn => ?seals, fun hup hq hg hp hl hn => voidLc_voids hup hq hg hp hl hn,
    fun hup hq hg hl => ⟨congrArg Host.Outcome.next (lcCtl_sealed hup hq hg 1 hl),
      congrArg Host.Outcome.next (lcCtl_sealed hup hq hg 2 hl)⟩, fun hup hq hg hr hw => ?warm⟩
  case push =>
    have hb := getBrush_modBrush_same s kb (fun b => staged b v)
    have hpush := pushOrder_joins (s := modBrush s kb (fun b => staged b v)) (k := kb) (ws := words)
      ((congrArg Brush.failed hb).trans hfailed) (by rw [hb]; exact hroom) (by rw [hb]; exact stage_words b v)
    refine ⟨_, orderPush_stages hf, ?_, ?_⟩
    · rw [hpush, getBrush_putBrush_same, hb, entryStatus_congr words (show (staged b v).outBound = b.outBound from rfl)]
      rfl
    · rw [hpush, putBrush_mem, modBrush_mem]
  case flush =>
    obtain ⟨r, e, h⟩ := getBrush_flushBrush s kb
    exact ⟨_, flush_flushes hf, by rw [h], by rw [h], by rw [h]⟩
  case fence =>
    obtain ⟨hfenced, hshut⟩ := fenceUnit_fences (s := ctlWritten s (strokeCtl s 0)) hst hsync
    refine ⟨_, fenceStroke_fences hup hq hg, hfenced, fun sl hsl hpresent w hw => hshut sl ?_ w hw⟩
    exact List.mem_filter.2 ⟨List.mem_range.2 hsl, hpresent⟩
  case unfence =>
    exact ⟨_, unfence_unfences hup hq hg, unfenceUnit_acquires hst⟩
  case seals =>
    exact ⟨_, sealLc_seals hup hq hg hp hl hn, hl, rfl, rfl⟩
  case warm =>
    exact ⟨_, warm_resets hup hq hg, warmReset_quiet 5 hr hw⟩

end Sys2Proof.Machine
end BrushAndFabricProofs

/-! SUPPORT. Proofs of the statements of family 09: the tray glyphs (O19), page switches (O47), and single-part failures and recoveries (O54). -/

section PageAndRecoveryProofs

namespace Sys2Proof.Machine

/-! The own tray (R237, R238, R240). -/

section Trays
variable {s : State} {hr : HandRef} {o : BitVec 22} (c : Instr) (hfree : inFreeRod s (beadNo hr.br) = true)
include hfree

/-- TRPUSH with an entry free reads its 64 bytes, stores them at the tail and moves the tail (R238). -/
theorem evalTrpush_ok (hl : LocalOk s hr (localEa (handAt s hr) o).toNat 64) (hon : trayOn (beadOf s hr) = true)
    (hroom : trayCount (beadOf s hr) < 256)
    (hheld : rangeHeld (beadOf s hr) (trayEntry (beadOf s hr) (beadOf s hr).regs.trayTail.toNat) 64 = false) :
    evalTrpush (aloneEnv s hr false) o c = writes [.acc 0,
      .store (localAt hr (trayEntry (beadOf s hr) (beadOf s hr).regs.trayTail.toNat))
        (loadBytes s (localAt hr (localEa (handAt s hr) o).toNat) 64), actOf (aloneEnv s hr false) c] := by
  have hload := localLoad_ok false hl
  have hfree' : inFreeRod (aloneEnv s hr false).s (aloneEnv s hr false).i = true := hfree
  have hb : envBead (aloneEnv s hr false) = beadOf s hr := rfl
  have hx : (aloneEnv s hr false).x = handAt s hr := rfl
  simp only [evalTrpush, hfree', hx, hload, hb, hon, hheld, Bind.bind, Except.bind, Bool.not_true, Bool.false_or,
    decide_eq_true_eq, Bool.false_eq_true, if_false, if_neg (Nat.not_le.2 hroom), ge_iff_le]
  rfl

/-- TRPUSH with its tray off or full answers 1 (R238). -/
theorem evalTrpush_refused (hl : LocalOk s hr (localEa (handAt s hr) o).toNat 64)
    (h : trayOn (beadOf s hr) = false ∨ 256 ≤ trayCount (beadOf s hr)) :
    evalTrpush (aloneEnv s hr false) o c = writes [.acc 1] := by
  have hload := localLoad_ok false hl
  have hfree' : inFreeRod (aloneEnv s hr false).s (aloneEnv s hr false).i = true := hfree
  have hb : envBead (aloneEnv s hr false) = beadOf s hr := rfl
  have hx : (aloneEnv s hr false).x = handAt s hr := rfl
  have hstop : (!trayOn (beadOf s hr) || decide (trayCount (beadOf s hr) ≥ 256)) = true := by simpa using h
  simp only [evalTrpush, hfree', hx, hload, hb, hstop, Bind.bind, Except.bind, Bool.not_true, Bool.false_eq_true, if_false,
    if_true]

/-- TRPOP of a tray with an entry stores the last one's 64 bytes and moves the tail back (R238). -/
theorem evalTrpop_ok (hl : LocalFree s hr (localEa (handAt s hr) o).toNat 64) (hon : trayOn (beadOf s hr) = true)
    (hsome : trayCount (beadOf s hr) ≠ 0)
    (hpar : parityFind s.parity (localAt hr (trayEntry (beadOf s hr) ((beadOf s hr).regs.trayTail - 1).toNat)) 64 = none) :
    evalTrpop (aloneEnv s hr false) o c = writes [.acc 0, .store (localAt hr (localEa (handAt s hr) o).toNat)
      (loadBytes s (localAt hr (trayEntry (beadOf s hr) ((beadOf s hr).regs.trayTail - 1).toNat)) 64),
      actOf (aloneEnv s hr false) c] := by
  have hcheck := checkLocal_ok s hr _ 64 false hl
  have hfree' : inFreeRod (aloneEnv s hr false).s (aloneEnv s hr false).i = true := hfree
  have hb : envBead (aloneEnv s hr false) = beadOf s hr := rfl
  have hx : (aloneEnv s hr false).x = handAt s hr := rfl
  have hpar' : parityFind (aloneEnv s hr false).s.parity (folioBase (aloneEnv s hr false).i
    + trayEntry (beadOf s hr) ((beadOf s hr).regs.trayTail - 1).toNat) 64 = none := hpar
  simp only [evalTrpop, hfree', hx, hcheck, hb, hon, hsome, hpar', Bind.bind, Except.bind, Bool.not_true, Bool.false_or,
    decide_false, Bool.false_eq_true, if_false]
  rfl

/-- TRPOP of a tray that is off or empty answers 1 (R238). -/
theorem evalTrpop_refused (hl : LocalFree s hr (localEa (handAt s hr) o).toNat 64)
    (h : trayOn (beadOf s hr) = false ∨ trayCount (beadOf s hr) = 0) :
    evalTrpop (aloneEnv s hr false) o c = writes [.acc 1] := by
  have hcheck := checkLocal_ok s hr _ 64 false hl
  have hfree' : inFreeRod (aloneEnv s hr false).s (aloneEnv s hr false).i = true := hfree
  have hb : envBead (aloneEnv s hr false) = beadOf s hr := rfl
  have hx : (aloneEnv s hr false).x = handAt s hr := rfl
  have hstop : (!trayOn (beadOf s hr) || decide (trayCount (beadOf s hr) = 0)) = true := by simpa using h
  simp only [evalTrpop, hfree', hx, hcheck, hb, hstop, Bind.bind, Except.bind, Bool.not_true, Bool.false_eq_true, if_false,
    if_true]

/-- TRSTEAL whose operand passes its checks begins its walk (R240). -/
theorem evalTrsteal_ok (hl : LocalFree s hr (localEa (handAt s hr) o).toNat 64) :
    evalTrsteal (aloneEnv s hr false) o c = writes [actOf (aloneEnv s hr false) c] := by
  have hcheck := checkLocal_ok s hr _ 64 false hl
  have hfree' : inFreeRod (aloneEnv s hr false).s (aloneEnv s hr false).i = true := hfree
  have hx : (aloneEnv s hr false).x = handAt s hr := rfl
  simp only [evalTrsteal, hfree', hx, hcheck, Bind.bind, Except.bind, Bool.not_true, Bool.false_eq_true, if_false]

end Trays

theorem actTail_pop (s : State) (hr : HandRef) : actTail s (beadNo hr.br) false = movedTail s hr (-1) := by
  refine modBead_congr ?_
  rw [if_neg Bool.false_ne_true, sub_eq_add_neg]

/-- Settles O19: each glyph's checks pass, and its store and the move of its tail land in order on the retired line. -/
theorem trayGlyphs : Obligations.TrayGlyphs := by
  intro s hr o g i b a tells head last hfree
  refine ⟨fun q hl hon hroom hheld => ?push, fun q hl h => ?full, fun q hl hon hsome hpar => ?pop, fun q hl h => ?empty,
    fun q hl => ?steal⟩
  case push =>
    refine next_plain q (evalTrpush_ok _ hfree hl hon hroom hheld) rfl rfl rfl rfl rfl ?_
    simp only [List.foldl_cons, List.foldl_nil, landEff_acc]
    rfl
  case full => exact issue_acc q _ rfl rfl (evalTrpush_refused _ hfree hl h)
  case pop =>
    refine next_plain q (evalTrpop_ok _ hfree hl hon hsome hpar) rfl rfl rfl rfl rfl ?_
    simp only [List.foldl_cons, List.foldl_nil, landEff_acc]
    exact actTail_pop _ hr
  case empty => exact issue_acc q _ rfl rfl (evalTrpop_refused _ hfree hl h)
  case steal =>
    refine next_plain q (evalTrsteal_ok _ hfree hl) rfl rfl rfl rfl rfl ?_
    have hwalk : (getBead (retire s hr id) i).regs.trayCfg = b.regs.trayCfg := by
      rw [retire, getBead_retireTo]
      rfl
    change stealNext (retire s hr id) i hr.hand.val ⟨a, [], 0, trayNeighbours (retire s hr id) i,
      fld (getBead (retire s hr id) i).regs.trayCfg.toNat 11 8, 0, none⟩ = _
    rw [hwalk]
    rfl

end Sys2Proof.Machine
namespace Sys2Proof.Machine

/-- What every step of a fold keeps, the fold keeps. -/
theorem foldl_keeps {σ α β : Type} {g : σ → β} {f : σ → α → σ} (h : ∀ s a, g (f s a) = g s) (l : List α) (s : σ) :
    g (l.foldl f s) = g s := by
  induction l generalizing s with
  | nil => rfl
  | cons a l ih => rw [List.foldl_cons, ih, h]

/-! Slates that are reset and fail (R346, R352, R353, R384 to R386). -/

theorem status_dropJob (s : State) (e : LEntry) : status (dropJob s e) = status s := by
  unfold dropJob
  dsimp only
  split
  · split
    · rw [status_detach, status_abortPage, status_clearJobPend]
    · rfl
  · rfl

theorem status_endHurt (s : State) (hurt : List Nat) : status (endHurt s hurt) = status s :=
  status_foldl (fun s e => by rw [status_endEntry, status_dropJob]) _ s

theorem status_endUnrunnable (s : State) (l : List LEntry) : status (endUnrunnable s l) = status s := by
  refine status_foldl (fun s e => ?_) l s
  split
  · split
    · exact status_endEntry s _ _ _ _
    · rfl
  · rfl

theorem status_loseStacks (s : State) (ks : List Nat) : ∃ e l, status (loseStacks s ks).1
    = { status s with spine := { s.spine with exposed := e, lostSlates := l } } :=
  ⟨_, _, rfl⟩

/-- What a reset does last, once its Slate's parts are at their reset values (R386). -/
theorem status_resetEnd (old s : State) (t : Nat) :
    status ((List.range 4).foldl (fun s u => if u = t then s else recross old s u) (pairChannels s)) = status s := by
  refine (status_foldl (fun s u => ?_) _ _).trans (status_pairChannels s)
  split
  · rfl
  · exact status_recross old s u

/-- Whether its ports retrain makes no difference to what a Slate says of itself. -/
theorem status_resetSlate_retrain (s : State) (t : Nat) (r : Bool) : status (resetSlate s t r) = status (resetSlate s t false) := by
  unfold resetSlate
  dsimp only
  have hports (s : State) : status ((slatePorts t).foldl (fun s p => modPort s p retrainPort) s) = status s :=
    status_foldl (f := fun s p => modPort s p retrainPort) (fun _ _ => rfl) _ s
  rw [status_resetEnd, status_resetEnd, if_neg Bool.false_ne_true]
  split
  · rw [hports]
  · rfl

theorem resetSlate_spine (s : State) (t : Nat) (r : Bool) : (resetSlate s t r).spine = s.spine := by
  obtain ⟨v, bs, ks, a, hv, hr⟩ := status_resetSlate s t
  exact congrArg Status.spine ((status_resetSlate_retrain s t r).trans hr) |>.trans (congrArg Status.spine hv)

theorem resetSlate_failed (s : State) (t : Nat) (r : Bool) :
    (getSlate (resetSlate s t r) t).failed = (getSlate s t).failed := by
  obtain ⟨v, bs, ks, a, hv, hr⟩ := status_resetSlate s t
  have hslate := congrFun (congrArg Status.slates ((status_resetSlate_retrain s t r).trans hr)) t
  have hblank : slateStatus (getSlate (modSlate { v with beads := bs, brushes := ks, aux := a } t blankSlate) t)
      = slateStatus (blankSlate (getSlate v t)) := congrArg slateStatus (getSlate_modSlate_same _ t blankSlate)
  have hold := congrFun (congrArg Status.slates hv) t
  exact (congrArg SlateStatus.failed (hslate.trans hblank)).trans (congrArg SlateStatus.failed hold)

theorem status_spine (s : State) : (status s).spine = s.spine := rfl

theorem recoveryStarts_spine (s : State) : (recoveryStarts s).spine = { s.spine with recovering := true } := by
  rw [← status_spine, status_recoveryStarts]

theorem recoveryEnds_spine (s : State) : ∃ on, (recoveryEnds s).spine = { s.spine with recovering := on } := by
  obtain ⟨on, h⟩ := status_recoveryEnds s
  exact ⟨on, by rw [← status_spine, h]⟩

/-- A Slate that has failed, reset with its ports and left in reset (R352). -/
def slateDown (s : State) (t : Nat) : State :=
  modSlate (resetSlate (modSlate (recoveryStarts s) t (fun x => { x with failed := true })) t true) t
    (fun x => { x with inReset := true })

/-- The same once its stacks are lost and the jobs that cannot go on have ended (R346, R358). -/
def slateLost (s : State) (t : Nat) : State :=
  let p := loseStacks (slateDown s t) [2 * t, 2 * t + 1]
  endUnrunnable (endHurt p.1 p.2) (slateJobs (recoveryStarts s) t)

/-- The spine's mark of a failed Slate (R352). -/
def markFailed (s : State) (t : Nat) : State :=
  { s with spine := { s.spine with slateFailed := s.spine.slateFailed ||| BitVec.ofNat 4 (2 ^ t) } }

theorem slates_markFailed (s : State) (t : Nat) : (status (markFailed s t)).slates = (status s).slates := rfl

theorem markFailed_marks (s : State) {t : Nat} (ht : t < 4) : (markFailed s t).spine.slateFailed.getLsbD t = true :=
  set_getLsbD _ ht

theorem failSlate_eq (s : State) (t : Nat) (reason : W32) :
    failSlate s t reason = recoveryEnds (logUnit (markFailed (slateLost s t) t) 0x0F t 6 0 reason) := by
  unfold failSlate slateLost slateDown markFailed
  dsimp only

theorem slateDown_slate (s : State) (t : Nat) :
    (getSlate (slateDown s t) t).failed = true ∧ (getSlate (slateDown s t) t).inReset = true := by
  have hfailed := resetSlate_failed (modSlate (recoveryStarts s) t (fun x => { x with failed := true })) t true
  rw [getSlate_modSlate_same] at hfailed
  rw [slateDown, getSlate_modSlate_same]
  exact ⟨hfailed, rfl⟩

theorem slates_slateLost (s : State) (t : Nat) : (status (slateLost s t)).slates = (status (slateDown s t)).slates := by
  unfold slateLost
  dsimp only
  rw [status_endUnrunnable, status_endHurt]
  obtain ⟨e, l, h⟩ := status_loseStacks (slateDown s t) [2 * t, 2 * t + 1]
  rw [h]

/-- A failed Slate is marked and stays in reset, whatever the reason (R352). -/
theorem failSlate_fails (s : State) {t : Nat} (reason : W32) (ht : t < 4) :
    (getSlate (failSlate s t reason) t).failed = true ∧ (failSlate s t reason).spine.slateFailed.getLsbD t = true
      ∧ (getSlate (failSlate s t reason) t).inReset = true := by
  obtain ⟨hfailed, hreset⟩ := slateDown_slate s t
  rw [failSlate_eq]
  have hmask := markFailed_marks (slateLost s t) ht
  have hslates := (slates_markFailed (slateLost s t) t).trans (slates_slateLost s t)
  generalize markFailed (slateLost s t) t = v at hmask hslates
  obtain ⟨on, hend⟩ := status_recoveryEnds (logUnit v 0x0F t 6 0 reason)
  rw [status_logUnit, ← status_spine, status_logUnit] at hend
  have hfinal : (status (recoveryEnds (logUnit v 0x0F t 6 0 reason))).slates = (status (slateDown s t)).slates := by
    rw [hend]
    exact hslates
  have hslate := congrFun hfinal t
  refine ⟨(congrArg SlateStatus.failed hslate).trans hfailed, ?_, (congrArg SlateStatus.inReset hslate).trans hreset⟩
  rw [← status_spine, hend]
  exact hmask

theorem report_spine (s : State) (r : LogRec) (d : List W32) : (report s r d).spine = s.spine :=
  congrArg Status.spine (status_report s r d)

/-- A stack that fails is marked; what it held is lost or goes on with its other copies (R346). -/
theorem stackFailure_marks {s : State} {k : Fin 8} (hb : booted s = true) (hk : stackWorks s k.val = true) :
    ∃ u, exec (.stackFailure k) s = .next u
      ∧ u.spine.stackFailed = s.spine.stackFailed ||| BitVec.ofNat 8 (2 ^ k.val) := by
  have hrun : exec (.stackFailure k) s = execStackFailure k s := rfl
  rw [hrun, execStackFailure, hb, hk]
  refine ⟨_, rfl, ?_⟩
  simp only [Bool.and_self, if_true]
  generalize hs2 : ({ recoveryStarts s with spine := _ } : State) = s2
  have h2 : s2.spine.stackFailed = s.spine.stackFailed ||| BitVec.ofNat 8 (2 ^ k.val) := by
    rw [← hs2, recoveryStarts_spine]
  obtain ⟨e, l, h3⟩ := status_loseStacks s2 [k.val]
  have h4 := congrArg Status.spine (status_endHurt (loseStacks s2 [k.val]).1 (loseStacks s2 [k.val]).2)
  obtain ⟨on, h⟩ := recoveryEnds_spine
    (logUnit (endHurt (loseStacks s2 [k.val]).1 (loseStacks s2 [k.val]).2) 0x10 (k.val / 2) 3 k.val (BitVec.ofNat 32 k.val))
  rw [h, logUnit, report_spine]
  exact (congrArg SpineRegs.stackFailed (h4.trans (congrArg Status.spine h3))).trans h2

/-! Re-mirroring (R346). -/

theorem remirrorDone_mirrors {s : State} (he : s.spine.exposed = true) (hr : s.pins.rails = true)
    (hi : s.pins.inReset = false) : exec .remirrorDone s = .next (remirrorAll s) := by
  have hrun : exec .remirrorDone s = execRemirrorDone s := rfl
  rw [hrun, execRemirrorDone, he, hr, hi]
  rfl

theorem remirrorDone_covered {s : State} (he : s.spine.exposed = false) : exec .remirrorDone s = .next s := by
  have hrun : exec .remirrorDone s = execRemirrorDone s := rfl
  rw [hrun, execRemirrorDone, he]
  rfl

/-- After re-mirroring EXPOSED says whether a page is still single. -/
theorem remirrorAll_exposed (s : State) : (remirrorAll s).spine.exposed = exposedNow (remirrorAll s) := rfl

/-! Slate resets that wait (R385). -/

theorem beginSlateReset_spine (s : State) (t : Nat) (r : Bool) : (beginSlateReset s t r).spine = s.spine :=
  resetSlate_spine s t r

/-- The resets that wait leave the spine's registers but for the waiting ones. -/
theorem waitingResets_spine (s : State) : ∃ w r, (waitingResets s).spine = { s.spine with waits := w, retrains := r } := by
  unfold waitingResets
  split
  · exact ⟨_, _, rfl⟩
  · exact ⟨_, _, spine_foldl (fun s t => beginSlateReset_spine s t _) _ _⟩

/-- Whether the ledger engine's work is firmware's (R355). -/
def softLedger (s : State) : Bool := s.ledger.soft

theorem returnEntry_soft (s : State) (e : LEntry) : softLedger (returnEntry s e) = softLedger s := by
  have hput (s : State) (a : Nat) (bs : List W8) : softLedger (putHbm s a bs) = softLedger s := by
    unfold putHbm
    cases mirrorOf s a <;> rfl
  have hfree : softLedger (freeTensors s e) = softLedger s := by
    unfold freeTensors
    split
    · exact foldl_keeps (g := softLedger) (fun s a => (hput (clearPend s a) _ _).trans (hput s _ _)) _ s
    · rfl
  exact hfree

theorem closeWindow_soft (s : State) (t w : Nat) (quiet : Bool) : softLedger (closeWindow s t w quiet) = softLedger s := by
  unfold closeWindow
  dsimp only
  split
  · rfl
  · split <;> split <;> rfl

theorem closeWindows_soft (s : State) (t : Nat) (quiet : Bool) : softLedger (closeWindows s t quiet) = softLedger s := by
  unfold closeWindows
  exact foldl_keeps (g := softLedger) (fun s w => closeWindow_soft s t w quiet) _ s

theorem resetSlate_soft (s : State) (t : Nat) (r : Bool) : softLedger (resetSlate s t r) = softLedger s := by
  have hcross (old s : State) (t : Nat) : softLedger (recross old s t) = softLedger s := by
    unfold recross
    split
    · rfl
    · refine foldl_keeps (g := softLedger) (fun s i => ?_) _ s
      rfl
  unfold resetSlate
  extract_lets old s1 s2 s3 x s4 s5 s6 s7
  have h1 : softLedger s1 = softLedger s := by
    exact foldl_keeps (g := softLedger) returnEntry_soft _ s
  have h2 : softLedger s2 = softLedger s1 := closeWindows_soft s1 t false
  clear_value s2
  have h6 : softLedger s6 = softLedger s2 := by
    dsimp only [s6]
    split
    · refine foldl_keeps (g := softLedger) (fun s p => ?_) _ s5
      rfl
    · rfl
  have h7 : softLedger s7 = softLedger s6 := by
    refine foldl_keeps (g := softLedger) (fun s t => ?_) _ s6
    rfl
  refine (foldl_keeps (g := softLedger) (fun s u => ?_) _ s7).trans (h7.trans (h6.trans (h2.trans h1)))
  split
  · rfl
  · exact hcross old s u

theorem waitingResets_soft (s : State) : softLedger (waitingResets s) = softLedger s := by
  unfold waitingResets
  split
  · rfl
  · dsimp only
    refine (foldl_keeps (g := softLedger) (fun s t => ?_) _ _).trans rfl
    exact resetSlate_soft s t _

/-- A failed ledger engine's work goes to firmware (R355). -/
theorem ledgerEngineFailure_soft {s : State} (hb : booted s = true) (hs : s.ledger.soft = false) :
    ∃ u, exec .ledgerEngineFailure s = .next u ∧ u.ledger.soft = true := by
  have hrun : exec .ledgerEngineFailure s = execLedgerEngineFailure s := rfl
  rw [hrun, execLedgerEngineFailure, hb, hs]
  refine ⟨_, rfl, ?_⟩
  simp only [Bool.not_false, Bool.and_self, if_true]
  rw [← softLedger, waitingResets_soft, softLedger, recoveryEnds, postWide, postEvent_ledger]
  obtain ⟨l, h⟩ := report_frame { recoveryStarts s with ledger := { (recoveryStarts s).ledger with soft := true } }
    { index := 0, cause := 0x16, severity := 0, slate := 0xF, kind := 7, number := 0, detail := 0 } [0]
  exact congrArg (fun x => x.ledger.soft) h

/-! Scribes (R354 to R356). -/

theorem scribeOf_congr {s u : State} (b : Bool) (ha : u.spine.scribeA = s.spine.scribeA)
    (hb : u.spine.scribeB = s.spine.scribeB) : scribeOf u b = scribeOf s b := by
  rw [scribeOf, ha, hb, scribeOf]

theorem scribeOf_setScribe_same (s : State) (b : Bool) (x : ScribeSt) : scribeOf (setScribe s b x) b = x := by
  cases b <;> rfl

theorem scribeOf_setScribe_other (s : State) (b : Bool) (x : ScribeSt) : scribeOf (setScribe s b x) (!b) = scribeOf s (!b) := by
  cases b <;> rfl

theorem primary_setScribe (s : State) (b : Bool) (x : ScribeSt) : (setScribe s b x).spine.primaryB = s.spine.primaryB
    ∧ (setScribe s b x).spine.failovers = s.spine.failovers := by
  cases b <;> exact ⟨rfl, rfl⟩

/-- A device one of whose Scribes has stopped: whether it locked up is a free value, and a record says that it stopped
(R354, R390; log 104). -/
def scribeStopped (s : State) (b : Bool) : State :=
  report (setLockup (freeBits s).2 b ((freeBits s).1.getLsbD 0))
    { index := 0, cause := 0x12, severity := 0, kind := 5, number := BitVec.ofNat 4 (b1 b), detail := flag b 0 } [flag b 0, 2]

theorem scribeStopped_spine (s : State) (b : Bool) : (scribeStopped s b).spine = s.spine := by
  rw [scribeStopped, report_spine]
  cases b <;> rfl

theorem scribeOf_scribeStopped (s : State) (b c : Bool) : scribeOf (scribeStopped s b) c = scribeOf s c :=
  scribeOf_congr c (by rw [scribeStopped_spine]) (by rw [scribeStopped_spine])

/-- The recovery from Scribe b's stop begun: the other is primary (R354). -/
def tookOver (s : State) (b : Bool) : State :=
  { recoveryStarts s with spine := { (recoveryStarts s).spine with
      primaryB := if (recoveryStarts s).spine.primaryB == b then !b else (recoveryStarts s).spine.primaryB
      failovers := if (recoveryStarts s).spine.primaryB == b && (recoveryStarts s).spine.failovers != BitVec.allOnes 16 then
        (recoveryStarts s).spine.failovers + 1 else (recoveryStarts s).spine.failovers } }

section Scribes
variable {s : State} {b : Bool} (hb : booted s = true) (hrun : scribeOf s b = .running)
include hb hrun

theorem scribeWatchdogExpire_next : exec (.scribeWatchdogExpire b) s
    = .next (if scribeOf (scribeStopped s b) (!b) != .running then goOrphan (setScribe (scribeStopped s b) b .failed)
      else waitingResets (recoveryEnds (setScribe (tookOver (scribeStopped s b) b) b .rebooting))) := by
  have hexec : exec (.scribeWatchdogExpire b) s = execScribeWatchdogExpire b s := rfl
  have hgo : (!booted s || scribeOf s b != .running) = false := by rw [hb, hrun]; rfl
  rw [hexec, execScribeWatchdogExpire, hgo, if_neg Bool.false_ne_true]
  unfold scribeStopped tookOver
  dsimp only [freeBits]
  rfl

theorem scribeWatchdogExpire_fails (hother : scribeOf s (!b) ≠ .running) :
    exec (.scribeWatchdogExpire b) s = .next (goOrphan (setScribe (scribeStopped s b) b .failed)) := by
  rw [scribeWatchdogExpire_next hb hrun, scribeOf_scribeStopped, if_pos (bne_iff_ne.2 hother)]

theorem scribeWatchdogExpire_reboots (hother : scribeOf s (!b) = .running) : exec (.scribeWatchdogExpire b) s
    = .next (waitingResets (recoveryEnds (setScribe (tookOver (scribeStopped s b) b) b .rebooting))) := by
  rw [scribeWatchdogExpire_next hb hrun, scribeOf_scribeStopped, hother, bne_self_eq_false, if_neg Bool.false_ne_true]

end Scribes

/-- A Scribe that stops while the other runs is rebooted; the other is primary from then on, which counts as a failover
where it was not (R354). -/
theorem rebooted_scribes {s : State} {b : Bool} (hother : scribeOf s (!b) = .running) {u : State}
    (hu : u = waitingResets (recoveryEnds (setScribe (tookOver (scribeStopped s b) b) b .rebooting))) :
    scribeOf u b = .rebooting ∧ scribeOf u (!b) = .running
      ∧ u.spine.primaryB = (if s.spine.primaryB = b then !b else s.spine.primaryB)
      ∧ u.spine.failovers = (if s.spine.primaryB = b ∧ s.spine.failovers ≠ 0xFFFF then s.spine.failovers + 1
          else s.spine.failovers) := by
  subst hu
  generalize hv : setScribe (tookOver (scribeStopped s b) b) b .rebooting = v
  obtain ⟨on, hon⟩ := recoveryEnds_spine v
  obtain ⟨w, r, hw⟩ := waitingResets_spine (recoveryEnds v)
  rw [hon] at hw
  have hsame (c : Bool) : scribeOf (waitingResets (recoveryEnds v)) c = scribeOf v c :=
    scribeOf_congr c (by rw [hw]) (by rw [hw])
  have htook : (tookOver (scribeStopped s b) b).spine = { s.spine with
      recovering := true
      primaryB := if s.spine.primaryB == b then !b else s.spine.primaryB
      failovers := if s.spine.primaryB == b && s.spine.failovers != BitVec.allOnes 16 then s.spine.failovers + 1
        else s.spine.failovers } := by
    rw [tookOver, recoveryStarts_spine, scribeStopped_spine]
  refine ⟨?_, ?_, ?_, ?_⟩
  · rw [hsame, ← hv, scribeOf_setScribe_same]
  · rw [hsame, ← hv, scribeOf_setScribe_other, ← hother]
    exact scribeOf_congr _ (by rw [htook]) (by rw [htook])
  · rw [hw, ← hv]
    refine (primary_setScribe _ b _).1.trans ?_
    rw [htook]
    simp
  · rw [hw, ← hv]
    refine (primary_setScribe _ b _).2.trans ?_
    rw [htook]
    simp

/-- A device that has lost its last Scribe is Orphan and says so (R356). -/
theorem goOrphan_orphan (s : State) : (goOrphan s).spine = { s.spine with orphan := true } ∧ (goOrphan s).pins.alertN = false := by
  have hpages := congrArg Status.spine
    (status_foldl status_abortPage (presentSlates s) { s with spine := { s.spine with orphan := true } })
  refine ⟨hpages, ?_⟩
  unfold goOrphan
  dsimp only
  rw [setAlert, show ((presentSlates s).foldl abortPage { s with spine := { s.spine with orphan := true } }).spine = _ from hpages]
  rfl

theorem scribeOf_goOrphan (s : State) (b : Bool) : scribeOf (goOrphan s) b = scribeOf s b := by
  obtain ⟨h, -⟩ := goOrphan_orphan s
  exact scribeOf_congr b (by rw [h]) (by rw [h])

theorem scribeRebootDone_passes {s : State} {b : Bool} (hs : serving s = true) (hb : scribeOf s b = .rebooting) :
    exec (.scribeRebootDone b true) s = .next (postWide (setLockup (setScribe s b .running) b false) 0x0D [flag b 0, 1]) := by
  have hexec : exec (.scribeRebootDone b true) s = execScribeRebootDone b true s := rfl
  rw [hexec, execScribeRebootDone, hs, hb]
  rfl

theorem scribeRebootDone_fails {s : State} {b : Bool} (hs : serving s = true) (hb : scribeOf s b = .rebooting) :
    exec (.scribeRebootDone b false) s = .next (setScribe s b .failed) := by
  have hexec : exec (.scribeRebootDone b false) s = execScribeRebootDone b false s := rfl
  rw [hexec, execScribeRebootDone, hs, hb]
  rfl

theorem rejoined_scribe (s : State) (b : Bool) : scribeOf (postWide (setLockup (setScribe s b .running) b false) 0x0D [flag b 0, 1]) b
      = .running
    ∧ (postWide (setLockup (setScribe s b .running) b false) 0x0D [flag b 0, 1]).spine.primaryB = s.spine.primaryB := by
  obtain ⟨l, h⟩ := postWide_frame (setLockup (setScribe s b .running) b false) 0x0D [flag b 0, 1]
  rw [h]
  cases b <;> exact ⟨rfl, rfl⟩

/-! Beads held (R351). -/

/-- Which beads are held in reset. -/
def holds (s : State) : Nat → Bool := fun i => (getBead s i).held

theorem holds_of_beads {s t : State} (h : t.beads = s.beads) : holds t = holds s := by
  funext i
  rw [holds, getBead, h]
  rfl

theorem holds_modBead (s : State) (i : Nat) {f : Bead → Bead} (hf : ∀ b, (f b).held = b.held) :
    holds (modBead s i f) = holds s := by
  funext j
  by_cases h : j = i
  · rw [h, holds, getBead_modBead_same]
    exact hf _
  · exact congrArg Bead.held (getBead_putBead_ne s i j _ h)

theorem holds_modHand (s : State) (i h : Nat) (f : Hand → Hand) : holds (modHand s i h f) = holds s :=
  holds_modBead s i (f := fun b => setHand b h (f (getHand s i h))) (fun _ => rfl)

theorem held_scrubTags (b : Bead) (line : Nat) : (scrubTags b line).held = b.held := by
  unfold scrubTags
  split
  · rfl
  · refine List.foldlRecOn (motive := fun (c : Bead) => c.held = b.held) _ _ rfl (fun c hc w _ => ?_)
    dsimp only
    split
    · exact hc
    · exact hc

theorem held_blotStore (b : Bead) (x : Xlat) (bs : List W8) : (blotStore b x bs).held = b.held := by
  have hway (b : Bead) (k : Nat) (w : BlotWay) : (touchWay (putWay b k w) k).held = b.held := rfl
  unfold blotStore
  split
  · dsimp only
    split
    · rw [hway, held_scrubTags]
    · exact held_scrubTags b _
  · rfl

theorem beads_hbmWrite (s : State) (a : Nat) (q : Option Nat) (bs : List W8) : (hbmWrite s a q bs).beads = s.beads := by
  cases q <;> rfl

theorem holds_writeSpans (s : State) (i : Nat) (dev : Bool) (l : List (Nat × Nat)) (bs : List W8) :
    holds (writeSpans s i dev l bs) = holds s := by
  have hdev (s : State) (va : Nat) (bs : List W8) : holds (storeDev s i va bs) = holds s := by
    unfold storeDev
    split
    · rfl
    · split
      · rfl
      · exact (holds_of_beads (beads_hbmWrite _ _ _ _)).trans (holds_modBead s i (fun b => held_blotStore b _ bs))
  induction l generalizing s bs with
  | nil => rfl
  | cons p l ih =>
    unfold writeSpans
    rw [ih]
    split
    · exact hdev s _ _
    · rfl

theorem holds_abandonTransfer (s : State) (i h : Nat) : holds (abandonTransfer s i h) = holds s := by
  have hrow (s : State) (t : Transfer) (j : Nat) : holds (loseRow s i t j) = holds s := by
    unfold loseRow
    dsimp only
    split
    · refine foldl_keeps (g := holds) (fun s p => ?_) _ s
      exact holds_writeSpans (freeBytes s p.2).2 i _ _ _
    · refine holds_modBead (freeBytes s 68).2 i (fun _ => ?_)
      rfl
  unfold abandonTransfer
  dsimp only
  split
  · refine (foldl_keeps (g := holds) (fun s k => ?_) _ (freeBits s).2).trans rfl
    split
    · rfl
    · exact hrow s _ _
  · rfl

theorem holds_closeIns (s : State) (i : Nat) (sin : BitVec 8) (vin : BitVec 4) (tok : BitVec 16) :
    holds (closeIns s i sin vin tok) = holds s := by
  unfold closeIns
  extract_lets b e ss vs ts nS nV nT total s1 s2 s3
  have h1 : s1.beads = s.beads := beads_foldl (fun s _ => beads_returnCredits s _ _ _ _ _) ss s
  have h2 : s2.beads = s1.beads := beads_foldl (fun s _ => beads_returnCredits s _ _ _ _ _) vs s1
  have h3 : s3.beads = s2.beads := beads_foldl (fun s _ => beads_returnCredits s _ _ _ _ _) ts s2
  refine (holds_modBead s3 i (fun _ => ?_)).trans (holds_of_beads (h3.trans (h2.trans h1)))
  rfl

theorem holds_resetHand (s : State) (i h : Nat) : holds (resetHand s i h) = holds s := by
  have hgates (s : State) : holds (closeGateIns s i h) = holds s := by
    unfold closeGateIns
    dsimp only
    split
    · exact holds_closeIns s i _ _ _
    · rfl
  have hstaged (s : State) : holds (abortStaged s i h) = holds s := by
    unfold abortStaged
    dsimp only
    split
    · rfl
    · refine (holds_modBead _ i (fun _ => ?_)).trans (holds_modHand s i h (fun x => { x with staged := none }))
      rfl
  have hwait (s : State) : holds (cancelWait s i h) = holds s := holds_modHand _ i h _
  unfold resetHand
  rw [holds_modHand, hwait, hstaged, hgates, holds_abandonTransfer]

theorem beads_completeOrder (s : State) (k : Nat) (ws : List W32) (sum : BitVec 5) (st : W8) (p : Option W8) :
    (completeOrder s k ws sum st p).beads = s.beads := by
  have hraise (s : State) (t : Nat) (c : Option Nat) : (orderRaise s t c ws st).beads = s.beads := by
    unfold orderRaise
    split
    · split
      · rfl
      · split <;> rfl
    · rfl
  have herr (s : State) : (orderErrinfo s k ws st p).beads = s.beads := by
    unfold orderErrinfo
    split
    · rfl
    · cases p <;> rfl
  rw [completeOrder_eq, herr, hraise, modBrush_beads]

theorem holds_abortPage (s : State) (t : Nat) : holds (abortPage s t) = holds s := by
  have hflush (s : State) (k : Nat) : (flushBrush s k).beads = s.beads :=
    beads_foldl (fun s o => beads_completeOrder s k _ _ _ _) _ _
  unfold abortPage
  split
  · rfl
  · have hhands (s : State) (i : Nat) : holds ([1, 2, 3].foldl (fun s h => resetHand s i h) s) = holds s :=
      foldl_keeps (g := holds) (fun s h => holds_resetHand s i h) _ s
    exact (foldl_keeps (g := holds) hhands _ _).trans (holds_of_beads (beads_foldl hflush _ s))

theorem beads_clearJobPend (s : State) (t : Nat) : (clearJobPend s t).beads = s.beads := by
  unfold clearJobPend
  split
  · rfl
  · split
    · exact beads_foldl (fun s a => beads_hbmWrite s _ _ _) _ s
    · rfl

theorem holds_abortForReplay (s : State) (t : Nat) : holds (abortForReplay s t) = holds s := by
  unfold abortForReplay
  dsimp only
  rw [holds_abortPage]
  split
  · exact holds_of_beads (beads_clearJobPend s t)
  · exact holds_of_beads (beads_clearJobPend s t)

/-! A page aborted (R230, R349). -/

theorem sameJobs_clearJobPend (s : State) (t : Nat) : SameJobs s (clearJobPend s t) := by
  unfold clearJobPend
  split
  · exact .refl s
  · split
    · exact .foldl (fun s a => sameJobs_hbmWrite s _ _ _) _ s
    · exact .refl s

theorem abortPage_aborts {s : State} {t : Nat} (h : (getSlate s t).pg.phase ≠ .idle) :
    (getSlate (abortPage s t) t).pg.phase = .aborting := by
  rw [abortPage, if_neg h, getSlate_modSlate_same]

/-- The abort of rung 4 leaves its Slate aborting, with its recovery, and holds no bead and frees none (R349). -/
theorem abortForReplay_aborts {s : State} {t : Nat} (h : (getSlate s t).pg.phase ≠ .idle) :
    (getSlate (abortForReplay s t) t).pg.phase = .aborting
      ∧ (getSlate (abortForReplay s t) t).recovering = (getSlate s t).recovering
      ∧ ∀ i, (getBead (abortForReplay s t) i).held = (getBead s i).held := by
  have hstatus := congrFun (congrArg Status.slates (status_abortForReplay s t)) t
  refine ⟨?_, congrArg SlateStatus.recovering hstatus, fun i => congrFun (holds_abortForReplay s t) i⟩
  have hpg : (getSlate (clearJobPend s t) t).pg.phase = (getSlate s t).pg.phase := by
    rw [(sameJobs_clearJobPend s t).pages]
  unfold abortForReplay
  dsimp only
  refine abortPage_aborts ?_
  split
  · exact fun hidle => h (hpg.symm.trans hidle)
  · exact fun hidle => h (hpg.symm.trans hidle)

/-! A bead whose check wire rises (R236, R351). -/

/-- A bead's site given up to a recovery that begins: the bead is held, and its Slate recovers. -/
def siteTaken (s : State) (t i : Nat) (site : Fin 17) (why : SiteReason) : State :=
  recoveryStarts (modSlate (modBead s i (fun b => { b with held := true })) t
    (fun x => { x with recovering := true, siteWhy := some (site, why) }))

theorem siteTaken_frame (s : State) (t i : Nat) (site : Fin 17) (why : SiteReason) :
    (getBead (siteTaken s t i site why) i).held = true
      ∧ getSlate (siteTaken s t i site why) t = { getSlate s t with recovering := true, siteWhy := some (site, why) } := by
  unfold siteTaken recoveryStarts
  generalize hv : modSlate (modBead s i (fun b => { b with held := true })) t
    (fun x => { x with recovering := true, siteWhy := some (site, why) }) = v
  obtain ⟨l, h⟩ := postWide_frame { v with
    stroke := { v.stroke with recovering := true }, spine := { v.spine with recovering := true } } 0x07 []
  have hslate : getSlate v t = { getSlate s t with recovering := true, siteWhy := some (site, why) } := by
    rw [← hv, getSlate_modSlate_same]
    rfl
  have hbead : (getBead v i).held = true := by
    rw [← hv]
    have hput := congrArg Bead.held (getBead_modBead_same s i (fun b => { b with held := true }))
    exact hput
  rw [h]
  exact ⟨hbead, hslate⟩

/-- A shift that begins marks its site and its rod, and holds a bead that was held (R236). -/
theorem beginShift_begins (s : State) (t : Nat) (rod : Fin 16) (site i : Nat) (h : (getBead s i).held = true) :
    mapGet (fun _ => 0) (getSlate (beginShift s t rod.val site) t).rodFailed rod.val
        = rodFailed s t rod.val ||| BitVec.ofNat 17 (2 ^ site)
      ∧ (getSlate (beginShift s t rod.val site) t).recovering = (getSlate s t).recovering
      ∧ (getBead (beginShift s t rod.val site) i).held = true
      ∧ (getSlate (beginShift s t rod.val site) t).rodShifting.getLsbD rod.val = true := by
  unfold beginShift
  extract_lets failed s1
  have h1 : getSlate s1 t = { getSlate s t with
      rodFailed := mapPut (getSlate s t).rodFailed rod.val
        (mapGet (fun _ => 0) (getSlate s t).rodFailed rod.val ||| BitVec.ofNat 17 (2 ^ site))
      rodShifting := (getSlate s t).rodShifting ||| BitVec.ofNat 16 (2 ^ rod.val)
      pendingSite := none
      pg := { (getSlate s t).pg with load := (getSlate s t).pg.active.map (fun f => (f, false)) } } :=
    getSlate_modSlate_same s t _
  have hslate (u : State) (hu : getSlate u t = getSlate s1 t) (hheld : (getBead u i).held = true) :
      mapGet (fun _ => 0) (getSlate u t).rodFailed rod.val = rodFailed s t rod.val ||| BitVec.ofNat 17 (2 ^ site)
        ∧ (getSlate u t).recovering = (getSlate s t).recovering ∧ (getBead u i).held = true
        ∧ (getSlate u t).rodShifting.getLsbD rod.val = true := by
    rw [hu, h1]
    exact ⟨mapGet_mapPut_same _ _ _ _, rfl, hheld, set_getLsbD _ rod.isLt⟩
  clear_value failed
  cases failed with
  | some p =>
    refine hslate _ rfl ?_
    dsimp only
    by_cases hp : i = 256 * t + 16 * rod.val + p
    · rw [hp, getBead_modBead_same]
    · exact (congrArg Bead.held (getBead_putBead_ne s1 _ i _ hp)).trans h
  | none => exact hslate s1 rfl h

section CheckWire
variable {s : State} {sl : Fin 4} {rod : Fin 16} {site : Fin 17} {pos : Nat} (hruns : slateRuns s sl.val = true)
  (hgood : (rodFailed s sl.val rod.val).getLsbD site.val = false) (hpos : posOf s sl.val rod.val site.val = some pos)
  (hfree : (getBead s (256 * sl.val + 16 * rod.val + pos)).held = false) (hcalm : (getSlate s sl.val).recovering = false)
include hruns hgood hpos hfree hcalm

theorem beadCheckWire_idle (hidle : (getSlate s sl.val).pg.phase = .idle) : exec (.beadCheckWire sl rod site .check) s
    = .next (beginShift (siteTaken s sl.val (256 * sl.val + 16 * rod.val + pos) site .check) sl.val rod.val site.val) := by
  have hphase : (getSlate (siteTaken s sl.val (256 * sl.val + 16 * rod.val + pos) site .check) sl.val).pg.phase = .idle := by
    rw [(siteTaken_frame _ _ _ _ _).2]
    exact hidle
  have hexec : exec (.beadCheckWire sl rod site .check) s = execBeadCheckWire sl rod site .check s := rfl
  rw [hexec]
  simp only [execBeadCheckWire, hruns, hgood, hpos, hfree, hcalm, siteFails, Option.map_some, Bool.not_true, Bool.not_false,
    Bool.and_self, Bool.or_self, Bool.false_eq_true, if_false]
  exact congrArg Host.Outcome.next (if_pos hphase)

theorem beadCheckWire_running (hrun : (getSlate s sl.val).pg.phase = .running) :
    exec (.beadCheckWire sl rod site .check) s
      = .next (modSlate (abortForReplay (siteTaken s sl.val (256 * sl.val + 16 * rod.val + pos) site .check) sl.val) sl.val
          (fun x => { x with pendingSite := some (rod, site) })) := by
  have hphase : (getSlate (siteTaken s sl.val (256 * sl.val + 16 * rod.val + pos) site .check) sl.val).pg.phase = .running := by
    rw [(siteTaken_frame _ _ _ _ _).2]
    exact hrun
  have hexec : exec (.beadCheckWire sl rod site .check) s = execBeadCheckWire sl rod site .check s := rfl
  rw [hexec]
  simp only [execBeadCheckWire, hruns, hgood, hpos, hfree, hcalm, siteFails, Option.map_some, Bool.not_true, Bool.not_false,
    Bool.and_self, Bool.or_self, Bool.false_eq_true, if_false]
  exact congrArg Host.Outcome.next (if_neg (fun h => absurd (hphase.symm.trans h) (by decide)))

/-- In an idle Slate the site of the bead is shifted at once (R236, R351). -/
theorem beadCheckWire_shifts (hidle : (getSlate s sl.val).pg.phase = .idle) :
    ∃ u, exec (.beadCheckWire sl rod site .check) s = .next u
      ∧ mapGet (fun _ => 0) (getSlate u sl.val).rodFailed rod.val
        = rodFailed s sl.val rod.val ||| BitVec.ofNat 17 (2 ^ site.val)
      ∧ (getSlate u sl.val).recovering = true ∧ (getBead u (256 * sl.val + 16 * rod.val + pos)).held = true
      ∧ (getSlate u sl.val).rodShifting.getLsbD rod.val = true := by
  have hexec := beadCheckWire_idle hruns hgood hpos hfree hcalm hidle
  obtain ⟨hheld, hslate⟩ := siteTaken_frame s sl.val (256 * sl.val + 16 * rod.val + pos) site .check
  generalize siteTaken s sl.val (256 * sl.val + 16 * rod.val + pos) site .check = v at hexec hheld hslate
  obtain ⟨hmark, hrec, hbead, hshift⟩ := beginShift_begins v sl.val rod site.val _ hheld
  refine ⟨_, hexec, hmark.trans ?_, hrec.trans ?_, hbead, hshift⟩
  · rw [rodFailed, hslate, rodFailed]
  · rw [hslate]

/-- While a page runs it is aborted first, and the site waits for its close (R351). -/
theorem beadCheckWire_aborts (hrun : (getSlate s sl.val).pg.phase = .running) :
    ∃ u, exec (.beadCheckWire sl rod site .check) s = .next u ∧ (getSlate u sl.val).pendingSite = some (rod, site)
      ∧ (getSlate u sl.val).recovering = true ∧ (getBead u (256 * sl.val + 16 * rod.val + pos)).held = true
      ∧ (getSlate u sl.val).pg.phase = .aborting := by
  have hexec := beadCheckWire_running hruns hgood hpos hfree hcalm hrun
  obtain ⟨hheld, hslate⟩ := siteTaken_frame s sl.val (256 * sl.val + 16 * rod.val + pos) site .check
  generalize siteTaken s sl.val (256 * sl.val + 16 * rod.val + pos) site .check = v at hexec hheld hslate
  have hphase : (getSlate v sl.val).pg.phase ≠ .idle := by
    rw [hslate]
    exact fun h => absurd (hrun.symm.trans h) (by decide)
  obtain ⟨haborts, hrec, hholds⟩ := abortForReplay_aborts hphase
  generalize abortForReplay v sl.val = w at hexec haborts hrec hholds
  refine ⟨_, hexec, ?_, ?_, (hholds _).trans hheld, ?_⟩
  · rw [getSlate_modSlate_same]
  · rw [getSlate_modSlate_same]
    exact hrec.trans (by rw [hslate])
  · rw [getSlate_modSlate_same]
    exact haborts

end CheckWire

/-- Settles O54: each clause is its command's equation for the case that it names, with what the reset, the recovery and the
abort within it leave of Slates, beads and the spine. -/
theorem recoveryEvents : Obligations.RecoveryEvents := by
  unfold Obligations.RecoveryEvents
  intro s sl rod site k b pos t i x failed marked
  have hfails (c : Instr) (reason : W32) (hexec : exec c s = .next (failSlate s t reason)) :
      ∃ u, exec c s = .next u ∧ failed u := ⟨_, hexec, failSlate_fails s reason sl.isLt⟩
  refine ⟨fun hup => hfails _ 0 (congrArg Host.Outcome.next (if_pos hup)),
    fun hup => hfails _ 3 (congrArg Host.Outcome.next (if_pos hup)),
    fun hup => hfails _ 2 (congrArg Host.Outcome.next (if_pos hup)),
    fun hruns hgood hpos _ hfree hcalm hidle => ?shifts, fun hruns hgood hpos _ hfree hcalm hrun => ?aborts,
    fun hb hk => stackFailure_marks hb hk, fun he hr hi => ⟨_, remirrorDone_mirrors he hr hi, remirrorAll_exposed s⟩,
    fun he => remirrorDone_covered he, fun hb hrun hother hp hf => ?takes, fun hb hrun hother hp => ?standby,
    fun hb hrun hother => ?orphan, fun hs hb => ⟨_, scribeRebootDone_passes hs hb, rejoined_scribe s b⟩,
    fun hs hb => scribeRebootDone_fails hs hb, fun hb hs => ledgerEngineFailure_soft hb hs⟩
  case shifts => exact beadCheckWire_shifts hruns hgood hpos hfree hcalm hidle
  case aborts => exact beadCheckWire_aborts hruns hgood hpos hfree hcalm hrun
  case takes =>
    obtain ⟨h1, h2, h3, h4⟩ := rebooted_scribes hother rfl
    exact ⟨_, scribeWatchdogExpire_reboots hb hrun hother, h1, h2, h3.trans (if_pos hp), h4.trans (if_pos ⟨hp, hf⟩)⟩
  case standby =>
    obtain ⟨h1, -, h3, h4⟩ := rebooted_scribes hother rfl
    have hnot : ¬ s.spine.primaryB = b := by
      rw [hp]
      cases b <;> decide
    exact ⟨_, scribeWatchdogExpire_reboots hb hrun hother, h1, h3.trans ((if_neg hnot).trans hp),
      h4.trans (if_neg (fun h => hnot h.1))⟩
  case orphan =>
    obtain ⟨hspine, halert⟩ := goOrphan_orphan (setScribe (scribeStopped s b) b .failed)
    refine ⟨_, scribeWatchdogExpire_fails hb hrun hother, ?_, congrArg SpineRegs.orphan hspine, halert⟩
    rw [scribeOf_goOrphan, scribeOf_setScribe_same]

end Sys2Proof.Machine
namespace Sys2Proof.Machine

/-! A Slate's page state changed, and what work elsewhere leaves of it. -/

theorem getSlate_modPage_same (s : State) (t : Nat) (f : PageState → PageState) :
    getSlate (modPage s t f) t = { getSlate s t with pg := f (getSlate s t).pg } :=
  getSlate_modSlate_same s t _

/-- Two changes of one Slate's page state make one. -/
theorem modPage_modPage (s : State) (t : Nat) (f g : PageState → PageState) :
    modPage (modPage s t f) t g = modPage s t (fun p => g (f p)) := by
  rw [modPage, modSlate, getSlate_modPage_same]
  exact congrArg (fun m => { s with slates := m }) (mapPut_mapPut_same ..)

/-- A page state without its counters, circuits, crossings, windows and schedule. -/
def pageCore (p : PageState) : PageState := { p with stale := 0, paired := 0, circuits := [], windows := [], sched := {} }

/-- The core of every Slate's page state. -/
def cores (s : State) : Nat → PageState := fun t => pageCore (getSlate s t).pg

theorem cores_of_slates {s u : State} (h : u.slates = s.slates) : cores u = cores s := by
  funext t
  rw [cores, getSlate, h]
  rfl

theorem cores_modSlate {s : State} {t : Nat} {f : Slate → Slate} (h : ∀ x, pageCore (f x).pg = pageCore x.pg) :
    cores (modSlate s t f) = cores s := by
  funext j
  by_cases hj : j = t
  · rw [hj, cores, getSlate_modSlate_same]
    exact h _
  · rw [cores, getSlate_modSlate_ne f hj]
    rfl

theorem cores_modPage {s : State} {t : Nat} {f : PageState → PageState} (h : ∀ p, pageCore (f p) = pageCore p) :
    cores (modPage s t f) = cores s :=
  cores_modSlate (fun x => h x.pg)

theorem cores_modBead (s : State) (i : Nat) (f : Bead → Bead) : cores (modBead s i f) = cores s := rfl

theorem cores_putBead (s : State) (i : Nat) (b : Bead) : cores (putBead s i b) = cores s := rfl

theorem cores_putHand (s : State) (i h : Nat) (x : Hand) : cores (putHand s i h x) = cores s := rfl

theorem cores_modBrush (s : State) (k : Nat) (f : Brush → Brush) : cores (modBrush s k f) = cores s := rfl

theorem cores_aux (s : State) (a : StrokeAux) : cores { s with aux := a } = cores s := rfl

theorem cores_countStale (s : State) (t n : Nat) : cores (countStale s t n) = cores s := by
  refine cores_modPage (fun p => ?_)
  rfl

theorem cores_returnCredits (s : State) (net : Net) (i ep n : Nat) (closure : Bool) :
    cores (returnCredits s net i ep n closure) = cores s := by
  have hadd (l : List (Nat × Credit)) : cores (addCredits s l) = cores s := by
    refine foldl_keeps (g := cores) (fun s a => cores_modSlate (fun x => ?_)) l s
    rfl
  unfold returnCredits
  dsimp only
  split
  · exact hadd _
  · refine (cores_modSlate (fun x => ?_)).trans (hadd _)
    rfl

theorem cores_closeIns (s : State) (i : Nat) (sin : BitVec 8) (vin : BitVec 4) (tok : BitVec 16) :
    cores (closeIns s i sin vin tok) = cores s := by
  have back (net : Net) (n : Nat → Nat) (l : List Nat) (s : State) :
      cores (l.foldl (fun s k => returnCredits s net i k (n k) false) s) = cores s :=
    foldl_keeps (g := cores) (fun s k => cores_returnCredits s net i k (n k) false) l s
  unfold closeIns
  dsimp only
  rw [cores_modBead, back, back, back]

theorem cores_closeAll (s : State) (i : Nat) : cores (closeAll s i) = cores s := by
  unfold closeAll
  rw [cores_modBead, cores_closeIns]

/-! An interrupt raised (R76, R80, R81, R90). -/

theorem cores_noteFault (s : State) (i : Nat) (f : FaultRec) : cores (noteFault s i f) = cores s := by
  unfold noteFault
  split
  · unfold noteBank
    exact cores_modBead s i _
  · rfl

theorem cores_takeInside (s : State) (i h : Nat) (spc : W32) (f : FaultRec) : cores (takeInside s i h spc f) = cores s := by
  unfold takeInside
  dsimp only
  split
  · unfold lockup
    rw [cores_modBead, cores_closeAll]
  · exact cores_putHand s i h _

theorem cores_deliverSupervisor (s : State) (i : Nat) : cores (deliverSupervisor s i) = cores s := by
  unfold deliverSupervisor
  dsimp only
  split
  · split
    · rw [cores_takeInside, cores_noteFault, cores_putHand]
    · rfl
  · rfl

theorem cores_postNotice (s : State) (i : Nat) (n : Notice) : cores (postNotice s i n) = cores s := by
  unfold postNotice
  extract_lets
  split
  · rw [cores_deliverSupervisor, cores_putBead]
  · exact cores_putBead s i _

theorem cores_raiseInt (s : State) (i k : Nat) : cores (raiseInt s i k) = cores s := by
  have hset (s : State) (d : W32) : cores (setInterrupt s i k d) = cores s := by
    unfold setInterrupt
    dsimp only
    split
    · rfl
    · split
      · exact (cores_postNotice _ i _).trans (cores_modBead s i _)
      · exact cores_modBead s i _
  exact (hset _ _).trans (cores_of_slates rfl)

/-! Frames written and ruling loads (R224, R226). -/

theorem frameWrite_next {s : State} {sl : Fin 4} (frame : Fin 64) (bringup : Bool) (img : List W8) (h : slateRuns s sl.val = true) :
    exec (.frameWrite sl frame bringup img) s = .next (writeFrame s sl.val frame.val bringup (img.take 0x10000)) := by
  have e : exec (.frameWrite sl frame bringup img) s = execFrameWrite sl frame bringup img s := rfl
  rw [e, execFrameWrite, if_pos h]

theorem map_val_eq {n : Nat} (o : Option (Fin n)) (f : Fin n) : o.map (·.val) = some f.val ↔ o = some f := by
  cases o with
  | none => simp
  | some x => simp [Fin.ext_iff]

theorem writeFrame_free {s : State} {t : Nat} {f : Fin 64} (bringup : Bool) (img : List W8)
    (ha : (getSlate s t).pg.active ≠ some f) (hs : (getSlate s t).pg.shadow ≠ some f) :
    writeFrame s t f.val bringup img = modPage s t (fun p => { p with
      frames := mapPut p.frames f.val { valid := (imageFault s t img bringup).isNone, image := img, bringup := bringup } }) := by
  rw [writeFrame, if_neg]
  rw [map_val_eq, map_val_eq]
  exact not_or.mpr ⟨ha, hs⟩

theorem writeFrame_held {s : State} {t : Nat} {f : Fin 64} (bringup : Bool) (img : List W8)
    (h : (getSlate s t).pg.active = some f ∨ (getSlate s t).pg.shadow = some f) : writeFrame s t f.val bringup img = s := by
  rw [writeFrame, if_pos]
  rw [map_val_eq, map_val_eq]
  exact h

section Rulings
variable {s : State} {sl : Fin 4} {f : Fin 64} (hruns : slateRuns s sl.val = true)
include hruns

theorem rulingLoadDone_shadow {again : Bool} (h : (getSlate s sl.val).pg.load = some (f, again)) :
    exec (.rulingLoadDone sl true) s = .next (modSlate s sl.val (fun x => { x with
      offline := false, pg := { x.pg with shadow := some f, shadowFrame := f, load := none } })) := by
  have e : exec (.rulingLoadDone sl true) s = execRulingLoadDone sl true s := rfl
  rw [e]
  simp [execRulingLoadDone, h, hruns]

theorem rulingLoadDone_again (h : (getSlate s sl.val).pg.load = some (f, false)) :
    exec (.rulingLoadDone sl false) s = .next (modPage s sl.val (fun p => { p with load := some (f, true) })) := by
  have e : exec (.rulingLoadDone sl false) s = execRulingLoadDone sl false s := rfl
  rw [e]
  simp [execRulingLoadDone, h, hruns]

end Rulings

/-! Close: the windows and held units go, and the page state keeps its core (R229 to R231). -/

theorem cores_closeWindow (s : State) (t w : Nat) (quiet : Bool) : cores (closeWindow s t w quiet) = cores s := by
  unfold closeWindow
  extract_lets x p short s1 s2
  have h1 : cores s1 = cores s := by
    refine cores_modPage (fun p => ?_)
    rfl
  have h2 : cores s2 = cores s1 := by
    dsimp only [s2]
    split <;> rfl
  have h3 : cores (raiseMiss s2 (wSend x) t p w short) = cores s2 := cores_of_slates rfl
  split
  · rfl
  · split
    · exact h2.trans h1
    · exact h3.trans (h2.trans h1)

theorem cores_closeWindows (s : State) (t : Nat) (quiet : Bool) : cores (closeWindows s t quiet) = cores s := by
  unfold closeWindows
  exact foldl_keeps (g := cores) (fun s w => cores_closeWindow s t w quiet) _ s

theorem cores_discardHeld (s : State) (t : Nat) : cores (discardHeld s t) = cores s := by
  refine (cores_countStale _ t _).trans (cores_modSlate (fun x => ?_))
  rfl

/-- A close that serves a switch starts the switch's time and loads the page's ruling where the shadow does not hold it (R231). -/
theorem beginClose_closes {s : State} {t : Nat} {w : Switch} (h : (getSlate s t).pg.switch = some w) :
    (getSlate (beginClose s t) t).pg.phase = .closing ∧ (getSlate (beginClose s t) t).pg.epoch = (getSlate s t).pg.epoch + 1
      ∧ (∃ tick, (getSlate (beginClose s t) t).pg.switch = some { w with start := tick })
      ∧ (getSlate (beginClose s t) t).pg.load
        = if (getSlate s t).pg.shadow = some w.page.frame then none else some (w.page.frame, false) := by
  unfold beginClose
  extract_lets s1 s2 s3 s4 aux s5 tick
  have h1 : (getSlate s1 t).pg = { (getSlate s t).pg with phase := .closing, epoch := (getSlate s t).pg.epoch + 1 } := by
    rw [show s1 = modSlate s t _ from rfl, getSlate_modSlate_same]
  clear_value s1
  have h2 : cores s2 = cores s1 :=
    foldl_keeps (g := cores) (fun s i => (cores_countStale _ t _).trans (cores_putBead s i _)) _ s1
  clear_value s2
  have h3 : cores s3 = cores s2 := cores_discardHeld s2 t
  clear_value s3
  have h4 : cores s4 = cores s3 := cores_closeWindows s3 t false
  clear_value s4
  have h5 : cores s5 = cores s4 := cores_aux s4 aux
  clear_value s5
  have hcore : pageCore (getSlate s5 t).pg = pageCore (getSlate s1 t).pg := congrFun (h5.trans (h4.trans (h3.trans h2))) t
  rw [h1] at hcore
  have hphase : (getSlate s5 t).pg.phase = .closing := by simpa [pageCore] using congrArg PageState.phase hcore
  have hepoch : (getSlate s5 t).pg.epoch = (getSlate s t).pg.epoch + 1 := by simpa [pageCore] using congrArg PageState.epoch hcore
  have hshadow : (getSlate s5 t).pg.shadow = (getSlate s t).pg.shadow := by simpa [pageCore] using congrArg PageState.shadow hcore
  have hswitch : (getSlate s5 t).pg.switch = some w := by simpa [pageCore, h] using congrArg PageState.switch hcore
  rw [getSlate_modPage_pg, hswitch, ← hshadow]
  exact ⟨hphase, hepoch, ⟨tick, rfl⟩, rfl⟩

theorem pageDrained_closes {s : State} {sl : Fin 4} {j : SlateJob} {n : W16} {p : PageDesc} (hruns : slateRuns s sl.val = true)
    (hphase : (getSlate s sl.val).pg.phase = .running) (hjob : (getSlate s sl.val).pg.job = some j) (hlast : j.page.last = false)
    (hnext : j.page.next = some n) (hdrained : pageDrained s sl.val = true)
    (hpage : choosePage s j.book sl.val n.toNat = some p) (hfreed : rodsFreed s sl.val p = true) :
    exec (.pageDrained sl) s = .next (beginClose (modPage s sl.val (fun x => { x with switch := some { page := p } })) sl.val) := by
  have e : exec (.pageDrained sl) s = execPageDrained sl s := rfl
  rw [e]
  simp [execPageDrained, pageEnds, hruns, hphase, hjob, hlast, hnext, hdrained, hpage, hfreed]

/-- A switch given to a Slate closes with the next epoch. -/
theorem switchClose_closes (s : State) (t : Nat) (p : PageDesc) :
    ∃ u, beginClose (modPage s t (fun x => { x with switch := some { page := p } })) t = u
      ∧ (getSlate u t).pg.phase = .closing ∧ (getSlate u t).pg.epoch = (getSlate s t).pg.epoch + 1
      ∧ (∃ q, (getSlate u t).pg.switch = some q ∧ q.page = p)
      ∧ (getSlate u t).pg.load = (if (getSlate s t).pg.shadow = some p.frame then none else some (p.frame, false)) := by
  have hpg := getSlate_modPage_pg s t (fun x => { x with switch := some { page := p } })
  generalize modPage s t (fun x => { x with switch := some { page := p } }) = v at hpg
  obtain ⟨hclosing, hepoch, ⟨tick, hclose⟩, hload⟩ := beginClose_closes (s := v) (t := t) (w := { page := p }) (by rw [hpg])
  rw [hpg] at hepoch hload
  exact ⟨_, rfl, hclosing, hepoch, ⟨_, hclose, rfl⟩, hload⟩

/-! The end of a close (R231, R232). -/

theorem getSlate_beginBlot (s : State) (t : Nat) (img : List W8) (j : Nat) : getSlate (beginBlot s t img) j = getSlate s j := by
  have h : (beginBlot s t img).slates = s.slates := by
    unfold beginBlot
    split
    · rfl
    · refine foldl_keeps (g := State.slates) (fun s i => ?_) _ s
      rfl
  rw [getSlate, h]
  rfl

section CloseEnd
variable {s : State} {sl : Fin 4} (hruns : slateRuns s sl.val = true) (hphase : (getSlate s sl.val).pg.phase = .closing)
  (hsite : (getSlate s sl.val).pendingSite = none) (hrec : (getSlate s sl.val).recovering = false)
include hruns hphase hsite hrec

theorem closeEnd_idle (h : (getSlate s sl.val).pg.switch = none) :
    exec (.closeEnd sl) s = .next (modPage s sl.val (fun p => { p with circuitsOff := true, phase := .idle })) := by
  have e : exec (.closeEnd sl) s = execCloseEnd sl s := rfl
  rw [e]
  simp [execCloseEnd, hruns, hphase, hsite, hrec, h, getSlate_modPage_same, modPage_modPage]

theorem closeEnd_loading {w : Switch} (h : (getSlate s sl.val).pg.switch = some w) : ∃ img, exec (.closeEnd sl) s
    = .next (beginBlot (modPage s sl.val (fun p => { p with
        circuitsOff := true, phase := .loading, switch := some { w with closed := true } })) sl.val img) := by
  have e : exec (.closeEnd sl) s = execCloseEnd sl s := rfl
  rw [e]
  refine ⟨pageImage (modPage s sl.val (fun p => { p with circuitsOff := true })) sl.val w.page, ?_⟩
  simp [execCloseEnd, hruns, hphase, hsite, hrec, h, getSlate_modPage_same, getSlate_beginBlot, modPage_modPage]

end CloseEnd

/-! Segments copied from HBM (R170, R227). -/

/-- A segment that may be written goes to a reservoir only while its brush is not being zeroed. -/
theorem segReady_settled {s : State} {t : Nat} {g : Seg} (h : segReady s t g = true) (hk : g.kind = 1) :
    (getBrush s (6 * t + g.target)).zeroing = false := by
  simpa [segReady, hk] using h

/-- A line lands in memory where no zeroing holds it back. -/
theorem landSeg_stores {s : State} {t : Nat} {g : Seg} (o : Nat) (bs : List W8)
    (h : g.kind = 1 → (getBrush s (6 * t + g.target)).zeroing = false) :
    landSeg s t g o bs = storeBytes s (segTarget t g + o) bs := by
  unfold landSeg
  dsimp only
  rw [if_neg]
  intro hheld
  simp only [Bool.and_eq_true, decide_eq_true_eq] at hheld
  obtain ⟨hk, hz⟩ := hheld
  exact Bool.false_ne_true ((h hk).symm.trans hz)

/-- The one line of a segment is read from its copy and lands at its target. -/
theorem loadSpan_line {s : State} {t : Nat} {g : Seg} (hlen : g.len = 64)
    (hz : g.kind = 1 → (getBrush s (6 * t + g.target)).zeroing = false) (hpar : parityFind s.parity g.src 64 = none) :
    loadSpan s t g (g.len / 64 + 1) 0 = (storeBytes s (segTarget t g) (loadBytes s g.src 64), true) := by
  rw [hlen]
  simp [loadSpan, hlen, hbmRead_good _ hpar, landSeg_stores 0 _ hz]

/-- A brush where nothing waits performs nothing. -/
theorem performWaiting_none {s : State} {k : Nat} (h : (getBrush s k).waiting = []) :
    performWaiting s k = modBrush s k (fun b => { b with waiting := [] }) := by
  rw [performWaiting, h]
  rfl

/-- A segment of one line whose copy reads well is stored at its target; where nothing waits, no more is. -/
theorem loadSeg_line {s : State} {t : Nat} {g : Seg} (hlen : g.len = 64) (hready : segReady s t g = true)
    (hwait : g.kind = 1 → (getBrush s (6 * t + g.target)).waiting = []) (hok : segRefused s t g = false)
    (hpar : parityFind s.parity g.src 64 = none) :
    ∃ u, loadSeg s t g = (u, true) ∧ u.mem = memWriteN s.mem (segTarget t g) (loadBytes s g.src 64) := by
  have hstore (k : Nat) (f : Brush → Brush) (a : Nat) : (storeBytes (modBrush s k f) a (loadBytes (modBrush s k f) g.src 64)).mem
      = memWriteN s.mem a (loadBytes s g.src 64) := by
    rw [loadBytes, modBrush_mem, ← loadBytes, mem_storeBytes, modBrush_mem]
  unfold loadSeg
  rw [if_neg (by rw [hok]; exact Bool.false_ne_true)]
  split
  · next h =>
    simp only [Bool.and_eq_true, decide_eq_true_eq] at h
    obtain ⟨hkind, -⟩ := h
    rw [performWaiting_none (hwait hkind), loadSpan_line hlen _ _]
    · exact ⟨_, rfl, hstore _ _ _⟩
    · intro _
      rw [getBrush_modBrush_same]
      exact segReady_settled hready hkind
    · exact hpar
  · rw [loadSpan_line hlen (segReady_settled hready) hpar]
    exact ⟨_, rfl, mem_storeBytes s _ _⟩

section Segments
variable {s : State} {sl : Fin 4} {w : Switch} (hruns : slateRuns s sl.val = true) (hswitch : (getSlate s sl.val).pg.switch = some w)
  (hphase : (getSlate s sl.val).pg.phase = .loading) (hshift : (getSlate s sl.val).rodShifting = 0)
include hruns hphase hshift

theorem loading_of : loading s sl.val = true := by
  simp [loading, hruns, hphase, hshift]

include hswitch

/-- Step 3 of a switch: every segment loaded (R227, R232). -/
theorem segmentLoadDone_loads (hclosed : w.closed = true) (hsegs : w.segsDone = false)
    (hblot : blotDone s sl.val (pageImage s sl.val w.page) = true) (hready : w.page.segs.all (segReady s sl.val) = true)
    {u : State} (hload : loadSegs s sl.val w.page.segs = (u, true)) :
    exec (.segmentLoadDone sl) s
      = .next (modPage u sl.val (fun p => { p with switch := p.switch.map (fun w => { w with segsDone := true }) })) := by
  have e : exec (.segmentLoadDone sl) s = execSegmentLoadDone sl s := rfl
  rw [e]
  simp [execSegmentLoadDone, hswitch, loading_of hruns hphase hshift, hclosed, hsegs, hblot, hready, hload]

theorem segmentLoadDone_line {g : Seg} (hclosed : w.closed = true) (hsegs : w.segsDone = false)
    (hblot : blotDone s sl.val (pageImage s sl.val w.page) = true) (hlist : w.page.segs = [g]) (hlen : g.len = 64)
    (hready : segReady s sl.val g = true) (hwait : g.kind = 1 → (getBrush s (6 * sl.val + g.target)).waiting = [])
    (hok : segRefused s sl.val g = false) (hpar : parityFind s.parity g.src 64 = none) :
    ∃ u, exec (.segmentLoadDone sl) s = .next u ∧ u.mem = memWriteN s.mem (segTarget sl.val g) (loadBytes s g.src 64)
      ∧ (getSlate u sl.val).pg.switch = some { w with segsDone := true } := by
  obtain ⟨v, hv, hmem⟩ := loadSeg_line hlen hready hwait hok hpar
  have hload : loadSegs s sl.val w.page.segs = (v, true) := by
    rw [hlist, loadSegs, List.foldl_cons, List.foldl_nil, hv]
    rfl
  have hpg : (getSlate v sl.val).pg.switch = some w := by
    have hsame := (sameJobs_loadSeg s sl.val g).pages sl.val
    rw [hv] at hsame
    exact (congrArg PageState.switch hsame).trans hswitch
  refine ⟨_, segmentLoadDone_loads hruns hswitch hphase hshift hclosed hsegs hblot (by simp [hlist, hready]) hload, hmem, ?_⟩
  rw [getSlate_modPage_pg, hpg]
  rfl

theorem segmentLoadDone_none (hclosed : w.closed = true) (hsegs : w.segsDone = false)
    (hblot : blotDone s sl.val (pageImage s sl.val w.page) = true) (hlist : w.page.segs = []) :
    exec (.segmentLoadDone sl) s
      = .next (modPage s sl.val (fun p => { p with switch := some { w with segsDone := true } })) := by
  have hload : loadSegs s sl.val w.page.segs = (s, true) := by
    rw [hlist]
    rfl
  rw [segmentLoadDone_loads hruns hswitch hphase hshift hclosed hsegs hblot (by simp [hlist]) hload]
  have hsame : modPage s sl.val (fun p => { p with switch := p.switch.map (fun w => { w with segsDone := true }) })
      = modPage s sl.val (fun p => { p with switch := some { w with segsDone := true } }) := by
    simp only [modPage, modSlate, hswitch, Option.map_some]
  rw [hsame]

end Segments

/-! The ruling applied, and the page that then runs (R214, R222, R228, R232, R280 to R282). -/

theorem cores_pairChannels (s : State) : cores (pairChannels s) = cores s := by
  refine foldl_keeps (g := cores) (fun s t => cores_modPage (fun p => ?_)) _ s
  rfl

theorem cores_shutRoutes (s : State) (i : Nat) : cores (shutRoutes s i) = cores s := rfl

theorem cores_recross (old s : State) (t : Nat) : cores (recross old s t) = cores s := by
  unfold recross
  split
  · rfl
  · exact foldl_keeps (g := cores) (fun s i => cores_modBead s i _) _ s

/-- The frame of a ruling that is applied becomes the active one. -/
theorem applyRuling_active (s : State) (t : Nat) (pg : PageDesc) : (getSlate (applyRuling s t pg) t).pg.active = some pg.frame := by
  unfold applyRuling
  extract_lets old img c was now s1 s2 s3 s4 s5 s6 origin circ
  clear_value s1
  have h2 : (cores s2 t).active = some pg.frame := by
    rw [cores, show s2 = modSlate s1 t _ from rfl, getSlate_modSlate_same]
    rfl
  clear_value s2
  have h3 : cores s3 = cores s2 := by
    refine foldl_keeps (g := cores) (fun s i => ?_) _ s2
    dsimp only
    split
    · rfl
    · split
      · rw [cores_modBead, cores_closeAll]
      · rw [cores_modBead]
  clear_value s3
  have h4 : cores s4 = cores s3 := cores_pairChannels s3
  clear_value s4
  have h5 : cores s5 = cores s4 := foldl_keeps (g := cores) cores_shutRoutes _ s4
  clear_value s5
  have h6 : cores s6 = cores s5 := by
    refine foldl_keeps (g := cores) (fun s u => ?_) _ s5
    split
    · rfl
    · exact cores_recross old s u
  clear_value s6
  rw [getSlate_modPage_pg]
  rw [← h3, ← h4, ← h5, ← h6] at h2
  exact h2

theorem cores_applyPorts (s : State) (t : Nat) (pg : PageDesc) : cores (applyPorts s t pg) = cores s :=
  foldl_keeps (g := cores) (fun s _ => cores_modBrush s _ _) _ s

theorem cores_enterOrder (s : State) (k : Nat) (ws : List W32) : cores (enterOrder s k ws).1 = cores s := by
  unfold enterOrder
  dsimp only
  split <;> rfl

theorem cores_pushOrders (s : State) (t : Nat) (pg : PageDesc) : cores (pushOrders s t pg).1 = cores s := by
  refine foldl_keeps (g := fun p : State × Bool => cores p.1) (fun p k => ?_) _ (s, false)
  refine foldl_keeps (g := fun p : State × Bool => cores p.1) (fun p n => ?_) _ p
  exact cores_enterOrder p.1 (6 * t + k) _

theorem cores_writeSched (s : State) (t : Nat) (pg : PageDesc) : cores (writeSched s t pg) = cores s := by
  have h (sched : Sched) (wins : SMap Window) :
      cores (modPage s t (fun p => { p with windows := wins, sched := sched })) = cores s := by
    refine cores_modPage (fun p => ?_)
    rfl
  exact (cores_aux _ _).trans (h _ _)

/-- A page that runs: its number is set, its switch is over, and its ruling stays active. -/
theorem pageRunning_runs (s : State) (t : Nat) (pg : PageDesc) :
    (getSlate (pageRunning s t pg) t).pg.phase = .running ∧ (getSlate (pageRunning s t pg) t).pg.page = pg.number
      ∧ (getSlate (pageRunning s t pg) t).pg.switch = none ∧ (getSlate (pageRunning s t pg) t).pg.active = (getSlate s t).pg.active := by
  unfold pageRunning
  extract_lets s1 nextFrame ticks s2
  have h1 : cores s1 = cores s :=
    foldl_keeps (g := cores) (fun s i => (cores_raiseInt _ i intPage).trans (cores_modBead s i _)) _ s
  have hactive : (getSlate s1 t).pg.active = (getSlate s t).pg.active := by
    simpa [cores, pageCore] using congrArg PageState.active (congrFun h1 t)
  have h2 : (getSlate s2 t).pg = { (getSlate s1 t).pg with
      phase := .running, page := pg.number, switch := none, switchTicks := ticks
      job := (getSlate s1 t).pg.job.map (fun j => { j with page := pg }), load := nextFrame.map (fun f => (f, false)) } :=
    getSlate_modPage_pg s1 t _
  have hend (u : State) (h : getSlate u t = getSlate s2 t) : (getSlate u t).pg.phase = .running ∧ (getSlate u t).pg.page = pg.number
      ∧ (getSlate u t).pg.switch = none ∧ (getSlate u t).pg.active = (getSlate s t).pg.active := by
    rw [h, h2]
    exact ⟨rfl, rfl, rfl, hactive⟩
  split
  · exact hend _ (getSlate_modEntry s2 _ _ t _)
  · exact hend _ rfl

theorem applyPage_runs (s : State) (t : Nat) (pg : PageDesc) :
    (getSlate (applyPage s t pg).1 t).pg.phase = .running ∧ (getSlate (applyPage s t pg).1 t).pg.page = pg.number
      ∧ (getSlate (applyPage s t pg).1 t).pg.active = some pg.frame ∧ (getSlate (applyPage s t pg).1 t).pg.switch = none := by
  have hcores : cores (writeSched (pushOrders (applyPorts (applyRuling s t pg) t pg) t pg).1 t pg) = cores (applyRuling s t pg) := by
    rw [cores_writeSched, cores_pushOrders, cores_applyPorts]
  have hactive := (congrArg PageState.active (congrFun hcores t)).trans (applyRuling_active s t pg)
  obtain ⟨hphase, hnumber, hswitch, hkept⟩ :=
    pageRunning_runs (writeSched (pushOrders (applyPorts (applyRuling s t pg) t pg) t pg).1 t pg) t pg
  exact ⟨hphase, hnumber, hkept.trans hactive, hswitch⟩

section RulingApply
variable {s : State} {sl : Fin 4} {w : Switch} (hruns : slateRuns s sl.val = true) (hswitch : (getSlate s sl.val).pg.switch = some w)
  (hphase : (getSlate s sl.val).pg.phase = .loading) (hshift : (getSlate s sl.val).rodShifting = 0)
  (hsteps : stepsDone s sl.val = true)
include hruns hswitch hphase hshift hsteps

theorem rulingApply_next : exec (.rulingApply sl) s = .next (
    if !strokeFits s sl.val then raiseLate s sl.val
    else if localBars s w.page then s
    else if w.page.evstart then modPage s sl.val (fun p => { p with phase := .ready }) else startPage s sl.val w.page) := by
  have e : exec (.rulingApply sl) s = execRulingApply sl s := rfl
  rw [e, execRulingApply]
  simp only [hswitch, loading_of hruns hphase hshift, hsteps, Bool.and_self, if_true]

theorem rulingApply_starts (hfits : strokeFits s sl.val = true) (hlocal : localBars s w.page = false)
    (hev : w.page.evstart = false) (hlost : (applyPage s sl.val w.page).2 = false) :
    exec (.rulingApply sl) s = .next (applyPage s sl.val w.page).1 := by
  rw [rulingApply_next hruns hswitch hphase hshift hsteps]
  simp [hfits, hlocal, hev, startPage, hlost]

theorem rulingApply_late (hfits : strokeFits s sl.val = false) :
    exec (.rulingApply sl) s = .next (raiseLate s sl.val) := by
  rw [rulingApply_next hruns hswitch hphase hshift hsteps]
  simp [hfits]

end RulingApply

/-- A start raised as LATE changes the stroke unit alone (R301). -/
theorem raiseLate_late (s : State) (t : Nat) :
    (raiseLate s t).stroke.late = true ∧ (raiseLate s t).slates = s.slates ∧ (raiseLate s t).mem = s.mem := by
  refine ⟨?_, rfl, rfl⟩
  simp only [raiseLate, raiseMiss, if_true]
  split <;> rfl

/-- Settles O47: each clause is one event of a page's switch. The page state's core carries the switch through a close, and
the applied frame through the rest of the apply. -/
theorem pageEvents : Obligations.PageEvents := by
  unfold Obligations.PageEvents
  intro s sl frame f bringup img j n p w g t x frameOf image loads hruns
  refine ⟨fun ha hs => ?written, fun h => ?held, fun again h => rulingLoadDone_shadow hruns h,
    fun h => rulingLoadDone_again hruns h, fun hphase hjob hlast hnext hdrained hpage hfreed => ?drained,
    fun hphase hswitch hsite hrec => closeEnd_idle hruns hphase hsite hrec hswitch,
    fun hphase hswitch hsite hrec => ?closed, fun hl hclosed hsegs hblot hlist => ?noSegment,
    fun hl hclosed hsegs hblot hlist hlen hready hwait hok hpar => ?segment, fun hl hsteps hfits hlocal => ?localBar,
    fun hl hsteps hfits hlocal hev => ?ready, fun hl hsteps hfits hlocal hev hlost => ?starts, fun hl hsteps hfits => ?late⟩
  case written =>
    refine ⟨_, (frameWrite_next frame bringup img hruns).trans (congrArg _ (writeFrame_free bringup image ha hs)), ?_,
      fun k hk => ?_, rfl, rfl⟩
    · rw [getSlate_modPage_pg]
      exact mapGet_mapPut_same ..
    · rw [getSlate_modPage_pg]
      exact mapGet_mapPut_ne _ _ _ _ _ hk
  case held => rw [frameWrite_next frame bringup img hruns, writeFrame_held bringup _ h]
  case drained =>
    obtain ⟨u, hu, hcloses⟩ := switchClose_closes s sl.val p
    exact ⟨u, (pageDrained_closes hruns hphase hjob hlast hnext hdrained hpage hfreed).trans (congrArg _ hu), hcloses⟩
  case closed =>
    obtain ⟨image, h⟩ := closeEnd_loading hruns hphase hsite hrec hswitch
    refine ⟨_, h, ?_⟩
    rw [fabricOn, getSlate_beginBlot, getSlate_modPage_pg]
    exact ⟨rfl, Bool.and_false _, rfl⟩
  case noSegment =>
    obtain ⟨hswitch, hphase, hshift⟩ := hl
    exact segmentLoadDone_none hruns hswitch hphase hshift hclosed hsegs hblot hlist
  case segment =>
    obtain ⟨hswitch, hphase, hshift⟩ := hl
    exact segmentLoadDone_line hruns hswitch hphase hshift hclosed hsegs hblot hlist hlen hready hwait hok hpar
  case localBar =>
    obtain ⟨hswitch, hphase, hshift⟩ := hl
    rw [rulingApply_next hruns hswitch hphase hshift hsteps]
    simp [t, hfits, hlocal]
  case ready =>
    obtain ⟨hswitch, hphase, hshift⟩ := hl
    rw [rulingApply_next hruns hswitch hphase hshift hsteps]
    simp [t, hfits, hlocal, hev]
  case starts =>
    obtain ⟨hswitch, hphase, hshift⟩ := hl
    exact ⟨_, rulingApply_starts hruns hswitch hphase hshift hsteps hfits hlocal hev hlost, applyPage_runs s t w.page⟩
  case late =>
    obtain ⟨hswitch, hphase, hshift⟩ := hl
    exact ⟨_, rulingApply_late hruns hswitch hphase hshift hsteps hfits, raiseLate_late s t⟩

end Sys2Proof.Machine

end PageAndRecoveryProofs
